-- ==== Sys2Proof/Word.lean ====
section
/-! DEFINITION. The word types of the model and their plainest arithmetic: bytes, 32-bit registers,
the 72-bit accumulator of a Sezel core, and the sequence arithmetic of 16-bit owner epochs. -/

namespace Sys2Proof

/-- A byte of memory, of a record or of a frame. -/
abbrev Byte := BitVec 8

/-- A 32-bit register or Sezel w or p register. -/
abbrev Word := BitVec 32

/-- A 64-bit register (R58 Table 3.1, R149 Table 6.3). -/
abbrev Word64 := BitVec 64

/-- A 72-bit Sezel accumulator (R213). -/
abbrev Acc := BitVec 72

/-- A byte string: a digest, key, signature, record or frame body (R6). -/
abbrev Bytes := List Byte

/-- A status code of Table 12.9. -/
abbrev Status := BitVec 16

end Sys2Proof
end

