-- ==== Sys2Proof/Config.lean ====
section
/-! DEFINITION. What the spec leaves open: the free values, and the functions of the published standards that the
spec cites without retelling them (Table 0.1), as constants without a body (DESIGN CHOICE, log entries 1 and 14). -/

namespace Sys2Proof.Config

/-- The n-th free value of the model, w bits wide. Nothing constrains it: it stands wherever the spec leaves a value
open (a random value, a reserved encoding's result, a pin nobody drives). -/
opaque freeValue (w n : Nat) : BitVec w

/-- A value that is fused or set in silicon and that the spec does not give (R265): the UnitId, revisions, dates. -/
opaque silicon (w n : Nat) : BitVec w

/-- The functions of published standards the spec cites (R1's Table 0.1), by name only. -/
inductive Fn where
  | sha256
  | sha384
  | sha512
  | sha3x256
  | sha3x512
  | shake256
  | hmacSha384
  | gcmCipher
  | gcmPlain
  | gcmTag
  | ecdsaNonce
  | mldsaPublic
  | mldsaPrivate
  | mldsaSign
  | mlkemPublic
  | mlkemPrivate
  | mlkemCipher
  | mlkemSecret
  /-- CTR_DRBG of SP 800-90A with AES-256 and the derivation function: its three steps, and the state after a generate. -/
  | drbgInstantiate
  | drbgReseed
  | drbgOutput
  | drbgUpdate
  /-- The device identity key pair, Termar's device authority key, and what is fused or set in silicon (R265). -/
  | devicePublic
  | deviceSign
  | authorityKey
  | certSignature
  | authorityDigest
  /-- The vault root key a unit ships with. -/
  | vaultRoot
  deriving DecidableEq, Repr

/-- Byte `i` of the output of `f` on the byte strings `args` (and the numbers `params`): an uninterpreted function. -/
opaque outByte (f : Fn) (params : List Nat) (args : List Bytes) (i : Nat) : Byte

/-- The output of `f` cut to `n` bytes. -/
def out (f : Fn) (n : Nat) (params : List Nat) (args : List Bytes) : Bytes :=
  (List.range n).map (outByte f params args)

/-- The verdicts of the standards' checks: whether a signature verifies, a key is well formed. -/
inductive Check where
  | mldsa
  | mldsaAccepts
  | mlkemKey
  /-- The request of R177. -/
  | deterministic
  /-- The device's and other parties' signatures and certificates. -/
  | p384
  deriving DecidableEq, Repr

/-- The DDR5 address of line `line` of the pool of tenant `tenant`: where a pool lies is not in the manual. -/
opaque poolAddress (tenant line : Nat) : Nat

/-- Whether the check `c` passes on these inputs: an uninterpreted predicate. -/
opaque passes (c : Check) (params : List Nat) (args : List Bytes) : Bool

/-- SHA-256 (FIPS 180-4). -/
def sha256 (m : Bytes) : Bytes := out .sha256 32 [] [m]
/-- SHA-384 (FIPS 180-4). -/
def sha384 (m : Bytes) : Bytes := out .sha384 48 [] [m]
/-- SHA-512 (FIPS 180-4). -/
def sha512 (m : Bytes) : Bytes := out .sha512 64 [] [m]

end Sys2Proof.Config
end

