-- ==== Sys2Proof/Machine/Store.lean ====
section
/-! DEFINITION. Sparse data in canonical form: maps from a number to a value that list only what differs from the
value an unlisted key reads as, in rising order of the keys; memories of bytes as such maps; and byte orders. -/

namespace Sys2Proof.Machine

variable {α : Type}

/-- The value at a key; an unlisted key reads as `d`. -/
def mapGet (d : α) : List (Nat × α) → Nat → α
  | [], _ => d
  | (a, v) :: t, k => if k = a then v else mapGet d t k

/-- Put `v` at a key, keeping the canonical form: writing the value unlisted keys read as removes the entry. -/
def mapSet [DecidableEq α] (d : α) : List (Nat × α) → Nat → α → List (Nat × α)
  | [], k, v => if v = d then [] else [(k, v)]
  | (a, w) :: t, k, v =>
    if k < a then (if v = d then (a, w) :: t else (k, v) :: (a, w) :: t)
    else if k = a then (if v = d then t else (k, v) :: t)
    else (a, w) :: mapSet d t k v

/-- The canonical form: keys strictly rising, no entry equal to what an unlisted key reads as. -/
def MapWf (d : α) : List (Nat × α) → Prop
  | [] => True
  | (k, v) :: t => v ≠ d ∧ (∀ e ∈ t, k < e.1) ∧ MapWf d t

/-- The canonical form as a check. -/
def mapWf [DecidableEq α] (d : α) : List (Nat × α) → Bool
  | [] => true
  | (k, v) :: t => decide (v ≠ d) && t.all (fun e => decide (k < e.1)) && mapWf d t

/-- A memory of bytes: the addresses whose byte is not zero, in rising order. -/
abbrev Memory := List Host.Cell

/-- What an address reads as while nothing is listed there (DESIGN CHOICE, log entry 3). -/
def Memory.unlisted : Byte := 0

/-- The canonical form of a memory. -/
abbrev Memory.wf (m : Memory) : Bool := mapWf Memory.unlisted m

/-- Read one byte. -/
def Memory.read (m : Memory) (a : Nat) : Byte := mapGet Memory.unlisted m a

/-- Write one byte. -/
def Memory.write (m : Memory) (a : Nat) (v : Byte) : Memory := mapSet Memory.unlisted m a v

/-- Read `n` bytes from an address up. -/
def Memory.readBytes (m : Memory) (a : Nat) : Nat → Bytes
  | 0 => []
  | n + 1 => m.read a :: Memory.readBytes m (a + 1) n

/-- Write a byte string from an address up. -/
def Memory.writeBytes (m : Memory) (a : Nat) : Bytes → Memory
  | [] => m
  | b :: bs => (m.write a b).writeBytes (a + 1) bs

/-- A number as `n` little-endian bytes (R4). -/
def le (n v : Nat) : Bytes :=
  match n with
  | 0 => []
  | n + 1 => BitVec.ofNat 8 v :: le n (v / 256)

/-- A number as `n` big-endian bytes (R5). -/
def be (n v : Nat) : Bytes := (le n v).reverse

/-- The number little-endian bytes spell (R4). -/
def ofLe : Bytes → Nat
  | [] => 0
  | b :: bs => b.toNat + 256 * ofLe bs

/-- The number big-endian bytes spell (R5). -/
def ofBe (b : Bytes) : Nat := ofLe b.reverse

/-- The `n` bytes of a string from an offset on, zeros past its end. -/
def slice (b : Bytes) (off n : Nat) : Bytes :=
  let t := (b.drop off).take n
  t ++ List.replicate (n - t.length) 0

/-- The little-endian field of `n` bytes at an offset. -/
def leAt (b : Bytes) (off n : Nat) : Nat := ofLe (slice b off n)

/-- The big-endian field of `n` bytes at an offset. -/
def beAt (b : Bytes) (off n : Nat) : Nat := ofBe (slice b off n)

/-- `b` with zeros appended up to `n` bytes. -/
def padTo (n : Nat) (b : Bytes) : Bytes := b ++ List.replicate (n - b.length) 0

/-- Replace the bytes of `b` from an offset on by `v`, extending with zeros if needed. -/
def splice (b : Bytes) (off : Nat) (v : Bytes) : Bytes :=
  padTo off (b.take off) ++ v ++ b.drop (off + v.length)

/-- Bit `i` of a number. -/
def bitOf (v i : Nat) : Bool := v.testBit i

/-- Bits [hi:lo] of a number. -/
def bitsOf (v hi lo : Nat) : Nat := v / 2 ^ lo % 2 ^ (hi + 1 - lo)

/-- A bit as a number. -/
def b2n (b : Bool) : Nat := if b then 1 else 0

/-- `v` with bit `i` set or cleared. -/
def setBit (v i : Nat) (b : Bool) : Nat :=
  if v.testBit i = b then v else if b then v + 2 ^ i else v - 2 ^ i

/-- The number a list of bits spells, bit 0 first. -/
def ofBits : List Bool → Nat
  | [] => 0
  | b :: bs => b2n b + 2 * ofBits bs

/-- Replace element `i` of a list. -/
def setAt (l : List α) (i : Nat) (f : α → α) : List α :=
  match l, i with
  | [], _ => []
  | x :: t, 0 => f x :: t
  | x :: t, i + 1 => x :: setAt t i f

end Sys2Proof.Machine
end

