-- ==== Sys2Proof/Syntax.lean ====
section
/-! DEFINITION. The commands of the GX8: one constructor of `Instr` per row of spec/opcode_table.json, in the
table's order (the two Sezel rows of its end beside the other Sezel rows), with the row's operands; and the plain data types those operands use. -/

namespace Sys2Proof

/-- A party that reads status or asks the Directory (R18 Table 1.5, R266 Table 11.4). -/
inductive Viewer where
  | tenant (t : Nat)
  | regulator
  | peer (port : Nat)
  | maker
  deriving DecidableEq, Repr

/-- The registers of PCI configuration space that the spec's rules read or that Table 12.1 supports (R287 to R289, R293, R295,
R303). They are the standard's registers; the table has no row of their own for them, so REGISTER_WRITE writes them. -/
inductive ConfigReg where
  /-- Command register: bit 1 Memory Space Enable, bit 2 Bus Master Enable. -/
  | command
  /-- MSI-X Message Control: bit 15 MSI-X Enable, bit 14 Function Mask. -/
  | msixControl
  /-- SR-IOV NumVFs (PF0 only). -/
  | numVfs
  /-- SR-IOV Control (PF0 only): bit 0 VF Enable, bit 3 VF Memory Space Enable. -/
  | vfControl
  /-- Power state: 3 is D3hot, 0 is D0. -/
  | powerState
  /-- Device Control: bits 0 to 3 error reporting, 5 to 7 Max Payload Size, 12 to 14 Max Read Request Size, 15 Initiate
  Function Level Reset; Device Control 2: bits 0 to 3 Completion Timeout Value. -/
  | deviceControl
  | deviceControl2
  /-- AER: Uncorrectable Error Status (write 1 to clear), Mask and Severity. -/
  | aerStatus
  | aerMask
  | aerSeverity
  /-- SR-IOV (PF0 only): InitialVFs and TotalVFs, First VF Offset and VF Stride. -/
  | sriovVfs
  | sriovOffsets
  /-- IDE (PF0 only): control of one of four selective streams (bit 0 Enable, bits 24 to 31 Stream ID), and its status (2 is
  Secure). -/
  | ideControl (stream : Nat)
  | ideStatus (stream : Nat)
  /-- DOE (PF0 only): control (bit 0 Abort, bit 31 Go), status (bit 31 Data Object Ready), the mailboxes. -/
  | doeControl
  | doeStatus
  | doeWrite
  | doeRead
  deriving DecidableEq, Repr

/-- Where a register access goes: a function window or BAR2, the two ways into a register that PF0 reaches twice
(R290), a function's MSI-X table and PBA, or its configuration space. -/
inductive Loc where
  | window (fn : Nat) (offset : Nat)
  | bar2 (offset : Nat)
  | bar4 (fn : Nat) (offset : Nat)
  | config (fn : Nat) (reg : ConfigReg)
  deriving DecidableEq, Repr

/-- What the host has placed in its own memory before a command, and (when given) the address ranges, both ends
included, on which a DMA read now fails (R303); `poisoned`: the register write of the command is a poisoned TLP. -/
structure HostEnv where
  blocks : List (Nat × List (BitVec 8)) := []
  failing : Option (List (Nat × Nat)) := none
  poisoned : Bool := false
  deriving DecidableEq, Repr

/-- One DDR5 channel as Wake step 8 finds it (R133, R134, Table 5.16). -/
structure Channel where
  capGib : Nat
  rate : Nat
  x4 : Bool
  ranks2 : Bool
  supported : Bool
  trained : Bool
  deriving DecidableEq, Repr

/-- A value written to fuses, and whether the burn succeeds (R263). -/
structure Burn (α : Type) where
  value : α
  burnt : Bool
  deriving DecidableEq, Repr

/-- 1,152 samples of a noise source, packed into 144 bytes (R187). -/
structure NoiseSamples where
  source : Nat
  packed : List (BitVec 8)
  deriving DecidableEq, Repr

/-- What a read or the scrub finds wrong with a line of DDR5 (R115, R135): a corrected or an uncorrectable error, the tag
stored for it, or the version or lap its copy was written under; `guard`: the check of R114 finds a difference before the line
is written. -/
inductive LineFault where
  | corrected
  | uncorrectable
  | tag (found : List (BitVec 8))
  | version (v : Nat)
  | guard
  deriving DecidableEq, Repr

/-- A line with what is wrong with it. -/
structure BadLine where
  address : Nat
  fault : LineFault
  deriving DecidableEq, Repr

/-- Operand form of the Sezel ALU rows that exist both as C.RR and as L.ALU (R225, Table 9.12 opcode 0x1A). -/
inductive AluForm where
  | rr (rd rs : Fin 16)
  | r3 (rd ra rb : Fin 16)
  deriving DecidableEq, Repr

/-- Operand form of word loads and stores (R227 C.LS, R229 L.RI and L.MEMP). -/
inductive WordForm where
  | cls (pn : Fin 8) (w : Fin 16) (step : BitVec 4)
  | lri (rd ra : Fin 16) (imm : BitVec 16)
  | memp (rd : Fin 16) (pn : Fin 8) (step : BitVec 12)
  deriving DecidableEq, Repr

/-- Operand form of the halfword, byte and accumulator loads and stores (R229 L.RI and L.MEMP). -/
inductive MemForm where
  | lri (rd ra : Fin 16) (imm : BitVec 16)
  | memp (rd : Fin 16) (pn : Fin 8) (step : BitVec 12)
  deriving DecidableEq, Repr

/-- Operand form of LDA and STA: `rd` names an accumulator (Table 9.12). -/
inductive AccMemForm where
  | lri (acc : Fin 4) (ra : Fin 16) (imm : BitVec 16)
  | memp (acc : Fin 4) (pn : Fin 8) (step : BitVec 12)
  deriving DecidableEq, Repr

/-- Operands of a multiply-accumulate, `wide` for the 32-bit L.MAC form (R227, R231). -/
structure MacForm where
  wide : Bool
  acc : Fin 4
  wa : Fin 16
  wb : Fin 16
  deriving DecidableEq, Repr

/-- Operands of EXT.F, EXT.H and EXT.I (R230). -/
structure ExtForm where
  rd : Fin 16
  acc : Fin 4
  ovr : Bool
  rm : BitVec 2
  sh : BitVec 6
  deriving DecidableEq, Repr

/-- Operands of the L.ACC group (Table 9.14). -/
structure AccForm where
  accd : Fin 4
  acca : Fin 4
  accb : Fin 4
  sh : BitVec 6
  deriving DecidableEq, Repr

/-- Operands of the L.AW group (Table 9.15). -/
structure AwForm where
  accd : Fin 4
  acca : Fin 4
  w : Fin 16
  sh : BitVec 6
  deriving DecidableEq, Repr

/-- The count operand of LOOP: I[20:10], or a w register (Table 9.12 opcode 0x17). -/
inductive LoopCount where
  | imm (n : BitVec 11)
  | reg (w : Fin 16)
  deriving DecidableEq, Repr

/-- Header fields of a Crossing Link frame that arrived on a port (R327 Table 14.2), with the verdict on its tag. -/
structure LinkHdr where
  port : Nat
  vc : Nat
  wentDown : Bool
  creditVc : Nat
  creditCount : Nat
  dest : Nat
  src : Nat
  seq : Nat
  length : Nat
  reqId : Nat
  tagOk : Bool
  deriving DecidableEq, Repr

/-- What a monitor measures (Tables 16.2 and 16.3), on the scale of its trim (R372): a rail's voltage in mV and for how many ns it
has stood there; how far a rail is from its 1 µs average, in mV, and for how long; a clock's averaged deviation in ppm and its
shortest period in percent of nominal; a temperature in degrees Celsius; its change in degrees and the ms that took; a sensor's
photocurrent in pA and for how many ns; whether a shield net differs; VBAT in mV and its fall within 10 µs; the µs without a
crystal edge; or a failed check. -/
inductive Reading where
  | rail (mV ns : Nat)
  | glitch (mV ns : Nat)
  | clock (ppm shortest : Nat)
  | temperature (celsius : Int)
  | rate (change ms : Nat)
  | light (pA ns : Nat)
  | net (differs : Bool)
  | vbat (mV fall : Nat)
  | crystal (us : Nat)
  | check
  deriving DecidableEq, Repr

/-- A monitor (R373) and its reading. -/
structure MonitorReading where
  monitor : Nat
  reading : Reading
  deriving DecidableEq, Repr

/-- Payload fields of a partner's HELLO (R330) with the verdicts on its certificate and signature (DESIGN CHOICE, log entry 15). -/
structure HelloFields where
  unitId : Nat
  fleetId : Nat
  memberId : Nat
  certOk : Bool
  signed : Bool
  sigOk : Bool
  /-- The rest of bytes 0 to 447: what the keys of R330 depend on. -/
  nonce : List (BitVec 8) := []
  ephemeral : List (BitVec 8) := []
  cert : List (BitVec 8) := []
  deriving DecidableEq, Repr

/-- The mirror's answer to a ROLE_OFFER (R334, R338). -/
inductive RoleAnswer where
  | accepted
  | refused
  /-- Another tenant owns the window at the mirror. -/
  | badSlot
  deriving DecidableEq, Repr

/-- A lease range of a slot (R335). -/
structure LeaseRange where
  first : Nat
  last : Nat
  deriving DecidableEq, Repr

/-- A lease in the grant table of a slot: its holder, its range, and the holder's last acknowledged serial (R335, R336). -/
structure GrantFields where
  holder : Nat
  first : Nat
  last : Nat
  acked : Nat
  deriving DecidableEq, Repr

/-- A role state carried by ROLE_OFFER, HANDOVER, SYNC_IMAGE and ROLE_NOTICE frames (R334, R337, R338, R342). -/
structure RoleFields where
  slot : Nat
  roleEpoch : Nat
  home : Nat
  mirror : Nat
  leased : Bool
  mirrored : Bool
  serial : Nat
  leases : List GrantFields
  /-- The rest of the sender's slot image (Table 5.1). -/
  handle : Nat := 0
  official : Nat := 0
  landing : Nat := 0
  digest : List (BitVec 8) := []
  deriving DecidableEq, Repr

/-- Payload of MIRROR_REC (R336). -/
structure MirrorFields where
  slot : Nat
  roleEpoch : Nat
  ownerEpoch : Nat
  serial : Nat
  continuity : List (BitVec 8)
  deriving DecidableEq, Repr

/-- Fields of an OPEN_ACK (Table 13.5) and the verdict on its signature. -/
structure OpenAckFields where
  reelId : Nat
  heldCount : Nat
  heldContinuity : List (BitVec 8)
  recorderKey : List (BitVec 8)
  runOut : Nat
  sigOk : Bool
  /-- The rest of the frame: what the keys of R313 depend on. -/
  ackSeq : Nat := 0
  freeMib : Nat := 0xFFFFFFFF
  nonce : List (BitVec 8) := []
  ephemeral : List (BitVec 8) := []
  signature : List (BitVec 8) := []
  deriving DecidableEq, Repr

/-- Fields of a STATUS frame (Table 13.3) and the verdict on its tag. -/
structure StatusFields where
  reelId : Nat
  statusSeq : Nat
  ackSeq : Nat
  heldCount : Nat
  freeMib : Nat
  stop : Bool
  broken : Bool
  tagOk : Bool
  deriving DecidableEq, Repr

/-- Source of a Yilile datagram: IPv4 address and UDP port (R278). -/
structure NetSrc where
  ip : Nat
  udp : Nat
  deriving DecidableEq, Repr

/-- A 296-byte certificate (R279 Table 11.20). -/
structure Cert where
  role : Nat
  serial : Nat
  notBefore : Nat
  notAfter : Nat
  subject : List (BitVec 8)
  issuerDigest : List (BitVec 8)
  publicKey : List (BitVec 8)
  formatOk : Bool
  sigOk : Bool
  /-- Its 96 bytes, which `sigOk` judges. -/
  signature : List (BitVec 8) := []
  deriving DecidableEq, Repr

/-- Fields of HELLO_C (Table 11.19). -/
structure HelloCFields where
  src : NetSrc
  nonce : List (BitVec 8)
  ephemeral : List (BitVec 8)
  formatOk : Bool
  root : Cert
  signer : Cert
  deriving DecidableEq, Repr

/-- The outcome of an SD command or busy phase, as the card answers it (R352, R353, R358 to R361). -/
inductive CardReply where
  | ok
  | error
  | data (bytes : List (BitVec 8))
  deriving DecidableEq, Repr

/-- What a card reports during initialisation (R349, R352). -/
structure CardFacts where
  cmd8Ok : Bool
  ready : Bool
  ccs : Bool
  s18a : Bool
  supported : Bool
  cmd11Ok : Bool
  modes : List Nat
  /-- The sample taps at which CMD19 passes, one bit each (R353). -/
  taps : Nat
  label : List (BitVec 8)
  /-- The level of SD_WP with this card in the slot (R351). -/
  wp : Bool
  deriving DecidableEq, Repr

/-- What DBG_CORE asks of a Sezel core (R408). -/
inductive CoreOp where
  | halt
  | resume
  | step
  | readW (n : Fin 16)
  | readP (n : Fin 8)
  | readAcc (n : Fin 4)
  | readCsr (n : BitVec 8)
  deriving DecidableEq, Repr

/-- Which copy of a shadowed register a parity mismatch was found in; other registers have one copy (R299). -/
inductive ParityCopy where
  | main
  | active
  deriving DecidableEq, Repr

/-- The commands of the block: one constructor per row of spec/opcode_table.json. The docstring of each names the
rule its row gives; operands are what the outside party or the event brings. `upset` of a Sezel load says that the
SRAM finds an uncorrectable error in the bytes read (MEM_INTEGRITY of Table 9.19). -/
inductive Instr where
  -- power, modes and resets (02, 16, 18)
  | vbatRise
  | vaultLoss
  | mainRailsGood (noise : List Nat)
  | mainRailLoss
  | refclkDetectTimeout
  | islandLock (island : Nat)
  | monitorArm (monitor : Nat)
  | selfTestStart (chans : List Channel) (kat : BitVec 7)
  | firstSeed
  | loadStep (margins : List (Nat × Nat))
  | ledgerSelfTest (verified : Bool)
  | selfTestComplete
  | modeRequestStandby (v : Viewer)
  | modeRequestService (v : Viewer)
  | serviceEntryComplete (env : HostEnv)
  | modeRequestCeremony (v : Viewer)
  | heldRequestExecute
  | restartRequest (v : Viewer) (value : BitVec 32) (noise : List Nat)
  | perstAssert (noise : List Nat)
  | perstRelease
  | functionLevelReset (fn : Nat)
  | flrKeyReunwrap (fn : Nat) (env : HostEnv)
  | vfEnableClear
  | d3hotToD0 (fn : Nat)
  | drainRoleHandover
  | drainLimitExpiry
  | drainComplete (noise : List Nat)
  | vaultModeAlarm (monitors : List MonitorReading)
  | shieldCompare (differing : List Nat)
  -- queues, takes and manifests (03, 04)
  | sqTailDb (loc : Loc) (index : BitVec 16) (env : HostEnv)
  | cqHeadDb (loc : Loc) (index : BitVec 16)
  | qCfgWrite (loc : Loc) (value : BitVec 32)
  | cqStallTimeout (fn q : Nat)
  | descriptorFetch
  | takeReserve (id : Nat)
  | sealTakeArrival (id : Nat)
  | takeDigestComplete (id : Nat)
  | manifestDeadline (mid : Nat)
  | manifestRootComplete (mid : Nat)
  | manifestSigningComplete (mid : Nat) (ecEnd mlEnd : BitVec 16)
  | individualSignComplete (id : Nat) (fin : BitVec 16)
  | individualVerifyComplete (id : Nat) (fin : BitVec 16)
  | resultTimeout (id : Nat)
  | takeLanding (id : Nat) (compareEqual : Bool)
  | journalSignComplete (id : Nat)
  -- Device Time and gates (03)
  | timeCorrection (v : Viewer) (c : BitVec 64)
  | slewAbsorbed
  | timebaseCompare (rtcAdvance : Nat)
  | deviceTimeSet (v : Viewer) (t : BitVec 64)
  | timeFloorAdvance
  | timebaseTick (ns : Nat)
  | gateCloseTimeWrite (v : Viewer) (gate : Nat) (time : BitVec 64)
  | gateOwnerWrite (v : Viewer) (gate : Nat) (owner : BitVec 8)
  -- Counter Ledger and protected memory (05)
  | windowOwnerWrite (v : Viewer) (w : Nat) (owner : BitVec 8)
  | windowReassignComplete (w : Nat)
  | slotApply (v : Viewer) (tenant : Nat)
  | slotReopen (tenant : Nat)
  | checkpointStart
  | checkpointCommit
  | tapConsumedWrite (v : Viewer) (value : BitVec 64)
  | tapWriteFault
  | tapRingApply
  | stow
  | pwrfailRelease
  | recoveryStart (v : Viewer) (env : HostEnv)
  | rebuildStart (env : HostEnv)
  | recoveryComplete
  | recoveryWaitExpiry
  | memoryScrub (bad : List BadLine)
  -- Long-Integer Engines (06)
  | liEngineOwnerWrite (v : Viewer) (e : Nat) (owner : BitVec 8)
  | ecdsaSign (loc : Loc) (env : HostEnv)
  | ecdsaVerify (loc : Loc) (env : HostEnv)
  | eddsaSign (loc : Loc) (env : HostEnv)
  | eddsaVerify (loc : Loc) (env : HostEnv)
  | ecdh (loc : Loc) (env : HostEnv)
  | ecKeygen (loc : Loc) (env : HostEnv)
  | ecPointCheck (loc : Loc) (env : HostEnv)
  | rsaPrivate (loc : Loc) (env : HostEnv)
  | rsaPublic (loc : Loc) (env : HostEnv)
  | curveLoad (loc : Loc) (env : HostEnv)
  | curveUnload (loc : Loc) (env : HostEnv)
  | abort (loc : Loc)
  | lieCommandComplete (e : Nat) (faultCheck : Bool)
  | liUcodeLoad (v : Viewer) (value : BitVec 32) (env : HostEnv)
  | ucodeLoadDone (katOk : Bool)
  | liUcodeMinVersionWrite (v : Viewer) (value : Burn (BitVec 32))
  -- Lattice Units (07)
  | latticeSignRound (u : Nat)
  | latticeOpComplete (u : Nat) (checkFailed : Bool)
  -- entropy and DRBG (08)
  | entropyHealthFail (sources : List Nat) (test : BitVec 8)
  | sourceRestart (failed : List Nat)
  | entropyDeliveryResume
  | enLatchClear (v : Viewer) (value : BitVec 32) (failed : List Nat)
  | conditioningBlock (block : NoiseSamples)
  | drbgReseedCount (n : Nat)
  | drbgReseedInterval (n : Nat)
  | drbgReinstantiate (n : Nat)
  | rngDataRead (loc : Loc) (size : Nat)
  | rngFifoRefill (fn : Nat)
  | drawSeedReady
  -- Sezel instructions (09)
  | mov (core : Nat) (rd rs : Fin 16)
  | add (core : Nat) (f : AluForm)
  | sub (core : Nat) (f : AluForm)
  | and (core : Nat) (f : AluForm)
  | or (core : Nat) (f : AluForm)
  | xor (core : Nat) (f : AluForm)
  | shl (core : Nat) (f : AluForm)
  | shr (core : Nat) (f : AluForm)
  | sra (core : Nat) (f : AluForm)
  | cmp (core : Nat) (rd rs : Fin 16)
  | neg (core : Nat) (rd rs : Fin 16)
  | not (core : Nat) (rd rs : Fin 16)
  | mul (core : Nat) (f : AluForm)
  | fadd (core : Nat) (f : AluForm)
  | fsub (core : Nat) (f : AluForm)
  | fmul (core : Nat) (f : AluForm)
  | fmul16 (core : Nat) (f : AluForm)
  | abs (core : Nat) (rd rs : Fin 16)
  | min (core : Nat) (f : AluForm)
  | max (core : Nat) (f : AluForm)
  | movp (core : Nat) (pd : Fin 8) (rs : Fin 16)
  | movw (core : Nat) (rd : Fin 16) (ps : Fin 8)
  | jr (core : Nat) (rs : Fin 16)
  | sxth (core : Nat) (rd rs : Fin 16)
  | zxth (core : Nat) (rd rs : Fin 16)
  | movi (core : Nat) (rd : Fin 16) (imm : BitVec 7)
  | addi (core : Nat) (rd : Fin 16) (imm : BitVec 7)
  | cmpi (core : Nat) (rd : Fin 16) (imm : BitVec 7)
  | shli (core : Nat) (rd : Fin 16) (imm : BitVec 5)
  | shri (core : Nat) (rd : Fin 16) (imm : BitVec 5)
  | srai (core : Nat) (rd : Fin 16) (imm : BitVec 5)
  | andi (core : Nat) (rd : Fin 16) (imm : BitVec 7)
  | addp (core : Nat) (pd : Fin 8) (imm : BitVec 7)
  | ldw (core : Nat) (f : WordForm) (upset : Bool)
  | stw (core : Nat) (f : WordForm)
  | macF (core : Nat) (f : MacForm)
  | msuF (core : Nat) (f : MacForm)
  | mpyF (core : Nat) (f : MacForm)
  | macI (core : Nat) (f : MacForm)
  | nop (core : Nat)
  | ret (core : Nat) (upset : Bool)
  | wait (core : Nat)
  | waitResume (core : Nat)
  | clra (core : Nat) (acc : Fin 4)
  | mova (core : Nat) (accd accs : Fin 4)
  | nega (core : Nat) (accd accs : Fin 4)
  | lpclr (core : Nat) (level : Fin 3)
  | fence (core : Nat)
  | halt (core : Nat) (code : BitVec 8)
  | bkpt (core : Nat)
  | cB (core : Nat) (cond : BitVec 4) (offset : BitVec 8)
  | bL (core : Nat) (cond : BitVec 4) (offset : BitVec 20)
  | addi32 (core : Nat) (rd ra : Fin 16) (imm : BitVec 16)
  | andi32 (core : Nat) (rd ra : Fin 16) (imm : BitVec 16)
  | ori (core : Nat) (rd ra : Fin 16) (imm : BitVec 16)
  | xori (core : Nat) (rd ra : Fin 16) (imm : BitVec 16)
  | lui (core : Nat) (rd : Fin 16) (imm : BitVec 16)
  | cmpi32 (core : Nat) (ra : Fin 16) (imm : BitVec 16)
  | muli (core : Nat) (rd ra : Fin 16) (imm : BitVec 16)
  | ldh (core : Nat) (f : MemForm) (upset : Bool)
  | ldhu (core : Nat) (f : MemForm) (upset : Bool)
  | sth (core : Nat) (f : MemForm)
  | ldb (core : Nat) (f : MemForm) (upset : Bool)
  | ldbu (core : Nat) (f : MemForm) (upset : Bool)
  | stb (core : Nat) (f : MemForm)
  | lda (core : Nat) (f : AccMemForm) (upset : Bool)
  | sta (core : Nat) (f : AccMemForm)
  | lrW (core : Nat) (rd : Fin 16) (pn : Fin 8) (upset : Bool)
  | scW (core : Nat) (rd : Fin 16) (pn : Fin 8) (ws : Fin 16)
  | adr (core : Nat) (rd : Fin 16) (offset : BitVec 20)
  | call (core : Nat) (rt : Fin 16) (mask : BitVec 16)
  | loop (core : Nat) (level : Fin 3) (count : LoopCount) (e : BitVec 10)
  | csrr (core : Nat) (rd : Fin 16) (csr : BitVec 8)
  | csrw (core : Nat) (rs : Fin 16) (csr : BitVec 8)
  | extF (core : Nat) (f : ExtForm)
  | extH (core : Nat) (f : ExtForm)
  | extI (core : Nat) (f : ExtForm)
  | extRaw (core : Nat) (rd : Fin 16) (acc : Fin 4) (sh : BitVec 6)
  | adda (core : Nat) (f : AccForm)
  | suba (core : Nat) (f : AccForm)
  | diva (core : Nat) (f : AccForm)
  | rema (core : Nat) (f : AccForm)
  | rndm (core : Nat) (f : AccForm)
  | shla (core : Nat) (f : AccForm)
  | sraa (core : Nat) (f : AccForm)
  | cmpa (core : Nat) (f : AccForm)
  | mulm (core : Nat) (f : AwForm)
  | addw (core : Nat) (f : AwForm)
  | movwa (core : Nat) (f : AwForm)
  | insh (core : Nat) (f : AwForm)
  | insl (core : Nat) (f : AwForm)
  | msuI (core : Nat) (f : MacForm)
  | mpyI (core : Nat) (f : MacForm)
  | macH (core : Nat) (f : MacForm)
  | msuH (core : Nat) (f : MacForm)
  | mpyH (core : Nat) (f : MacForm)
  | macU (core : Nat) (f : MacForm)
  | svc (core : Nat) (n : BitVec 8)
  | reservedEncoding (core : Nat) (wide : Bool)
  -- applets, mailboxes and services (10)
  | appletLoad (v : Viewer) (value : BitVec 32) (env : HostEnv)
  | appletInstall (t : Nat)
  | appletUnload (v : Viewer) (slot : BitVec 8)
  | mbInTailDb (loc : Loc) (index : BitVec 16) (env : HostEnv)
  | mbOutHeadDb (loc : Loc) (index : BitVec 16)
  | mbCfgWrite (loc : Loc) (value : BitVec 32)
  | mbInboundCopy (slot : Nat)
  | mbOutboundCopy (slot : Nat)
  | random (core : Nat)
  | hash (core : Nat)
  | lie (core : Nat)
  | latticeKeygen (core : Nat)
  | latticeSign (core : Nat)
  | latticeVerify (core : Nat)
  | latticeEncaps (core : Nat)
  | latticeDecaps (core : Nat)
  | drawClaim (core : Nat)
  | drawCommit (core : Nat)
  | drawCommitAck
  | drawRelease (core : Nat)
  | sealRecord (core : Nat)
  | statsPublish (core : Nat)
  -- Parameter Directory (11)
  | mbxGo (loc : Loc) (env : HostEnv)
  | read (v : Viewer) (tenant : BitVec 8) (index : BitVec 16) (sub : BitVec 8) (offset length : BitVec 32)
  | write (v : Viewer) (tenant : BitVec 8) (index : BitVec 16) (sub : BitVec 8) (part : Bool) (offset : BitVec 32)
      (value : List (BitVec 8)) (env : HostEnv)
  | describe (v : Viewer) (tenant : BitVec 8) (index : BitVec 16) (sub : BitVec 8)
  | next (v : Viewer) (tenant : BitVec 8) (index : BitVec 16) (sub : BitVec 8)
  | stagingTimeout (v : Viewer)
  -- Supervisory Port (11)
  | helloC (h : HelloCFields)
  | finishC (src : NetSrc) (sid : Nat) (tagOk sigOk : Bool)
  | halfOpenTimeout
  | yilileData (src : NetSrc) (sid seq : Nat) (tagOk : Bool) (plain : List (BitVec 8))
  | yilileClose (src : NetSrc) (sid seq : Nat) (tagOk : Bool)
  | sessionIdleTimeout
  | spLinkDownTimeout
  | arpRequest (senderIp senderMac targetIp : Nat)
  | arpCacheExpiry (ip : Nat)
  | icmpEcho (srcIp dstIp : Nat) (payload : List (BitVec 8))
  | phyPoll (reg1 : Option (BitVec 16)) (speed : Nat)
  | mdioRead (phyad regad : BitVec 5)
  | mdioWrite (phyad regad : BitVec 5) (data : BitVec 16)
  | spEnableWrite (v : Viewer) (value : BitVec 8)
  | spRootDigestWrite (v : Viewer) (digest : Burn (List (BitVec 8)))
  -- register conventions (12)
  | registerWrite (v : Viewer) (loc : Loc) (size : Nat) (value : BitVec 64) (env : HostEnv)
  | rcRead (v : Viewer) (loc : Loc) (size : Nat)
  | blockLockWrite (v : Viewer) (value : BitVec 32)
  | parityScan (found : Option (Loc × ParityCopy))
  | msixUnmask (fn vector : Nat)
  -- key handles (12)
  | keyGenerate (v : Viewer) (tenant : BitVec 8) (value : BitVec 32)
  | keyImport (v : Viewer) (tenant : BitVec 8) (value : BitVec 32)
  | keyOpComplete (checkFailed : Bool)
  | keyDelete (v : Viewer) (tenant : BitVec 8) (value : BitVec 32)
  | keyPublicRead (v : Viewer) (tenant : BitVec 8)
  | keyAttestationRead (v : Viewer) (tenant : BitVec 8)
  | journalKeyAttestationRead (v : Viewer)
  -- Escrow Line (13)
  | reelOpen (v : Viewer) (value : BitVec 32) (env : HostEnv)
  | openAck (f : OpenAckFields)
  | recorderRefuse (reelId : Nat)
  | openTimeout
  | pickupVerified
  | pickupWaive (v : Viewer) (value : BitVec 32)
  | reelFrameTick
  | statusFrame (f : StatusFields)
  | statusLimitExpiry
  | ackLimitExpiry
  | stallRecovery
  | reelBufferResume
  | reelStop (v : Viewer) (value : BitVec 32)
  | reelEndAppend
  -- Crossing Links and Fleet (14)
  | portLanesLocked (p : Nat)
  | trainingTimeout (p : Nat)
  | keyingTimeout (p : Nat)
  | keyingRetry (p : Nat)
  | hello (p : Nat) (h : HelloFields)
  | linkIdleTimeout (p : Nat)
  | creditTick (p : Nat)
  | credit (h : LinkHdr)
  | creditStallTimer (p vc : Nat)
  | linkRequestResend (reqId : Nat)
  | linkFrameForward (h : LinkHdr) (type : Nat) (payload : List (BitVec 8))
  | leaseReq (h : LinkHdr) (slot : Nat)
  | leaseGrant (h : LinkHdr) (slot : Nat) (range : LeaseRange)
  | roleOffer (h : LinkHdr) (r : RoleFields) (tenant : Nat)
  | roleAnswer (h : LinkHdr) (answer : RoleAnswer)
  | roleOfferTimeout
  | roleApply (v : Viewer) (value : BitVec 8)
  | mirrorRec (h : LinkHdr) (m : MirrorFields)
  | mirrorAck (h : LinkHdr) (slot roleEpoch serial : Nat)
  | mirrorRefuse (h : LinkHdr) (slot roleEpoch serial : Nat)
  | mirrorTimeoutExpiry (id : Nat)
  | syncReqTick (slot : Nat)
  | syncReq (h : LinkHdr) (r : RoleFields)
  | syncImage (h : LinkHdr) (r : RoleFields)
  | roleNotice (h : LinkHdr) (slot roleEpoch : Nat)
  | handover (h : LinkHdr) (r : RoleFields)
  | release (h : LinkHdr) (slots : List Nat)
  | leaseReturn (h : LinkHdr) (slot : Nat) (range : LeaseRange)
  | heartbeatTick
  | heartbeat (h : LinkHdr)
  | memberLoss (m : Nat)
  | takeoverComplete (slot : Nat)
  | dirReq (h : LinkHdr) (request : List (BitVec 8))
  | dirResp (h : LinkHdr) (response : List (BitVec 8))
  | ceremonyClaim (h : LinkHdr) (unitId : Nat)
  | claimAnswer (h : LinkHdr) (granted : Bool)
  | ceremonyClaimTimeout
  | ceremonyEnd (h : LinkHdr)
  | memberUnitIdWrite (v : Viewer) (m : Nat) (unitId : BitVec 64)
  | fleetEnableWrite (v : Viewer) (value : BitVec 8)
  -- Custodian Card Host (15)
  | cardInsertion (facts : CardFacts)
  | cardCommandComplete (reply : CardReply)
  | cardRemoval
  | cardTimeout
  | cardRetuneTimer (low high : Nat)
  | cardTempPoll (temperature : Int) (low high : Nat)
  | cardRead (v : Viewer) (value : BitVec 32)
  | cardWrite (v : Viewer) (value : BitVec 32)
  | cardFormat (v : Viewer) (value : BitVec 32)
  | chCfgWrite (value : BitVec 32)
  -- Tamper and Environment Guard (16)
  | eraseAlarm (monitor : MonitorReading)
  | holdAlarm (monitor : MonitorReading)
  | monitorWarning (monitor : MonitorReading)
  | coalescingWindowClose
  | holdSourceInRange (source : Nat)
  | postEraseAlarm (monitor : MonitorReading)
  | gangwayRekeyed (g : Nat)
  | evidenceWriteDone
  | tamperEraseFusedWrite (v : Viewer) (value : Burn (BitVec 32))
  | tamperGroupDisableWrite (v : Viewer) (value : Burn (BitVec 32))
  | evidenceArchiveMarkWrite (v : Viewer) (value : BitVec 32)
  | evidenceHeadSignatureRead (v : Viewer)
  | reprovision (v : Viewer) (value : BitVec 32)
  | reprovisionComplete
  -- life cycle, debug authority and JTAG (17)
  | lcRequest (v : Viewer) (value : BitVec 8)
  | lcXfer (value : BitVec 32)
  | lcBurnComplete
  | lcCertGo (value : BitVec 32) (env : HostEnv)
  | certCheck
  | debugChallengeIssue (v : Viewer) (value : BitVec 32)
  | debugResponseSubmit (v : Viewer) (value : BitVec 32) (env : HostEnv)
  | tapReset
  | extest (drive : List Bool)
  | samplePreload (pins preload : List Bool)
  | idcode
  | clamp
  | lcStatus
  | lcAuth (cert : List (BitVec 8))
  | dbgReg (shift : BitVec 97)
  | dbgDir (request : List (BitVec 8))
  | dbgCore (core : Nat) (op : CoreOp)
  | dbgScan
  | bypass
  -- rows added at the table's end
  | escrowLaneBlockLock (lane : Nat) (locked : Bool)
  | uncorrectableCodeword (escrow : Bool) (lane : Nat)
  | spRxError
  | yilileRecordDiscard
  | linkFrameDiscard (h : LinkHdr) (type : Nat)
  | mdioOperationDone (answer : Option (BitVec 16))
  | referenceDetect (r : Nat)
  | referenceStop (r : Nat)
  | gangwayAuthenticationFailure (g : Nat)
  deriving DecidableEq, Repr

end Sys2Proof
end

