-- ==== Sys2Proof/Decode.lean ====
section
/-! DEFINITION. Decoding: the Sezel instruction that a word holds (R223 to R231, R236, Tables 9.7 to 9.15), and the command that a
word spells. The rows of spec/opcode_table.json give no bits; those of the Sezel rows are the tables' (DESIGN CHOICE, log entry 10). -/

namespace Sys2Proof

open Machine

/-- A register number in bits [lo+3:lo], an address register in [lo+2:lo], an accumulator in [lo+1:lo]. -/
def wField (v lo : Nat) : Fin 16 := Fin.ofNat 16 (bitsOf v (lo + 3) lo)
def pField (v lo : Nat) : Fin 8 := Fin.ofNat 8 (bitsOf v (lo + 2) lo)
def accField (v lo : Nat) : Fin 4 := Fin.ofNat 4 (bitsOf v (lo + 1) lo)

/-- The operations that C.RR and L.ALU share (Table 9.8, opcode 0x1A of Table 9.12). -/
def aluOp : Nat → Option (Nat → AluForm → Instr)
  | 0x01 => some .add
  | 0x02 => some .sub
  | 0x03 => some .and
  | 0x04 => some .or
  | 0x05 => some .xor
  | 0x06 => some .shl
  | 0x07 => some .shr
  | 0x08 => some .sra
  | 0x0C => some .mul
  | 0x0D => some .fadd
  | 0x0E => some .fsub
  | 0x0F => some .fmul
  | 0x10 => some .fmul16
  | 0x12 => some .min
  | 0x13 => some .max
  | _ => none

/-- C.RR (Table 9.8). -/
def decodeRR (core h : Nat) : Option Instr :=
  let rd := wField h 4
  let rs := wField h 0
  match bitsOf h 13 8 with
  | 0x00 => some (.mov core rd rs)
  | 0x09 => some (.cmp core rd rs)
  | 0x0A => some (.neg core rd rs)
  | 0x0B => some (.not core rd rs)
  | 0x11 => some (.abs core rd rs)
  | 0x14 => if bitOf h 7 then none else some (.movp core (pField h 4) rs)
  | 0x15 => if bitOf h 3 then none else some (.movw core rd (pField h 0))
  | 0x16 => if rd = 0 then some (.jr core rs) else none
  | 0x17 => some (.sxth core rd rs)
  | 0x18 => some (.zxth core rd rs)
  | op => (aluOp op).map fun c => c core (.rr rd rs)

/-- C.RI (Table 9.9). -/
def decodeRI (core h : Nat) : Option Instr :=
  let rd := wField h 7
  let imm := BitVec.ofNat 7 h
  let shift := fun (c : Nat → Fin 16 → BitVec 5 → Instr) =>
    if bitsOf h 6 5 = 0 then some (c core rd (BitVec.ofNat 5 h)) else none
  match bitsOf h 13 11 with
  | 0 => some (.movi core rd imm)
  | 1 => some (.addi core rd imm)
  | 2 => some (.cmpi core rd imm)
  | 3 => shift .shli
  | 4 => shift .shri
  | 5 => shift .srai
  | 6 => some (.andi core rd imm)
  | _ => if bitOf h 10 then none else some (.addp core (pField h 7) imm)

/-- The multiply-accumulate operations (Tables 9.10 and 9.15). -/
def macOp : Nat → Option (Nat → MacForm → Instr)
  | 0x0 => some .macF
  | 0x1 => some .msuF
  | 0x2 => some .mpyF
  | 0x3 => some .macI
  | 0x4 => some .msuI
  | 0x5 => some .mpyI
  | 0x6 => some .macH
  | 0x7 => some .msuH
  | 0x8 => some .mpyH
  | 0x9 => some .macU
  | _ => none

/-- C.MISC (Table 9.10). -/
def decodeMisc (core h : Nat) : Option Instr :=
  let arg := bitsOf h 7 0
  let plain := fun (i : Instr) => if arg = 0 then some i else none
  match bitsOf h 11 8 with
  | 0x0 => plain (.nop core)
  | 0x1 => plain (.ret core false)
  | 0x2 => some (.svc core (BitVec.ofNat 8 arg))
  | 0x3 => plain (.wait core)
  | 0x4 => if arg < 4 then some (.clra core (accField h 0)) else none
  | 0x5 => if arg < 16 then some (.mova core (accField h 2) (accField h 0)) else none
  | 0x6 => if arg < 16 then some (.nega core (accField h 2) (accField h 0)) else none
  | 0x7 => if arg < 3 then some (.lpclr core (Fin.ofNat 3 arg)) else none
  | 0x8 => plain (.fence core)
  | 0x9 => some (.halt core (BitVec.ofNat 8 arg))
  | 0xA => plain (.bkpt core)
  | _ => none

/-- A 16-bit instruction (Table 9.7); none where the encoding is reserved, or begins a 32-bit instruction. -/
def decode16 (core h : Nat) : Option Instr :=
  match bitsOf h 15 14 with
  | 0 => decodeRR core h
  | 1 => decodeRI core h
  | 2 =>
    match bitsOf h 13 12 with
    | 0 =>
      let f := WordForm.cls (pField h 8) (wField h 4) (BitVec.ofNat 4 h)
      some (if bitOf h 11 then .stw core f else .ldw core f false)
    | 1 => if bitsOf h 11 8 = 15 then none else some (.cB core (BitVec.ofNat 4 (h / 256)) (BitVec.ofNat 8 h))
    | 2 => (macOp (bitsOf h 9 8)).map fun c => c core { wide := false, acc := accField h 10, wa := wField h 4, wb := wField h 0 }
    | _ => decodeMisc core h
  | _ => none

/-- The memory accesses, numbered as the kinds of L.MEMP (Table 9.12). -/
def memOp (core kind : Nat) (w : WordForm) (m : MemForm) (a : Option AccMemForm) : Option Instr :=
  match kind with
  | 0x0 => some (.ldw core w false)
  | 0x1 => some (.stw core w)
  | 0x2 => some (.ldh core m false)
  | 0x3 => some (.ldhu core m false)
  | 0x4 => some (.sth core m)
  | 0x5 => some (.ldb core m false)
  | 0x6 => some (.ldbu core m false)
  | 0x7 => some (.stb core m)
  | 0x8 => a.map fun f => .lda core f false
  | 0x9 => a.map fun f => .sta core f
  | _ => none

/-- L.EXT (R230, Table 9.13). -/
def decodeExt (core i : Nat) : Option Instr :=
  let sh := bitsOf i 12 7
  let f : ExtForm :=
    { rd := wField i 20, acc := accField i 18, ovr := bitOf i 15, rm := BitVec.ofNat 2 (i / 2 ^ 13), sh := BitVec.ofNat 6 sh }
  if bitsOf i 6 0 ≠ 0 then none
  else match bitsOf i 17 16 with
    | 0 => if sh = 0 then some (.extF core f) else none
    | 1 => if sh = 0 then some (.extH core f) else none
    | 2 => some (.extI core f)
    | _ => if sh = 0 || sh = 32 || sh = 40 then some (.extRaw core f.rd f.acc f.sh) else none

/-- L.ACC (Table 9.14): a field that an operation does not use is zero (R231). -/
def decodeAcc (core i : Nat) : Option Instr :=
  let sh := bitsOf i 11 6
  let accb := bitsOf i 19 18
  let f : AccForm := { accd := accField i 22, acca := accField i 20, accb := accField i 18, sh := BitVec.ofNat 6 sh }
  let pair := fun (c : Nat → AccForm → Instr) => if sh = 0 then some (c core f) else none
  let shift := fun (c : Nat → AccForm → Instr) => if accb = 0 then some (c core f) else none
  if bitsOf i 5 0 ≠ 0 then none
  else match bitsOf i 17 12 with
    | 0x00 => pair .adda
    | 0x01 => pair .suba
    | 0x02 => pair .diva
    | 0x03 => pair .rema
    | 0x04 => pair .rndm
    | 0x05 => shift .shla
    | 0x06 => shift .sraa
    | 0x07 => if f.accd = 0 then pair .cmpa else none
    | _ => none

/-- L.AW (Table 9.15). -/
def decodeAw (core i : Nat) : Option Instr :=
  let sh := bitsOf i 11 6
  let f : AwForm := { accd := accField i 22, acca := accField i 20, w := wField i 16, sh := BitVec.ofNat 6 sh }
  let alone := fun (c : Nat → AwForm → Instr) => if sh = 0 && f.acca = 0 then some (c core f) else none
  if bitsOf i 5 0 ≠ 0 then none
  else match bitsOf i 15 12 with
    | 0x0 => if sh = 0 then some (.mulm core f) else none
    | 0x1 => some (.addw core f)
    | 0x2 => alone .movwa
    | 0x3 => alone .insh
    | 0x4 => alone .insl
    | _ => none

/-- LOOP (R236): level 3 and E = 0 are reserved. -/
def decodeLoop (core i : Nat) : Option Instr :=
  let level := bitsOf i 23 22
  if level = 3 || bitsOf i 9 0 = 0 then none
  else if bitOf i 21 then
    if bitsOf i 20 14 = 0 then some (.loop core (Fin.ofNat 3 level) (.reg (wField i 10)) (BitVec.ofNat 10 i)) else none
  else some (.loop core (Fin.ofNat 3 level) (.imm (BitVec.ofNat 11 (i / 1024))) (BitVec.ofNat 10 i))

/-- L.RI but for the memory accesses (opcodes 0x00 to 0x06). -/
def decodeImm (core i : Nat) : Option Instr :=
  let rd := wField i 20
  let ra := wField i 16
  let imm := BitVec.ofNat 16 i
  match bitsOf i 29 24 with
  | 0x00 => some (.addi32 core rd ra imm)
  | 0x01 => some (.andi32 core rd ra imm)
  | 0x02 => some (.ori core rd ra imm)
  | 0x03 => some (.xori core rd ra imm)
  | 0x04 => if ra = 0 then some (.lui core rd imm) else none
  | 0x05 => if rd = 0 then some (.cmpi32 core ra imm) else none
  | _ => some (.muli core rd ra imm)

/-- A 32-bit instruction, its first halfword in bits [31:16] (Table 9.12); none where the encoding is reserved. -/
def decode32 (core i : Nat) : Option Instr :=
  let op := bitsOf i 29 24
  let rd := wField i 20
  let accOf := fun (f : AccMemForm) => if bitsOf i 23 22 = 0 then some f else none
  if op ≤ 0x06 then decodeImm core i
  else if op ≤ 0x10 then
    let imm := BitVec.ofNat 16 i
    memOp core (op - 7) (.lri rd (wField i 16) imm) (.lri rd (wField i 16) imm) (accOf (.lri (accField i 20) (wField i 16) imm))
  else match op with
    | 0x11 =>
      let step := BitVec.ofNat 12 i
      if bitOf i 19 then none
      else memOp core (bitsOf i 15 12) (.memp rd (pField i 16) step) (.memp rd (pField i 16) step)
        (accOf (.memp (accField i 20) (pField i 16) step))
    | 0x12 => if bitOf i 19 || bitsOf i 15 0 ≠ 0 then none else some (.lrW core rd (pField i 16) false)
    | 0x13 => if bitOf i 19 || bitsOf i 11 0 ≠ 0 then none else some (.scW core rd (pField i 16) (wField i 12))
    | 0x14 => if rd = 15 then none else some (.bL core (BitVec.ofNat 4 (i / 2 ^ 20)) (BitVec.ofNat 20 i))
    | 0x15 => some (.adr core rd (BitVec.ofNat 20 i))
    | 0x16 => if bitsOf i 19 16 = 0 then some (.call core rd (BitVec.ofNat 16 i)) else none
    | 0x17 => decodeLoop core i
    | 0x18 => if bitsOf i 19 8 = 0 then some (.csrr core rd (BitVec.ofNat 8 i)) else none
    | 0x19 => if rd = 0 && bitsOf i 15 8 = 0 then some (.csrw core (wField i 16) (BitVec.ofNat 8 i)) else none
    | 0x1A =>
      if bitsOf i 5 0 ≠ 0 then none
      else (aluOp (bitsOf i 11 6)).map fun c => c core (.r3 rd (wField i 16) (wField i 12))
    | 0x1B => decodeExt core i
    | 0x1C => decodeAcc core i
    | 0x1D => decodeAw core i
    | 0x1E =>
      if bitsOf i 21 20 ≠ 0 || bitsOf i 7 0 ≠ 0 then none
      else (macOp (bitsOf i 11 8)).map fun c => c core { wide := true, acc := accField i 22, wa := wField i 16, wb := wField i 12 }
    | _ => none

/-- The instruction that core `core` executes for an encoding of `size` bytes: a reserved one is RESERVED_ENCODING (R243). -/
def sezelInstr (core size bits : Nat) : Instr :=
  (if size = 4 then decode32 core bits else decode16 core bits).getD (.reservedEncoding core (size = 4))

/-- The command that a word spells: a Sezel instruction, of core 0, whose first halfword is the low one. A word of another width
spells none, nor does one whose first halfword says another width (R223). -/
def decodeTableWord (nbits w : Nat) : Option Instr :=
  let first := w % 65536
  let wide := decide (bitsOf first 15 14 = 3)
  if nbits = 16 && !wide then some (sezelInstr 0 2 first)
  else if nbits = 32 && wide then some (sezelInstr 0 4 (first * 65536 + w / 65536 % 65536))
  else none

end Sys2Proof
end

