-- ==== Sys2Proof/Machine/State.lean ====
section
/-! DEFINITION. The state of the GX8: every register, counter, table, queue, memory, mode and pin the spec gives it,
one structure per subsystem, and the state as manufactured, without power. -/

namespace Sys2Proof.Machine

/-- Why the model stops with a fault. The spec gives every command of the block an effect, so no meaning of this
model answers with one; the constructor is there for the interface. Nobody raises it. Safe. -/
inductive Fault where
  | unused
  deriving DecidableEq, Repr

/-- Why the model refuses a command. `notModelled` is raised by an arm of `exec` without a meaning; safe. -/
inductive Refusal where
  | notModelled (mnemonic : String)
  deriving DecidableEq, Repr

/-- The twelve operating modes of Table 2.1. -/
inductive Mode where
  | dark
  | vault
  | wake
  | selfTest
  | standby
  | service
  | held
  | draw
  | ceremony
  | drain
  | quarantine
  | retired
  deriving DecidableEq, Repr

/-- The mode cause codes of Tables 2.3, 5.18, 13.15 and 16.14 and of R408 and R432. -/
inductive Cause where
  | holdAlarm
  | gateTimeFault
  | reelBufferFull
  | entropyFail
  | entropyLatch
  | blockParity
  | sealDieLost
  | calMargin
  | selfTestFailed
  | ledgerRoot
  | vaultLost
  | noiseStart
  | eraseAlarm
  | holdInDrain
  | memoryIntegrity
  | ddrTraining
  | tapFull
  | escrowStall
  | reelEnded
  | evidenceFull
  | integrityStop
  | refclkAbsent
  | debugScan
  deriving DecidableEq, Repr

/-- The kind of the last reset (Table 2.10). -/
inductive ResetKind where
  | powerOn
  | perst
  | restart
  deriving DecidableEq, Repr

/-- A Drain in progress (Table 2.9). -/
structure Drain where
  /-- Ends in Wake rather than Standby, and by which reset. -/
  ending : Option ResetKind
  /-- PERST# has come: no completion, receipt or other host write for any take (R48). -/
  silent : Bool
  /-- `clock` at D0. -/
  start : Nat
  /-- Step 4 is done: the roles are handed over or released. -/
  handedOver : Bool
  deriving DecidableEq, Repr

/-- Modes, causes, power and resets (02). -/
structure Pwr where
  mode : Mode := .dark
  /-- Standing causes, the one recorded first at the head (R27). -/
  causes : List Cause := []
  /-- Service entry in progress since this `clock`: the keys are being unwrapped (R43). -/
  entering : Option Nat := none
  /-- A Regulator request for Standby held until the transition in progress ends (R26). -/
  heldStandby : Bool := false
  /-- The mode the Ceremony in progress began in (Table 2.2). -/
  ceremonyFrom : Option Mode := none
  drain : Option Drain := none
  lastReset : ResetKind := .powerOn
  /-- The last step of Table 2.6 that is complete. -/
  wakeStep : Nat := 0
  /-- `clock` at T0, and at S0 once it has come (Table 2.6); S0 is also the instant of entry to Quarantine (R197). -/
  t0 : Nat := 0
  s0 : Option Nat := none
  perst : Bool := true
  pwrfail : Bool := false
  /-- VBAT is at 2.2 V or more. -/
  vbat : Bool := false
  /-- PWRFAIL_N was asserted and stow has stopped landings (R125). -/
  stowed : Bool := false
  selfTest : Nat := 0
  calMonitor : Nat := 0xFFFF
  calRatio : Nat := 0
  bootCount : Nat := 0
  vaultLost : Bool := false
  deriving DecidableEq, Repr

/-- The Timebase and the Vault RTC (03 R63 to R65, 18 R424 to R426). -/
structure Tb where
  deviceTime : Nat := 0
  /-- Parts per million of a nanosecond of slew not yet applied. -/
  slewFrac : Nat := 0
  remaining : Int := 0
  dtValid : Bool := false
  rtc : Nat := 0
  timeFault : Bool := false
  goodCompares : Nat := 0
  /-- Device Time, and slew absorbed, at the last comparison with the RTC. -/
  cmpTime : Nat := 0
  cmpSlew : Int := 0
  timeFloor : Nat := 0
  refPresent : Nat := 0
  /-- The 288 islands whose clock generators have not locked are absent. -/
  locked : List Nat := []
  cfgShadow : Word := 0
  cfgActive : Word := 0
  cfgPend : Bool := false
  deriving DecidableEq, Repr

/-- One queue pair (R53 to R58). -/
structure QPair where
  sqBase : Nat := 0
  cqBase : Nat := 0
  /-- HG_Q_CFG without ACTIVE. -/
  cfg : Word := 0
  sqTail : Nat := 0
  sqHead : Nat := 0
  cqHead : Nat := 0
  cqTail : Nat := 0
  phase : Bool := true
  /-- CQ entries written and not yet returned by the host. -/
  cqUsed : Nat := 0
  /-- Takes fetched and not completed; each has one CQ entry set aside. -/
  outstanding : Nat := 0
  /-- `clock` since which the CQ has been full. -/
  fullSince : Option Nat := none
  stalled : Bool := false
  /-- Descriptors that were queued when the mode shut the queues: how many, and the status they complete with, the oldest
  first (R28, R46, R49). -/
  owed : List (Nat × Status) := []
  deriving DecidableEq, Repr

/-- One PCIe function's configuration state and counters (R287 to R289, R295, R304). -/
structure PciFn where
  memSpace : Bool := false
  busMaster : Bool := false
  d3hot : Bool := false
  msixEnable : Bool := false
  msixMaskAll : Bool := false
  /-- Vectors that are not masked; the reset value of every vector is masked. -/
  unmasked : List Nat := []
  /-- Vectors whose pending bit is set. -/
  pba : List Nat := []
  /-- Message address and data of a vector. -/
  vectors : List (Nat × Nat × Nat) := []
  /-- Device Control and Device Control 2; AER (Table 12.1); the reset values are PCI Express's (PRESUMED, log entry 28). -/
  deviceControl : Word := 0x2810
  deviceControl2 : Word := 0
  aerStatus : Nat := 0
  aerMask : Nat := 0x400000
  aerSeverity : Nat := 0x462030
  /-- A function-level reset is in progress (Table 12.7). -/
  resetting : Bool := false
  resets : Nat := 0
  busErrors : Nat := 0
  deriving DecidableEq, Repr

/-- A selective IDE stream (Table 12.1): its control word, and whether IDE_KM has set its keys. -/
structure IdeStream where
  control : Word := 0
  secure : Bool := false
  deriving DecidableEq, Repr

/-- The Directory mailbox of one function (R273, Table 11.13). -/
structure Mbx where
  reqAddr : Nat := 0
  respAddr : Nat := 0
  size : Word := 0
  ctrl : Word := 0
  status : Nat := 0
  deriving DecidableEq, Repr

/-- The Host Gateway (12). -/
structure Hg where
  linkUp : Bool := false
  vfEnable : Bool := false
  vfMemSpace : Bool := false
  numVfs : Nat := 0
  fns : List (Nat × PciFn) := []
  /-- IDE streams and the DOE mailboxes of PF0. -/
  ide : List (Nat × IdeStream) := []
  doeRequest : List Word := []
  doeResponse : List Word := []
  queues : List (Nat × QPair) := []
  /-- Round robin: the pair (64 tenants × 8) the Gateway looks at next (R54). -/
  rrNext : Nat := 0
  mbx : List (Nat × Mbx) := []
  blockLock : Nat := 0
  parAddr : Nat := 0
  /-- Units disabled, and shadows held, by a parity mismatch: the offsets of the registers still to be written. -/
  faulted : List (Nat × List Nat) := []
  deriving DecidableEq, Repr

/-- Where a take came from. -/
inductive TakeFrom where
  | queue (q : Nat)
  | applet (core : Nat)
  deriving DecidableEq, Repr

/-- How far a reserved take has come (R70 to R75, Table 1.6). -/
inductive TakePhase where
  /-- Fetched, not reserved. -/
  | fetched
  | dispatched
  | hashing
  | signing
  | verifying
  | inManifest
  /-- Its result, or its failure, has reached the Landing Unit. -/
  | returned
  /-- Its VOID record is with the journal signer. -/
  | journalSign
  /-- Its record has gone to the mirror. -/
  | mirror
  deriving DecidableEq, Repr

/-- A take (R59 to R75). -/
structure Take where
  id : Nat
  source : TakeFrom
  tenant : Nat
  commandId : Nat := 0
  irq : Bool := false
  noReceipt : Bool := true
  /-- A non-zero reserved field, a bad Opcode or Version was found in the descriptor. -/
  malformed : Bool := false
  slot : Nat := 0
  gate : Nat := 0
  length : Nat := 0
  /-- Where the payload lies in host memory, and the payload once it has been read (R60, R70 step 3). -/
  payloadAddr : Nat := 0
  payload : Bytes := []
  hasPayload : Bool := false
  receipt : Nat := 0
  clientTag : Nat := 0
  sqHead : Nat := 0
  phase : TakePhase := .fetched
  serial : Nat := 0
  officialTime : Nat := 0
  epoch : Nat := 0
  roleEpoch : Nat := 0
  handle : Nat := 0
  /-- 0x00 individual, 0x01 manifest. -/
  sealMode : Nat := 0
  die : Nat := 0
  /-- The Long-Integer Engine that signs the take, or verifies its signature, now, and the one that has signed it
  (R142); what its command has drawn (R155, R157). -/
  engine : Option Nat := none
  signer : Option Nat := none
  rnd : Bytes := []
  digest : Option Bytes := none
  signature : Bytes := []
  manifest : Nat := 0
  leaf : Nat := 0
  /-- The code the take lands VOID with, once it has failed. -/
  failure : Option Status := none
  /-- `clock` at dispatch. -/
  dispatched : Nat := 0
  /-- `clock` when its record was sent to the mirror. -/
  mirrorSent : Option Nat := none
  /-- No completion is owed: the tenant's queues are lost (R50). -/
  silent : Bool := false
  deriving DecidableEq, Repr

/-- How far a manifest has come (R87 to R99). -/
inductive ManifestPhase where
  | opened
  | closed
  | signing
  | slated
  deriving DecidableEq, Repr

/-- A manifest (R87 to R99). -/
structure Manifest where
  id : Nat
  die : Nat
  tenant : Nat
  handle : Nat
  /-- The owner epoch of the key handle at opening. -/
  epoch : Nat
  maxLeaves : Nat
  deadline : Nat
  openTime : Nat
  /-- `clock` at opening and at closing. -/
  openClock : Nat
  closeClock : Nat := 0
  closeTime : Nat := 0
  closeReason : Nat := 0
  phase : ManifestPhase := .opened
  /-- Slot, official time and digest of each leaf, leaf 0 first. -/
  leaves : List (Nat × Nat × Bytes) := []
  root : Bytes := []
  /-- The Long-Integer Engines that sign and verify the ECDSA half (R96, R142). -/
  engine : Option Nat := none
  verifier : Option Nat := none
  ecSig : Bytes := []
  mlSig : Bytes := []
  /-- The Lattice Unit that has signed the ML-DSA half (R169). -/
  mlUnit : Option Nat := none
  /-- A second Lattice Unit has verified the ML-DSA half (R96, R175). -/
  mlVerified : Bool := false
  slateEntry : Nat := 0xFFFFFFFF
  /-- The slate-copy ring in force when it opened: SlateCopyAddress and SlateCopyLog2 (R92, R101). -/
  ringAddress : Nat := 0
  ringLog2 : Nat := 0
  deriving DecidableEq, Repr

/-- A gate (R67). -/
structure Gate where
  close : Nat := 0
  owner : Nat := 0
  deriving DecidableEq, Repr

/-- Counts of one tenant's takes and manifests (Tables 3.15 and 4.4). -/
structure TakeCounts where
  sealed : Nat := 0
  void : Nat := 0
  refused : Nat := 0
  manifestsSigned : Nat := 0
  manifestsAbandoned : Nat := 0
  slateNext : Nat := 0
  slateFaults : Nat := 0
  deriving DecidableEq, Repr

/-- The Take Dispatcher and the Landing Unit (03, 04). -/
structure Td where
  nextId : Nat := 0
  fetched : List Take := []
  /-- The In-Flight Table (R70). -/
  inflight : List Take := []
  gates : List (Nat × Gate) := []
  manifestSeq : Nat := 0
  manifests : List Manifest := []
  counts : List (Nat × TakeCounts) := []
  device : TakeCounts := {}
  deriving DecidableEq, Repr

/-- A ledger slot's image (R103, Table 5.1). -/
structure Slot where
  serial : Nat := 0
  state : Nat := 0
  tenant : Nat := 0xFF
  epoch : Nat := 0
  handle : Nat := 0
  flags : Nat := 0
  official : Nat := 0
  landing : Nat := 0
  digest : Bytes := []
  home : Nat := 0xFFFF
  mirror : Nat := 0xFFFF
  roleEpoch : Nat := 0
  deriving DecidableEq, Repr

/-- A slot window (R107, R108). -/
structure Window where
  owner : Nat := 0xFF
  epoch : Nat := 0
  reassigning : Bool := false
  deriving DecidableEq, Repr

/-- The state of the Vault anchor (R122). -/
inductive AnchorState where
  | empty
  | checkpointed
  | stowed
  | invalid
  deriving DecidableEq, Repr

/-- One entry of the stow list (R125, Table 5.10). -/
structure StowEntry where
  slot : Nat
  serial : Nat
  tenant : Nat
  epoch : Nat
  deriving DecidableEq, Repr

/-- The Vault anchor (R122, Table 5.10). -/
structure Anchor where
  state : AnchorState := .empty
  seq : Nat := 0
  headerDigest : Bytes := []
  startCount : Nat := 0
  startContinuity : Bytes := []
  stowCount : Nat := 0
  stowContinuity : Bytes := []
  stow : List StowEntry := []
  deriving DecidableEq, Repr

/-- A checkpoint sweep in progress (R121). -/
structure Sweep where
  startCount : Nat
  startContinuity : Bytes
  startTime : Nat
  deriving DecidableEq, Repr

/-- A record in the reel buffer: its bytes and its count in the journal. -/
structure JournalRec where
  bytes : Bytes
  last : Nat
  deriving DecidableEq, Repr

/-- A DDR5 channel (Table 5.16). -/
structure ChanStat where
  capGib : Nat := 0
  rate : Nat := 0
  x4 : Bool := false
  ranks2 : Bool := false
  trained : Bool := false
  trainFail : Bool := false
  deriving DecidableEq, Repr

/-- The Counter Ledger, the journal, the tap, checkpoints and the Memory Guard (05). -/
structure Lg where
  slots : List (Nat × Slot) := []
  windows : List (Nat × Window) := []
  /-- Slots that serve again only after a sync (R76). -/
  suspended : List Nat := []
  /-- LG_ROOT_CTR0 to LG_ROOT_CTR7, keyed 0 to 7. -/
  rootCtr : List (Nat × Nat) := []
  /-- Counters of levels 0 and 1 of the tree, keyed by the address of the line they version; those of levels 2 to 5 advance
  together, once for each Drain (R116, R117, R132) (DESIGN CHOICE, log entry 117). -/
  tree : List (Nat × Nat) := []
  pinnedCtr : Nat := 0
  /-- The ledger cache beside the pinned nodes: resident slot lines and level-0 nodes (R118), and those of each that differ
  from DDR5's copy (R117). -/
  resident : List Nat := []
  nodes : List Nat := []
  dirty : List Nat := []
  dirtyNodes : List Nat := []
  /-- Protected lines that have failed a read (R115). -/
  failed : List Nat := []
  writesStopped : Bool := false
  /-- Whether the ledger's contents are valid (LEDGER_SELF_TEST, RECOVERY_COMPLETE). -/
  valid : Bool := false
  journalCount : Nat := 0
  /-- LastContinuity; zeros before the first record (DESIGN CHOICE, log entry 6). -/
  continuity : Bytes := List.replicate 32 0
  /-- Journal records not yet sent on the reel and acknowledged, oldest first. -/
  reel : List JournalRec := []
  /-- Bytes written into the reel buffer: they give its write position and the lap counters of its 1 MiB chunks (R112). -/
  reelWritten : Nat := 0
  tapAddress : Nat := 0
  tapLog2 : Nat := 0
  tapWritten : Nat := 0
  /-- A tap write has failed and TAP_WRITE_FAULT has not yet followed (R123). -/
  tapFailed : Bool := false
  tapConsumed : Nat := 0
  checkpointSeq : Nat := 0
  sweep : Option Sweep := none
  lastCheckpoint : Nat := 0
  /-- A tap fault asks for a checkpoint at once. -/
  checkpointDue : Bool := false
  anchor : Anchor := {}
  recoveryStatus : Nat := 0
  /-- Recovery (false) or rebuild (true) running. -/
  recovering : Option Bool := none
  /-- `clock` since which Self-Test waits for RecoveryStart. -/
  waitSince : Option Nat := none
  integrityFaults : Nat := 0
  eccCorrected : Nat := 0
  eccUncorrected : Nat := 0
  chans : List (Nat × ChanStat) := []
  /-- K_led, K_reel and, keyed by tenant + 2, the pool keys K_t (R113). -/
  keys : List (Nat × Bytes) := []
  /-- Units of pool memory in force per tenant, and in all (R137). -/
  poolUnits : List (Nat × Nat) := []
  totalUnits : Nat := 0
  /-- Tenant pools, keyed by tenant × 2^40 + address. -/
  pool : Memory := []
  /-- Pool lines written under the K_t in force, keyed by tenant × 2^34 + line: no other line verifies (R112, R115). -/
  poolLines : List (Nat × Bool) := []
  deriving DecidableEq, Repr

/-- Why a Long-Integer Engine runs (R142, R150, table 10.10). -/
inductive LieUser where
  | direct
  | service (core : Nat)
  deriving DecidableEq, Repr

/-- A loaded curve (R144, R145). -/
structure Curve where
  tenant : Nat
  words : Nat
  p : Nat
  a : Nat
  b : Nat
  gx : Nat
  gy : Nat
  n : Nat
  h : Nat
  /-- LiCurveDigest. -/
  digest : Bytes := []
  deriving DecidableEq, Repr

/-- A command running on a Long-Integer Engine: its result, computed at GO, is held until it completes (R161). -/
structure LieCmd where
  opcode : Nat
  user : LieUser
  tenant : Nat
  epoch : Nat
  /-- Status, detail, and the writes an OK ends with: space (0 host, 1 tenant pool, 2 Sezel core), address, bytes. -/
  status : Status
  detail : Nat
  writes : List (Nat × Nat × Bytes)
  nominal : Nat
  start : Nat
  curve : Nat
  /-- What a CURVE_LOAD installs when it ends OK. -/
  load : Option Curve
  /-- A private command: its fault checks can fail (Table 6.10). -/
  guarded : Bool
  /-- The key handle it uses, or 0. -/
  handle : Nat := 0
  deriving DecidableEq, Repr

/-- One Long-Integer Engine (06). -/
structure Engine where
  owner : Nat := 0xFF
  epoch : Nat := 0
  retired : Bool := false
  /-- LI_CMD0 to LI_CMD7, keyed 0 to 7. -/
  cmd : List (Nat × Nat) := []
  vector : Nat := 0
  irq : Bool := false
  /-- What the pool's DRBG instance has delivered and no command has used (R196). -/
  buffer : Bytes := []
  status : Nat := 0
  detail : Nat := 0
  nominal : Nat := 0
  /-- Tenant 0, the former owner, sees STATUS STALE_OWNER until the next GO (R162, R164). -/
  stale : Bool := false
  running : Option LieCmd := none
  /-- Device Times of the INTERNAL_FAULTs within the last 3,600 s (R141). -/
  faults : List Nat := []
  deriving DecidableEq, Repr

/-- The Long-Integer Engines (06). -/
structure Li where
  engines : List (Nat × Engine) := []
  /-- Curve table, CurveId 0x10 to 0x4F. -/
  curves : List (Nat × Option Curve) := []
  ucodeVersion : Nat := 0
  ucodeRom : Bool := true
  ucodeStatus : Nat := 0
  ucodeMin : Nat := 0
  ucodeSteps : Nat := 0
  ucodeLoad : Option Bytes := none
  faultChecks : Nat := 0
  deriving DecidableEq, Repr

/-- The Anchor functions that use a Lattice Unit (R167). -/
inductive AnchorJob where
  | importPair
  | keyOp
  | ucode
  deriving DecidableEq, Repr

/-- Why a Lattice Unit runs; `serviceVerify` checks the signature that a service has had made (R175). -/
inductive UnitUser where
  | manifestSign (mid : Nat)
  | manifestVerify (mid : Nat)
  | service (core : Nat)
  | serviceVerify (core : Nat)
  | anchor (job : AnchorJob)
  deriving DecidableEq, Repr

/-- An operation running on a Lattice Unit (07): 1 key generation, 2 signing, 3 verification, 4 encapsulation,
5 decapsulation. -/
structure UnitOp where
  op : Nat
  param : Nat
  user : UnitUser
  start : Nat := 0
  /-- Rounds of eight candidates done (R171). -/
  rounds : Nat := 0
  key : Bytes := []
  message : Bytes := []
  context : Bytes := []
  /-- What it has drawn: rnd, or the seed of a key or a secret (R173). -/
  rnd : Bytes := []
  /-- rnd is 32 zero bytes (R177). -/
  fixed : Bool := false
  /-- The signature it has made, or verifies. -/
  result : Option Bytes := none
  outAddr : Nat := 0
  sigAddr : Nat := 0
  /-- The key handle it uses, or 0. -/
  handle : Nat := 0
  deriving DecidableEq, Repr

/-- One Lattice Unit (07). -/
structure LatticeUnit where
  retired : Bool := false
  lastRounds : Nat := 0
  lastParam : Nat := 0
  running : Option UnitOp := none
  faults : List Nat := []
  /-- What the sealing pool's and the direct pool's instances have delivered (R196). -/
  sealBuf : Bytes := []
  directBuf : Bytes := []
  deriving DecidableEq, Repr

/-- Lattice Units and lanes (07). -/
structure Lh where
  units : List (Nat × LatticeUnit) := []
  /-- Signatures of services that wait for a second unit, each with the unit that made it (R175). -/
  toVerify : List (Nat × UnitOp) := []
  rejectionLimits : Nat := 0
  faultChecks : Nat := 0
  tagFailures : Nat := 0
  deriving DecidableEq, Repr

/-- The state of a noise source (R191, R208). -/
inductive SourceState where
  | idle
  | startup
  | running
  | isolated
  deriving DecidableEq, Repr

/-- The continuous health tests of a source (R189, Table 8.2), and the peaks of EN_SRC_STAT (Table 8.8). -/
structure HealthTest where
  /-- The last sample and the length of the run it ends. -/
  last : Option Bool := none
  run : Nat := 0
  /-- The APT window: its first sample, the samples seen, and how many equal the first. -/
  first : Bool := false
  seen : Nat := 0
  count : Nat := 0
  /-- The highest run and window count of the second in progress, and of the last completed second. -/
  runMax : Nat := 0
  countMax : Nat := 0
  runPeak : Nat := 0
  countPeak : Nat := 0
  deriving DecidableEq, Repr

/-- A noise source (08). -/
structure Source where
  state : SourceState := .idle
  /-- `clock` of its start or of its isolation. -/
  since : Nat := 0
  /-- It stays isolated: its failure set the entropy failure latch (R206). -/
  stays : Bool := false
  health : HealthTest := {}
  /-- A block whose last APT window has not closed yet (R190). -/
  candidate : Option Bytes := none
  deriving DecidableEq, Repr

/-- A DRBG instance (R192 to R195). -/
structure Instance where
  live : Bool := false
  epoch : Nat := 0
  /-- Key and V of CTR_DRBG with AES-256. -/
  secret : Bytes := []
  requests : Nat := 0
  lastReseed : Nat := 0
  /-- EnReseedRequests and EnReseedInterval in force since its last reseed (EDGE). -/
  maxRequests : Nat := 0
  maxInterval : Nat := 0
  deriving DecidableEq, Repr

/-- The Entropy Source and the DRBG Bank (08). -/
structure En where
  sources : List (Nat × Source) := []
  /-- Conditioned blocks of 64 bytes: up to 64 of the Anchor, oldest first, and one of the Vault (R188). -/
  reserve : List Bytes := []
  vaultBlock : Option Bytes := none
  /-- The Anchor source whose block is next in rotation (R187). -/
  nextSource : Nat := 0
  firstSeed : Bool := false
  /-- Delivery is stopped (R204). -/
  stopped : Bool := false
  latch : Bool := false
  history : List Nat := []
  lastSource : Nat := 0xFF
  lastTest : Nat := 0
  lastTime : Nat := 0
  instances : List (Nat × Instance) := []
  fifos : List (Nat × List (BitVec 64)) := []
  /-- The draw claim waits for its seed: the claiming core. -/
  drawWait : Option Nat := none
  deriving DecidableEq, Repr

/-- A location of a Sezel core whose write becomes visible after a distance (R232). -/
inductive SLoc where
  | w (n : Fin 16)
  | acc (n : Fin 4)
  | accHigh (n : Fin 4)
  | accLow (n : Fin 4)
  | flag (n : Fin 5)
  deriving DecidableEq, Repr

/-- A write not yet visible: its value, how many instructions must still retire before readers see it, and whether a
MAC-class instruction made it (R232, R233). -/
structure PendWrite where
  loc : SLoc
  value : Acc
  dist : Nat
  mac : Bool
  deriving DecidableEq, Repr

/-- What a Sezel core does (R250). -/
inductive CoreRun where
  | off
  | running
  | waiting
  | service
  | halted
  | stopped
  | debug
  /-- Runs one instruction for the debugger (R408). -/
  | stepping
  deriving DecidableEq, Repr

/-- A Sezel core (R210). -/
structure SCore where
  run : CoreRun := .off
  /-- What the core goes back to when the debugger resumes it (R408). -/
  resumeTo : CoreRun := .running
  slot : Nat := 0
  index : Nat := 0
  w : Vector Word 16 := Vector.replicate 16 0
  acc : Vector Acc 4 := Vector.replicate 4 0
  p : Vector Word 8 := Vector.replicate 8 0
  m : Vector (BitVec 24) 8 := Vector.replicate 8 0
  brev : Byte := 0
  ls : Vector Word 3 := Vector.replicate 3 0
  le : Vector Word 3 := Vector.replicate 3 0
  lc : Vector Word 3 := Vector.replicate 3 0
  mode : Word := 1
  flags : Word := 0
  pc : Word := 0
  /-- The LR.W reservation: 0 and the granule of data memory, or 1 + the shared region and its granule. -/
  reservation : Option (Nat × Nat) := none
  instret : BitVec 64 := 0
  pend : List PendWrite := []
  /-- In a delay slot: where control goes after it (`none`: the branch is not taken). -/
  delay : Option (Option Word) := none
  /-- A mailbox event since the last WAIT (R254). -/
  wake : Bool := false
  imem : Memory := []
  dmem : Memory := []
  deriving DecidableEq, Repr

/-- The states of an applet slot (Table 10.9). -/
inductive SlotState where
  | free
  | loading
  | running
  | halted
  | faulted
  | unloading
  deriving DecidableEq, Repr

/-- An applet slot, its mailbox and its registers (R247 to R255). -/
structure AppletSlot where
  state : SlotState := .free
  owner : Nat := 0xFF
  appletId : Nat := 0
  version : Nat := 0
  kind : Nat := 0
  /-- Bit k: service k is granted. -/
  grant : Nat := 0
  /-- The epoch of the slot's DRBG instance that the applet holds (R193). -/
  rngEpoch : Nat := 0
  die : Nat := 0
  cores : List Nat := []
  exit : Nat := 0
  faultCause : Nat := 0
  faultCore : Nat := 0
  faultDs : Bool := false
  fpc : Word := 0
  faddr : Word := 0
  inBase : Nat := 0
  outBase : Nat := 0
  cfg : Word := 0
  /-- Host inbound tail and head (SZ_MB_IN_HEAD), host outbound head and tail, and the host ring's phase. -/
  hostInTail : Nat := 0
  hostInHead : Nat := 0
  hostOutHead : Nat := 0
  hostOutTail : Nat := 0
  phase : Bool := true
  inTail : Nat := 0
  inHead : Nat := 0
  outHead : Nat := 0
  outTail : Nat := 0
  /-- Next outbound message boundary not yet posted whole. -/
  outNext : Nat := 0
  /-- Outbound cells from here on are held for the uncommitted phase of a draw (R258). -/
  holdFrom : Option Nat := none
  inRing : Memory := []
  outRing : Memory := []
  deriving DecidableEq, Repr

/-- A load of an applet in progress (R247). -/
structure Load where
  tenant : Nat
  image : Bytes
  slot : Nat
  die : Nat
  deriving DecidableEq, Repr

/-- A region of die-shared SRAM in force (R251): its size in KiB, its offset in the SRAM in KiB, and its contents. -/
structure Region where
  kib : Nat := 0
  base : Nat := 0
  mem : Memory := []
  deriving DecidableEq, Repr

/-- The draw claim (R258). -/
structure DrawClaim where
  slot : Nat
  uncommitted : Bool := false
  commits : Nat := 0
  seq : Nat := 0
  /-- The core whose DRAW_COMMIT waits, and the journal record count of its record. -/
  waiting : Option (Nat × Nat) := none
  deriving DecidableEq, Repr

/-- What a service call is waiting for. -/
inductive Outstanding where
  | lie (engine : Nat)
  | lattice (u : Nat)
  | claim
  | commit
  /-- SEAL_RECORD: its take, and where its result goes: space 0 the core's data memory, else 1 + the shared region. -/
  | seal (take space offset : Nat)
  /-- Calls whose inputs have been read, and which wait: for an engine, a unit, room in the In-Flight Table, an
  instance (R193, R256). -/
  | lieWait (block : List Nat) (operand key : Bytes)
  | latticeWait (op : UnitOp)
  | sealWait (take : Take) (space offset : Nat)
  | randomWait (addr len : Nat)
  deriving DecidableEq, Repr

/-- The Sezel cores and applets (09, 10). -/
structure Sz where
  cores : List (Nat × SCore) := []
  slots : List (Nat × AppletSlot) := []
  epochs : List (Nat × Nat) := []
  loads : List Load := []
  regions : List (Nat × Region) := []
  draw : Option DrawClaim := none
  drawCount : Nat := 0
  outstanding : List (Nat × Option Outstanding) := []
  deriving DecidableEq, Repr

/-- A multipart value being staged (R270). -/
structure Staging where
  viewer : Viewer
  index : Nat
  sub : Nat
  inst : Nat
  bytes : Bytes
  /-- `clock` at its first part. -/
  start : Nat
  deriving DecidableEq, Repr

/-- One entry of a Directory request (Table 11.6); `bad`: a reserved byte is not zero. -/
structure DirEntry where
  index : Nat
  sub : Nat
  op : Nat
  eflags : Nat := 0
  bad : Bool := false
  offset : Nat := 0
  length : Nat := 0
  value : Bytes := []
  deriving DecidableEq, Repr

/-- Where a Directory request came from, and so where its response goes; `single` is a row of the command table that
stands for one entry, and `dropped` a request whose function has been reset (R274). -/
inductive DirSink where
  | mailbox (t : Nat)
  | session
  | jtag
  | peer (h : LinkHdr)
  | single
  | dropped
  deriving DecidableEq, Repr

/-- A Directory request in execution or waiting: the entries still to execute, the entries executed, the entries of the
response so far, and the space for the response. -/
structure DirReq where
  viewer : Viewer
  sink : DirSink
  tenant : Nat
  tag : Nat := 0
  cap : Nat := 0
  entries : List DirEntry
  count : Nat := 0
  out : Bytes := []
  status : Status := 0
  deriving DecidableEq, Repr

/-- The Parameter Directory (11): the values of the objects that no other field holds, keyed by index, subindex and
instance. An unlisted object reads as its table's default. -/
structure Pd where
  nums : List (Nat × Option Nat) := []
  octets : List (Nat × Bytes) := []
  /-- Values written to EDGE objects and not yet in force. -/
  staged : List (Nat × Option Nat) := []
  staging : List Staging := []
  /-- The request whose WRITE waits for an answer from other members (R338, R343); its first entry is that WRITE. -/
  deferred : Option DirReq := none
  /-- Requests that wait for it to end (R271), in order of arrival. -/
  waiting : List DirReq := []
  /-- The source served last (R271). -/
  turn : Nat := 0
  deriving DecidableEq, Repr

/-- A Yilile session (R280 to R284). -/
structure Session where
  sid : Nat
  source : NetSrc
  opened : Bool
  /-- SHA-256 of the SignerCert's PublicKey. -/
  signer : Bytes
  /-- `clock` at HELLO_D, or at the last valid record. -/
  last : Nat
  seqIn : Nat := 0
  kept : Bytes := []
  /-- The ephemeral secret and z, both zero once FINISH_D has been sent (R281). -/
  secret : Nat := 0
  z : Bytes := []
  /-- What the session's signature covers, and its keys and salts (R281). -/
  th2 : Bytes := []
  kRd : Bytes := []
  kDr : Bytes := []
  salt : Bytes := []
  deriving DecidableEq, Repr

/-- The Supervisory Port (11). -/
structure Sp where
  link : Bool := false
  speed : Nat := 0
  /-- `clock` since which the link has been down. -/
  downSince : Option Nat := none
  mdioBusy : Bool := false
  /-- OP of SP_MDIO: 1 write, 2 read. -/
  mdioOp : Nat := 0
  mdioPhy : Nat := 0
  mdioReg : Nat := 0
  mdioData : Nat := 0
  session : Option Session := none
  /-- The Regulator has written SpEnable = 0: the session ends once the response has been sent (R277). -/
  closing : Bool := false
  /-- The ARP cache: IPv4 address, MAC address, `clock` of the entry, oldest first. -/
  arp : List (Nat × Nat × Nat) := []
  icmpCount : Nat := 0
  icmpSecond : Nat := 0
  refusals : Nat := 0
  dropped : Nat := 0
  rootDigests : List Bytes := []
  deriving DecidableEq, Repr

/-- Reel states (Table 13.9). -/
inductive ReelState where
  | idle
  | opening
  | pickup
  | running
  | runout
  | cut
  deriving DecidableEq, Repr

/-- The Escrow Line (13). -/
structure El where
  state : ReelState := .idle
  result : Nat := 0
  reelId : Nat := 0
  /-- Reels opened in this boot. -/
  reelCount : Nat := 0
  /-- Cadence in ns, fixed when the reel opens, and the run-out the recorder declared, in ms. -/
  cadence : Nat := 0
  runOut : Nat := 0
  /-- What the OPEN frames carry: the nonce and the ephemeral point, and JournalCount and its Continuity at the open. -/
  nonce : Bytes := []
  ephemeral : Bytes := []
  openCount : Nat := 0
  openContinuity : Bytes := []
  /-- The ephemeral secret, zeroed at keying, and the OPEN frame sent last, to its signature (R312, R313). -/
  secret : Nat := 0
  openSent : Bytes := []
  /-- K_fw, K_st and the salts are in place (R313). -/
  keyed : Bool := false
  kFw : Bytes := []
  kSt : Bytes := []
  saltFw : Bytes := []
  saltSt : Bytes := []
  /-- The Tag of the last authenticated frame; before frame 1, bytes 0 to 15 of th (R309). -/
  lastTag : Bytes := []
  /-- The last authenticated frame sent. -/
  frameSeq : Nat := 0
  statusSeq : Nat := 0
  ackSeq : Nat := 0
  heldCount : Nat := 0
  /-- HeldContinuity of the OPEN_ACK. -/
  heldContinuity : Bytes := []
  /-- Records up to this count have been sent whole on this reel, and this many bytes of the next. -/
  sentCount : Nat := 0
  sentPart : Nat := 0
  streamOffset : Nat := 0
  /-- Counts of the segment's REEL_OPEN and REEL_END; 0 while there is none. -/
  segmentStart : Nat := 0
  endCount : Nat := 0
  /-- Frames sent and not acknowledged: sequence, `clock` when sent. -/
  frames : List (Nat × Nat) := []
  openStart : Nat := 0
  lastStatus : Nat := 0
  /-- `clock` since which status frames have come without a gap. -/
  goodSince : Nat := 0
  /-- The condition of ESCROW_STALL holds. -/
  stalled : Bool := false
  stopCause : Nat := 0
  stopClock : Nat := 0
  /-- S + RunOut − 5 ms has come: the reel ends with the frame that completes what is left. -/
  ending : Bool := false
  /-- PickupWaive for the next open, and for the open in progress. -/
  waiver : Bool := false
  waived : Bool := false
  rxLock : Nat := 0
  cfgShadow : Word := 0
  cfgActive : Word := 0
  cfgPend : Bool := false
  transmit : Bool := true
  statusDropped : Nat := 0
  deriving DecidableEq, Repr

/-- Crossing Link port states (R329). -/
inductive PortState where
  | down
  | training
  | keying
  | up
  deriving DecidableEq, Repr

/-- A link frame waiting for credit (R328). -/
structure QFrame where
  vc : Nat
  type : Nat
  dest : Nat
  src : Nat
  down : Bool
  payload : Bytes
  deriving DecidableEq, Repr

/-- A Crossing Link port (14). -/
structure Port where
  state : PortState := .down
  cfg : Word := 0
  partner : Nat := 0xFFFF
  since : Nat := 0
  retryAt : Option Nat := none
  lastFrame : Nat := 0
  lastSent : Nat := 0
  txSeq : Nat := 0
  rxSeq : Nat := 0
  /-- Credits held per VC; an unlisted VC holds all 64. -/
  credits : List (Nat × Nat) := []
  /-- Receive units freed per VC and not yet returned. -/
  owed : List (Nat × Nat) := []
  /-- Bytes 0 to 447 of the HELLO this side sends, and whether it has sent it signed (R330). -/
  hello : Bytes := []
  helloSigned : Bool := false
  /-- The ephemeral secret while the port is keying, and the keys and salts of an UP port for the frames it sends and
  receives (R330). -/
  secret : Nat := 0
  kTx : Bytes := []
  kRx : Bytes := []
  saltTx : Bytes := []
  saltRx : Bytes := []
  /-- Frames waiting for credit, oldest first. -/
  queue : List QFrame := []
  stalledSince : List (Nat × Option Nat) := []
  deriving DecidableEq, Repr

/-- A link request waiting for its response (R328). -/
structure LinkReq where
  reqId : Nat
  dest : Nat
  type : Nat
  payload : Bytes
  sent : Nat
  deriving DecidableEq, Repr

/-- A lease of a slot: the member that holds it and its range (R335). -/
structure Lease where
  slot : Nat
  holder : Nat
  first : Nat
  last : Nat
  deriving DecidableEq, Repr

/-- The answer given to a request: a repeated RequestId gets it again (R328). -/
structure Answer where
  src : Nat
  reqId : Nat
  type : Nat
  payload : Bytes
  deriving DecidableEq, Repr

/-- A landing that this member, as the authority of a LEASED and MIRRORED slot, has forwarded to the mirror (R336). -/
structure Forwarded where
  slot : Nat
  serial : Nat
  holder : Nat
  deriving DecidableEq, Repr

/-- A role change offered to a mirror (R338). -/
structure RoleChange where
  slot : Nat
  mirror : Nat
  leased : Bool
  /-- `clock` of the offer, and its RequestId. -/
  start : Nat
  reqId : Nat
  deriving DecidableEq, Repr

/-- A takeover in progress: the slot, the lost member, and the slot's state before it was Suspended (R340). -/
structure Takeover where
  slot : Nat
  member : Nat
  state : Nat
  deriving DecidableEq, Repr

/-- This member's claim to hold a Ceremony: its start and the members that have not answered (R343). -/
structure Claim where
  start : Nat
  waiting : List Nat
  deriving DecidableEq, Repr

/-- The Crossing Links and Fleet state (14). -/
structure Xl where
  ports : List (Nat × Port) := []
  routes : List (Nat × Nat) := []
  requests : List LinkReq := []
  answered : List Answer := []
  nextReq : Nat := 0
  /-- Leases this member holds (its own number as holder) and leases it has granted (R335). -/
  leases : List Lease := []
  /-- GrantLimit per slot (R335). -/
  grantLimit : List (Nat × Nat) := []
  /-- The last acknowledged serial of a holder, by slot and holder (R336). -/
  acked : List (Nat × Nat) := []
  forwarded : List Forwarded := []
  /-- `clock` of the last frame from each member. -/
  memberSeen : List (Nat × Nat) := []
  lost : List Nat := []
  offer : Option RoleChange := none
  takeover : List Takeover := []
  claim : Option Claim := none
  ceremonyHolder : Nat := 0xFFFF
  lastHeartbeat : Nat := 0
  deriving DecidableEq, Repr

/-- A card operation (R358 to R360). -/
inductive CardKind where
  | read
  | write
  | format
  deriving DecidableEq, Repr

/-- A card operation in progress: the command it waits for, the record, the first copy read, and what is being written. -/
structure CardOp where
  kind : CardKind
  step : Nat
  slot : Nat
  copyA : Bytes := []
  target : Nat := 0
  version : Nat := 0
  image : Bytes := []
  deriving DecidableEq, Repr

/-- The Custodian Card Host (15). -/
structure Ch where
  cfg : Word := 0x70
  /-- The card in the slot, as it answers initialisation. -/
  facts : Option CardFacts := none
  /-- The step of Table 15.2 in progress; 0 for none. -/
  initStep : Nat := 0
  present : Bool := false
  mode : Nat := 0
  v18 : Bool := false
  tap : Nat := 0
  powered : Bool := false
  label : Bytes := []
  op : Option CardOp := none
  opStatus : Nat := 0
  /-- `clock` and Anchor temperature at the last tuning; the temperature last read. -/
  lastTune : Nat := 0
  tuneTemp : Int := 0
  temp : Int := 0
  /-- Tuning that is due and waits for the command in progress: the longest run of taps, and its middle. -/
  retune : Option Nat := none
  deriving DecidableEq, Repr

/-- An open coalescing window (R379). -/
structure AlarmWindow where
  sources : Nat
  first : Nat
  count : Nat
  /-- Alarm outputs in the window of each source. -/
  perSource : List (Nat × Nat)
  erase : Bool
  time : Nat
  start : Nat
  deriving DecidableEq, Repr

/-- The Tamper and Environment Guard and the Evidence Log (16). -/
structure Tg where
  erased : Bool := false
  /-- The Vault has reported: TG_STATE and TG_EVID_NEXT hold loaded values (Wake step 6). -/
  loaded : Bool := false
  window : Option AlarmWindow := none
  armed : List Nat := []
  /-- HOLD sources out of range. -/
  holdActive : List Nat := []
  /-- `clock` when a monitor of a source was last outside its warning threshold (R374). -/
  outside : List (Nat × Nat) := []
  /-- Per source: counts held back and `clock` at the last record, for HOLD and for WARNING records (R370, R374). -/
  holdBack : List (Nat × Nat) := []
  holdLast : List (Nat × Option Nat) := []
  warnBack : List (Nat × Nat) := []
  warnLast : List (Nat × Option Nat) := []
  eraseFused : Nat := 0
  groupsBurnt : Nat := 0
  groupsFused : Nat := 0
  postSources : Nat := 0
  postCount : Nat := 0
  log : List (Nat × Bytes) := []
  nextSeq : Nat := 0
  mark : Nat := 0
  /-- The chain value H after the last record; before record 0 it is empty (R386). -/
  head : Bytes := []
  suppressed : Nat := 0
  queue : List (Nat × Bytes) := []
  gangwaysKeyed : List Nat := []
  gangwaysStopped : List Nat := []
  /-- The key of the shield's pattern generator, and how often its pattern has changed (R369). -/
  shieldKey : Bytes := []
  shieldPattern : Nat := 0
  reprovisioning : Bool := false
  /-- A re-provisioning is done and the Ceremony has not ended yet (R391). -/
  reprovisioned : Bool := false
  reprovisionStatus : Nat := 0
  /-- The vault root key, 32 bytes, or none. The one a unit ships with is a free value (DESIGN CHOICE, log entry 7). -/
  rootKey : Option Bytes := some (Config.out .vaultRoot 32 [] [])
  deriving DecidableEq, Repr

/-- Life cycle, certificates, debug and JTAG (17). -/
structure Lc where
  /-- Burnt fuses of the four groups of three (R395). -/
  fuses : Vector Nat 4 := #v[0, 0, 0, 0]
  state : Nat := 0
  maint : Bool := false
  rights : Nat := 0
  /-- A transition's target and its requester (1 Maker, 2 tenant 0, 3 Regulator): burning, and staged until the Ceremony
  ends. -/
  burning : Option (Nat × Nat) := none
  staged : Option (Nat × Nat) := none
  certAddr : Nat := 0
  certBuffer : Bytes := []
  certStatus : Nat := 0
  certSerial : Nat := 0
  challenge : Bytes := []
  debugStatus : Nat := 0
  /-- The TAP instruction in effect; IDCODE after TAP reset (R407). -/
  tapInstr : Nat := 2
  /-- What the boundary-scan chain drives, and what SAMPLE/PRELOAD has put into it. -/
  boundary : List Bool := []
  preload : List Bool := []
  deriving DecidableEq, Repr

/-- The state of a key handle (R440, R443, R446). -/
inductive KeyState where
  | wrapped
  | unwrapped
  | failed
  deriving DecidableEq, Repr

/-- An allocated key handle: the Vault's table entry, and its key while the KRF holds it (R440). -/
structure Handle where
  type : Nat
  usage : Nat
  owner : Nat
  generation : Nat
  words : Nat
  publicDigest : Bytes
  state : KeyState
  publicPart : Bytes
  privatePart : Bytes
  deriving DecidableEq, Repr

/-- A key creation in progress (R441, R442). -/
structure KeyOp where
  viewer : Viewer
  tenant : Nat
  handle : Nat
  type : Nat
  usage : Nat
  words : Nat
  imported : Bool
  blob : Bytes
  start : Nat
  /-- The sealing engine of Seal die 0 that does its elliptic-curve part (R167). -/
  engine : Option Nat := none
  deriving DecidableEq, Repr

/-- The Key Register File (12). -/
structure Krf where
  handles : List (Nat × Option Handle) := []
  generations : List (Nat × Nat) := []
  running : Option KeyOp := none
  /-- The ML-KEM-1024 import pair of the Ceremony: encapsulation and decapsulation key. -/
  importPair : Option (Bytes × Bytes) := none
  /-- The Ceremony's pair is still to be generated (R442). -/
  pairDue : Bool := false
  /-- The journal key: private and public part. -/
  journal : Option (Bytes × Bytes) := none
  deriving DecidableEq, Repr

/-- What the part puts out: on a link, a pin, or in answer to an access; oldest first (DESIGN CHOICE, log entry 2). -/
inductive Out where
  /-- An MSI-X message, with the address and data of its table entry. -/
  | msix (fn vector addr data : Nat)
  | readData (v : Viewer) (loc : Loc) (value : Nat)
  | completerAbort (v : Viewer) (loc : Loc)
  | unsupportedRequest (v : Viewer) (loc : Loc)
  /-- An error message of a function, fatal or not (AER). -/
  | errorMessage (fn : Nat) (fatal : Bool)
  | directory (v : Viewer) (status : Status) (value : Bytes)
  | escrowFrame (lane kind : Nat) (bytes : Bytes)
  /-- A Crossing Link frame: port, VC, type, destination, source, WENT_DOWN, LinkSeq, CreditVc, CreditCount, payload, and the
  bytes on the lanes: header, payload as sent, tag. -/
  | linkFrame (port vc type dest src : Nat) (down : Bool) (seq creditVc creditCount : Nat) (payload wire : Bytes)
  | yilile (dst : NetSrc) (type : Nat) (bytes : Bytes)
  | ethernet (kind : Nat) (bytes : Bytes)
  | card (command : Nat) (arg : Nat) (data : Bytes)
  | jtag (bits : Nat) (value : Nat)
  | jtagBytes (bytes : Bytes)
  deriving DecidableEq, Repr

/-- The state of the block. -/
structure State where
  /-- The commands that are waiting, first in, first out. -/
  pending : List Instr := []
  /-- Nanoseconds of the 25 MHz reference since main power, the measure of every timer (R63, R424). -/
  clock : Nat := 0
  /-- The model's own: the number of free values taken so far (DESIGN CHOICE, log entry 1). -/
  freeCtr : Nat := 0
  outbox : List Out := []
  hostMem : Memory := []
  dmaFail : List (Nat × Nat) := []
  /-- RC latches, keyed by register and viewer (R9, R301). -/
  latches : List (Nat × Nat) := []
  pwr : Pwr := {}
  tb : Tb := {}
  hg : Hg := {}
  td : Td := {}
  lg : Lg := {}
  li : Li := {}
  lh : Lh := {}
  en : En := {}
  sz : Sz := {}
  pd : Pd := {}
  sp : Sp := {}
  el : El := {}
  xl : Xl := {}
  ch : Ch := {}
  tg : Tg := {}
  lc : Lc := {}
  krf : Krf := {}
  deriving DecidableEq, Repr

/-- The unit as manufactured, held in power-on reset until the last main rail is good (R419): every register at its reset
value, HG_MODE_STAT at 0x0000_0002 (R29), nothing assigned, nothing recorded, no fuse burnt, and a Vault that has a battery, a root key
and the time (DESIGN CHOICE, log entry 4). -/
def State.reset : State :=
  { pwr := { mode := .wake, vbat := true }
    tb := { dtValid := true } }

end Sys2Proof.Machine
end

