-- ==== Sys2Proof/Machine/Ops.lean ====
section
/-! DEFINITION. The shared operations over the state: accessors, free values, DMA, interrupts, clear-on-read latches,
the Evidence Log, the journal, completions, and the codes of Tables 2.1, 2.3 and 12.9. -/

namespace Sys2Proof.Machine

/-! ### Updating one subsystem -/

def State.onPwr (f : Pwr → Pwr) (s : State) : State := { s with pwr := f s.pwr }
def State.onTb (f : Tb → Tb) (s : State) : State := { s with tb := f s.tb }
def State.onHg (f : Hg → Hg) (s : State) : State := { s with hg := f s.hg }
def State.onTd (f : Td → Td) (s : State) : State := { s with td := f s.td }
def State.onLg (f : Lg → Lg) (s : State) : State := { s with lg := f s.lg }
def State.onLi (f : Li → Li) (s : State) : State := { s with li := f s.li }
def State.onLh (f : Lh → Lh) (s : State) : State := { s with lh := f s.lh }
def State.onEn (f : En → En) (s : State) : State := { s with en := f s.en }
def State.onSz (f : Sz → Sz) (s : State) : State := { s with sz := f s.sz }
def State.onPd (f : Pd → Pd) (s : State) : State := { s with pd := f s.pd }
def State.onSp (f : Sp → Sp) (s : State) : State := { s with sp := f s.sp }
def State.onEl (f : El → El) (s : State) : State := { s with el := f s.el }
def State.onXl (f : Xl → Xl) (s : State) : State := { s with xl := f s.xl }
def State.onCh (f : Ch → Ch) (s : State) : State := { s with ch := f s.ch }
def State.onTg (f : Tg → Tg) (s : State) : State := { s with tg := f s.tg }
def State.onLc (f : Lc → Lc) (s : State) : State := { s with lc := f s.lc }
def State.onKrf (f : Krf → Krf) (s : State) : State := { s with krf := f s.krf }

/-- Put a message of the part at the end of the outbox (DESIGN CHOICE, log entry 2). -/
def State.emit (o : Out) (s : State) : State := { s with outbox := s.outbox ++ [o] }

/-! ### Free values -/

/-- `n` free bytes: bytes the spec leaves open (random values, the bytes of a failed transfer). -/
def State.freeBytes (s : State) (n : Nat) : Bytes :=
  (List.range n).map fun i => Config.freeValue 8 (s.freeCtr + i)

/-- Count `n` free values as taken. -/
def State.takeFree (n : Nat) (s : State) : State := { s with freeCtr := s.freeCtr + n }

/-! ### Elements of the tables -/

def State.fn (s : State) (n : Nat) : PciFn := mapGet {} s.hg.fns n
def State.onFn (n : Nat) (f : PciFn → PciFn) (s : State) : State :=
  s.onHg fun h => { h with fns := mapSet {} h.fns n (f (mapGet {} h.fns n)) }
def State.qpair (s : State) (t q : Nat) : QPair := mapGet {} s.hg.queues (t * 8 + q)
def State.onQ (t q : Nat) (f : QPair → QPair) (s : State) : State :=
  s.onHg fun h => { h with queues := mapSet {} h.queues (t * 8 + q) (f (mapGet {} h.queues (t * 8 + q))) }
def State.slot (s : State) (n : Nat) : Slot := mapGet {} s.lg.slots n
def State.onSlot (n : Nat) (f : Slot → Slot) (s : State) : State :=
  s.onLg fun g => { g with slots := mapSet {} g.slots n (f (mapGet {} g.slots n)) }
def State.window (s : State) (w : Nat) : Window := mapGet {} s.lg.windows w
def State.onWindow (w : Nat) (f : Window → Window) (s : State) : State :=
  s.onLg fun g => { g with windows := mapSet {} g.windows w (f (mapGet {} g.windows w)) }
def State.gate (s : State) (g : Nat) : Gate := mapGet {} s.td.gates g
def State.onGate (g : Nat) (f : Gate → Gate) (s : State) : State :=
  s.onTd fun t => { t with gates := mapSet {} t.gates g (f (mapGet {} t.gates g)) }
def State.counts (s : State) (t : Nat) : TakeCounts := mapGet {} s.td.counts t
def State.onCounts (t : Nat) (f : TakeCounts → TakeCounts) (s : State) : State :=
  s.onTd fun d => { d with counts := mapSet {} d.counts t (f (mapGet {} d.counts t)) }
def State.core (s : State) (n : Nat) : SCore := mapGet {} s.sz.cores n
def State.onCore (n : Nat) (f : SCore → SCore) (s : State) : State :=
  s.onSz fun z => { z with cores := mapSet {} z.cores n (f (mapGet {} z.cores n)) }
def State.applet (s : State) (a : Nat) : AppletSlot := mapGet {} s.sz.slots a
def State.onApplet (a : Nat) (f : AppletSlot → AppletSlot) (s : State) : State :=
  s.onSz fun z => { z with slots := mapSet {} z.slots a (f (mapGet {} z.slots a)) }
def State.engine (s : State) (e : Nat) : Engine := mapGet {} s.li.engines e
def State.onEngine (e : Nat) (f : Engine → Engine) (s : State) : State :=
  s.onLi fun l => { l with engines := mapSet {} l.engines e (f (mapGet {} l.engines e)) }
def State.latticeUnit (s : State) (u : Nat) : LatticeUnit := mapGet {} s.lh.units u
def State.onUnit (u : Nat) (f : LatticeUnit → LatticeUnit) (s : State) : State :=
  s.onLh fun l => { l with units := mapSet {} l.units u (f (mapGet {} l.units u)) }
def State.source (s : State) (i : Nat) : Source := mapGet {} s.en.sources i
def State.onSource (i : Nat) (f : Source → Source) (s : State) : State :=
  s.onEn fun e => { e with sources := mapSet {} e.sources i (f (mapGet {} e.sources i)) }
def State.drbg (s : State) (i : Nat) : Instance := mapGet {} s.en.instances i
def State.onDrbg (i : Nat) (f : Instance → Instance) (s : State) : State :=
  s.onEn fun e => { e with instances := mapSet {} e.instances i (f (mapGet {} e.instances i)) }
def State.fifo (s : State) (t : Nat) : List (BitVec 64) := mapGet [] s.en.fifos t
def State.onFifo (t : Nat) (f : List (BitVec 64) → List (BitVec 64)) (s : State) : State :=
  s.onEn fun e => { e with fifos := mapSet [] e.fifos t (f (mapGet [] e.fifos t)) }
def State.port (s : State) (p : Nat) : Port := mapGet {} s.xl.ports p
def State.onPort (p : Nat) (f : Port → Port) (s : State) : State :=
  s.onXl fun x => { x with ports := mapSet {} x.ports p (f (mapGet {} x.ports p)) }
def State.handle (s : State) (h : Nat) : Option Handle := mapGet none s.krf.handles h
def State.onHandle (h : Nat) (f : Option Handle → Option Handle) (s : State) : State :=
  s.onKrf fun k => { k with handles := mapSet none k.handles h (f (mapGet none k.handles h)) }
def State.region (s : State) (d t : Nat) : Region := mapGet {} s.sz.regions (d * 64 + t)
def State.onRegion (d t : Nat) (f : Region → Region) (s : State) : State :=
  s.onSz fun z => { z with regions := mapSet {} z.regions (d * 64 + t) (f (mapGet {} z.regions (d * 64 + t))) }

/-! ### Directory objects held as numbers or octets -/

/-- The key of an object: index, subindex and instance (0 for a DEVICE object, the tenant or viewer otherwise). -/
def objKey (index sub inst : Nat) : Nat := (index * 256 + sub) * 2048 + inst

/-- The value in force of an object, `d` while nothing has been written. -/
def State.num (s : State) (index sub inst d : Nat) : Nat :=
  (mapGet none s.pd.nums (objKey index sub inst)).getD d

def State.setNum (index sub inst v : Nat) (s : State) : State :=
  s.onPd fun p => { p with nums := mapSet none p.nums (objKey index sub inst) (some v) }

/-- The value of an EDGE object as last written, in force or staged (R263). -/
def State.numWritten (s : State) (index sub inst d : Nat) : Nat :=
  match mapGet none s.pd.staged (objKey index sub inst) with
  | some v => v
  | none => s.num index sub inst d

def State.stageNum (index sub inst v : Nat) (s : State) : State :=
  s.onPd fun p => { p with staged := mapSet none p.staged (objKey index sub inst) (some v) }

/-- The Vault performs derivations (R399): a root key, not erased, not Scrapped, not Fielded under Maintenance. -/
def State.derives (s : State) : Bool :=
  s.tg.rootKey.isSome && !s.tg.erased && s.lc.state ≠ 5 && !(s.lc.state = 3 && s.lc.maint)

/-- An EDGE object's apply point: what was written comes into force. -/
def State.applyNum (index sub inst : Nat) (s : State) : State :=
  match mapGet none s.pd.staged (objKey index sub inst) with
  | some v => (s.setNum index sub inst v).onPd fun p =>
      { p with staged := mapSet none p.staged (objKey index sub inst) none }
  | none => s

def State.octets (s : State) (index sub inst : Nat) : Bytes := mapGet [] s.pd.octets (objKey index sub inst)

def State.setOctets (index sub inst : Nat) (b : Bytes) (s : State) : State :=
  s.onPd fun p => { p with octets := mapSet [] p.octets (objKey index sub inst) b }

/-- The UnitId of the unit (0x1000.03), fixed at manufacture (DESIGN CHOICE, log entry 16). -/
def unitId : Nat := (Config.silicon 64 0).toNat % (2 ^ 64 - 1) + 1

/-! ### The device identity (R265, Table 11.20) -/

/-- Termar's device authority key, in mask ROM. -/
def authorityKey : Bytes := Config.out .authorityKey 97 [] []

/-- A signature under the device identity key (ECDSA P-384, r ‖ s); `n` tells hedged signatures apart. -/
def deviceSign (n : Nat) (m : Bytes) : Bytes := Config.out .deviceSign 96 [n] [m]

/-- A certificate up to its signature. -/
def certBody (role serial notBefore notAfter : Nat) (subject issuer key : Bytes) : Bytes :=
  [0x57] ++ be 1 role ++ List.replicate 6 0 ++ be 8 serial ++ be 8 notBefore ++ be 8 notAfter ++ slice subject 0 32
    ++ slice issuer 0 32 ++ slice key 0 97 ++ List.replicate 7 0

/-- The device certificate, fused at manufacture. -/
def deviceCert : Bytes :=
  let b := certBody 0x10 unitId (Config.silicon 64 2).toNat 0xFFFFFFFFFFFFFFFF (be 8 unitId)
    (Config.sha256 authorityKey) (Config.out .devicePublic 97 [] [])
  b ++ Config.out .certSignature 96 [] [b]

/-! ### Status codes (Table 12.9) -/

def stOk : Status := 0x0000
def stLenZero : Status := 0x0101
def stLenTooLong : Status := 0x0102
def stBadDescriptor : Status := 0x0103
def stBadSlot : Status := 0x0104
def stBadGate : Status := 0x0105
def stSerialExhausted : Status := 0x0106
def stDmaFault : Status := 0x0107
def stSlotBusy : Status := 0x0108
def stKeyHandleInvalid : Status := 0x0109
def stNoObject : Status := 0x010A
def stAccessDenied : Status := 0x010B
def stTypeMismatch : Status := 0x010C
def stNotReady : Status := 0x0201
def stHeld : Status := 0x0202
def stQuarantine : Status := 0x0203
def stStaleOwner : Status := 0x0204
def stGateClosed : Status := 0x0205
def stWriteIgnoredEnabled : Status := 0x0206
def stCalMargin : Status := 0x0207
def stModeRefused : Status := 0x0208
def stPowerLoss : Status := 0x0209
def stLedgerRebuilt : Status := 0x020A
def stDrawBusy : Status := 0x020B
def stDrawOrder : Status := 0x020C
def stPointNotOnCurve : Status := 0x0301
def stScalarZero : Status := 0x0302
def stOperandGeModulus : Status := 0x0303
def stCurveRejected : Status := 0x0304
def stSignatureCheckFailed : Status := 0x0305
def stLowOrderPoint : Status := 0x0306
def stRsaKeyInvalid : Status := 0x0307
def stAuthTagMismatch : Status := 0x0308
def stRejectionLimit : Status := 0x0309
def stQueueFull : Status := 0x0401
def stReelBufferFull : Status := 0x0402
def stEntropyFail : Status := 0x0501
def stNotMirror : Status := 0x0601
def stMirrorTimeout : Status := 0x0602
def stMemberLost : Status := 0x0603
def stNoLease : Status := 0x0604
def stLeaseReturned : Status := 0x0605
def stCardRemoved : Status := 0x0701
def stWriteIndeterminate : Status := 0x0702
def stCardWriteProtected : Status := 0x0703
def stCardRecordInvalid : Status := 0x0704
def stCardInitFailed : Status := 0x0705
def stAborted : Status := 0x0801
def stInternalFault : Status := 0x0F01
def stMemoryIntegrity : Status := 0x0F02

/-! ### Modes and causes -/

/-- Table 2.1. -/
def Mode.code : Mode → Nat
  | .dark => 0
  | .vault => 1
  | .wake => 2
  | .selfTest => 3
  | .standby => 4
  | .service => 5
  | .held => 6
  | .draw => 7
  | .ceremony => 8
  | .drain => 9
  | .quarantine => 10
  | .retired => 11

/-- Tables 2.3, 5.18, 13.15 and 16.14, R408 and R432. -/
def Cause.code : Cause → Nat
  | .holdAlarm => 0x01
  | .gateTimeFault => 0x02
  | .reelBufferFull => 0x03
  | .entropyFail => 0x04
  | .entropyLatch => 0x05
  | .blockParity => 0x06
  | .sealDieLost => 0x07
  | .calMargin => 0x08
  | .selfTestFailed => 0x09
  | .ledgerRoot => 0x0A
  | .vaultLost => 0x0B
  | .noiseStart => 0x0C
  | .eraseAlarm => 0x0D
  | .holdInDrain => 0x0E
  | .memoryIntegrity => 0x0F
  | .ddrTraining => 0x10
  | .tapFull => 0x11
  | .escrowStall => 0x12
  | .reelEnded => 0x13
  | .evidenceFull => 0x14
  | .integrityStop => 0x15
  | .refclkAbsent => 0x16
  | .debugScan => 0x17

/-- The rank of a cause's effect (R27): Quarantine 4, Wake (stopped) 3, Held 2, Standby 1. -/
def Cause.rank : Cause → Nat
  | .eraseAlarm => 4
  | .noiseStart | .ddrTraining | .refclkAbsent | .debugScan => 3
  | .calMargin | .selfTestFailed | .ledgerRoot | .vaultLost | .holdInDrain => 1
  | _ => 2

/-- The cause reported of those standing: the highest effect, and of equals the one recorded first (R27). -/
def reportedCause : List Cause → Option Cause
  | [] => none
  | c :: cs =>
    match reportedCause cs with
    | none => some c
    | some d => if c.rank < d.rank then some d else some c

/-- HG_MODE_STAT.CAUSE and ModeCause (R27). -/
def State.causeCode (s : State) : Nat :=
  match reportedCause s.pwr.causes with
  | none => 0
  | some c => c.code

def State.stands (s : State) (c : Cause) : Bool := s.pwr.causes.contains c

def State.clearCause (c : Cause) (s : State) : State :=
  s.onPwr fun p => { p with causes := p.causes.filter (· ≠ c) }

/-- Stopped in Wake by a cause that only a power-on reset ends (R37, R134, R408, R432). -/
def State.wakeStopped (s : State) : Bool :=
  s.pwr.mode = .wake && s.pwr.causes.any fun c => c.rank = 3

/-- KEYS of HG_MODE_STAT: unwrapped sealing keys are present (Table 2.1). -/
def State.keysPresent (s : State) : Bool :=
  match s.pwr.mode with
  | .service | .held | .draw | .drain =>
      s.krf.handles.any fun e => match e.2 with
        | some h => h.state = .unwrapped
        | none => false
  | _ => false

/-- HG_MODE_STAT (Table 2.4). -/
def State.modeStat (s : State) : Nat :=
  b2n s.lc.maint * 0x80000 + b2n s.en.firstSeed * 0x40000 + b2n s.keysPresent * 0x20000
    + b2n (s.tb.dtValid && s.tg.loaded) * 0x10000 + s.causeCode * 0x100 + s.pwr.mode.code

/-- Service or Draw: takes are sealed (Table 2.1). -/
def State.sealing (s : State) : Bool := s.pwr.mode = .service || s.pwr.mode = .draw

/-- The status of a take submitted in this mode (Table 2.1); `none` where it is sealed. -/
def Mode.takeStatus : Mode → Option Status
  | .service | .draw => none
  | .held => some stHeld
  | .quarantine => some stQuarantine
  | _ => some stNotReady

/-- Main power is on: every mode but Dark and Vault. -/
def State.powered (s : State) : Bool :=
  match s.pwr.mode with
  | .dark | .vault => false
  | _ => true

/-- The lanes of the Escrow Line and the Crossing Links have their 156.25 MHz reference; without it they do not lock (R424). -/
def State.serdes (s : State) : Bool := s.powered && bitOf s.tb.refPresent 1

/-! ### Viewers and clear-on-read latches (R9, R19, R301) -/

/-- A number for each viewer: tenants 0 to 63, the regulator 64, the Maker 65, Fleet peers from 66. -/
def viewerCode : Viewer → Nat
  | .tenant t => t % 64
  | .regulator => 64
  | .maker => 65
  | .peer m => 66 + m % 1024

/-- The registers with RC fields, and the source sets read clear-on-read through the Directory (R393). -/
inductive RcReg where
  | fnStat (t : Nat)
  | wrIgn
  | parErr
  | qStat (t q : Nat)
  | pdMbx (t : Nat)
  | lgStat
  | chanStat (n : Nat)
  | liStat (e : Nat)
  | unitStat (u : Nat)
  | laneStat (g : Nat)
  | srcStat (i : Nat)
  | rngStat (t : Nat)
  | mbStat (a : Nat)
  | spLink
  | elReel
  | elLane (l : Nat)
  | xlPort (p : Nat)
  | chStat
  | tgAlarm
  | tgWarn
  | lcStat
  | tbRef
  | alarmsSeen
  | warningsSeen
  | bankStat
  deriving DecidableEq, Repr

def RcReg.code : RcReg → Nat
  | .fnStat t => 0x00000 + t
  | .wrIgn => 0x10000
  | .parErr => 0x20000
  | .qStat t q => 0x30000 + t * 8 + q
  | .pdMbx t => 0x40000 + t
  | .lgStat => 0x50000
  | .chanStat n => 0x60000 + n
  | .liStat e => 0x70000 + e
  | .unitStat u => 0x80000 + u
  | .laneStat g => 0x90000 + g
  | .srcStat i => 0xA0000 + i
  | .rngStat t => 0xB0000 + t
  | .mbStat a => 0xC0000 + a
  | .spLink => 0xD0000
  | .elReel => 0xE0000
  | .elLane l => 0xF0000 + l
  | .xlPort p => 0x100000 + p
  | .chStat => 0x110000
  | .tgAlarm => 0x120000
  | .tgWarn => 0x130000
  | .lcStat => 0x140000
  | .tbRef => 0x150000
  | .alarmsSeen => 0x160000
  | .warningsSeen => 0x170000
  | .bankStat => 0x180000

/-- The viewers that can read a register: the tenant whose window shows it, and for what BAR2 shows, tenant 0 and
the Maker through DBG_REG (R290, R301). -/
def State.rcViewers (s : State) : RcReg → List Viewer
  | .fnStat t | .qStat t _ | .pdMbx t | .rngStat t => if t = 0 then [.tenant 0, .maker] else [.tenant t]
  | .liStat e =>
      let o := (s.engine e).owner
      if 0 < o ∧ o < 64 then [.tenant 0, .maker, .tenant o] else [.tenant 0, .maker]
  | .mbStat a =>
      let o := (s.applet a).owner
      if 0 < o ∧ o < 64 then [.tenant 0, .maker, .tenant o] else [.tenant 0, .maker]
  | .alarmsSeen | .warningsSeen =>
      (List.range 64).map .tenant ++ [.regulator, .maker]
  | _ => [.tenant 0, .maker]

def latchKey (r : RcReg) (v : Viewer) : Nat := r.code * 2048 + viewerCode v

/-- A viewer's latch of a register. -/
def State.latched (s : State) (r : RcReg) (v : Viewer) : Nat := mapGet 0 s.latches (latchKey r v)

def setLatch (bits : Nat) (k : Nat) (m : List (Nat × Nat)) : List (Nat × Nat) :=
  mapSet 0 m k (mapGet 0 m k ||| bits)

/-- An event sets bits in the latch of every viewer that can read the register (R301). -/
def State.latch (r : RcReg) (bits : Nat) (s : State) : State :=
  { s with latches := (s.rcViewers r).foldl (fun m v => setLatch bits (latchKey r v) m) s.latches }

/-- A read clears the register for its viewer alone (R9). -/
def State.clearLatch (r : RcReg) (v : Viewer) (s : State) : State :=
  { s with latches := mapSet 0 s.latches (latchKey r v) 0 }

/-- WR_IGN of block `b` in HG_WR_IGN (R296) (DESIGN CHOICE, log entry 29). -/
def State.ignoredWrite (b : Nat) (s : State) : State := s.latch .wrIgn (2 ^ b)

/-! ### MSI-X (R295) -/

/-- A selective IDE stream. -/
def State.ideStream (s : State) (k : Nat) : IdeStream := mapGet {} s.hg.ide k

/-- The message of a vector, with what its table entry holds. -/
def State.message (fn v : Nat) (s : State) : State :=
  let e := mapGet (0, 0) (s.fn fn).vectors v
  s.emit (.msix fn v e.1 e.2)

/-- One event on a vector: a message, or the pending bit while masked, or nothing while MSI-X is off. -/
def State.msix (fn v : Nat) (s : State) : State :=
  let f := s.fn fn
  if !f.msixEnable then s
  else if f.msixMaskAll || !f.unmasked.contains v then
    s.onFn fn fun f => { f with pba := if f.pba.contains v then f.pba else f.pba ++ [v] }
  else s.message fn v

/-! ### Errors that a function logs (Table 12.1, R289, R293, R303) -/

/-- Bits of the AER uncorrectable error registers (PRESUMED, log entry 28). -/
def aerPoisoned : Nat := 12
def aerCompleterAbort : Nat := 15
def aerUnsupported : Nat := 20

/-- AER logs an error: its status bit, and the message of its severity where it is neither masked nor its reporting off. -/
def State.aerLog (fn bit : Nat) (s : State) : State :=
  let s := s.onFn fn fun f => { f with aerStatus := f.aerStatus ||| 2 ^ bit }
  let f := s.fn fn
  let fatal := bitOf f.aerSeverity bit
  let reports := f.deviceControl.getLsbD (if fatal then 2 else 1) && (bit ≠ aerUnsupported || f.deviceControl.getLsbD 3)
  if reports && !bitOf f.aerMask bit then s.emit (.errorMessage fn fatal) else s

/-! ### DMA (R302, R303) -/

/-- What the host has placed in its memory before a command, and the ranges on which reads now fail. -/
def State.applyEnv (e : HostEnv) (s : State) : State :=
  { s with
    hostMem := e.blocks.foldl (fun m b => m.writeBytes b.1 b.2) s.hostMem
    dmaFail := match e.failing with
      | some r => r
      | none => s.dmaFail }

/-- The function may issue requests: Bus Master Enable is set, the link is up, and the last byte has an address. -/
def State.dmaCan (s : State) (fn addr n : Nat) : Bool :=
  s.hg.linkUp && (s.fn fn).busMaster && decide (addr + n ≤ 2 ^ 64)

/-- A read meets one of the ranges on which reads fail. -/
def State.dmaHits (s : State) (addr n : Nat) : Bool :=
  s.dmaFail.any fun r => decide (r.1 < addr + n ∧ addr ≤ r.2)

/-- Whether a read of `n` bytes succeeds; one of zero bytes issues no request (R302). -/
def State.dmaOk (s : State) (fn addr n : Nat) : Bool :=
  n = 0 || (s.dmaCan fn addr n && !s.dmaHits addr n)

/-- The bytes a DMA read returns. -/
def State.dmaBytes (s : State) (addr n : Nat) : Bytes := s.hostMem.readBytes addr n

/-- A failed read sets DMA_RD of the function (R303). -/
def State.dmaReadFailed (fn : Nat) (s : State) : State := s.latch (.fnStat fn) 2

/-- Whether a write of `n` bytes succeeds: of the failures of R303 only the last three are a write's. -/
def State.dmaLands (s : State) (fn addr n : Nat) : Bool := n = 0 || s.dmaCan fn addr n

/-- A DMA write: the bytes, or DMA_WR. Where requests may have been issued, before the one that has no address, every byte of the
range is a free value; a function that may not issue requests has written nothing (R303). -/
def State.dmaWrite (fn addr : Nat) (b : Bytes) (s : State) : State :=
  if s.dmaLands fn addr b.length then { s with hostMem := s.hostMem.writeBytes addr b }
  else
    let s := s.latch (.fnStat fn) 1
    if s.dmaCan fn 0 0 then
      let n := 2 ^ 64 - addr
      { (s.takeFree n) with hostMem := s.hostMem.writeBytes addr (s.freeBytes n) }
    else s

/-- Writes one after the other, none after one that fails (R303); whether all have succeeded. -/
def State.dmaSend (fn : Nat) : List (Nat × Bytes) → State → State × Bool
  | [], s => (s, true)
  | p :: ps, s =>
    let t := s.dmaWrite fn p.1 p.2
    if s.dmaLands fn p.1 p.2.length then t.dmaSend fn ps else (t, false)

/-! ### The Evidence Log (R385 to R388) -/

/-- The chain head before any record (R386). -/
def evidenceStart : Bytes := be 8 unitId ++ List.replicate 24 0

def State.evidenceHead (s : State) : Bytes := if s.tg.nextSeq = 0 then evidenceStart else s.tg.head

/-- The unarchived count U (R388). -/
def State.unarchived (s : State) : Nat := s.tg.nextSeq - s.tg.mark

/-- Device Time as a record carries it: 0 while it is invalid (Table 16.7). -/
def State.stamp (s : State) : Nat := if s.tb.dtValid then s.tb.deviceTime else 0

/-- The first 24 bytes of a record (Table 16.7). -/
def State.evidenceBody (s : State) (kind code time : Nat) (data : Bytes) : Bytes :=
  be 1 kind ++ be 1 (b2n (s.pwr.mode = .vault) + 2 * b2n s.lc.maint) ++ be 2 code ++ be 4 s.tg.nextSeq
    ++ be 8 time ++ slice data 0 8

/-- A record enters the queue of the Vault: Seq and the chain are assigned there (R387). -/
def State.evidencePut (body : Bytes) (s : State) : State :=
  let h := Config.sha256 (0x56 :: s.evidenceHead ++ body)
  s.onTg fun t => { t with
    queue := t.queue ++ [(t.nextSeq, body ++ h.take 8)]
    nextSeq := t.nextSeq + 1
    head := h }

/-- Write an Evidence Log record, or count it as suppressed: when eight records wait, or when U has reached 16,320
(R387, R388). An ERASE-class ALARM record is always accepted. -/
def State.evidence (kind code time : Nat) (data : Bytes) (eraseAlarm : Bool) (s : State) : State :=
  if eraseAlarm || (s.unarchived < 16320 && s.tg.queue.length < 8) then
    s.evidencePut (s.evidenceBody kind code time data)
  else s.onTg fun t => { t with suppressed := t.suppressed + 1 }

/-- An EVENT record (Table 16.8). -/
def State.event (code : Nat) (data : Bytes) (s : State) : State := s.evidence 4 code s.stamp data false

/-- The MODE record of a cause that arises (R27, Table 16.7). -/
def State.causeRecord (c : Cause) (before after : Mode) (s : State) : State :=
  s.evidence 3 c.code s.stamp (be 1 before.code ++ be 1 after.code) false

/-! ### The journal (R78, R123) -/

/-- The Continuity of a record whose other covered bytes are `body` (Table 3.10). -/
def chain (prev body : Bytes) : Bytes := Config.sha256 (0x43 :: prev ++ body)

/-- The bytes of the reel buffer in use (R77) (DESIGN CHOICE, log entry 24). -/
def State.reelFill (s : State) : Nat := (s.lg.reel.map fun r => r.bytes.length).sum

/-- Write the copy of a record into the tap ring, wrapping at its end (R123). -/
def tapCells (addr log2 pos : Nat) (b : Bytes) : List (Nat × Bytes) :=
  let size := 2 ^ log2
  let at' := pos % size
  let first := b.take (size - at')
  [(addr + at', first), (addr, b.drop first.length)]

/-- Once PERST# has come in Drain, no completion, receipt or other host write for any take goes out (R48). -/
def State.silentDrain (s : State) : Bool :=
  match s.pwr.drain with
  | some d => d.silent
  | none => false

/-- TAP_COPY (R123): the copy of a record goes to the ring; a failed write leaves its bytes counted. -/
def State.tapCopy (b : Bytes) (s : State) : State :=
  if s.lg.tapLog2 = 0 then s
  else if s.silentDrain then s.onLg fun g => { g with tapWritten := g.tapWritten + b.length }
  else
    let parts := tapCells s.lg.tapAddress s.lg.tapLog2 s.lg.tapWritten b
    let r := s.dmaSend 0 parts
    r.1.onLg fun g => { g with tapWritten := g.tapWritten + b.length, tapFailed := g.tapFailed || !r.2 }

/-- Bytes of the tap ring that are free (R123). -/
def State.tapFree (s : State) : Nat := 2 ^ s.lg.tapLog2 - (s.lg.tapWritten - s.lg.tapConsumed)

/-- The journal goes on past a stow: the anchor's stow names its end no more, and the anchor is again what it was before
(R122, R126) (DEDUCED, log entry 50). -/
def Anchor.pastStow (a : Anchor) : Anchor :=
  if a.state = .stowed then { a with state := if a.seq = 0 then .empty else .checkpointed } else a

/-- Append a journal record: `body` is what its Continuity covers, `tail` what follows the Continuity. -/
def State.journal (body tail : Bytes) (s : State) : State :=
  let c := chain s.lg.continuity body
  let r := body ++ c ++ tail
  let s := s.onLg fun g => { g with
    journalCount := g.journalCount + 1
    continuity := c
    anchor := if s.pwr.stowed then g.anchor else g.anchor.pastStow
    reel := g.reel ++ [{ bytes := r, last := g.journalCount + 1 }]
    reelWritten := g.reelWritten + r.length }
  s.tapCopy r

/-- A SLOT_ADMIN record (Table 5.3). -/
def slotAdmin (action reason tenant epoch slot count serial time handle state first last : Nat) : Bytes :=
  be 1 0x30 ++ be 1 action ++ be 2 reason ++ be 1 tenant ++ [0] ++ be 2 epoch ++ be 4 slot ++ be 4 count
    ++ be 8 serial ++ be 8 time ++ be 2 handle ++ be 1 state ++ List.replicate 5 0 ++ be 8 first ++ be 8 last
    ++ List.replicate 40 0

/-- A DRAW_COMMIT, DRAW_END or STATS record (Table 10.11). -/
def State.appletRecord (kind reason a commit seq : Nat) (body : Bytes) (s : State) : Bytes :=
  let p := body.length + (8 - body.length % 8) % 8
  let ap := s.applet a
  be 1 kind ++ be 1 reason ++ be 2 (88 + p) ++ be 1 ap.owner ++ be 1 a
    ++ be 2 (mapGet 0 s.sz.epochs a) ++ be 8 ap.appletId ++ be 4 ap.version ++ be 4 commit ++ be 8 seq
    ++ be 8 s.tb.deviceTime ++ be 8 unitId ++ be 4 body.length ++ be 4 0 ++ padTo p body

/-! ### Draws (R258, R259) -/

/-- The outbound messages held for the uncommitted phase are discarded, setting DRAW_DISCARD (R259). -/
def State.discardHeld (a : Nat) (s : State) : State :=
  match (s.applet a).holdFrom with
  | none => s
  | some h =>
    let s := if (s.applet a).outTail = h then s else s.latch (.mbStat a) 0x20
    s.onApplet a fun ap => { ap with outTail := h, outNext := h, holdFrom := none }

/-- The wake latch of every core of a slot (R254). -/
def State.wakeSlot (a : Nat) (s : State) : State :=
  (s.applet a).cores.foldl (fun s c => s.onCore c fun k => { k with wake := true }) s

/-- The call of a core waits for `o`. -/
def State.awaits (n : Nat) (o : Outstanding) (s : State) : State :=
  s.onSz fun z => { z with outstanding := mapSet none z.outstanding n (some o) }

/-- A service call ends: its status goes to w0 and the core runs on (R256). -/
def State.serviceEnd (core : Nat) (status : Status) (s : State) : State :=
  let s := s.onSz fun z => { z with outstanding := mapSet none z.outstanding core none }
  let k := s.core core
  if k.run = .service || (k.run = .debug && k.resumeTo = .service) then
    s.onCore core fun k => { k with
      run := if k.run = .debug then .debug else .running
      resumeTo := .running
      pend := k.pend ++ [{ loc := .w 0, value := (status.setWidth 72), dist := 0, mac := false }] }
  else s

/-- A draw ends (R259): the instance is wiped and its epoch advances (R203), DRAW_END is appended with the reason (none on an ERASE alarm), what
the uncommitted phase held is discarded, and a waiting DRAW_COMMIT returns. The caller changes the mode. -/
def State.drawEnd (reason : Option Nat) (pendingStatus : Option Status) (s : State) : State :=
  match s.sz.draw with
  | none => s
  | some d =>
    let s := match reason with
      | none => s
      | some r => s.journal (s.appletRecord 0x41 r d.slot d.commits d.seq []) []
    let s := if d.uncommitted then s.discardHeld d.slot else s
    let s := match d.waiting, pendingStatus with
      | some (c, _), some st => s.serviceEnd c st
      | _, _ => s
    let s := s.onDrbg 76 fun d => { epoch := (d.epoch + 1) % 65536 }
    let s := s.onSz fun z => { z with draw := none }
    s.wakeSlot d.slot

/-! ### Takes (R55, R56, R61, R80) -/

/-- CQ and SQ sizes of a pair. -/
def QPair.cqSize (q : QPair) : Nat := 2 ^ (bitsOf q.cfg.toNat 12 8)
def QPair.sqSize (q : QPair) : Nat := 2 ^ (bitsOf q.cfg.toNat 4 0)
def QPair.vector (q : QPair) : Nat := bitsOf q.cfg.toNat 20 16
def QPair.enabled (q : QPair) : Bool := q.cfg.getLsbD 31

/-- A completion entry (Table 3.6). -/
def completionEntry (t : Take) (status : Status) (outcome q : Nat) (phase : Bool) : Bytes :=
  le 8 (t.commandId * 2 ^ 48 + status.toNat * 2 ^ 32 + t.sqHead * 2 ^ 16 + outcome * 16 + q * 2 + b2n phase)
    ++ le 8 t.serial ++ le 8 t.officialTime ++ le 8 t.manifest

/-- The counters of Table 3.15: Outcome 0 NOT_RESERVED, 1 SEALED, 2 VOID. -/
def TakeCounts.count (outcome : Nat) (c : TakeCounts) : TakeCounts :=
  match outcome with
  | 0 => { c with refused := c.refused + 1 }
  | 1 => { c with sealed := c.sealed + 1 }
  | 2 => { c with void := c.void + 1 }
  | _ => c

def State.countTake (tenant outcome : Nat) (s : State) : State :=
  (s.onCounts tenant (TakeCounts.count outcome)).onTd fun d => { d with device := d.device.count outcome }

/-- A service writes to a core's data memory (space 0) or to a shared region (1 + the region): the reservations of the
granules it covers fall (R239). -/
def State.writeResult (core space offset : Nat) (b : Bytes) (s : State) : State :=
  let hit := fun (g : Nat) => decide (offset / 8 ≤ g ∧ g ≤ (offset + b.length - 1) / 8)
  if space = 0 then s.onCore core fun c => { c with
    dmem := c.dmem.writeBytes offset b
    reservation := match c.reservation with
      | some (0, g) => if hit g then none else c.reservation
      | r => r }
  else s.onSz fun z => { z with
    regions := mapSet {} z.regions (space - 1)
      { mapGet {} z.regions (space - 1) with mem := (mapGet {} z.regions (space - 1)).mem.writeBytes offset b }
    cores := z.cores.map fun e => match e.2.reservation with
      | some (sp, g) => if sp = space && hit g then (e.1, { e.2 with reservation := none }) else e
      | none => e }

/-- A completion entry has gone to the CQ (R55 to R57). -/
def QPair.posted (clock : Nat) (p : QPair) : QPair :=
  let tail := if p.cqTail + 1 = p.cqSize then 0 else p.cqTail + 1
  let used := p.cqUsed + 1
  { p with
    cqTail := tail
    phase := if tail = 0 then !p.phase else p.phase
    cqUsed := used
    outstanding := p.outstanding - 1
    fullSince := if used = p.cqSize ∧ p.fullSince = none then some clock else p.fullSince }

/-- COMPLETION_POST (R56): the completion entry, then MSI-X. Nothing goes out once PERST# has come in Drain (R48), and
nothing touches the pair where the tenant's queues are lost (R50); a take of an applet ends its SEAL_RECORD service instead
(Table 10.10). An entry whose DMA write fails is lost (DEDUCED, log entry 63). -/
def State.completeTake (t : Take) (status : Status) (outcome : Nat) (s : State) : State :=
  let s := s.countTake t.tenant outcome
  match t.source with
  | .applet c =>
    match mapGet none s.sz.outstanding c with
    | some (.seal id space offset) =>
      if id = t.id then
        let s := s.writeResult c space offset
          (completionEntry { t with commandId := 0, sqHead := 0 } status outcome 0 false)
        s.serviceEnd c status
      else s
    | _ => s
  | .queue q =>
    if t.silent then s
    else if s.silentDrain then s.onQ t.tenant q fun p => { p with outstanding := p.outstanding - 1 }
    else
      let p := s.qpair t.tenant q
      let s := s.dmaWrite t.tenant (p.cqBase + 32 * p.cqTail) (completionEntry t status outcome q p.phase)
      let s := s.onQ t.tenant q fun p => p.posted s.clock
      if t.irq then s.msix t.tenant p.vector else s

/-- Change one take of the In-Flight Table. -/
def State.onTake (id : Nat) (f : Take → Take) (s : State) : State :=
  s.onTd fun d => { d with inflight := d.inflight.map fun t => if t.id = id then f t else t }

def State.takeById (s : State) (id : Nat) : Option Take := s.td.inflight.find? fun t => t.id = id

/-- Give every In-Flight take that `p` names a failure code if it has none of its own, and its result is decided: it
lands VOID with that code (R80). A record that is with the mirror stays there until the answer. -/
def State.failTakes (p : Take → Bool) (code : Status) (s : State) : State :=
  s.onTd fun d => { d with
    inflight := d.inflight.map fun t =>
      if p t && t.failure = none then
        { t with failure := some code, phase := if t.phase = .mirror then .mirror else .returned, rnd := [] }
      else t }

/-- The Lattice Units that work for a user that `p` names are free again (R182). -/
def State.releaseUnits (p : UnitUser → Bool) (s : State) : State :=
  s.onLh fun l => { l with units := l.units.map fun e => match e.2.running with
    | some o => if p o.user then (e.1, { e.2 with running := none }) else e
    | none => e }

/-- MANIFEST_ABANDON (R99): before its slate a manifest goes, its takes VOID with the code. -/
def State.abandonManifests (p : Manifest → Bool) (code : Status) (s : State) : State :=
  let gone := s.td.manifests.filter fun m => m.phase ≠ .slated && p m
  let s := gone.foldl (fun s m => s.onCounts m.tenant fun c =>
    { c with manifestsAbandoned := c.manifestsAbandoned + 1 }) s
  let s := s.failTakes (fun t => gone.any fun m => m.id = t.manifest) code
  let s := s.releaseUnits fun u => gone.any fun m => u = .manifestSign m.id || u = .manifestVerify m.id
  s.onTd fun d => { d with manifests := d.manifests.filter fun m => !(m.phase ≠ .slated && p m) }

end Sys2Proof.Machine
end

