-- ==== Sys2Proof/Machine/Fetch.lean ====
section
/-! DEFINITION. The fetch of a descriptor from a submission queue (R54, R55, R59, R60), and what a mode that shuts the queues
owes the descriptors they hold (R28, R46, R49). -/

namespace Sys2Proof.Machine

/-- A descriptor's words as a take (Table 3.5). -/
def parseDescriptor (b : Bytes) (id t q : Nat) : Take :=
  let flags := leAt b 4 1
  let receipt := leAt b 24 8
  let noReceipt := flags.testBit 1
  { id := id
    source := .queue q
    tenant := t
    commandId := leAt b 6 2
    irq := flags.testBit 0
    noReceipt := noReceipt
    malformed := leAt b 5 1 ≠ 0 || 4 ≤ flags || leAt b 2 2 ≠ 0 || leAt b 1 1 ≠ 1 || leAt b 0 1 ≠ 1
      || leAt b 12 4 / 2 ^ 21 ≠ 0 || leAt b 40 24 ≠ 0 || (!noReceipt && (receipt = 0 || receipt % 64 ≠ 0))
    slot := leAt b 12 4 % 2 ^ 21
    gate := leAt b 10 2
    length := leAt b 8 2
    payloadAddr := leAt b 16 8
    receipt := receipt
    clientTag := leAt b 32 8 }

/-- Room in the In-Flight Table for one take more (R54). The table holds takes that have reserved a serial; the model
counts the fetched takes that have not reserved yet with them, so that each finds its place (DESIGN CHOICE, log entry 122). -/
def State.inflightRoom (s : State) : Bool := s.td.inflight.length + s.td.fetched.length < 2048

/-- Descriptors in the submission queue (R54). -/
def QPair.queued (p : QPair) : Nat := (p.sqTail % p.sqSize + p.sqSize - p.sqHead) % p.sqSize

/-- The Gateway fetches from a pair: enabled, not stalled, a descriptor waits, a CQ entry is free (R54)
(DEDUCED, log entry 64). -/
def QPair.ready (p : QPair) : Bool :=
  p.enabled && !p.stalled && p.queued ≠ 0 && p.cqUsed + p.outstanding < p.cqSize

/-- Takes are served now: main power, and neither a stow nor a PERST# Drain has ended it (R48, R125). -/
def State.fetches (s : State) : Bool :=
  s.powered && !s.pwr.stowed && s.pwr.mode ≠ .retired && !s.silentDrain

/-- The pair whose turn it is: the first ready one from `rrNext` on (R54). -/
def State.nextPair (s : State) : Option Nat :=
  (List.range 512).map (fun i => (s.hg.rrNext + i) % 512) |>.find? fun k => (s.qpair (k / 8) (k % 8)).ready

/-- The status owed to the oldest queued descriptor, if one is. -/
def QPair.owes (p : QPair) : Option Status := p.owed.head?.map (·.2)

/-- One owed descriptor has been fetched. -/
def payOwed : List (Nat × Status) → List (Nat × Status)
  | [] => []
  | (n, st) :: rest => if n ≤ 1 then rest else (n - 1, st) :: rest

/-- A mode that shuts the queues owes its status to every descriptor now queued that has none yet. -/
def QPair.owe (st : Status) (p : QPair) : QPair :=
  let n := if p.enabled then p.queued - (p.owed.map (·.1)).sum else 0
  if n = 0 then p else { p with owed := p.owed ++ [(n, st)] }

/-- Held, Drain and Quarantine complete what is queued or fetched with their own status, however late it is reserved
(R28, R46 step 1, R49). -/
def State.oweQueues (st : Status) (s : State) : State :=
  let s := s.onHg fun h => { h with queues := h.queues.map fun e => (e.1, e.2.owe st) }
  s.onTd fun d => { d with fetched := d.fetched.map fun t => { t with failure := some (t.failure.getD st) } }

/-- The descriptor of pair `k` is fetched; a fetch that fails clears ENABLE and sets FETCH_ERR (R54, Table 3.3)
(DESIGN CHOICE, log entry 9). The payload is read at reservation (R70 step 3). -/
def State.fetchFrom (k : Nat) (s : State) : State :=
  let t := k / 8
  let q := k % 8
  let p := s.qpair t q
  let s := s.onHg fun h => { h with rrNext := (k + 1) % 512 }
  let addr := p.sqBase + 64 * p.sqHead
  if !s.dmaOk t addr 64 then
    ((s.dmaReadFailed t).latch (.qStat t q) 2).onQ t q fun p => { p with cfg := p.cfg &&& 0x7FFFFFFF#32 }
  else
    let head := if p.sqHead + 1 = p.sqSize then 0 else p.sqHead + 1
    let d : Take := { parseDescriptor (s.dmaBytes addr 64) s.td.nextId t q with sqHead := head, failure := p.owes }
    let s := s.onQ t q fun p => { p with
      sqHead := head
      outstanding := p.outstanding + 1
      owed := payOwed p.owed }
    s.onTd fun x => { x with nextId := x.nextId + 1, fetched := x.fetched ++ [d] }

/-- A descriptor that the mode has shut out still waits in a queue that can be fetched from. -/
def State.owing (s : State) : Bool := s.hg.queues.any fun e => e.2.ready && e.2.owed ≠ []

/-- A SEAL_RECORD that waits becomes a fetched take once the In-Flight Table has room (R54, Table 10.10). -/
def State.admitSeal (core : Nat) (s : State) : State :=
  match mapGet none s.sz.outstanding core with
  | some (.sealWait t space offset) =>
    if s.inflightRoom then
      (s.awaits core (.seal t.id space offset)).onTd fun d => { d with fetched := d.fetched ++ [t] }
    else s
  | _ => s

def State.admitSeals (s : State) : State := s.sz.outstanding.foldl (fun s e => s.admitSeal e.1) s

/-- A take fails before reservation: one completion, no serial (R70). -/
def State.refuseTake (t : Take) (status : Status) (s : State) : State :=
  let s := s.onTd fun x => { x with fetched := x.fetched.filter (·.id ≠ t.id) }
  (s.completeTake t status 0).admitSeals

/-- Every queued descriptor is fetched and completes with `st` (R49); `fuel` bounds what 512 queues of 65,536 can hold. -/
def State.emptyQueues (st : Status) : Nat → State → State
  | 0, s => s
  | fuel + 1, s =>
    match s.nextPair with
    | none => s
    | some k =>
      let n := s.td.nextId
      let s := s.fetchFrom k
      State.emptyQueues st fuel (match s.td.fetched.find? fun t => t.id = n with
        | some t => s.refuseTake t st
        | none => s)

end Sys2Proof.Machine
end

