-- ==== Sys2Proof/Machine/Causes.lean ====
section
/-! DEFINITION. How a cause arises and what it does (R27, R28), what ends when the GX8 enters Held, and the checks that
follow an Evidence Log record or a journal record (R77, R123, R388). -/

namespace Sys2Proof.Machine

/-- A direct engine's or a service's command ends without its result: the status is reported unless a function-level
reset took its owner (R162). -/
def State.endEngine (e : Nat) (code : Option Status) (s : State) : State :=
  match (s.engine e).running with
  | none => s
  | some c =>
    let s := s.onEngine e fun g => { g with running := none }
    match code, c.user with
    | none, _ => s
    | some st, .service core => s.serviceEnd core st
    | some st, .direct =>
      let s := (s.onEngine e fun g => { g with status := st.toNat, detail := 0 }).latch (.liStat e) 0x40000000
      let g := s.engine e
      if g.irq && g.owner < 64 then s.msix g.owner g.vector else s

/-- Every running engine command that `p` names is aborted (R162). -/
def State.abortEngines (p : Nat → LieCmd → Bool) (code : Option Status) (s : State) : State :=
  (List.range 96).foldl (fun s e =>
    match (s.engine e).running with
    | some c => if p e c then s.endEngine e code else s
    | none => s) s

/-- A key creation ends with `code` (R159, R204). -/
def State.failKeyOp (code : Status) (s : State) : State :=
  match s.krf.running with
  | none => s
  | some k => (s.setNum 0x2100 0xA k.tenant code.toNat).onKrf fun x => { x with running := none }

/-- What the user of an operation that ends without a result learns: a service its status, a key creation KeyOpStatus;
the import pair is not made; a microcode load waits for a unit again, and a manifest's end is its caller's. -/
def State.unitEnds (o : UnitOp) (code : Status) (s : State) : State :=
  match o.user with
  | .service core | .serviceVerify core => s.serviceEnd core code
  | .anchor .keyOp => s.failKeyOp code
  | .anchor .importPair => s.onKrf fun k => { k with pairDue := false }
  | .anchor .ucode | .manifestSign _ | .manifestVerify _ => s

/-- A unit is free again. -/
def State.freeUnit (u : Nat) (s : State) : State := s.onUnit u fun l => { l with running := none }

/-- Operations of Lattice Units that `p` names end without a result (R182). -/
def State.abortUnits (p : UnitOp → Bool) (code : Status) (s : State) : State :=
  let s := (List.range 24).foldl (fun s u =>
    match (s.latticeUnit u).running with
    | some o => if p o then (s.freeUnit u).unitEnds o code else s
    | none => s) s
  let gone := s.lh.toVerify.filter fun e => p e.2
  gone.foldl (fun s e => s.unitEnds e.2 code) (s.onLh fun l => { l with toVerify := l.toVerify.filter fun e => !p e.2 })

/-- Record a standing cause: ENTROPY_LATCH replaces ENTROPY_FAIL (R27). -/
def State.addCause (c : Cause) (s : State) : State :=
  if s.stands c then s
  else s.onPwr fun p => { p with
    causes := (if c = .entropyLatch then p.causes.filter (· ≠ .entropyFail) else p.causes) ++ [c] }

/-- The write that brings U to 16,320 raises cause EVIDENCE_FULL, whose own record is suppressed (R388). -/
def State.noteEvidence (s : State) : State :=
  if s.unarchived < 16320 || s.stands .evidenceFull then s
  else (s.addCause .evidenceFull).onTg fun t => { t with suppressed := t.suppressed + 1 }

/-- A cause that changes no mode any more is recorded (R27). -/
def State.noteCause (c : Cause) (s : State) : State :=
  if s.stands c then s
  else ((s.addCause c).causeRecord c s.pwr.mode s.pwr.mode).noteEvidence

/-- A journal record has left less than 1 MiB of reel buffer free (R77). -/
def State.reelShort (s : State) : Bool := 2 ^ 30 - s.reelFill < 2 ^ 20 && !s.stands .reelBufferFull

/-- A journal record has left less than 384 KiB of the tap ring free (R123). -/
def State.tapShort (s : State) : Bool := s.lg.tapLog2 ≠ 0 && s.tapFree < 384 * 1024

/-- The two causes that a journal record can bring, once the mode has changed already (R77, R123). -/
def State.noteFull (s : State) : State :=
  let s := if s.reelShort then (s.latch .elReel 8).noteCause .reelBufferFull else s
  if s.tapShort then (s.latch .lgStat 0x10).noteCause .tapFull else s

/-- HELD_ENTRY (R28): what is queued or fetched completes HELD, reserved takes land VOID with `code` where they have no
code of their own, manifests before their slate are abandoned, a draw ends with reason HELD, a waiting claim returns, and
the draw instance is wiped (R203). The keys stay in the KRF. -/
def State.enterHeld (code : Status) (s : State) : State :=
  let s := (s.onPwr fun p => { p with mode := .held }).oweQueues stHeld
  let s := s.abandonManifests (fun _ => true) code
  let s := s.failTakes (fun _ => true) code
  let s := match s.sz.draw with
    | some _ => s.drawEnd (some 3) (some stHeld)
    | none => s.onDrbg 76 fun d => { epoch := (d.epoch + 1) % 65536 }
  let s := match s.en.drawWait with
    | some c => (s.onEn fun e => { e with drawWait := none }).serviceEnd c
        (if code = stEntropyFail then stEntropyFail else stHeld)
    | none => s
  s.noteFull

/-- The mode a cause of this rank leaves the GX8 in. -/
def State.modeAfter (s : State) (c : Cause) : Mode :=
  if c.rank = 2 && s.sealing then .held else s.pwr.mode

/-- What follows an Evidence Log record: EVIDENCE_FULL takes Service or Draw to Held (R388). -/
def State.afterEvidence (s : State) : State :=
  let was := s.stands .evidenceFull
  let s := s.noteEvidence
  if !was && s.stands .evidenceFull && s.sealing then s.enterHeld stHeld else s

/-- An EVENT record, and the check that follows it. -/
def State.logEvent (code : Nat) (data : Bytes) (s : State) : State := (s.event code data).afterEvidence

/-- A cause arises (R27): it stands, it is recorded in the Evidence Log (unless its ALARM record stands for it, R374,
R377), and a cause with effect Held takes Service or Draw to Held. -/
def State.raiseCauseWith (c : Cause) (code : Status) (s : State) : State :=
  if s.stands c then s
  else
    let before := s.pwr.mode
    let after := s.modeAfter c
    let s := s.addCause c
    let s := if c = .holdAlarm || c = .eraseAlarm then s else s.causeRecord c before after
    let s := if after = .held && before ≠ .held then s.enterHeld code else s
    s.afterEvidence

def State.raiseCause (c : Cause) (s : State) : State := s.raiseCauseWith c stHeld

/-- REEL_BUFFER_FULL and TAP_FULL follow a record that leaves less than 1 MiB of reel buffer or less than 384 KiB of
the tap ring free (R77, R123). -/
def State.afterJournal (s : State) : State :=
  let s := if s.reelShort then (s.latch .elReel 8).raiseCause .reelBufferFull else s
  if s.tapShort then (s.latch .lgStat 0x10).raiseCause .tapFull else s

/-- Append a journal record and make the checks that follow it. -/
def State.append (body tail : Bytes) (s : State) : State := (s.journal body tail).afterJournal

/-- Draw returns to Service when a draw ends in Draw mode (R259). -/
def State.leaveDraw (s : State) : State :=
  if s.pwr.mode = .draw then s.onPwr fun p => { p with mode := .service } else s

end Sys2Proof.Machine
end

