-- ==== Sys2Proof/Machine/Objects.lean ====
section
/-! DEFINITION. The objects of the Parameter Directory (R262): Tables 2.5, 3.14, 3.15, 4.4, 5.17, 6.14, 7.7, 8.10, 10.14,
11.3, 11.17, 12.7, 12.12, 13.14, 14.11, 15.9, 16.13 and 17.13, row by row. -/

namespace Sys2Proof.Machine

/-- The object types of Table 11.1. -/
inductive PType where
  | bool
  | u8
  | u16
  | u32
  | u64
  | i32
  | i64
  | frac32
  | time64
  | octets
  | string
  | digest
  deriving DecidableEq, Repr

/-- The access of a role (R262). -/
inductive Access where
  | none
  | ro
  | rw
  | wo
  | const
  deriving DecidableEq, Repr

/-- Persistence classes (R262, Table 2.10). -/
inductive Persist where
  | vol
  | wrm
  | vlt
  | fus
  deriving DecidableEq, Repr

/-- Apply points (R263). -/
inductive ApplyPoint where
  | now
  | off
  | edge
  deriving DecidableEq, Repr

/-- An object, or an array of objects that differ only in index and subindex (R262). -/
structure Obj where
  lo : Nat
  hi : Nat
  subLo : Nat
  subHi : Nat
  name : String
  type : PType
  op : Access
  reg : Access
  maker : Access
  /-- The Operator's access is tenant 0's alone. -/
  t0 : Bool
  /-- The Regulator's access holds only in Ceremony. -/
  ceremony : Bool
  /-- The default; none where the manual gives "—" or a value set in silicon, and for byte strings. -/
  dflt : Option Nat
  pers : Persist
  apply : ApplyPoint
  tenant : Bool
  peer : Bool
  deriving DecidableEq, Repr

/-- Table 11.1. -/
def PType.code : PType → Nat
  | .bool => 0x01
  | .u8 => 0x02
  | .u16 => 0x03
  | .u32 => 0x04
  | .u64 => 0x05
  | .i32 => 0x06
  | .i64 => 0x07
  | .frac32 => 0x08
  | .time64 => 0x09
  | .octets => 0x0A
  | .string => 0x0B
  | .digest => 0x0C

/-- Bytes of a value of a fixed-size type; none for OCTETS and STRING. -/
def PType.size : PType → Option Nat
  | .bool | .u8 => some 1
  | .u16 => some 2
  | .u32 | .i32 | .frac32 => some 4
  | .u64 | .i64 | .time64 => some 8
  | .digest => some 32
  | .octets | .string => none

/-- The most value bytes an object of the type holds (R262, Table 11.9 MaxLength). -/
def PType.maxLength (t : PType) : Nat :=
  match t.size with
  | some n => n
  | none => if t = .string then 256 else 4096

/-- The type's values are byte strings (R6), not numbers. -/
def PType.isBytes : PType → Bool
  | .octets | .string | .digest => true
  | _ => false

/-- The objects of the ranges from 0x1000. -/
def objects1 : List Obj := [
  ⟨0x1000, 0x1000, 0x01, 0x01, "VendorName", .string, .const, .const, .const, false, false, none, .fus, .now, false, true⟩,
  ⟨0x1000, 0x1000, 0x02, 0x02, "ProductName", .string, .const, .const, .const, false, false, none, .fus, .now, false, true⟩,
  ⟨0x1000, 0x1000, 0x03, 0x03, "UnitId", .u64, .const, .const, .const, false, false, none, .fus, .now, false, true⟩,
  ⟨0x1000, 0x1000, 0x04, 0x04, "OrderingCode", .string, .const, .const, .const, false, false, none, .fus, .now, false, true⟩,
  ⟨0x1000, 0x1000, 0x05, 0x05, "SiliconStepping", .u16, .const, .const, .const, false, false, none, .fus, .now, false, true⟩,
  ⟨0x1000, 0x1000, 0x06, 0x06, "DirectoryFormat", .u16, .const, .const, .const, false, false, some 0x1, .fus, .now, false, true⟩,
  ⟨0x1000, 0x1000, 0x07, 0x07, "TamperGroupsFused", .u32, .const, .const, .const, false, false, some 0, .fus, .now, false, true⟩,
  ⟨0x1000, 0x1000, 0x08, 0x08, "DeviceCertificate", .octets, .const, .const, .const, false, false, none, .fus, .now, false, true⟩,
  ⟨0x1100, 0x1100, 0x01, 0x01, "ModeCurrent", .u8, .ro, .ro, .ro, false, false, some 0x2, .vol, .now, false, true⟩,
  ⟨0x1100, 0x1100, 0x02, 0x02, "ModeRequest", .u8, .wo, .wo, .none, true, false, some 0x0, .vol, .now, false, false⟩,
  ⟨0x1100, 0x1100, 0x03, 0x03, "RestartRequest", .u32, .wo, .wo, .wo, true, false, some 0x0, .vol, .now, false, false⟩,
  ⟨0x1100, 0x1100, 0x04, 0x04, "ModeCause", .u8, .ro, .ro, .ro, false, false, some 0x0, .vol, .now, false, true⟩,
  ⟨0x1100, 0x1100, 0x05, 0x05, "MaintenanceActive", .bool, .ro, .ro, .ro, false, false, some 0, .vol, .now, false, false⟩,
  ⟨0x1100, 0x1100, 0x06, 0x06, "SelfTestResult", .u32, .ro, .ro, .ro, false, false, some 0x0, .vol, .now, false, false⟩,
  ⟨0x1100, 0x1100, 0x07, 0x07, "CalMarginMonitor", .u16, .ro, .ro, .ro, false, false, some 0xffff, .vol, .now, false, false⟩,
  ⟨0x1100, 0x1100, 0x08, 0x08, "CalMarginRatio", .u16, .ro, .ro, .ro, false, false, some 0x0, .vol, .now, false, false⟩,
  ⟨0x1100, 0x1100, 0x09, 0x09, "DrainLimit", .u32, .ro, .rw, .rw, false, false, some 3000, .vlt, .edge, false, false⟩,
  ⟨0x1100, 0x1100, 0x0A, 0x0A, "BootCount", .u32, .ro, .ro, .ro, false, false, some 0, .fus, .now, false, false⟩,
  ⟨0x1100, 0x1100, 0x0B, 0x0B, "VaultLost", .bool, .ro, .ro, .ro, false, false, some 0, .vol, .now, false, false⟩]

/-- The objects of the ranges from 0x2000. -/
def objects2 : List Obj := [
  ⟨0x2000, 0x2000, 0x01, 0x01, "TenantCount", .u8, .const, .const, .const, false, false, some 64, .fus, .now, false, false⟩,
  ⟨0x2000, 0x2000, 0x02, 0x02, "VfsEnabled", .u8, .ro, .ro, .ro, false, false, some 0, .vol, .now, false, false⟩,
  ⟨0x2010, 0x2010, 0x00, 0x3F, "TenantState", .u8, .ro, .ro, .ro, false, false, some 0x0, .vol, .now, false, false⟩,
  ⟨0x2011, 0x2011, 0x00, 0x3F, "TenantResets", .u32, .ro, .ro, .ro, false, false, some 0, .vol, .now, false, false⟩,
  ⟨0x2012, 0x2012, 0x00, 0x3F, "TenantBusErrors", .u32, .ro, .ro, .ro, false, false, some 0, .vol, .now, false, false⟩,
  ⟨0x2100, 0x2100, 0x01, 0x01, "KeySelect", .u16, .rw, .rw, .none, false, false, some 0x0, .vol, .now, true, false⟩,
  ⟨0x2100, 0x2100, 0x02, 0x02, "KeyNewType", .u8, .rw, .rw, .none, false, true, some 0x0, .vol, .now, true, false⟩,
  ⟨0x2100, 0x2100, 0x03, 0x03, "KeyNewUsage", .u8, .rw, .rw, .none, false, true, some 0x0, .vol, .now, true, false⟩,
  ⟨0x2100, 0x2100, 0x04, 0x04, "KeyNewWords", .u8, .rw, .rw, .none, false, true, some 0, .vol, .now, true, false⟩,
  ⟨0x2100, 0x2100, 0x05, 0x05, "KeyGenerate", .u32, .wo, .none, .none, false, false, some 0, .vol, .now, true, false⟩,
  ⟨0x2100, 0x2100, 0x06, 0x06, "KeyImportPublic", .octets, .none, .ro, .none, false, true, none, .vol, .now, true, false⟩,
  ⟨0x2100, 0x2100, 0x07, 0x07, "KeyImportBlob", .octets, .none, .rw, .none, false, true, none, .vol, .now, true, false⟩,
  ⟨0x2100, 0x2100, 0x08, 0x08, "KeyImport", .u32, .none, .wo, .none, false, true, some 0, .vol, .now, true, false⟩,
  ⟨0x2100, 0x2100, 0x09, 0x09, "KeyDelete", .u32, .wo, .wo, .none, false, true, some 0, .vol, .now, true, false⟩,
  ⟨0x2100, 0x2100, 0x0A, 0x0A, "KeyOpStatus", .u16, .ro, .ro, .none, false, false, some 0x0, .vol, .now, true, false⟩,
  ⟨0x2100, 0x2100, 0x0B, 0x0B, "KeyPublic", .octets, .ro, .ro, .none, false, false, none, .vol, .now, true, false⟩,
  ⟨0x2100, 0x2100, 0x0C, 0x0C, "KeyAttestation", .octets, .ro, .ro, .none, false, false, none, .vol, .now, true, false⟩,
  ⟨0x2100, 0x2100, 0x0D, 0x0D, "KeyInfo", .u64, .ro, .ro, .ro, false, false, some 0x00FF000000000000, .vol, .now, true, false⟩,
  ⟨0x2100, 0x2100, 0x0E, 0x0E, "KeyStoreAddress", .u64, .rw, .ro, .ro, true, false, some 0, .wrm, .now, false, false⟩,
  ⟨0x2100, 0x2100, 0x0F, 0x0F, "KeyHandlesFree", .u16, .ro, .ro, .ro, false, false, some 4095, .vol, .now, false, false⟩]

/-- The objects of the ranges from 0x3000. -/
def objects3 : List Obj := [
  ⟨0x3000, 0x3000, 0x01, 0x01, "TakesSealed", .u64, .ro, .ro, .ro, false, false, some 0, .vol, .now, true, false⟩,
  ⟨0x3000, 0x3000, 0x02, 0x02, "TakesVoid", .u64, .ro, .ro, .ro, false, false, some 0, .vol, .now, true, false⟩,
  ⟨0x3000, 0x3000, 0x03, 0x03, "TakesRefused", .u64, .ro, .ro, .ro, false, false, some 0, .vol, .now, true, false⟩,
  ⟨0x3000, 0x3000, 0x04, 0x04, "InFlightLimit", .u32, .const, .const, .const, false, false, some 2048, .fus, .now, false, false⟩,
  ⟨0x3000, 0x3000, 0x05, 0x05, "ResultTimeout", .u32, .const, .const, .const, false, false, some 50000, .fus, .now, false, false⟩,
  ⟨0x3000, 0x3000, 0x06, 0x06, "TakesSealedDevice", .u64, .ro, .ro, .ro, true, false, some 0, .vol, .now, false, false⟩,
  ⟨0x3000, 0x3000, 0x07, 0x07, "TakesVoidDevice", .u64, .ro, .ro, .ro, true, false, some 0, .vol, .now, false, false⟩,
  ⟨0x3000, 0x3000, 0x08, 0x08, "TakesRefusedDevice", .u64, .ro, .ro, .ro, true, false, some 0, .vol, .now, false, false⟩,
  ⟨0x3001, 0x3001, 0x01, 0x01, "ManifestMaxLeaves", .u16, .rw, .ro, .ro, false, false, some 256, .wrm, .edge, true, false⟩,
  ⟨0x3001, 0x3001, 0x02, 0x02, "ManifestDeadline", .u32, .rw, .ro, .ro, false, false, some 200000, .wrm, .edge, true, false⟩,
  ⟨0x3001, 0x3001, 0x03, 0x03, "ManifestsSigned", .u64, .ro, .ro, .ro, false, false, some 0, .vol, .now, true, false⟩,
  ⟨0x3001, 0x3001, 0x04, 0x04, "ManifestsAbandoned", .u64, .ro, .ro, .ro, false, false, some 0, .vol, .now, true, false⟩,
  ⟨0x3002, 0x3002, 0x01, 0x01, "SlateCopyAddress", .u64, .rw, .none, .none, false, false, some 0, .wrm, .edge, true, false⟩,
  ⟨0x3002, 0x3002, 0x02, 0x02, "SlateCopyLog2", .u8, .rw, .none, .none, false, false, some 0, .wrm, .edge, true, false⟩,
  ⟨0x3002, 0x3002, 0x03, 0x03, "SlateCopyNext", .u32, .ro, .none, .none, false, false, some 0, .vol, .now, true, false⟩,
  ⟨0x3002, 0x3002, 0x04, 0x04, "SlateCopyFaults", .u32, .ro, .none, .none, false, false, some 0, .vol, .now, true, false⟩,
  ⟨0x3400, 0x3400, 0x01, 0x01, "GateCount", .u32, .const, .const, .const, false, false, some 65536, .fus, .now, false, false⟩,
  ⟨0x3500, 0x35FF, 0x00, 0xFF, "GateCloseTime", .time64, .rw, .rw, .ro, false, false, some 0, .wrm, .now, false, false⟩,
  ⟨0x3600, 0x36FF, 0x00, 0xFF, "GateOwner", .u8, .rw, .rw, .ro, true, false, some 0x0, .wrm, .now, false, false⟩]

/-- The objects of the ranges from 0x4000. -/
def objects4 : List Obj := [
  ⟨0x4000, 0x4000, 0x01, 0x01, "SlotCount", .u32, .const, .const, .const, false, false, some 2097152, .fus, .now, false, true⟩,
  ⟨0x4000, 0x4000, 0x02, 0x02, "CheckpointAddress", .u64, .rw, .ro, .ro, true, false, some 0, .wrm, .now, false, false⟩,
  ⟨0x4000, 0x4000, 0x03, 0x03, "CheckpointInterval", .u32, .ro, .rw, .rw, false, false, some 2000, .vlt, .edge, false, false⟩,
  ⟨0x4000, 0x4000, 0x04, 0x04, "CheckpointSeq", .u64, .ro, .ro, .ro, false, false, some 0, .vlt, .now, false, false⟩,
  ⟨0x4000, 0x4000, 0x05, 0x05, "TapAddress", .u64, .rw, .ro, .ro, true, false, some 0, .wrm, .edge, false, false⟩,
  ⟨0x4000, 0x4000, 0x06, 0x06, "TapLog2", .u8, .rw, .ro, .ro, true, false, some 0, .wrm, .edge, false, false⟩,
  ⟨0x4000, 0x4000, 0x07, 0x07, "TapConsumed", .u64, .rw, .none, .none, true, false, some 0, .vol, .now, false, false⟩,
  ⟨0x4000, 0x4000, 0x08, 0x08, "TapWritten", .u64, .ro, .ro, .ro, false, false, some 0, .vol, .now, false, false⟩,
  ⟨0x4000, 0x4000, 0x09, 0x09, "JournalCount", .u64, .ro, .ro, .ro, false, false, some 0, .vlt, .now, false, true⟩,
  ⟨0x4000, 0x4000, 0x0A, 0x0A, "RecoveryTailAddress", .u64, .wo, .wo, .none, true, false, some 0, .vol, .now, false, false⟩,
  ⟨0x4000, 0x4000, 0x0B, 0x0B, "RecoveryTailBytes", .u64, .wo, .wo, .none, true, false, some 0, .vol, .now, false, false⟩,
  ⟨0x4000, 0x4000, 0x0C, 0x0C, "RecoveryStart", .u32, .wo, .wo, .none, true, false, some 0, .vol, .now, false, false⟩,
  ⟨0x4000, 0x4000, 0x0D, 0x0D, "RecoveryStatus", .u8, .ro, .ro, .ro, false, false, some 0x0, .vol, .now, false, false⟩,
  ⟨0x4000, 0x4000, 0x0E, 0x0E, "RecoveryWait", .u32, .ro, .rw, .rw, false, false, some 600, .vlt, .now, false, false⟩,
  ⟨0x4000, 0x4000, 0x0F, 0x0F, "RebuildHeaderDigest", .digest, .none, .wo, .none, false, false, none, .vol, .now, false, false⟩,
  ⟨0x4000, 0x4000, 0x10, 0x10, "RebuildEndCount", .u64, .none, .wo, .none, false, false, none, .vol, .now, false, false⟩,
  ⟨0x4000, 0x4000, 0x11, 0x11, "RebuildEndContinuity", .digest, .none, .wo, .none, false, false, none, .vol, .now, false, false⟩,
  ⟨0x4000, 0x4000, 0x12, 0x12, "IntegrityFaults", .u32, .ro, .ro, .ro, false, false, some 0, .vol, .now, false, false⟩,
  ⟨0x4000, 0x4000, 0x13, 0x13, "JournalPublicKey", .octets, .ro, .ro, .ro, false, false, none, .vol, .now, false, true⟩,
  ⟨0x4000, 0x4000, 0x14, 0x14, "JournalKeyAttestation", .octets, .ro, .ro, .ro, false, false, none, .vol, .now, false, true⟩,
  ⟨0x4010, 0x4010, 0x01, 0x01, "SlotSelect", .u32, .rw, .rw, .ro, false, false, some 0, .vol, .now, true, false⟩,
  ⟨0x4010, 0x4010, 0x02, 0x02, "SlotKeyHandle", .u16, .rw, .rw, .ro, false, false, some 0x0, .vol, .now, true, false⟩,
  ⟨0x4010, 0x4010, 0x03, 0x03, "SlotState", .u8, .rw, .rw, .ro, false, false, some 0x0, .vol, .now, true, false⟩,
  ⟨0x4010, 0x4010, 0x04, 0x04, "SlotSerial", .u64, .ro, .ro, .ro, false, false, none, .vol, .now, true, false⟩,
  ⟨0x4010, 0x4010, 0x05, 0x05, "SlotApply", .u8, .wo, .wo, .none, false, false, some 0x0, .vol, .now, true, false⟩,
  ⟨0x4010, 0x4010, 0x06, 0x06, "SlotReopenSerial", .u64, .none, .wo, .none, false, false, some 0, .vol, .now, true, false⟩,
  ⟨0x4100, 0x4107, 0x00, 0xFF, "WindowOwner", .u8, .rw, .ro, .ro, true, false, some 0xff, .wrm, .now, false, false⟩,
  ⟨0x4200, 0x4207, 0x00, 0xFF, "WindowEpoch", .u16, .ro, .ro, .ro, false, false, some 0x0, .wrm, .now, false, false⟩,
  ⟨0x4800, 0x4800, 0x01, 0x01, "EnSourceCount", .u8, .const, .const, .const, false, false, some 5, .fus, .now, false, false⟩,
  ⟨0x4800, 0x4800, 0x02, 0x02, "EnFirstSeed", .bool, .ro, .ro, .ro, false, false, some 0, .vol, .now, false, false⟩,
  ⟨0x4800, 0x4800, 0x03, 0x03, "EnState", .u8, .ro, .ro, .ro, false, false, some 0x0, .vol, .now, false, false⟩,
  ⟨0x4800, 0x4800, 0x04, 0x04, "EnFailCount24h", .u8, .ro, .ro, .ro, false, false, some 0, .vlt, .now, false, false⟩,
  ⟨0x4800, 0x4800, 0x05, 0x05, "EnLastFailSource", .u8, .ro, .ro, .ro, false, false, some 0xff, .vlt, .now, false, false⟩,
  ⟨0x4800, 0x4800, 0x06, 0x06, "EnLastFailTest", .u8, .ro, .ro, .ro, false, false, some 0x0, .vlt, .now, false, false⟩,
  ⟨0x4800, 0x4800, 0x07, 0x07, "EnLastFailTime", .time64, .ro, .ro, .ro, false, false, some 0, .vlt, .now, false, false⟩,
  ⟨0x4800, 0x4800, 0x08, 0x08, "EnReseedRequests", .u32, .ro, .rw, .rw, false, false, some 65536, .vlt, .edge, false, false⟩,
  ⟨0x4800, 0x4800, 0x09, 0x09, "EnReseedInterval", .u32, .ro, .rw, .rw, false, false, some 1000, .vlt, .edge, false, false⟩,
  ⟨0x4800, 0x4800, 0x0A, 0x0A, "EnLatchClear", .u32, .none, .wo, .none, false, true, some 0, .vol, .now, false, false⟩,
  ⟨0x4800, 0x4800, 0x0B, 0x0B, "EnLatched", .bool, .ro, .ro, .ro, false, false, some 0, .vlt, .now, false, false⟩,
  ⟨0x4810, 0x4810, 0x00, 0x04, "EnSourceState", .u8, .ro, .ro, .ro, false, false, some 0x0, .vol, .now, false, false⟩,
  ⟨0x4820, 0x4820, 0x00, 0xFF, "EnInstanceEpoch", .u16, .ro, .ro, .ro, false, false, some 0x0, .wrm, .now, false, false⟩]

/-- The objects of the ranges from 0x5000. -/
def objects5 : List Obj := [
  ⟨0x5000, 0x5000, 0x01, 0x01, "LiEngineCount", .u8, .const, .const, .const, false, false, some 96, .fus, .now, false, false⟩,
  ⟨0x5000, 0x5000, 0x02, 0x02, "LiUcodeRomVersion", .u32, .const, .const, .const, false, false, none, .fus, .now, false, false⟩,
  ⟨0x5000, 0x5000, 0x03, 0x03, "LiUcodeVersion", .u32, .ro, .ro, .ro, false, false, none, .vol, .now, false, false⟩,
  ⟨0x5000, 0x5000, 0x04, 0x04, "LiUcodeMinVersion", .u32, .ro, .rw, .ro, false, true, some 0, .fus, .now, false, false⟩,
  ⟨0x5000, 0x5000, 0x05, 0x05, "LiUcodeAddress", .u64, .wo, .none, .none, true, false, some 0, .vol, .now, false, false⟩,
  ⟨0x5000, 0x5000, 0x06, 0x06, "LiUcodeBytes", .u32, .wo, .none, .none, true, false, some 0, .vol, .now, false, false⟩,
  ⟨0x5000, 0x5000, 0x07, 0x07, "LiUcodeLoad", .u32, .wo, .none, .none, true, false, some 0, .vol, .now, false, false⟩,
  ⟨0x5000, 0x5000, 0x08, 0x08, "LiUcodeStatus", .u8, .ro, .ro, .ro, false, false, some 0x0, .vol, .now, false, false⟩,
  ⟨0x5000, 0x5000, 0x09, 0x09, "LiFaultChecks", .u32, .ro, .ro, .ro, false, false, some 0, .vol, .now, false, false⟩,
  ⟨0x5100, 0x5100, 0x00, 0x5F, "LiEngineOwner", .u8, .rw, .ro, .ro, true, false, some 0xff, .wrm, .now, false, false⟩,
  ⟨0x5101, 0x5101, 0x00, 0x5F, "LiEngineEpoch", .u16, .ro, .ro, .ro, false, false, some 0x0, .wrm, .now, false, false⟩,
  ⟨0x5102, 0x5102, 0x00, 0x5F, "LiEngineState", .u8, .ro, .ro, .ro, false, false, some 0x0, .vol, .now, false, false⟩,
  ⟨0x5200, 0x5200, 0x10, 0x4F, "LiCurveOwner", .u8, .ro, .ro, .ro, false, false, some 0xff, .vol, .now, false, false⟩,
  ⟨0x5201, 0x5201, 0x10, 0x4F, "LiCurveDigest", .digest, .ro, .ro, .ro, false, false, some 0, .vol, .now, false, false⟩,
  ⟨0x5800, 0x5800, 0x01, 0x01, "LhLatticeCount", .u8, .const, .const, .const, false, false, some 24, .fus, .now, false, false⟩,
  ⟨0x5800, 0x5800, 0x02, 0x02, "LhLaneCount", .u8, .const, .const, .const, false, false, some 192, .fus, .now, false, false⟩,
  ⟨0x5800, 0x5800, 0x03, 0x03, "LhRoundCap", .u8, .const, .const, .const, false, false, some 20, .fus, .now, false, false⟩,
  ⟨0x5800, 0x5800, 0x04, 0x04, "LhRejectionLimits", .u32, .ro, .ro, .ro, false, false, some 0, .vol, .now, false, false⟩,
  ⟨0x5800, 0x5800, 0x05, 0x05, "LhFaultChecks", .u32, .ro, .ro, .ro, false, false, some 0, .vol, .now, false, false⟩,
  ⟨0x5800, 0x5800, 0x06, 0x06, "LhTagFailures", .u64, .ro, .ro, .ro, false, false, some 0, .vol, .now, false, false⟩,
  ⟨0x5810, 0x5810, 0x00, 0x17, "LhUnitState", .u8, .ro, .ro, .ro, false, false, some 0x0, .vol, .now, false, false⟩]

/-- The objects of the ranges from 0x6000. -/
def objects6 : List Obj := [
  ⟨0x6000, 0x6000, 0x01, 0x01, "AppletSlotCount", .u8, .const, .const, .const, false, false, some 176, .fus, .now, false, false⟩,
  ⟨0x6000, 0x6000, 0x02, 0x02, "SezelCoreCount", .u8, .const, .const, .const, false, false, some 192, .fus, .now, false, false⟩,
  ⟨0x6000, 0x6000, 0x03, 0x03, "RegulatorAppletKey", .octets, .ro, .rw, .ro, false, true, none, .vlt, .now, false, false⟩,
  ⟨0x6000, 0x6000, 0x04, 0x04, "DrawCount", .u64, .ro, .ro, .ro, false, false, some 0, .vlt, .now, false, false⟩,
  ⟨0x6010, 0x6010, 0x01, 0x01, "AppletImageAddress", .u64, .wo, .none, .none, false, false, some 0, .vol, .now, true, false⟩,
  ⟨0x6010, 0x6010, 0x02, 0x02, "AppletImageBytes", .u32, .wo, .none, .none, false, false, some 0, .vol, .now, true, false⟩,
  ⟨0x6010, 0x6010, 0x03, 0x03, "AppletSealDie", .u8, .rw, .none, .none, false, false, some 0xff, .vol, .now, true, false⟩,
  ⟨0x6010, 0x6010, 0x04, 0x04, "AppletLoad", .u32, .wo, .none, .none, false, false, some 0, .vol, .now, true, false⟩,
  ⟨0x6010, 0x6010, 0x05, 0x05, "AppletLoadStatus", .u8, .ro, .none, .none, false, false, some 0x0, .vol, .now, true, false⟩,
  ⟨0x6010, 0x6010, 0x06, 0x06, "AppletLoadSlot", .u8, .ro, .none, .none, false, false, some 0xff, .vol, .now, true, false⟩,
  ⟨0x6010, 0x6010, 0x07, 0x07, "AppletRejectOffset", .u32, .ro, .none, .none, false, false, some 0, .vol, .now, true, false⟩,
  ⟨0x6010, 0x6010, 0x08, 0x08, "AppletUnload", .u8, .wo, .none, .none, false, false, some 0xff, .vol, .now, true, false⟩,
  ⟨0x6100, 0x6100, 0x00, 0x3F, "OperatorAppletKey", .octets, .ro, .rw, .ro, false, true, none, .vlt, .now, false, false⟩,
  ⟨0x6200, 0x6205, 0x00, 0x3F, "TenantSharedKiB", .u16, .rw, .ro, .ro, true, false, some 0, .wrm, .edge, false, false⟩,
  ⟨0x6300, 0x6300, 0x00, 0xAF, "AppletSlotOwner", .u8, .ro, .ro, .ro, false, false, some 0xff, .vol, .now, false, false⟩,
  ⟨0x6301, 0x6301, 0x00, 0xAF, "AppletSlotEpoch", .u16, .ro, .ro, .ro, false, false, some 0x0, .vol, .now, false, false⟩,
  ⟨0x6302, 0x6302, 0x00, 0xAF, "AppletSlotId", .u64, .ro, .ro, .ro, false, false, some 0, .vol, .now, false, false⟩]

/-- The objects of the ranges from 0x7000. -/
def objects7 : List Obj := [
  ⟨0x7000, 0x7000, 0x01, 0x01, "ReelState", .u8, .ro, .ro, .ro, false, false, some 0x0, .vol, .now, false, false⟩,
  ⟨0x7000, 0x7000, 0x02, 0x02, "ReelIdCurrent", .u64, .ro, .ro, .ro, false, false, some 0, .vol, .now, false, false⟩,
  ⟨0x7000, 0x7000, 0x03, 0x03, "ReelResult", .u8, .ro, .ro, .ro, false, false, some 0x0, .vol, .now, false, false⟩,
  ⟨0x7000, 0x7000, 0x04, 0x04, "ReelOpen", .u32, .wo, .wo, .none, true, false, some 0, .vol, .now, false, false⟩,
  ⟨0x7000, 0x7000, 0x05, 0x05, "ReelStop", .u32, .wo, .wo, .none, true, false, some 0, .vol, .now, false, false⟩,
  ⟨0x7000, 0x7000, 0x06, 0x06, "HeldCount", .u64, .ro, .ro, .ro, false, false, some 0, .vol, .now, false, false⟩,
  ⟨0x7000, 0x7000, 0x07, 0x07, "BufferFirstCount", .u64, .ro, .ro, .ro, false, false, some 0, .vol, .now, false, false⟩,
  ⟨0x7000, 0x7000, 0x08, 0x08, "BacklogBytes", .u64, .ro, .ro, .ro, false, false, some 0, .vol, .now, false, false⟩,
  ⟨0x7000, 0x7000, 0x09, 0x09, "PickupAddress", .u64, .rw, .none, .none, true, false, some 0, .wrm, .now, false, false⟩,
  ⟨0x7000, 0x7000, 0x0A, 0x0A, "PickupBytes", .u64, .rw, .none, .none, true, false, some 0, .vol, .now, false, false⟩,
  ⟨0x7000, 0x7000, 0x0B, 0x0B, "PickupWaive", .u32, .none, .wo, .none, false, false, some 0, .vol, .now, false, false⟩,
  ⟨0x7000, 0x7000, 0x0C, 0x0C, "StatusDropped", .u32, .ro, .ro, .ro, false, false, some 0, .vol, .now, false, false⟩,
  ⟨0x7010, 0x7010, 0x01, 0x01, "RecorderKeyDigest", .digest, .ro, .rw, .ro, false, false, some 0, .vlt, .edge, false, false⟩,
  ⟨0x7010, 0x7010, 0x02, 0x02, "ReelCadence", .u32, .ro, .rw, .rw, false, false, some 2624, .vlt, .edge, false, false⟩,
  ⟨0x7010, 0x7010, 0x03, 0x03, "EscrowFec", .bool, .ro, .rw, .rw, false, false, some 1, .vlt, .edge, false, false⟩,
  ⟨0x7010, 0x7010, 0x04, 0x04, "StatusLimit", .u32, .ro, .rw, .rw, false, false, some 5, .vlt, .edge, false, false⟩,
  ⟨0x7010, 0x7010, 0x05, 0x05, "AckLimit", .u32, .ro, .rw, .rw, false, false, some 20, .vlt, .edge, false, false⟩,
  ⟨0x7800, 0x7800, 0x01, 0x01, "FleetEnable", .bool, .rw, .rw, .rw, true, false, some 0, .vlt, .now, false, false⟩,
  ⟨0x7800, 0x7800, 0x02, 0x02, "FleetId", .u64, .ro, .rw, .rw, false, true, some 0, .vlt, .off, false, true⟩,
  ⟨0x7800, 0x7800, 0x03, 0x03, "MemberId", .u16, .ro, .rw, .rw, false, true, some 0xffff, .vlt, .off, false, true⟩,
  ⟨0x7800, 0x7800, 0x04, 0x04, "LeaseBlock", .u32, .ro, .rw, .rw, false, false, some 1024, .vlt, .edge, false, false⟩,
  ⟨0x7800, 0x7800, 0x05, 0x05, "MirrorTimeout", .u32, .ro, .rw, .rw, false, false, some 20000, .vlt, .edge, false, false⟩,
  ⟨0x7800, 0x7800, 0x06, 0x06, "MemberLossLimit", .u32, .ro, .rw, .rw, false, false, some 5000, .vlt, .edge, false, false⟩,
  ⟨0x7800, 0x7800, 0x07, 0x07, "MembersReachable", .u16, .ro, .ro, .ro, false, false, some 0, .vol, .now, false, true⟩,
  ⟨0x7800, 0x7800, 0x08, 0x08, "Takeovers", .u32, .ro, .ro, .ro, false, false, some 0, .vol, .now, false, false⟩,
  ⟨0x7800, 0x7800, 0x09, 0x09, "MirrorTimeouts", .u32, .ro, .ro, .ro, false, false, some 0, .vol, .now, false, false⟩,
  ⟨0x7800, 0x7800, 0x0A, 0x0A, "LinkAuthFailures", .u32, .ro, .ro, .ro, false, false, some 0, .vol, .now, false, false⟩,
  ⟨0x7800, 0x7800, 0x0B, 0x0B, "RouteViolations", .u32, .ro, .ro, .ro, false, false, some 0, .vol, .now, false, false⟩,
  ⟨0x7800, 0x7800, 0x0C, 0x0C, "CeremonyHolder", .u16, .ro, .ro, .ro, false, false, some 0xffff, .vol, .now, false, true⟩,
  ⟨0x7820, 0x7820, 0x01, 0x01, "RoleSlot", .u32, .rw, .ro, .ro, true, false, some 0, .vol, .now, false, false⟩,
  ⟨0x7820, 0x7820, 0x02, 0x02, "RoleMirror", .u16, .rw, .ro, .ro, true, false, some 0xffff, .vol, .now, false, false⟩,
  ⟨0x7820, 0x7820, 0x03, 0x03, "RoleLeased", .bool, .rw, .ro, .ro, true, false, some 0, .vol, .now, false, false⟩,
  ⟨0x7820, 0x7820, 0x04, 0x04, "RoleApply", .u8, .wo, .none, .none, true, false, some 0x0, .vol, .now, false, false⟩,
  ⟨0x7900, 0x7903, 0x00, 0xFF, "MemberUnitId", .u64, .ro, .rw, .rw, false, true, some 0, .vlt, .now, false, false⟩]

/-- The objects of the ranges from 0x8000. -/
def objects8 : List Obj := [
  ⟨0x8000, 0x8000, 0x01, 0x01, "CardPresent", .bool, .ro, .ro, .ro, false, false, some 0, .vol, .now, false, false⟩,
  ⟨0x8000, 0x8000, 0x02, 0x02, "CardMode", .u8, .ro, .ro, .ro, false, false, some 0x0, .vol, .now, false, false⟩,
  ⟨0x8000, 0x8000, 0x03, 0x03, "CardId", .u64, .ro, .ro, .ro, false, false, some 0, .vol, .now, false, false⟩,
  ⟨0x8000, 0x8000, 0x04, 0x04, "CardMaxMode", .u8, .ro, .rw, .rw, false, false, some 0x7, .vlt, .off, false, false⟩,
  ⟨0x8010, 0x8010, 0x01, 0x01, "CardRecordSelect", .u8, .none, .rw, .none, false, true, some 0, .vol, .now, false, false⟩,
  ⟨0x8010, 0x8010, 0x02, 0x02, "CardRead", .u32, .none, .wo, .none, false, true, some 0, .vol, .now, false, false⟩,
  ⟨0x8010, 0x8010, 0x03, 0x03, "CardWrite", .u32, .none, .wo, .none, false, true, some 0, .vol, .now, false, false⟩,
  ⟨0x8010, 0x8010, 0x04, 0x04, "CardFormat", .u32, .none, .wo, .none, false, true, some 0, .vol, .now, false, false⟩,
  ⟨0x8010, 0x8010, 0x05, 0x05, "CardOpStatus", .u16, .none, .ro, .none, false, false, some 0x0, .vol, .now, false, false⟩,
  ⟨0x8010, 0x8010, 0x06, 0x06, "CardOpVersion", .u64, .none, .ro, .none, false, false, some 0, .vol, .now, false, false⟩,
  ⟨0x8010, 0x8010, 0x07, 0x07, "CardOpIntended", .u64, .none, .ro, .none, false, false, some 0, .vol, .now, false, false⟩,
  ⟨0x8010, 0x8010, 0x08, 0x08, "CardPayload", .octets, .none, .rw, .none, false, true, none, .vol, .now, false, false⟩,
  ⟨0x8010, 0x8010, 0x09, 0x09, "CardRecShareSetId", .u64, .none, .rw, .none, false, true, some 0, .vol, .now, false, false⟩,
  ⟨0x8010, 0x8010, 0x0A, 0x0A, "CardRecShare", .u32, .none, .rw, .none, false, true, some 0, .vol, .now, false, false⟩]

/-- The objects of the ranges from 0x9000. -/
def objects9 : List Obj := [
  ⟨0x9000, 0x9000, 0x01, 0x01, "TamperEraseFused", .u32, .ro, .rw, .rw, false, true, some 0x0, .fus, .now, false, false⟩,
  ⟨0x9000, 0x9000, 0x02, 0x02, "TamperGroupDisable", .u32, .none, .none, .wo, false, false, some 0x0, .fus, .now, false, false⟩,
  ⟨0x9000, 0x9000, 0x03, 0x03, "TamperAlarmsSeen", .u32, .ro, .ro, .ro, false, false, some 0, .vol, .now, false, false⟩,
  ⟨0x9000, 0x9000, 0x04, 0x04, "TamperWarningsSeen", .u32, .ro, .ro, .ro, false, false, some 0, .vol, .now, false, false⟩,
  ⟨0x9000, 0x9000, 0x05, 0x05, "TamperErased", .bool, .ro, .ro, .ro, false, false, some 0, .fus, .now, false, false⟩,
  ⟨0x9000, 0x9000, 0x06, 0x06, "PostEraseSources", .u32, .ro, .ro, .ro, false, false, some 0, .fus, .now, false, false⟩,
  ⟨0x9000, 0x9000, 0x07, 0x07, "PostEraseCount", .u32, .ro, .ro, .ro, false, false, some 0, .fus, .now, false, false⟩,
  ⟨0x9100, 0x9100, 0x01, 0x01, "EvidenceNextSeq", .u32, .ro, .ro, .ro, false, false, some 0, .fus, .now, false, false⟩,
  ⟨0x9100, 0x9100, 0x02, 0x02, "EvidenceArchiveMark", .u32, .ro, .rw, .rw, false, false, some 0, .fus, .now, false, false⟩,
  ⟨0x9100, 0x9100, 0x03, 0x03, "EvidenceSelect", .u32, .rw, .rw, .rw, true, false, some 0, .vol, .now, false, false⟩,
  ⟨0x9100, 0x9100, 0x04, 0x04, "EvidenceRecords", .octets, .ro, .ro, .ro, true, false, none, .vol, .now, false, false⟩,
  ⟨0x9100, 0x9100, 0x05, 0x05, "EvidenceHead", .digest, .ro, .ro, .ro, true, false, none, .fus, .now, false, false⟩,
  ⟨0x9100, 0x9100, 0x06, 0x06, "EvidenceHeadSignature", .octets, .ro, .ro, .ro, true, false, none, .vol, .now, false, false⟩,
  ⟨0x9100, 0x9100, 0x07, 0x07, "EvidenceSuppressed", .u32, .ro, .ro, .ro, false, false, some 0, .fus, .now, false, false⟩,
  ⟨0x9200, 0x9200, 0x01, 0x01, "Reprovision", .u32, .none, .wo, .none, false, true, some 0, .vol, .now, false, false⟩,
  ⟨0x9200, 0x9200, 0x02, 0x02, "ReprovisionStatus", .u8, .ro, .ro, .ro, false, false, some 0x0, .vol, .now, false, false⟩,
  ⟨0x9800, 0x9800, 0x01, 0x01, "LcState", .u8, .ro, .ro, .ro, false, false, none, .fus, .now, false, false⟩,
  ⟨0x9800, 0x9800, 0x02, 0x02, "LcRequest", .u8, .wo, .wo, .wo, true, true, some 0x0, .vol, .now, false, false⟩,
  ⟨0x9800, 0x9800, 0x03, 0x03, "LcAuthorityDigest", .octets, .const, .const, .const, false, false, none, .fus, .now, false, false⟩,
  ⟨0x9800, 0x9800, 0x04, 0x04, "LcCertStatus", .u8, .ro, .ro, .ro, false, false, some 0x0, .vol, .now, false, false⟩,
  ⟨0x9800, 0x9800, 0x05, 0x05, "LcCertSerial", .u64, .ro, .ro, .ro, false, false, some 0, .vol, .now, false, false⟩,
  ⟨0x9800, 0x9800, 0x06, 0x06, "LcRights", .u32, .ro, .ro, .ro, false, false, some 0, .vol, .now, false, false⟩,
  ⟨0x9800, 0x9800, 0x07, 0x07, "JtagIdcode", .u32, .const, .const, .const, false, false, none, .fus, .now, false, false⟩,
  ⟨0x9810, 0x9810, 0x01, 0x01, "DebugRightsRequested", .u32, .rw, .ro, .none, true, false, some 0, .vol, .now, false, false⟩,
  ⟨0x9810, 0x9810, 0x02, 0x02, "DebugChallengeIssue", .u32, .wo, .none, .none, true, false, some 0, .vol, .now, false, false⟩,
  ⟨0x9810, 0x9810, 0x03, 0x03, "DebugChallenge", .octets, .ro, .ro, .none, true, false, none, .vol, .now, false, false⟩,
  ⟨0x9810, 0x9810, 0x04, 0x04, "DebugResponseAddress", .u64, .wo, .none, .none, true, false, some 0, .vol, .now, false, false⟩,
  ⟨0x9810, 0x9810, 0x05, 0x05, "DebugResponseSubmit", .u32, .wo, .none, .none, true, false, some 0, .vol, .now, false, false⟩,
  ⟨0x9810, 0x9810, 0x06, 0x06, "DebugAuthStatus", .u8, .ro, .ro, .none, true, false, some 0x0, .vol, .now, false, false⟩]

/-- The objects of the ranges from 0xA000. -/
def objectsA : List Obj := [
  ⟨0xA000, 0xA000, 0x01, 0x01, "SpEnable", .bool, .rw, .rw, .rw, true, false, some 0, .vlt, .now, false, false⟩,
  ⟨0xA000, 0xA000, 0x02, 0x02, "SpMacAddress", .u64, .rw, .rw, .rw, true, false, some 0, .vlt, .off, false, false⟩,
  ⟨0xA000, 0xA000, 0x03, 0x03, "SpIpAddress", .u32, .rw, .rw, .rw, true, false, some 0, .vlt, .off, false, false⟩,
  ⟨0xA000, 0xA000, 0x04, 0x04, "SpPrefixLength", .u8, .rw, .rw, .rw, true, false, some 24, .vlt, .off, false, false⟩,
  ⟨0xA000, 0xA000, 0x05, 0x05, "SpGateway", .u32, .rw, .rw, .rw, true, false, some 0, .vlt, .off, false, false⟩,
  ⟨0xA000, 0xA000, 0x06, 0x06, "SpPeerAddress", .u32, .rw, .rw, .rw, true, false, some 0, .vlt, .off, false, false⟩,
  ⟨0xA000, 0xA000, 0x07, 0x07, "SpPhyAddress", .u8, .rw, .rw, .rw, true, false, some 0, .vlt, .off, false, false⟩,
  ⟨0xA000, 0xA000, 0x08, 0x08, "SpLinkSpeed", .u8, .ro, .ro, .ro, false, false, some 0, .vol, .now, false, false⟩,
  ⟨0xA000, 0xA000, 0x09, 0x09, "SpSessionIdle", .u32, .ro, .rw, .rw, false, false, some 30, .vlt, .edge, false, false⟩,
  ⟨0xA000, 0xA000, 0x0A, 0x0A, "SpSessionState", .u8, .ro, .ro, .ro, false, false, some 0, .vol, .now, false, false⟩,
  ⟨0xA000, 0xA000, 0x0B, 0x0B, "SpSessionSigner", .digest, .ro, .ro, .ro, false, false, some 0, .vol, .now, false, false⟩,
  ⟨0xA000, 0xA000, 0x0C, 0x0C, "SpRegulatorRootDigest", .digest, .ro, .rw, .rw, false, true, some 0, .fus, .now, false, false⟩,
  ⟨0xA000, 0xA000, 0x0D, 0x0D, "SpRootSlotsLeft", .u8, .ro, .ro, .ro, false, false, some 4, .fus, .now, false, false⟩,
  ⟨0xA000, 0xA000, 0x0E, 0x0E, "SpRefusals", .u32, .ro, .ro, .ro, false, false, some 0, .vol, .now, false, false⟩,
  ⟨0xA000, 0xA000, 0x0F, 0x0F, "SpRecordsDropped", .u32, .ro, .ro, .ro, false, false, some 0, .vol, .now, false, false⟩]

/-- The objects of the ranges from 0xB000. -/
def objectsB : List Obj := [
  ⟨0xB000, 0xB000, 0x01, 0x01, "MemoryBytes", .u64, .ro, .ro, .ro, false, false, none, .vol, .now, false, false⟩,
  ⟨0xB000, 0xB000, 0x02, 0x02, "PoolUnitsTotal", .u32, .ro, .ro, .ro, false, false, none, .vol, .now, false, false⟩,
  ⟨0xB000, 0xB000, 0x03, 0x03, "EccCorrected", .u64, .ro, .ro, .ro, false, false, some 0, .vol, .now, false, false⟩,
  ⟨0xB000, 0xB000, 0x04, 0x04, "EccUncorrected", .u32, .ro, .ro, .ro, false, false, some 0, .vol, .now, false, false⟩,
  ⟨0xB100, 0xB100, 0x00, 0x3F, "TenantPoolUnits", .u16, .rw, .ro, .ro, true, false, some 0, .wrm, .edge, false, false⟩]

/-- The objects of the ranges from 0xC000. -/
def objectsC : List Obj := [
  ⟨0xC000, 0xC000, 0x01, 0x01, "DeviceTime", .time64, .ro, .ro, .ro, false, false, none, .vlt, .now, false, true⟩,
  ⟨0xC000, 0xC000, 0x02, 0x02, "SlewLimit", .u32, .ro, .rw, .rw, false, false, some 50, .vlt, .now, false, false⟩,
  ⟨0xC000, 0xC000, 0x03, 0x03, "TimeCorrection", .i64, .wo, .wo, .wo, false, false, some 0, .vol, .now, false, false⟩,
  ⟨0xC000, 0xC000, 0x04, 0x04, "CorrectionRemaining", .i64, .ro, .ro, .ro, false, false, some 0, .vol, .now, false, false⟩,
  ⟨0xC000, 0xC000, 0x05, 0x05, "TimeFault", .bool, .ro, .ro, .ro, false, false, some 0, .vol, .now, false, true⟩,
  ⟨0xC000, 0xC000, 0x06, 0x06, "DeviceTimeSet", .time64, .none, .wo, .none, false, false, none, .vlt, .now, false, false⟩,
  ⟨0xC000, 0xC000, 0x07, 0x07, "TimeFloor", .time64, .ro, .ro, .ro, false, false, some 0, .fus, .now, false, false⟩]

/-- Every object of the Directory, in ascending order of index and subindex. The 0xF000 range has no object that the
manual names (R401). -/
def objects : List Obj :=
  objects1 ++ objects2 ++ objects3 ++ objects4 ++ objects5 ++ objects6 ++ objects7 ++ objects8 ++ objects9 ++ objectsA ++ objectsB ++ objectsC

/-- The object at an index and subindex, if one is implemented. -/
def findObj (index sub : Nat) : Option Obj :=
  objects.find? fun o => o.lo ≤ index && index ≤ o.hi && o.subLo ≤ sub && sub ≤ o.subHi

/-- Default of a numeric object. -/
def defaultOf (index sub : Nat) : Nat := ((findObj index sub).bind Obj.dflt).getD 0

/-- The value in force of an object that holds a number, by its own table's default. -/
def State.objNum (s : State) (index sub inst : Nat) : Nat := s.num index sub inst (defaultOf index sub)

/-- The persistence class of the object a key of `Pd` names. -/
def keyPersist (k : Nat) : Option Persist :=
  (findObj (k / 524288) (k / 2048 % 256)).map Obj.pers

/-- Lose the values of the objects of one persistence class (Table 2.10), those of tenant `t` alone where one is
named: its instances of TENANT-scope objects. Staged values and latched RC sets are not here. -/
def State.loseClass (c : Persist) (t : Option Nat) (s : State) : State :=
  let gone := fun (k : Nat) => keyPersist k = some c && (match t with
    | none => true
    | some t => k % 2048 = t && ((findObj (k / 524288) (k / 2048 % 256)).map Obj.tenant = some true))
  s.onPd fun p => { p with
    nums := p.nums.filter fun e => !gone e.1
    octets := p.octets.filter fun e => !gone e.1
    staged := p.staged.filter fun e => !gone e.1 }

end Sys2Proof.Machine
end

