-- ==== Sys2Proof/Machine/EntropyOps.lean ====
section
/-! DEFINITION. The DRBG Bank as its clients see it: whether it delivers, blocks of conditioned noise, instantiation,
reseeds and generate requests (R187 to R196, R206), and the buffers of engines and units. Raw noise is free values; SHA-512
and CTR_DRBG are the functions of their standards. -/

namespace Sys2Proof.Machine

/-- Instances 77 to 79 serve the Anchor, the Supervisory Port and the Crossing Links. -/
def coreInstance (i : Nat) : Bool := decide (77 ≤ i ∧ i ≤ 79)

/-- What a request to a client's instance ends with, if the Bank does not deliver: NOT_READY before the first seed
(R40), ENTROPY_FAIL while stopped or latched (R205, R206). -/
def State.entropyBlock (s : State) : Option Status :=
  if !s.en.firstSeed then some stNotReady
  else if s.en.stopped || s.en.latch then some stEntropyFail
  else none

/-- The same for instances 77 to 79, which deliver while the latch is set. -/
def State.coreEntropyBlock (s : State) : Option Status :=
  if !s.en.firstSeed then some stNotReady
  else if s.en.stopped then some stEntropyFail
  else none

/-- Whether instance `i` delivers now. -/
def State.delivers (s : State) (i : Nat) : Bool :=
  (s.drbg i).live && (if coreInstance i then s.coreEntropyBlock = none else s.entropyBlock = none)

/-! ### Conditioned noise (R187, R188) -/

/-- The block that 1,152 samples of one source give, packed into 144 bytes (R187). -/
def conditioned (packed : Bytes) : Bytes := Config.sha512 packed

/-- A block of fresh noise: its samples are free values. -/
def State.noiseBlock (s : State) : Bytes × State := (conditioned (s.freeBytes 144), s.takeFree 144)

/-- The shield's pattern generator takes a new key from noise source 4 (R369). -/
def State.rekeyShield (s : State) : State :=
  let r := s.noiseBlock
  r.2.onTg fun t => { t with shieldKey := r.1.take 32 }

/-- The oldest block of the reserve; an empty reserve waits for the next one (R188, R194) (DESIGN CHOICE, log entry 62). -/
def State.takeBlock (s : State) : Bytes × State :=
  match s.en.reserve with
  | b :: bs => (b, s.onEn fun e => { e with reserve := bs })
  | [] => s.noiseBlock

/-- `n` fresh Anchor blocks join the reserve. -/
def State.addBlocks : Nat → State → State
  | 0, s => s
  | n + 1, s =>
    let r := s.noiseBlock
    State.addBlocks n (r.2.onEn fun e => { e with reserve := e.reserve ++ [r.1] })

/-- The reserve as a refill leaves it: 64 Anchor blocks, one Vault block (R188). -/
def State.fillReserve (s : State) : State :=
  let s := s.addBlocks (64 - s.en.reserve.length)
  if s.en.vaultBlock.isSome || (s.source 4).state = .isolated then s
  else
    let r := s.noiseBlock
    r.2.onEn fun e => { e with vaultBlock := some r.1 }

/-! ### Instances (R193, R194) -/

/-- EnReseedRequests and EnReseedInterval in force. -/
def State.reseedRequests (s : State) : Nat := s.num 0x4800 8 0 65536
def State.reseedInterval (s : State) : Nat := s.num 0x4800 9 0 1000

/-- The personalisation string of an instance (R194). -/
def State.personalisation (s : State) (i : Nat) : Bytes :=
  be 8 unitId ++ be 4 s.pwr.bootCount ++ be 2 i ++ be 2 (s.drbg i).epoch

/-- Instance `i` is instantiated from an entropy input, with the reseed limits now in force. -/
def State.seedInstance (i : Nat) (entropy : Bytes) (s : State) : State :=
  let secret := Config.out .drbgInstantiate 48 [] [entropy, s.personalisation i]
  s.onDrbg i fun d => { d with
    live := true
    secret := secret
    requests := 0
    lastReseed := s.clock
    maxRequests := s.reseedRequests
    maxInterval := s.reseedInterval }

/-- Instance `i` is instantiated from a reserve block (R194). -/
def State.instantiate (i : Nat) (s : State) : State :=
  let r := s.takeBlock
  r.2.seedInstance i r.1

/-- RESEEDED of EN_RNG_STAT, for a tenant's instance. -/
def State.noteReseed (i : Nat) (s : State) : State := if i < 64 then s.latch (.rngStat i) 8 else s

/-- A reseed (R194): one reserve block and no additional input, and the apply point of the two EDGE objects (R209). -/
def State.reseed (i : Nat) (s : State) : State :=
  let r := ((s.applyNum 0x4800 8 0).applyNum 0x4800 9 0).takeBlock
  (r.2.onDrbg i fun d => { d with
    secret := Config.out .drbgReseed 48 [] [d.secret, r.1]
    requests := 0
    lastReseed := r.2.clock
    maxRequests := r.2.reseedRequests
    maxInterval := r.2.reseedInterval }).noteReseed i

/-- A reseed is due on instance `i`. -/
def State.reseedDue (s : State) (i : Nat) : Bool :=
  let d := s.drbg i
  decide (d.maxRequests ≤ d.requests) || decide (d.lastReseed + d.maxInterval * 1000000 ≤ s.clock)

/-- A generate request of `n` bytes: a reseed that is due, or that prediction resistance asks for (R195), comes first
(R194); then the output, and the instance's next state (SP 800-90A CTR_DRBG). -/
def State.generate (i n : Nat) (resist : Bool) (s : State) : Bytes × State :=
  let s := if resist || s.reseedDue i then s.reseed i else s
  (Config.out .drbgOutput n [] [(s.drbg i).secret], s.onDrbg i fun d => { d with
    secret := Config.out .drbgUpdate 48 [n] [d.secret]
    requests := d.requests + 1 })

/-- A generate request that carries the epoch its client holds: an older one delivers no byte (R193). -/
def State.generateFor (i epoch n : Nat) (resist : Bool) (s : State) : Except Status (Bytes × State) :=
  if (s.drbg i).epoch = epoch then .ok (s.generate i n resist) else .error stStaleOwner

/-- Advancing an instance's epoch wipes its state and its buffered output (R193). -/
def State.advanceInstance (i : Nat) (s : State) : State :=
  let s := s.onDrbg i fun d => { epoch := (d.epoch + 1) % 65536 }
  if i < 64 then s.onEn fun e => { e with fifos := mapSet [] e.fifos i [] } else s

/-! ### The Memory Guard's keys (R113) -/

/-- A fresh key of the Memory Guard, from instance 77 with prediction resistance (R195). Where the Bank does not deliver the
manual names no source for it: free bytes (DESIGN CHOICE, log entry 130). -/
def State.renewKey (i : Nat) (s : State) : State :=
  let r := if s.delivers 77 then s.generate 77 32 true else (s.freeBytes 32, s.takeFree 32)
  r.2.onLg fun g => { g with keys := mapSet [] g.keys i r.1 }

/-- The Memory Guard's keys, at the first Self-Test after they were lost, once the first seed has come (R113). -/
def State.guardKeys (s : State) : State :=
  if s.lg.keys = [] && s.en.firstSeed then (List.range 66).foldl (fun s i => s.renewKey i) s else s

/-! ### Buffers of engines and units (R196) -/

/-- The instance that serves an engine: the sealing pool's or the direct pool's of its die (Table 8.3). -/
def State.engineInstance (s : State) (e : Nat) : Nat := (if (s.engine e).owner = 0xFF then 64 else 70) + e / 16

/-- The 512-byte buffer of an engine is refilled, where the Bank delivers. -/
def State.fillEngine (e : Nat) (s : State) : State :=
  let i := s.engineInstance e
  let n := 512 - (s.engine e).buffer.length
  if n = 0 || !s.delivers i then s
  else
    let r := s.generate i n false
    r.2.onEngine e fun g => { g with buffer := g.buffer ++ r.1 }

/-- A command takes `n` bytes out of the buffer, which is refilled first where it holds fewer; with prediction resistance
what was buffered before the reseed is not used (R195). A need above 512 bytes takes several fills
(DEDUCED, log entry 121). -/
def State.engineDraw (e : Nat) : Nat → Nat → State → Bytes × State
  | 0, _, s => ([], s)
  | fuel + 1, n, s =>
    let s := if (s.engine e).buffer.length < min n 512 then s.fillEngine e else s
    let b := (s.engine e).buffer.take n
    let s := s.onEngine e fun g => { g with buffer := g.buffer.drop n }
    if n ≤ 512 then (b, s)
    else
      let r := State.engineDraw e fuel (n - 512) s
      (b ++ r.1, r.2)

/-- Bytes a command of Table 6.8 draws on a curve of `w` words (R145, R155, R157): the hedge of ECDSA or the private value of
EC_KEYGEN, 8 bytes for each secret scalar, L bytes for each λ; u and two 8-byte values of RSA_PRIVATE; the bases of
CURVE_LOAD's two primality tests (DESIGN CHOICE, log entry 124). -/
def drawNeed (op curve w : Nat) : Nat :=
  let l := 8 * w
  match op with
  | 1 => 32 + 8 + l
  | 2 => 2 * l
  | 3 => 2 * (8 + l)
  | 4 => 3 * l
  | 5 => 8 + l
  | 6 => (if curve = 5 then 57 else l + 8) + 8 + l
  | 7 => l
  | 8 => l + 16
  | 10 => 80 * l
  | _ => 0

/-- What a command of an engine draws: the pool instance reseeds first under prediction resistance. -/
def State.engineBytes (e n : Nat) (resist : Bool) (s : State) : Bytes × State :=
  let s := if resist then (s.reseed (s.engineInstance e)).onEngine e fun g => { g with buffer := [] } else s
  s.engineDraw e (n / 512 + 1) n

/-- The buffer of a Lattice Unit: `direct` for the direct pool's instance of its die, otherwise the sealing pool's. -/
def LatticeUnit.buffer (l : LatticeUnit) (direct : Bool) : Bytes := if direct then l.directBuf else l.sealBuf

def LatticeUnit.setBuffer (l : LatticeUnit) (direct : Bool) (b : Bytes) : LatticeUnit :=
  if direct then { l with directBuf := b } else { l with sealBuf := b }

/-- The instance that serves a unit's work (Table 8.3). -/
def unitInstance (u : Nat) (direct : Bool) : Nat := (if direct then 70 else 64) + u / 4

def State.fillUnit (u : Nat) (direct : Bool) (s : State) : State :=
  let i := unitInstance u direct
  let old := (s.latticeUnit u).buffer direct
  if old.length = 512 || !s.delivers i then s
  else
    let r := s.generate i (512 - old.length) false
    r.2.onUnit u fun l => l.setBuffer direct (old ++ r.1)

/-- What an operation of a unit draws, 64 bytes at most. -/
def State.unitBytes (u n : Nat) (direct resist : Bool) (s : State) : Bytes × State :=
  let s := if resist then (s.reseed (unitInstance u direct)).onUnit u fun l => l.setBuffer direct [] else s
  let s := if ((s.latticeUnit u).buffer direct).length < n then s.fillUnit u direct else s
  let b := (s.latticeUnit u).buffer direct
  (b.take n, s.onUnit u fun l => l.setBuffer direct (b.drop n))

/-- Every buffer is discarded (R204 step 1). -/
def State.dropBuffers (s : State) : State :=
  { s with
    li := { s.li with engines := s.li.engines.map fun e => (e.1, { e.2 with buffer := [] }) }
    lh := { s.lh with units := s.lh.units.map fun e => (e.1, { e.2 with sealBuf := [], directBuf := [] }) } }

end Sys2Proof.Machine
end

