-- ==== Sys2Proof/Machine/Curves.lean ====
section
/-! DEFINITION. The integer arithmetic of the Long-Integer Engines: modular powers and inverses, short Weierstrass curves
in affine coordinates, Edwards and Montgomery curves, the built-in curves (R143, Table 6.1, with the published parameters),
ECDSA with the secret number of R155, EdDSA (RFC 8032), XDH (RFC 7748), RSA, and the primality test of R145. -/

namespace Sys2Proof.Machine

/-- `b ^ e` modulo `m`. -/
def modPow (m b e : Nat) : Nat :=
  (List.range (Nat.log2 e + 1)).reverse.foldl (fun a i => if e.testBit i then a * a % m * b % m else a * a % m) (1 % m)

/-- The inverse of `a` modulo a prime `p`. -/
def inverse (p a : Nat) : Nat := modPow p a (p - 2)

/-- Euclid's algorithm: `x` with `a * x = gcd` modulo `m`, `fuel` steps at most. -/
def euclid : Nat → Int → Int → Int → Int → Int
  | 0, _, _, x, _ => x
  | fuel + 1, r, r', x, x' => if r' = 0 then x else euclid fuel r' (r % r') x' (x - r / r' * x')

/-- The inverse of `a` modulo `m`, where there is one. -/
def inverseMod (m a : Nat) : Nat := (euclid (2 * (Nat.log2 m + 2)) (a % m) m 1 0 % m).toNat

/-- A point; `none` is the point at infinity. -/
abbrev Point := Option (Nat × Nat)

/-- (x, y) satisfies y² = x³ + ax + b modulo p. -/
def Curve.holds (c : Curve) (x y : Nat) : Bool := y * y % c.p = (x * x * x + c.a * x + c.b) % c.p

/-- The chord or tangent of slope `l` through (x, y) and a point with abscissa `x'`. -/
def Curve.third (c : Curve) (l x y x' : Nat) : Point :=
  let x3 := (l * l + 2 * c.p - x - x') % c.p
  some (x3, (l * (x + c.p - x3) + c.p - y) % c.p)

def Curve.add (c : Curve) (u v : Point) : Point :=
  match u, v with
  | none, v => v
  | u, none => u
  | some (x, y), some (x', y') =>
    if x = x' then
      if (y + y') % c.p = 0 then none
      else c.third ((3 * x * x + c.a) * inverse c.p (2 * y % c.p) % c.p) x y x'
    else c.third ((y' + c.p - y) * inverse c.p ((x' + c.p - x) % c.p) % c.p) x y x'

/-- k·u. -/
def Curve.mul (c : Curve) (k : Nat) (u : Point) : Point :=
  (List.range (Nat.log2 k + 1)).reverse.foldl (fun (a : Point) i =>
    let d := c.add a a
    if k.testBit i then c.add d u else d) none

def Curve.base (c : Curve) : Point := some (c.gx, c.gy)

/-- Bits of a number. -/
def bitLen (n : Nat) : Nat := if n = 0 then 0 else Nat.log2 n + 1

/-- The built-in curves with their published parameters (R143). Those of Curve25519 and Curve448 are of the Edwards form
ax² + y² = 1 + dx²y²: `b` is its d, and `n` is the order ℓ of the base point. -/
def builtin (id : Nat) : Option Curve :=
  match id with
  | 1 => some {
      tenant := 0xFF, words := 4, h := 1
      p := 0xffffffff00000001000000000000000000000000ffffffffffffffffffffffff
      a := 0xffffffff00000001000000000000000000000000fffffffffffffffffffffffc
      b := 0x5ac635d8aa3a93e7b3ebbd55769886bc651d06b0cc53b0f63bce3c3e27d2604b
      gx := 0x6b17d1f2e12c4247f8bce6e563a440f277037d812deb33a0f4a13945d898c296
      gy := 0x4fe342e2fe1a7f9b8ee7eb4a7c0f9e162bce33576b315ececbb6406837bf51f5
      n := 0xffffffff00000000ffffffffffffffffbce6faada7179e84f3b9cac2fc632551 }
  | 2 => some {
      tenant := 0xFF, words := 6, h := 1
      p := 2 ^ 384 - 2 ^ 128 - 2 ^ 96 + 2 ^ 32 - 1
      a := 2 ^ 384 - 2 ^ 128 - 2 ^ 96 + 2 ^ 32 - 4
      b := 0xb3312fa7e23ee7e4988e056be3f82d19181d9c6efe8141120314088f5013875ac656398d8a2ed19d2a85c8edd3ec2aef
      gx := 0xaa87ca22be8b05378eb1c71ef320ad746e1d3b628ba79b9859f741e082542a385502f25dbf55296c3a545e3872760ab7
      gy := 0x3617de4a96262c6f5d9e98bf9292dc29f8f41dbd289a147ce9da3113b5f0b8c00a60b1ce1d7e819d7a431d7c90ea0e5f
      n := 0xffffffffffffffffffffffffffffffffffffffffffffffffc7634d81f4372ddf581a0db248b0a77aecec196accc52973 }
  | 3 => some {
      tenant := 0xFF, words := 9, h := 1
      p := 2 ^ 521 - 1
      a := 2 ^ 521 - 4
      b := 0x0051953eb9618e1c9a1f929a21a0b68540eea2da725b99b315f3b8b489918ef109e156193951ec7e937b1652c0bd3bb1bf073573df883d2c34f1ef451fd46b503f00
      gx := 0x00c6858e06b70404e9cd9e3ecb662395b4429c648139053fb521f828af606b4d3dbaa14b5e77efe75928fe1dc127a2ffa8de3348b3c1856a429bf97e7e31c2e5bd66
      gy := 0x011839296a789a3bc0045c8a5fb42c7d1bd998f54449579b446817afbd17273e662c97ee72995ef42640c550b9013fad0761353c7086a272c24088be94769fd16650
      n := 0x01fffffffffffffffffffffffffffffffffffffffffffffffffffffffffffffffffa51868783bf2f966b7fcc0148f709a5d03bb5c9b8899c47aebb6fb71e91386409 }
  | 4 => some {
      tenant := 0xFF, words := 4, h := 8
      p := 2 ^ 255 - 19
      a := 2 ^ 255 - 20
      b := 0x52036cee2b6ffe738cc740797779e89800700a4d4141d8ab75eb4dca135978a3
      gx := 0x216936d3cd6e53fec0a4e231fdd6dc5c692cc7609525a7b2c9562d608f25d51a
      gy := 0x6666666666666666666666666666666666666666666666666666666666666658
      n := 2 ^ 252 + 27742317777372353535851937790883648493 }
  | 5 => some {
      tenant := 0xFF, words := 7, h := 4
      p := 2 ^ 448 - 2 ^ 224 - 1
      a := 1
      b := 2 ^ 448 - 2 ^ 224 - 1 - 39081
      gx := 0x4f1970c66bed0ded221d15a622bf36da9e146570470f1767ea6de324a3d3a46412ae1af72ab66511433b80e18b00938e2626a82bc70cc05e
      gy := 0x693f46716eb6bc248876203756c9c7624bea73736ca3984087789c1e05a0c2d73ad3ff1ce67c39c4fdbd132c4ed7c8ad9808795bf230fa14
      n := 2 ^ 446 - 13818066809895115352007386748515426880336692474882178609894547503885 }
  | _ => none

/-! ### ECDSA -/

/-- r and s of an ECDSA signature of z under d with the secret number k (FIPS 186-5). -/
def Curve.ecdsa (c : Curve) (d z k : Nat) : Nat × Nat :=
  match c.mul k c.base with
  | none => (0, 0)
  | some (x, _) =>
    let r := x % c.n
    (r, inverse c.n k * (z + r * d) % c.n)

/-- The hash of R155 for W words: its code among the published hashes. -/
def hedgeHash (w : Nat) : Nat := if w ≤ 4 then 256 else if w ≤ 6 then 384 else 512

/-- The secret number of R155. -/
def Curve.secret (c : Curve) (w d z : Nat) (extra : Bytes) : Nat :=
  let n := bitLen c.n + 64
  let seed := be (8 * w) d ++ be (8 * w) (z % c.n) ++ extra
  let t := ofBe (Config.out .ecdsaNonce ((n + 7) / 8) [hedgeHash w, n] [seed]) % 2 ^ n
  t % (c.n - 1) + 1

/-- r ‖ s of ECDSA P-256 with SHA-256 over a message, under the private key `key`, hedged by `extra` (R86, R96, R155). -/
def p256Sign (key m extra : Bytes) : Bytes :=
  match builtin 1 with
  | some c =>
    let d := ofBe key
    let z := ofBe (Config.sha256 m)
    let r := c.ecdsa d z (c.secret 4 d z extra)
    be 32 r.1 ++ be 32 r.2
  | none => []

/-- Whether (r, s) is a signature of z under Q (FIPS 186-5); r or s out of range fails (Table 6.10). -/
def Curve.ecdsaVerify (c : Curve) (q : Point) (z r s : Nat) : Bool :=
  if r = 0 || s = 0 || c.n ≤ r || c.n ≤ s then false
  else
    let w := inverse c.n s
    match c.add (c.mul (z % c.n * w % c.n) c.base) (c.mul (r * w % c.n) q) with
    | none => false
    | some (x, _) => x % c.n = r

/-! ### Edwards curves (RFC 8032) -/

/-- A square root of `a` modulo `p`, for p of 3 modulo 4 or 5 modulo 8. -/
def sqrtMod (p a : Nat) : Option Nat :=
  let r := if p % 4 = 3 then modPow p a ((p + 1) / 4)
    else
      let c := modPow p a ((p + 3) / 8)
      if c * c % p = a % p then c else c * modPow p 2 ((p - 1) / 4) % p
  if r * r % p = a % p then some r else none

/-- The sum of two points of an Edwards curve, complete. -/
def Curve.edAdd (c : Curve) (u v : Nat × Nat) : Nat × Nat :=
  let t := c.b * (u.1 * v.1 % c.p) % c.p * (u.2 * v.2 % c.p) % c.p
  let x := (u.1 * v.2 + u.2 * v.1) % c.p
  let y := (u.2 * v.2 + c.p * c.p - c.a * (u.1 * v.1 % c.p)) % c.p
  (x * inverse c.p ((1 + t) % c.p) % c.p, y * inverse c.p ((1 + c.p - t) % c.p) % c.p)

/-- k·u on an Edwards curve. -/
def Curve.edMul (c : Curve) (k : Nat) (u : Nat × Nat) : Nat × Nat :=
  (List.range (Nat.log2 k + 1)).reverse.foldl (fun (a : Nat × Nat) i =>
    let d := c.edAdd a a
    if k.testBit i then c.edAdd d u else d) (0, 1)

/-- Bytes of an encoded point, and of a coordinate. -/
def Curve.edBytes (c : Curve) : Nat := if c.words = 4 then 32 else 57

/-- The encoding of a point: y, with the least bit of x on top. -/
def Curve.edEncode (c : Curve) (u : Nat × Nat) : Bytes := le c.edBytes (u.2 + u.1 % 2 * 2 ^ (8 * c.edBytes - 1))

/-- The y of an encoding. -/
def Curve.edY (c : Curve) (enc : Bytes) : Nat := ofLe enc % 2 ^ (8 * c.edBytes - 1)

/-- The point of an encoding, where it has a valid x. -/
def Curve.edDecode (c : Curve) (enc : Bytes) : Option (Nat × Nat) :=
  let y := c.edY enc
  let sign := ofLe enc / 2 ^ (8 * c.edBytes - 1) % 2
  let yy := y * y % c.p
  let den := (c.a + c.p - c.b * yy % c.p) % c.p
  match sqrtMod c.p ((1 + c.p - yy) * inverse c.p den % c.p) with
  | none => none
  | some x => if x = 0 && sign = 1 then none else some (if x % 2 = sign then x else c.p - x, y)

/-- The clamping of RFC 7748, and of RFC 8032 for the same curve. -/
def clamp (curve : Nat) (k : Bytes) : Bytes :=
  if curve = 4 then setAt (setAt k 0 (· &&& 0xF8#8)) 31 fun x => (x &&& 0x7F#8) ||| 0x40#8
  else setAt (setAt (setAt k 0 (· &&& 0xFC#8)) 55 (· ||| 0x80#8)) 56 fun _ => 0#8

/-- The hash of EdDSA: SHA-512, or SHAKE256 with 114 bytes of output. -/
def Curve.edHash (c : Curve) (m : Bytes) : Bytes :=
  if c.words = 4 then Config.sha512 m else Config.out .shake256 114 [] [m]

/-- dom4 of Ed448 with an empty context; Ed25519 has none. -/
def Curve.edDomain (c : Curve) : Bytes :=
  if c.words = 4 then [] else [0x53, 0x69, 0x67, 0x45, 0x64, 0x34, 0x34, 0x38, 0, 0]

/-- The secret scalar of a seed, and the prefix of its nonces. -/
def Curve.edSecret (c : Curve) (seed : Bytes) : Nat × Bytes :=
  let h := c.edHash seed
  (ofLe (clamp (if c.words = 4 then 4 else 5) (h.take c.edBytes)), h.drop c.edBytes)

/-- The public key of a seed. -/
def Curve.edPublic (c : Curve) (seed : Bytes) : Bytes := c.edEncode (c.edMul (c.edSecret seed).1 (c.gx, c.gy))

/-- R ‖ S of EdDSA. -/
def Curve.edSign (c : Curve) (seed m : Bytes) : Bytes :=
  let (s, pre) := c.edSecret seed
  let r := ofLe (c.edHash (c.edDomain ++ pre ++ m)) % c.n
  let rEnc := c.edEncode (c.edMul r (c.gx, c.gy))
  let k := ofLe (c.edHash (c.edDomain ++ rEnc ++ c.edPublic seed ++ m)) % c.n
  rEnc ++ le c.edBytes ((r + k * s) % c.n)

/-- The group equation of EdDSA, with the cofactor as RFC 8032 states it first (DEDUCED, log entry 123). -/
def Curve.edVerify (c : Curve) (aEnc rEnc sEnc m : Bytes) : Bool :=
  match c.edDecode aEnc, c.edDecode rEnc with
  | some a, some r =>
    let k := ofLe (c.edHash (c.edDomain ++ rEnc ++ aEnc ++ m)) % c.n
    ofLe sEnc < c.n
      && c.edMul c.h (c.edMul (ofLe sEnc) (c.gx, c.gy)) = c.edMul c.h (c.edAdd r (c.edMul k a))
  | _, _ => false

/-! ### X25519 and X448 (RFC 7748) -/

/-- One step of the Montgomery ladder on (x2 : z2) and (x3 : z3): their sum, and the double of the first. -/
def ladderStep (p a24 u : Nat) (w v : Nat × Nat) : (Nat × Nat) × (Nat × Nat) :=
  let a := (w.1 + w.2) % p
  let b := (w.1 + p - w.2) % p
  let e := (a * a + p * p - b * b) % p
  let da := (v.1 + p - v.2) * a % p
  let cb := (v.1 + v.2) * b % p
  ((a * a % p * (b * b % p) % p, e * (a * a + a24 * e) % p),
    ((da + cb) * (da + cb) % p, u * ((da + p - cb) * (da + p - cb) % p) % p))

/-- The u of k times the point with coordinate `u`. -/
def ladder (p a24 k u : Nat) : Nat :=
  let r := (List.range (Nat.log2 k + 1)).reverse.foldl (fun (s : (Nat × Nat) × (Nat × Nat)) i =>
    if k.testBit i then
      let t := ladderStep p a24 u s.2 s.1
      (t.2, t.1)
    else ladderStep p a24 u s.1 s.2) ((1, 0), (u, 1))
  r.1.1 * inverse p r.1.2 % p

/-- X25519 or X448 of a scalar and a u-coordinate. -/
def xdh (curve : Nat) (scalar point : Bytes) : Bytes :=
  let n := if curve = 4 then 32 else 56
  let p := if curve = 4 then 2 ^ 255 - 19 else 2 ^ 448 - 2 ^ 224 - 1
  let u := (if curve = 4 then ofLe point % 2 ^ 255 else ofLe point) % p
  le n (ladder p (if curve = 4 then 121665 else 39081) (ofLe (clamp curve scalar)) u)

/-- The public value of an XDH scalar. -/
def xdhPublic (curve : Nat) (scalar : Bytes) : Bytes :=
  xdh curve scalar (le (if curve = 4 then 32 else 56) (if curve = 4 then 9 else 5))

/-- The public part of an EC private key of a built-in curve: Qx ‖ Qy, an encoded point, or a u-coordinate. -/
def ecPublic (curve : Nat) (isXdh : Bool) (key : Bytes) : Bytes :=
  match builtin curve with
  | none => []
  | some c =>
    if curve < 4 then
      match c.mul (ofBe key) c.base with
      | some (x, y) => be key.length x ++ be key.length y
      | none => []
    else if isXdh then xdhPublic curve key
    else c.edPublic key

/-- EdDSA over a message under a seed of a built-in curve. -/
def edSignature (curve : Nat) (seed m : Bytes) : Bytes :=
  match builtin curve with
  | some c => c.edSign seed m
  | none => []

/-! ### RSA -/

/-- An RSA private key as Table 6.8 lays it out. -/
structure RsaKey where
  n : Nat
  e : Nat
  p : Nat
  q : Nat
  dp : Nat
  dq : Nat
  qinv : Nat
  deriving DecidableEq, Repr

/-- A key of the KRF: n, and the CRT values that p, q and e determine. -/
def rsaOf (p q e : Nat) : RsaKey :=
  { n := p * q, e := e, p := p, q := q
    dp := inverseMod (p - 1) e
    dq := inverseMod (q - 1) e
    qinv := inverseMod p q }

/-- m to the private exponent modulo n, by the Chinese remainder theorem. -/
def RsaKey.power (k : RsaKey) (m : Nat) : Nat :=
  let a := modPow k.p (m % k.p) k.dp
  let b := modPow k.q (m % k.q) k.dq
  b + k.q * (k.qinv * (a + k.p - b % k.p) % k.p)

/-- n and e are malformed for W words (Table 6.10). -/
def rsaBad (w n e : Nat) : Bool := n % 2 = 0 || n < 2 ^ (64 * (w - 1)) || e % 2 = 0 || e < 3

/-! ### The sanity checks of a loaded curve (R145) -/

/-- `n - 1 = d * 2 ^ s` with d odd, for an odd n. -/
def oddPart (n : Nat) : Nat × Nat :=
  (List.range (Nat.log2 n + 1)).foldl (fun (r : Nat × Nat) _ => if r.1 % 2 = 0 then (r.1 / 2, r.2 + 1) else r) (n - 1, 0)

/-- One Miller–Rabin round: the odd number `n` is a strong probable prime to base `a`. -/
def millerRabin (n a : Nat) : Bool :=
  let (d, s) := oddPart n
  let x := modPow n a d
  a % n = 0 || x = 1 || (List.range s).any fun i => modPow n x (2 ^ i) = n - 1

/-- The Jacobi symbol (a / n) for an odd n. -/
def jacobi : Nat → Nat → Nat → Int
  | 0, _, _ => 0
  | fuel + 1, a, n =>
    let a := a % n
    if a = 0 then (if n = 1 then 1 else 0)
    else if a % 2 = 0 then (if n % 8 = 3 || n % 8 = 5 then -1 else 1) * jacobi fuel (a / 2) n
    else (if a % 4 = 3 && n % 4 = 3 then -1 else 1) * jacobi fuel n a

/-- Selfridge's D: the first of 5, −7, 9, −11, … with (D / n) = −1. -/
def selfridge (n : Nat) : Option Int :=
  ((List.range 2048).map fun (i : Nat) => (if i % 2 = 0 then 1 else -1) * (2 * (i : Int) + 5)).find? fun (d : Int) =>
    jacobi (4 * (Nat.log2 n + 2)) (d % n).toNat n = -1

/-- U, V and Q^k of a Lucas sequence with P = 1, at the index whose bits are read from the top. -/
def lucas (n : Nat) (d q : Int) (k : Nat) : Int × Int × Int :=
  (List.range (Nat.log2 k)).reverse.foldl (fun (w : Int × Int × Int) i =>
    let half := fun (x : Int) => (if x % 2 = 0 then x / 2 else (x + n) / 2) % n
    let u := w.1 * w.2.1 % n
    let v := (w.2.1 * w.2.1 - 2 * w.2.2) % n
    let e := w.2.2 * w.2.2 % n
    if k.testBit i then (half ((u + v) % n), half ((d * u + v) % n), e * q % n) else (u, v, e)) (1, 1, q % n)

/-- The strong Lucas test of Baillie–PSW, with Selfridge's parameters. -/
def strongLucas (n : Nat) : Bool :=
  match selfridge n with
  | none => false
  | some d =>
    let q := (1 - d) / 4
    let (k, s) := oddPart (n + 2)
    let w := lucas n d q k
    w.1 % n = 0 || ((List.range s).foldl (fun (r : Bool × Int × Int) _ =>
      (r.1 || r.2.1 % n = 0, (r.2.1 * r.2.1 - 2 * r.2.2) % n, r.2.2 * r.2.2 % n)) (false, w.2.1, w.2.2)).1

/-- The primality test of R145 check 1: Baillie–PSW, and a Miller–Rabin round for each of the drawn bases. -/
def prime (n : Nat) (bases : List Nat) : Bool :=
  if n < 4 then n = 2 || n = 3
  else n % 2 = 1 && millerRabin n 2 && strongLucas n && bases.all fun a => millerRabin n (a % (n - 3) + 2)

/-- The 40 bases of a test, out of `bytes` of randomness for each (DESIGN CHOICE, log entry 124). -/
def basesOf (bytes : Nat) (rnd : Bytes) : List Nat := (List.range 40).map fun i => beAt rnd (i * bytes) bytes

/-- DETAIL of the first check that a curve fails; 0 where it passes all. `rnd` holds the bases for p, then those for n. -/
def Curve.sanity (c : Curve) (rnd : Bytes) : Nat :=
  let l := 8 * c.words
  let p := c.p
  let d := (c.h * c.n : Int) - (p + 1)
  if !prime p (basesOf l rnd) then 0x10
  else if bitLen p < 192 || 576 < bitLen p || (bitLen p + 63) / 64 ≠ c.words then 0x11
  else if p ≤ c.a || p ≤ c.b || p ≤ c.gx || p ≤ c.gy then 0x12
  else if (4 * c.a * c.a * c.a + 27 * c.b * c.b) % p = 0 then 0x13
  else if !c.holds c.gx c.gy then 0x14
  else if !prime c.n (basesOf l (rnd.drop (40 * l))) then 0x15
  else if c.mul c.n c.base ≠ none then 0x16
  else if c.h = 0 || 8 < c.h then 0x17
  else if 4 * p < (d * d).toNat then 0x18
  else if c.n = p then 0x19
  else if (List.range 100).any fun k => modPow c.n p (k + 1) = 1 % c.n then 0x1A
  else 0

/-- A private scalar of P-384 from 56 random bytes, by the extra-random-bits method of R155. -/
def p384Scalar (rnd : Bytes) : Nat :=
  match builtin 2 with
  | some c => beAt rnd 0 56 % (c.n - 1) + 1
  | none => 0

/-- The uncompressed point of a P-384 private scalar. -/
def p384Point (d : Nat) : Bytes :=
  match builtin 2 with
  | some c => (match c.mul d c.base with
    | some (x, y) => [0x04] ++ be 48 x ++ be 48 y
    | none => [])
  | none => []

/-- An uncompressed P-384 point: its format, its range and its curve. -/
def p384Valid (point : Bytes) : Bool :=
  match builtin 2 with
  | some c => point.length = 97 && point.getD 0 0 = 0x04 && decide (beAt point 1 48 < c.p) && decide (beAt point 49 48 < c.p)
      && c.holds (beAt point 1 48) (beAt point 49 48)
  | none => false

/-- The shared x of a P-384 private scalar and an uncompressed point. -/
def p384Shared (d : Nat) (point : Bytes) : Bytes :=
  match builtin 2 with
  | some c => (match c.mul d (some (beAt point 1 48, beAt point 49 48)) with
    | some (x, _) => be 48 x
    | none => [])
  | none => []

/-- An ECDSA P-384 signature with SHA-384 under a public key Qx ‖ Qy (FIPS 186-5). -/
def p384Verify (key m sig : Bytes) : Bool :=
  match builtin 2 with
  | some c => c.ecdsaVerify (some (beAt key 0 48, beAt key 48 48)) (ofBe (Config.sha384 m)) (beAt sig 0 48) (beAt sig 48 48)
  | none => false

end Sys2Proof.Machine
end

