-- ==== Sys2Proof/Machine/Loader.lean ====
section
/-! DEFINITION. What the loader of a Seal die checks of an applet image (R245 to R247): its layout, its signatures, and
its code: reserved encodings, delay slots, loop bodies and CSR numbers (R218, R224 to R231, R235, R236, R238, R243). -/

namespace Sys2Proof.Machine

/-! ### Encodings (R223 to R231) -/

/-- An instruction as the loader decodes it: its offset, its size in bytes, and its bits: I[15:0], or I[31:0] with the
first halfword above. -/
structure Decoded where
  at' : Nat
  size : Nat
  bits : Nat
  deriving DecidableEq, Repr

/-- The code section decoded linearly from its first halfword; memory past its end is zero. -/
def decodeFrom (code : Bytes) : Nat → Nat → List Decoded
  | 0, _ => []
  | fuel + 1, at' =>
    if code.length ≤ at' then []
    else
      let h := leAt code at' 2
      if h / 2 ^ 14 = 3 then
        { at' := at', size := 4, bits := h * 2 ^ 16 + leAt code (at' + 2) 2 } :: decodeFrom code fuel (at' + 4)
      else { at' := at', size := 2, bits := h } :: decodeFrom code fuel (at' + 2)

/-- The encoding is reserved (R243). -/
def Decoded.reserved (d : Decoded) : Bool := (if d.size = 4 then decode32 0 d.bits else decode16 0 d.bits).isNone

/-- Op of a 32-bit instruction; 0x40 for a 16-bit one. -/
def Decoded.op (d : Decoded) : Nat := if d.size = 4 then bitsOf d.bits 29 24 else 0x40

/-- The code of a C.MISC instruction; 16 for any other. -/
def Decoded.misc (d : Decoded) : Nat :=
  if d.size = 2 && bitsOf d.bits 15 12 = 11 then bitsOf d.bits 11 8 else 16

/-- C.B, B.L, JR, CALL and RET (R235). -/
def Decoded.transfer (d : Decoded) : Bool :=
  (d.size = 2 && (bitsOf d.bits 15 12 = 9 || (bitsOf d.bits 15 14 = 0 && bitsOf d.bits 13 8 = 0x16)))
    || d.op = 0x14 || d.op = 0x16 || d.misc = 1

def Decoded.isLoop (d : Decoded) : Bool := d.op = 0x17

/-- What may stand neither in a delay slot nor at the end of a loop body (R235, R238). -/
def Decoded.barred (d : Decoded) : Bool :=
  d.transfer || d.isLoop || d.misc = 2 || d.misc = 3 || d.misc = 9 || d.misc = 10

/-- CSR numbers of Table 9.5. -/
def csrNumbers : List Nat :=
  [0, 1, 2, 3, 4, 8, 9, 0xA, 0xB, 0xC, 0xD, 0xE, 0xF, 0x10, 0x18] ++ (List.range 8).map (0x20 + ·)

/-- CSRR or CSRW of a number absent from the table (R218). -/
def Decoded.badCsr (d : Decoded) : Bool := (d.op = 0x18 || d.op = 0x19) && !csrNumbers.contains (bitsOf d.bits 7 0)

/-! ### Loop bodies (R236, R238) -/

/-- A LOOP: its offset, its level, and its body from `start` up to `stop`. -/
structure LoopAt where
  at' : Nat
  level : Nat
  start : Nat
  stop : Nat
  deriving DecidableEq, Repr

def loopsOf (l : List Decoded) : List LoopAt :=
  (l.filter Decoded.isLoop).map fun d =>
    { at' := d.at', level := bitsOf d.bits 23 22, start := d.at' + 4, stop := d.at' + 4 + 2 * bitsOf d.bits 9 0 }

def LoopAt.has (k : LoopAt) (d : Decoded) : Bool := k.start ≤ d.at' && d.at' < k.stop

/-- The offsets of the last and the next-to-last instruction of a body. -/
def LoopAt.lastTwo (k : LoopAt) (l : List Decoded) : List Nat :=
  ((l.filter k.has).reverse.take 2).map (·.at')

/-- An instruction breaks R238 in the body of `k`. -/
def LoopAt.offends (k : LoopAt) (l : List Decoded) (d : Decoded) : Bool :=
  k.has d && ((d.barred && (k.lastTwo l).contains d.at')
    || (d.isLoop && (k.level ≤ bitsOf d.bits 23 22 || k.stop < d.at' + 4 + 2 * bitsOf d.bits 9 0)))

/-- The offset of the first instruction that breaks a loader rule, if any (R247 step 6). -/
def rejectOffset (code : Bytes) : Option Nat :=
  let l := decodeFrom code code.length 0
  let loops := loopsOf l
  let slots := ((l.filter Decoded.transfer).map fun d => d.at' + d.size)
  (l.find? fun d => d.reserved || d.badCsr || (d.barred && slots.contains d.at') || loops.any fun k => k.offends l d).map
    (·.at')

/-! ### The image (Tables 10.1 and 10.2) -/

structure Image where
  bytes : Bytes
  deriving DecidableEq, Repr

def Image.kind (i : Image) : Nat := beAt i.bytes 10 1
def Image.tenant (i : Image) : Nat := beAt i.bytes 11 1
def Image.version (i : Image) : Nat := beAt i.bytes 12 4
def Image.appletId (i : Image) : Nat := beAt i.bytes 16 8
def Image.codeBytes (i : Image) : Nat := beAt i.bytes 24 4
def Image.dataBytes (i : Image) : Nat := beAt i.bytes 28 4
def Image.entry (i : Image) : Nat := beAt i.bytes 32 4
def Image.cores (i : Image) : Nat := beAt i.bytes 36 1
/-- Bit k: service k is granted. -/
def Image.grant (i : Image) : Nat := leAt i.bytes 44 32
def Image.code (i : Image) : Bytes := slice i.bytes 128 i.codeBytes
def Image.data (i : Image) : Bytes := slice i.bytes (128 + i.codeBytes) i.dataBytes
def Image.signed (i : Image) : Nat := 128 + i.codeBytes + i.dataBytes

/-- Step 2 of R247. -/
def Image.formatOk (i : Image) (t : Nat) : Bool :=
  beAt i.bytes 0 8 = 0x47583853455A454C && beAt i.bytes 8 2 = 1
    && 1 ≤ i.kind && i.kind ≤ 4 && i.tenant = t && i.version ≠ 0 && i.appletId ≠ 0
    && i.codeBytes % 2 = 0 && 2 ≤ i.codeBytes && i.codeBytes ≤ 262144 && i.dataBytes ≤ 524288
    && i.entry % 2 = 0 && i.entry < i.codeBytes && 1 ≤ i.cores && i.cores ≤ 32
    && beAt i.bytes 37 7 = 0 && beAt i.bytes 76 4 = 0
    && i.bytes.length = i.signed + 9446
    && (i.kind = 1 || !(i.grant.testBit 0x10 || i.grant.testBit 0x11 || i.grant.testBit 0x12))

/-- An operator's or the regulator's signature pair at offset `off` over the bytes before it (R246). -/
def Image.signedBy (i : Image) (key : Bytes) (off : Nat) (ctx : Bytes) : Bool :=
  p384Verify (slice key 0 96) (i.bytes.take off) (slice i.bytes off 96)
    && Config.passes .mldsa [3] [slice key 96 2592, i.bytes.take off, ctx, slice i.bytes (off + 96) 4627]

/-- Steps 2 to 6 of R247: the failure code of AppletLoadStatus and AppletRejectOffset, if a check fails. -/
def Image.check (i : Image) (t : Nat) (opKey regKey : Bytes) : Option (Nat × Nat) :=
  let ctx := fun (c : Byte) => [0x54, 0x4D, 0x52, 0x2D, 0x47, 0x58, 0x38, 0x2D, 0x41, c]
  if !i.formatOk t then some (0x10, 0)
  else if opKey = [] || regKey = [] then some (0x17, 0)
  else if slice i.bytes 80 48 ≠ Config.sha384 (i.code ++ i.data) || !i.signedBy opKey i.signed (ctx 0x4F) then some (0x11, 0)
  else if !i.signedBy regKey (i.signed + 4723) (ctx 0x52) then some (0x12, 0)
  else match rejectOffset i.code with
    | some o => some (0x13, o)
    | none => none

end Sys2Proof.Machine
end

