-- ==== Sys2Proof/Machine/Flags.lean ====
section
/-! DEFINITION. Rounding, saturation and the flags of a Sezel core (R214 to R217, Tables 9.1, 9.2 and 9.11). -/

namespace Sys2Proof.Machine

/-- rnd(num ÷ den) under a rounding mode (R216): 0 toward zero, 1 half away from zero, 2 half to even, 3 toward minus
infinity. `den` is not zero. -/
def rnd (mode : Nat) (num den : Int) : Int :=
  let n := if den < 0 then -num else num
  let d := if den < 0 then -den else den
  let q := n / d
  let r := n % d
  if r = 0 then q
  else match mode with
    | 0 => if n < 0 then q + 1 else q
    | 1 => if d < 2 * r then q + 1 else if 2 * r < d then q else if 0 ≤ n then q + 1 else q
    | 2 => if d < 2 * r then q + 1 else if 2 * r < d then q else if q % 2 = 0 then q else q + 1
    | _ => q

/-- What fit_n does to an exact integer (R217): the result, whether it overflowed, whether it saturated. -/
structure Fit where
  value : Int
  v : Bool
  satf : Bool
  deriving DecidableEq, Repr

/-- fit_n (R217). -/
def fit (n : Nat) (sat : Bool) (x : Int) : Fit :=
  let lo : Int := -(2 ^ (n - 1))
  let hi : Int := 2 ^ (n - 1) - 1
  if lo ≤ x ∧ x ≤ hi then { value := x, v := false, satf := false }
  else if sat then { value := if x < lo then lo else hi, v := true, satf := true }
  else { value := (BitVec.ofInt n x).toInt, v := true, satf := false }

/-- Flags an instruction writes: `none` leaves a flag unchanged; SATF is only ever set (Table 9.2). -/
structure FlagSet where
  z : Option Bool := none
  n : Option Bool := none
  c : Option Bool := none
  v : Option Bool := none
  satf : Bool := false
  deriving DecidableEq, Repr

/-- Z and N of a result. -/
def flagsZN (r : Word) : FlagSet := { z := some (r = 0), n := some r.msb }

/-- The sum a + b and its flags: C is the carry (Table 9.2). -/
def addFlags (a b : Word) : Word × FlagSet :=
  let r := a + b
  (r, { z := some (r = 0), n := some r.msb, c := some (decide (2 ^ 32 ≤ a.toNat + b.toNat)),
        v := some (decide (r.toInt ≠ a.toInt + b.toInt)) })

/-- The difference a − b and its flags: C = 1 means no borrow (Table 9.2, R215). -/
def subFlags (a b : Word) : Word × FlagSet :=
  let r := a - b
  (r, { z := some (r = 0), n := some r.msb, c := some (decide (b.toNat ≤ a.toNat)),
        v := some (decide (r.toInt ≠ a.toInt - b.toInt)) })

/-- A 32-bit result of fit_n with flags Z N V SATF. -/
def fitFlags (bits : Nat) (sat : Bool) (x : Int) : Word × FlagSet :=
  let f := fit bits sat x
  let r := BitVec.ofInt 32 f.value
  (r, { z := some (r = 0), n := some r.msb, v := some f.v, satf := f.satf })

/-- MODE.SAT (Table 9.1). -/
def modeSat (mode : Word) : Bool := mode.getLsbD 0

/-- MODE.RND (Table 9.1). -/
def modeRnd (mode : Word) : Nat := bitsOf mode.toNat 2 1

/-- The conditions of Table 9.11; code 0xF is reserved. -/
def condHolds (flags : Word) (cond : BitVec 4) : Bool :=
  let z := flags.getLsbD 0
  let n := flags.getLsbD 1
  let c := flags.getLsbD 2
  let v := flags.getLsbD 3
  match cond.toNat with
  | 0 => z
  | 1 => !z
  | 2 => n != v
  | 3 => n == v
  | 4 => !c
  | 5 => c
  | 6 => !z && n == v
  | 7 => z || n != v
  | 8 => c && !z
  | 9 => !c || z
  | 10 => n
  | 11 => !n
  | 12 => v
  | 13 => !v
  | 14 => true
  | _ => false

end Sys2Proof.Machine
end

