-- ==== Sys2Proof/Machine/Operands.lean ====
section
/-! DEFINITION. What a Sezel instruction reads and writes: the visible registers and the writes not yet visible (R232,
R233), address registers and their updates (R219, R220), the core's address map (R221, Tables 9.6, 10.3 and 10.4), loads
and stores, the fetch, retirement and loop ends (R237), and precise faults (R242, R250). -/

namespace Sys2Proof.Machine

/-! ### Registers, accumulators and flags -/

/-- Make one write visible. -/
def SCore.apply (c : SCore) (p : PendWrite) : SCore :=
  match p.loc with
  | .w n => { c with w := c.w.set n (p.value.setWidth 32) }
  | .acc n => { c with acc := c.acc.set n p.value }
  | .accHigh n => { c with acc := c.acc.set n (p.value.setWidth 40 ++ c.acc[n].setWidth 32) }
  | .accLow n => { c with acc := c.acc.set n ((c.acc[n] >>> 32).setWidth 40 ++ p.value.setWidth 32) }
  | .flag n =>
    { c with flags :=
        if p.value = 0 then c.flags &&& ~~~(BitVec.ofNat 32 (2 ^ n.val)) else c.flags ||| BitVec.ofNat 32 (2 ^ n.val) }

/-- A write of one location writes all of another: an accumulator has two parts that INSH and INSL write alone. -/
def SLoc.covers (l : SLoc) : SLoc → Bool
  | .accHigh n => l = .acc n || l = .accHigh n
  | .accLow n => l = .acc n || l = .accLow n
  | m => l = m

/-- Of writes in program order, those not yet visible: a write that has become visible takes the older writes to its
location with it (R233). -/
def pendAfter (l : List PendWrite) : List PendWrite :=
  match l with
  | [] => []
  | p :: t =>
    if p.dist = 0 || t.any (fun q => q.loc.covers p.loc && q.dist = 0) then pendAfter t else p :: pendAfter t

/-- The core as its next instruction sees it: the writes whose distance is over are visible, in program order (R232, R233). -/
def SCore.settle (c : SCore) : SCore :=
  { (c.pend.filter fun p => p.dist = 0).foldl SCore.apply c with pend := pendAfter c.pend }

/-- The core with every earlier instruction complete (R242). -/
def SCore.flush (c : SCore) : SCore := { c.pend.foldl SCore.apply c with pend := [] }

/-- Write a location, visible to readers at distance `lat` or more. -/
def SCore.put (loc : SLoc) (lat : Nat) (v : Acc) (mac : Bool) (c : SCore) : SCore :=
  { c with pend := c.pend ++ [{ loc := loc, value := v, dist := lat, mac := mac }] }

def SCore.putW (rd : Fin 16) (lat : Nat) (v : Word) (c : SCore) : SCore := c.put (.w rd) lat (v.setWidth 72) false

def SCore.putFlag (n : Fin 5) (lat : Nat) (b : Bool) (c : SCore) : SCore :=
  c.put (.flag n) lat (if b then 1 else 0) false

/-- Write the flags of a FlagSet (DEDUCED, log entry 70). -/
def SCore.putFlags (lat : Nat) (f : FlagSet) (c : SCore) : SCore :=
  let c := match f.z with | some b => c.putFlag 0 lat b | none => c
  let c := match f.n with | some b => c.putFlag 1 lat b | none => c
  let c := match f.c with | some b => c.putFlag 2 lat b | none => c
  let c := match f.v with | some b => c.putFlag 3 lat b | none => c
  if f.satf then c.putFlag 4 lat true else c

/-- The accumulator a MAC-class instruction that writes it again reads: the latest MAC-class write of it, visible to
such a reader at distance 1 (Table 9.16). -/
def SCore.accForward (c : SCore) (n : Fin 4) : Acc :=
  match (c.pend.filter fun p => p.loc = .acc n && p.mac).getLast? with
  | some p => p.value
  | none => c.acc[n]

def SCore.sat (c : SCore) : Bool := modeSat c.mode
def SCore.rnd (c : SCore) : Nat := modeRnd c.mode

/-! ### Address registers -/

/-- The smallest k with `m ≤ 2^k`, for m up to 2^24. -/
def log2Up (m : Nat) : Nat := (List.range 25).find? (fun k => m ≤ 2 ^ k) |>.getD 24

/-- The low `k` bits of `v` in reverse order (R220). -/
def revBits : Nat → Nat → Nat
  | 0, _ => 0
  | k + 1, v => v % 2 * 2 ^ k + revBits k (v / 2)

/-- p_n after an access with step `step` in bytes (R219, R220) (DEDUCED, log entry 20). -/
def SCore.stepped (c : SCore) (n : Fin 8) (step : Int) : Word :=
  let p := c.p[n].toNat
  let m := c.m[n].toNat
  if m = 0 then BitVec.ofInt 32 (p + step)
  else
    let k := log2Up m
    let b := p / 2 ^ k * 2 ^ k
    if c.brev.getLsbD n.val then
      if m = 2 ^ k ∧ 1 ≤ k ∧ k ≤ 23 then
        let sk := (step % (2 ^ k : Int)).toNat
        BitVec.ofNat 32 (b + revBits k ((revBits k (p % 2 ^ k) + revBits k sk) % 2 ^ k))
      else BitVec.ofInt 32 (p + step)
    else BitVec.ofNat 32 (b + (((p - b : Int) + step) % (m : Int)).toNat)

/-- p_n := p_n updated by a step of `step` accesses of `size` bytes. -/
def SCore.postModify (n : Fin 8) (step : Int) (c : SCore) : SCore := { c with p := c.p.set n (c.stepped n step) }

/-! ### Memory -/

/-- Why a core faults (Tables 9.19 and 10.15), with FADDR. -/
structure CoreFault where
  cause : Nat
  addr : Word
  deriving DecidableEq, Repr

def causeFetchBus : Nat := 0x01
def causeLoadBus : Nat := 0x02
def causeStoreBus : Nat := 0x03
def causeMisaligned : Nat := 0x04
def causeGrant : Nat := 0x05
def causeMemIntegrity : Nat := 0x06
def causeDivZero : Nat := 0x07
def causeBadFrame : Nat := 0x08
def causeSvcInvalid : Nat := 0x09
def causeBreakpoint : Nat := 0x0A
def causeLrscRegion : Nat := 0x0B
def causeMailbox : Nat := 0x0C

/-- Where a data address leads (Table 9.6): data memory, a shared region in force and the offset in it, a shared
address outside the grant, the mailbox window, or nothing. -/
inductive Place where
  | data (offset : Nat)
  | shared (die tenant offset : Nat)
  | ungranted
  | mailbox (offset : Nat)
  | unmapped
  deriving DecidableEq, Repr

/-- The region of an address of shared SRAM at `base` of die `d` (R251): a DRAW slot has none
(DESIGN CHOICE, log entry 74). -/
def State.sharedPlace (s : State) (ap : AppletSlot) (d off : Nat) : Place :=
  let r := s.region d ap.owner
  if ap.kind ≠ 1 ∧ r.base * 1024 ≤ off ∧ off < r.base * 1024 + r.kib * 1024 then
    .shared d ap.owner (off - r.base * 1024)
  else .ungranted

/-- The place of an address for a core of slot `a` (R221, R251). -/
def State.place (s : State) (a addr : Nat) : Place :=
  let ap := s.applet a
  if 0x10000000 ≤ addr ∧ addr ≤ 0x1007FFFF then .data (addr - 0x10000000)
  else if 0x20000000 ≤ addr ∧ addr ≤ 0x21FFFFFF then s.sharedPlace ap ap.die (addr - 0x20000000)
  else if 0x22000000 ≤ addr ∧ addr ≤ 0x23FFFFFF then s.sharedPlace ap ((ap.die + 1) % 6) (addr - 0x22000000)
  else if 0x24000000 ≤ addr ∧ addr ≤ 0x25FFFFFF then s.sharedPlace ap ((ap.die + 5) % 6) (addr - 0x24000000)
  else if 0x30000000 ≤ addr ∧ addr ≤ 0x3000FFFF then .mailbox (addr - 0x30000000)
  else .unmapped

/-- The DRAW word of a slot (Table 10.4). -/
def State.drawWord (s : State) (a : Nat) : Nat :=
  match s.sz.draw with
  | some d => if d.slot = a then 1 + 2 * b2n d.uncommitted else 0
  | none => 0

/-- Core address and size of a region as the control area reports them; a region of size 0 reads as zero. -/
def State.regionWords (s : State) (a k base : Nat) : List Nat :=
  let ap := s.applet a
  let r := s.region ((ap.die + k) % 6) ap.owner
  if ap.kind = 1 ∨ r.kib = 0 then [0, 0] else [base + r.base * 1024, r.kib * 1024]

/-- The control area as bytes (Table 10.4). -/
def State.controlArea (s : State) (a index : Nat) : Bytes :=
  let ap := s.applet a
  let words := [ap.inTail, ap.inHead, ap.outHead, ap.outTail, a, index, ap.cores.length, s.drawWord a]
    ++ s.regionWords a 0 0x20000000 ++ s.regionWords a 1 0x22000000 ++ s.regionWords a 5 0x24000000
  words.flatMap (le 4)

/-- The bytes of the mailbox window (Table 10.3). -/
def State.mailboxBytes (s : State) (a index off n : Nat) : Bytes :=
  if off < 0x8000 then (s.applet a).inRing.readBytes off n
  else if off < 0xFC00 then (s.applet a).outRing.readBytes (off - 0x8000) n
  else slice (s.controlArea a index) (off - 0xFC00) n

/-- A load of `n` bytes: the bytes, or the fault (R221, Table 9.19). `upset`: the SRAM finds an uncorrectable error
(DEDUCED, log entry 69). -/
def State.load (s : State) (c : SCore) (addr : Word) (n : Nat) (upset : Bool) : Except CoreFault Bytes :=
  let a := addr.toNat
  if a % n ≠ 0 then .error ⟨causeMisaligned, addr⟩
  else match s.place c.slot a with
    | .unmapped => .error ⟨causeLoadBus, addr⟩
    | .ungranted => .error ⟨causeGrant, addr⟩
    | .data off => if upset then .error ⟨causeMemIntegrity, addr⟩ else .ok (c.dmem.readBytes off n)
    | .shared d t off =>
      if upset then .error ⟨causeMemIntegrity, addr⟩ else .ok ((s.region d t).mem.readBytes off n)
    | .mailbox off =>
      if upset then .error ⟨causeMemIntegrity, addr⟩ else .ok (s.mailboxBytes c.slot c.index off n)

/-- The reservation granule of a place (R239). -/
def Place.granule : Place → Option (Nat × Nat)
  | .data off => some (0, off / 8)
  | .shared d t off => some (1 + d * 64 + t, off / 8)
  | _ => none

/-- A store to a granule of a shared region clears the reservation of every core that holds it (R239). -/
def State.clearReservations (g : Nat × Nat) (s : State) : State :=
  s.onSz fun z => { z with
    cores := z.cores.map fun e =>
      if e.2.reservation = some g ∧ g.1 ≠ 0 then (e.1, { e.2 with reservation := none }) else e }

/-- The messages posted between two outbound boundaries (R254): the boundary up to which they are whole, and whether
each header is valid (Length at most 4,088, bytes 5 to 7 zero). `left` is the number of cells posted from `cell` on. -/
def postedMessages (ring : Memory) : Nat → Nat → Nat → Nat × Bool
  | 0, cell, _ => (cell, true)
  | fuel + 1, cell, left =>
    if left = 0 then (cell, true)
    else
      let h := ring.readBytes (cell * 64) 8
      let len := leAt h 0 2
      let cells := (8 + len + 63) / 64
      if 4088 < len ∨ leAt h 5 3 ≠ 0 then (cell, false)
      else if left < cells then (cell, true)
      else postedMessages ring fuel ((cell + cells) % 496) (left - cells)

/-- MB_OUT_TAIL_STORE (R254): post outbound messages, or fault with MAILBOX. -/
def State.storeOutTail (s : State) (a : Nat) (v : Nat) : Option State :=
  let ap := s.applet a
  let held := (ap.outTail + 496 - ap.outHead) % 496
  let added := (v + 496 - ap.outTail) % 496
  if 496 ≤ v ∨ 495 < held + added then none
  else
    let left := (v + 496 - ap.outNext) % 496
    let r := postedMessages ap.outRing 496 ap.outNext left
    if !r.2 then none
    else some (s.onApplet a fun ap => { ap with outTail := v, outNext := r.1 })

/-- MB_IN_HEAD_STORE (R254): consume inbound messages, or fault with MAILBOX. -/
def State.storeInHead (s : State) (a : Nat) (v : Nat) : Option State :=
  let ap := s.applet a
  let held := (ap.inTail + 512 - ap.inHead) % 512
  let taken := (v + 512 - ap.inHead) % 512
  if 512 ≤ v ∨ held < taken then none
  else some (s.onApplet a fun ap => { ap with inHead := v })

/-- A store into the mailbox window (Tables 10.3 and 10.4, R254): to the outbound ring, to IN_HEAD or to OUT_TAIL; any
other word faults. A store of less than a word changes the bytes it covers of the word
(DESIGN CHOICE, log entry 73). -/
def State.storeMailbox (s : State) (a off : Nat) (b : Bytes) (addr : Word) : Except CoreFault State :=
  if 0x8000 ≤ off ∧ off < 0xFC00 then
    .ok (s.onApplet a fun ap => { ap with outRing := ap.outRing.writeBytes (off - 0x8000) b })
  else
    let word := off / 4 * 4
    if b.length ≤ 4 ∧ word = 0xFC04 then
      match s.storeInHead a (ofLe (splice (le 4 (s.applet a).inHead) (off - word) b)) with
      | some s => .ok s
      | none => .error ⟨causeMailbox, addr⟩
    else if b.length ≤ 4 ∧ word = 0xFC0C then
      match s.storeOutTail a (ofLe (splice (le 4 (s.applet a).outTail) (off - word) b)) with
      | some s => .ok s
      | none => .error ⟨causeMailbox, addr⟩
    else .error ⟨causeStoreBus, addr⟩

/-- A store (R221, R222, R239, R254): the state and the core after it, or the fault. -/
def State.store (s : State) (c : SCore) (addr : Word) (b : Bytes) : Except CoreFault (State × SCore) :=
  let a := addr.toNat
  if a % b.length ≠ 0 then .error ⟨causeMisaligned, addr⟩
  else
    let pl := s.place c.slot a
    let c' := if c.reservation = pl.granule then { c with reservation := none } else c
    match pl with
    | .unmapped => .error ⟨causeStoreBus, addr⟩
    | .ungranted => .error ⟨causeGrant, addr⟩
    | .data off => .ok (s, { c' with dmem := c.dmem.writeBytes off b })
    | .shared d t off =>
      .ok ((s.onRegion d t fun r => { r with mem := r.mem.writeBytes off b }).clearReservations
        (1 + d * 64 + t, off / 8), c')
    | .mailbox off =>
      match s.storeMailbox c.slot off b addr with
      | .ok s => .ok (s, c')
      | .error f => .error f

/-! ### Control -/

/-- The instruction at `pc` cannot be fetched: outside instruction memory, or at an odd address (Table 9.19). -/
def fetchBad (pc : Word) (size : Nat) : Option Word :=
  if pc.toNat % 2 = 1 ∨ 0x40000 ≤ pc.toNat then some pc
  else if 0x40000 < pc.toNat + size then some (pc + 2)
  else none

/-- LOOP_END (R237) at the boundary `succ`: from level `k` up, an active level whose end it is goes on at its start, or
ends and leaves the higher levels to be compared. -/
def SCore.loopEnd (succ : Word) : List (Fin 3) → SCore → SCore
  | [], c => { c with pc := succ }
  | k :: ks, c =>
    if c.lc[k] ≠ 0 ∧ c.le[k] = succ then
      if c.lc[k] = 1 then SCore.loopEnd succ ks { c with lc := c.lc.set k 0 }
      else { c with lc := c.lc.set k (c.lc[k] - 1), pc := c.ls[k] }
    else SCore.loopEnd succ ks c

/-- What an instruction does to control: it goes on, or it is a transfer that is taken or not. -/
inductive Control where
  | seq
  | transfer (target : Option Word)
  | goto (target : Word)
  deriving DecidableEq, Repr

/-- The core runs instructions now. -/
def SCore.active (c : SCore) : Bool := c.run = .running || c.run = .stepping

/-- An instruction retires (R235, R237): after a delay slot control goes to the transfer's target; a transfer's own
successor is its delay slot; otherwise the loops are compared (DEDUCED, log entry 71). -/
def SCore.retire (size : Nat) (ctl : Control) (c : SCore) : SCore :=
  let succ := c.pc + BitVec.ofNat 32 size
  let was := c.delay
  let c := { c with
    instret := c.instret + 1
    pend := c.pend.map fun (p : PendWrite) => { p with dist := p.dist - 1 }
    run := if c.run = CoreRun.stepping then CoreRun.debug else c.run
    delay := match ctl with
      | .transfer t => some t
      | _ => none }
  match was, ctl with
  | some (some t), _ => { c with pc := t }
  | _, .seq => c.loopEnd succ [0, 1, 2]
  | _, .goto t => { c with pc := t }
  | _, .transfer _ => { c with pc := succ }

/-- Whether a slot's applet is granted a service. -/
def AppletSlot.granted (ap : AppletSlot) (n : Nat) : Bool := ap.grant.testBit n

/-- A lattice operation of a core ends without a result, with the STALE latch of its unit (R182, Table 7.5). -/
def State.staleUnits (core u : Nat) (s : State) : State :=
  let mine := fun (o : UnitOp) => o.user = .service core || o.user = .serviceVerify core
  (s.abortUnits mine stStaleOwner).latch (.unitStat u) 1

/-- The outstanding service of a core is aborted (R249, R250): a take not yet reserved goes, a reserved one lands. -/
def State.abortService (core : Nat) (s : State) : State :=
  let s := match mapGet none s.sz.outstanding core with
    | some (.lie e) => s.onEngine e fun g => { g with running := none }
    | some (.lattice u) => s.staleUnits core u
    | some .claim => s.onEn fun e => { e with drawWait := none }
    | some .commit => s.onSz fun z => { z with draw := z.draw.map fun (d : DrawClaim) => { d with waiting := none } }
    | some (.seal id _ _) => s.onTd fun d => { d with fetched := d.fetched.filter fun t => t.id ≠ id }
    | _ => s
  s.onSz fun z => { z with outstanding := mapSet none z.outstanding core none }

/-- SZ_SLOT_STAT.STATE changes, signalled on the slot's vector (Table 10.7). -/
def State.slotState (a : Nat) (st : SlotState) (s : State) : State :=
  let s := s.onApplet a fun ap => { ap with state := st }
  let ap := s.applet a
  if ap.owner < 64 then s.msix ap.owner (bitsOf ap.cfg.toNat 20 16) else s

/-- The draw of a slot that ends by a fault or an unload (Table 10.12). -/
def State.endSlotDraw (a reason : Nat) (s : State) : State :=
  match s.sz.draw with
  | some d => if d.slot = a then ((s.drawEnd (some reason) none).leaveDraw).afterJournal else s
  | none => s

/-- A core faults (R242): everything before has completed, the instruction has no effect. SLOT_FAULT_STOP (R250): the
first fault of the slot is reported, every other core stops, its services are aborted, and a draw ends. -/
def State.coreFault (n : Nat) (f : CoreFault) (s : State) : State :=
  let c := s.core n
  let s := s.onCore n fun c => { c.flush with run := CoreRun.stopped, delay := none }
  let a := c.slot
  let ap := s.applet a
  if ap.state = .running then
    let s := s.onApplet a fun ap => { ap with
      faultCause := f.cause
      faultCore := c.index
      faultDs := c.delay.isSome
      fpc := c.pc
      faddr := f.addr }
    let s := ap.cores.foldl (fun s k => (State.abortService k s).onCore k fun c => { c.flush with run := CoreRun.stopped }) s
    let s := s.endSlotDraw a 5
    s.slotState a .faulted
  else s

/-- An instruction's own effect: the state (all but the core itself) and the core after it, and where control goes. -/
abbrev Body := State → SCore → Except CoreFault (State × SCore × Control)

/-- Execute one instruction of `size` bytes on core `n`: it does not occur unless the core runs; it is fetched, has its
effect precisely or faults, and retires (DESIGN CHOICE, log entry 75). -/
def State.sezel (n size : Nat) (body : Body) (s : State) : State :=
  let c := (s.core n).settle
  if n < 192 ∧ c.active = true then
    match fetchBad c.pc size with
    | some a => s.coreFault n ⟨causeFetchBus, a⟩
    | none =>
      match body s c with
      | .error f => s.coreFault n f
      | .ok (s', c', ctl) => s'.onCore n fun _ => c'.retire size ctl
  else s

/-- An instruction that changes its core alone and goes on. -/
def pureBody (f : SCore → SCore) : Body := fun s c => .ok (s, f c, .seq)

/-- The effect of a reserved encoding (R243): every w register, accumulator and flag is a free value; nothing else
changes, and the next instruction follows. -/
def reservedBody : Body := fun s c =>
  let k := s.freeCtr
  let c' := { c with
    w := Vector.ofFn fun i => Config.freeValue 32 (k + i.val)
    acc := Vector.ofFn fun i => Config.freeValue 72 (k + 16 + i.val)
    flags := (Config.freeValue 5 (k + 20)).setWidth 32
    pend := [] }
  .ok (s.takeFree 21, c', .seq)

/-- `body` where the encoding's fields are valid, else a reserved encoding (DEDUCED, log entry 77). -/
def unlessReserved (valid : Bool) (body : Body) : Body := if valid then body else reservedBody

end Sys2Proof.Machine
end

