-- ==== Sys2Proof/Machine/Access.lean ====
section
/-! DEFINITION. The way to a register: the windows of R15 and R290, which offsets they implement, what the mode or a
gangway closes (R25, R37, R293), and the errors an access can meet (R292, R293). -/

namespace Sys2Proof

/-- The function a location belongs to, and its offset. -/
def Loc.fn : Loc → Nat
  | .window t _ => t
  | .bar2 _ => 0
  | .bar4 t _ => t
  | .config t _ => t

def Loc.offset : Loc → Nat
  | .window _ o => o
  | .bar2 o => o
  | .bar4 _ o => o
  | .config _ _ => 0

def Loc.isBar2 : Loc → Bool
  | .bar2 _ => true
  | _ => false

/-- The viewer of a host access. -/
def Loc.viewer (l : Loc) : Viewer := .tenant l.fn

end Sys2Proof

namespace Sys2Proof.Machine

/-- A register that software reaches. Offsets name a 32-bit word within a group. -/
inductive Reg where
  | fnInfo (t : Nat)
  | fnStat (t : Nat)
  | modeStat
  | rngData (t : Nat)
  | rngStat (t : Nat)
  | mbx (t off : Nat)
  | queue (t q off : Nat)
  | frame (e off : Nat)
  | slotFrame (a off : Nat)
  | wrIgn
  | parErr
  | blockLock
  | shadowPend
  | parAddr
  | lgStat
  | rootCtr (n : Nat)
  | chanStat (n : Nat)
  | unitStat (u : Nat)
  | laneStat (d : Nat)
  | srcStat (i : Nat)
  | bankStat
  | spLink
  | spMdio
  | elReel
  | elLane
  | elBacklog
  | elCfg
  | portCfg (p : Nat)
  | portStat (p : Nat)
  | route (p m : Nat)
  | chStat
  | chCfg
  | tgAlarm
  | tgWarn
  | tgState
  | tgNext
  | tgUnarch
  | lcStat
  | lcXfer
  | lcCertAddr
  | lcCertCtrl
  | tbRef
  | tbCfg
  deriving DecidableEq, Repr

/-- Offsets of the words of a queue pair's registers; 0x24 to 0x3F are reserved (R53). -/
def queueWords : List Nat := [0x00, 0x04, 0x08, 0x0C, 0x10, 0x14, 0x18, 0x1C, 0x20]
/-- Words of an engine frame (R149). -/
def frameWords : List Nat := (List.range 16).map (4 * ·) ++ [0x40, 0x48, 0x50, 0x58]
/-- Words of a slot frame (Table 10.6). -/
def slotWords : List Nat := (List.range 12).map (4 * ·)
/-- Words of a mailbox (Table 11.13). -/
def mbxWords : List Nat := (List.range 7).map (4 * ·)

/-- The part of the function window of tenant `t` that does not depend on ownership (Table 12.3): the register and
whether the word is the upper half of a 64-bit register. -/
def hgWord (t off : Nat) : Option (Reg × Bool) :=
  if off = 0x0000 then some (.fnInfo t, false)
  else if off = 0x0008 then some (.fnStat t, false)
  else if off = 0x0040 then some (.modeStat, false)
  else if 0x1000 ≤ off ∧ off < 0x1200 ∧ off % 0x40 ∈ queueWords then
    some (.queue t ((off - 0x1000) / 0x40) (off % 0x40), false)
  else none

/-- The register of a word of a function window (Table 12.3, R148, R255) (DESIGN CHOICE, log entry 37). -/
def State.windowWord (s : State) (t off : Nat) : Option (Reg × Bool) :=
  if off = 0x0100 then some (.rngData t, false)
  else if off = 0x0104 then some (.rngData t, true)
  else if off = 0x0108 then some (.rngStat t, false)
  else if 0x0200 ≤ off ∧ off < 0x0240 ∧ off - 0x0200 ∈ mbxWords then some (.mbx t (off - 0x0200), false)
  else if 0x4000 ≤ off ∧ off < 0xA000 then
    let e := (off - 0x4000) / 0x100
    if (s.engine e).owner = t ∧ off % 0x100 ∈ frameWords then some (.frame e (off % 0x100), false) else none
  else if 0xA000 ≤ off ∧ off < 0xAC00 then
    let a := (off - 0xA000) / 0x40
    if (s.applet a).owner = t ∧ off % 0x40 ∈ slotWords then some (.slotFrame a (off % 0x40), false) else none
  else hgWord t off

/-- The register of a word of BAR2 (R15, R290 and each block's register rule). -/
def bar2Word (o : Nat) : Option (Reg × Bool) :=
  let off := o % 0x10000
  match o / 0x10000 with
  | 0 =>
    if off = 0x0800 then some (.wrIgn, false)
    else if off = 0x0804 then some (.parErr, false)
    else if off = 0x0808 then some (.blockLock, false)
    else if off = 0x080C then some (.shadowPend, false)
    else if off = 0x0810 then some (.parAddr, false)
    else hgWord 0 off
  | 2 =>
    if off = 0 then some (.lgStat, false)
    else if 0x100 ≤ off ∧ off < 0x140 then some (.rootCtr ((off - 0x100) / 8), decide (off % 8 = 4))
    else none
  | 3 => if 0x100 ≤ off ∧ off < 0x110 then some (.chanStat ((off - 0x100) / 4), false) else none
  | 4 => if off < 0x6000 ∧ off % 0x100 ∈ frameWords then some (.frame (off / 0x100) (off % 0x100), false) else none
  | 5 =>
    if off < 0x60 then some (.unitStat (off / 4), false)
    else if 0x100 ≤ off ∧ off < 0x118 then some (.laneStat ((off - 0x100) / 4), false)
    else none
  | 6 => if off < 0x2C00 ∧ off % 0x40 ∈ slotWords then some (.slotFrame (off / 0x40) (off % 0x40), false) else none
  | 7 =>
    if off = 0 then some (.rngData 0, false)
    else if off = 4 then some (.rngData 0, true)
    else if off = 8 then some (.rngStat 0, false)
    else if 0x100 ≤ off ∧ off < 0x114 then some (.srcStat ((off - 0x100) / 4), false)
    else if off = 0x200 then some (.bankStat, false)
    else none
  | 8 =>
    if off ∈ mbxWords then some (.mbx 0 off, false)
    else if 0x200 ≤ off ∧ off < 0x240 ∧ off - 0x200 ∈ mbxWords then some (.mbx 0 (off - 0x200), false)
    else none
  | 9 => if off = 0 then some (.spLink, false) else if off = 8 then some (.spMdio, false) else none
  | 10 =>
    if off = 0 then some (.elReel, false)
    else if off = 8 then some (.elLane, false)
    else if off = 0x10 then some (.elBacklog, false)
    else if off = 0x20 then some (.elCfg, false)
    else none
  | 11 =>
    if off < 0x100 ∧ off % 0x40 = 0 then some (.portCfg (off / 0x40), false)
    else if off < 0x100 ∧ off % 0x40 = 8 then some (.portStat (off / 0x40), false)
    else if 0x1000 ≤ off ∧ off < 0x5000 then some (.route ((off - 0x1000) / 0x1000) (off % 0x1000 / 4), false)
    else none
  | 12 => if off = 0 then some (.chStat, false) else if off = 8 then some (.chCfg, false) else none
  | 13 =>
    if off = 0 then some (.tgAlarm, false)
    else if off = 4 then some (.tgWarn, false)
    else if off = 8 then some (.tgState, false)
    else if off = 0x10 then some (.tgNext, false)
    else if off = 0x14 then some (.tgUnarch, false)
    else none
  | 14 =>
    if off = 0 then some (.lcStat, false)
    else if off = 8 then some (.lcXfer, false)
    else if off = 0x10 then some (.lcCertAddr, false)
    else if off = 0x14 then some (.lcCertAddr, true)
    else if off = 0x18 then some (.lcCertCtrl, false)
    else none
  | 15 => if off = 0 then some (.tbRef, false) else if off = 8 then some (.tbCfg, false) else none
  | _ => none

/-- The Seal die a register lies on, if any (R293). -/
def State.regDie (s : State) : Reg → Option Nat
  | .frame e _ => some (e / 16)
  | .unitStat u => some (u / 4)
  | .laneStat d => some d
  | .slotFrame a _ => some (s.applet a).die
  | _ => none

/-- Whether the mode, or a gangway that is not keyed, closes a register (R25, R37, R293, R410). In Retired and stopped in
Wake the Identity range is answered through the mailbox, so the mailbox registers stay open beside HG_MODE_STAT; with cause
DDR_TRAINING MG_CHAN_STATn stays open too (R134)
(DEDUCED, log entry 36). -/
def State.closed (s : State) (r : Reg) : Bool :=
  let isMbx := match r with
    | .mbx _ _ => true
    | _ => false
  let isChan := match r with
    | .chanStat _ => s.stands .ddrTraining
    | _ => false
  ((s.pwr.mode = .retired || s.wakeStopped) && !(isMbx || isChan || r = .modeStat))
    || (match s.regDie r with
        | some d => !s.tg.gangwaysKeyed.contains d
        | none => false)

/-- The register of a word, where it is implemented and open. -/
def State.openWord (s : State) (loc : Loc) (delta : Nat) : Option (Reg × Bool) :=
  let r := match loc with
    | .window t o => s.windowWord t (o + delta)
    | .bar2 o => bar2Word (o + delta)
    | .bar4 _ _ | .config _ _ => none
  r.bind fun x => if s.closed x.1 then none else some x

/-- The function is enumerated: PF0, or an enabled VF; in Retired PF0 alone (R25, R288, R289). -/
def State.fnPresent (s : State) (t : Nat) : Bool :=
  t = 0 || (t < 64 && s.hg.vfEnable && t ≤ s.hg.numVfs && s.pwr.mode ≠ .retired)

/-- Memory requests of the host reach the function: main power, the link, D0 and Memory Space Enable (R289). Otherwise
they end as Unsupported Requests. -/
def State.fnReached (s : State) (t : Nat) : Bool :=
  s.powered && s.hg.linkUp && s.fnPresent t && !(s.fn t).d3hot
    && (if t = 0 then (s.fn 0).memSpace else s.hg.vfMemSpace)

/-- An access reaches the part: the Maker through JTAG (BAR2 alone), a tenant through its function. -/
def State.reaches (s : State) (v : Viewer) (loc : Loc) : Bool :=
  match v, loc with
  | .maker, .bar2 _ => s.powered
  | .tenant t, .window u o => t = u && o < 0x10000 && s.fnReached t
  | .tenant 0, .bar2 o => o < 0x100000 && s.fnReached 0
  | .tenant t, .bar4 u o => t = u && o < 0x2000 && s.fnReached t
  | _, _ => false

/-- A bus error (R293): BUS_ERR in the latch of every viewer, and ERR_DW where none stands; nothing else changes. -/
def State.busError (loc : Loc) (s : State) : State :=
  let r : RcReg := .fnStat loc.fn
  let dw := b2n loc.isBar2 * 0x40000000 + loc.offset / 4 * 0x1000
  let s := { s with latches := (s.rcViewers r).foldl (fun m v =>
      let k := latchKey r v
      setLatch (if (mapGet 0 m k).testBit 3 then 8 else 8 + dw) k m) s.latches }
  s.onFn loc.fn fun f => { f with busErrors := f.busErrors + 1 }

/-- A write that meets a bus error is discarded, and the function logs a Completer Abort (R293). -/
def State.discardWrite (v : Viewer) (loc : Loc) (s : State) : State :=
  let s := s.busError loc
  if v = .maker then s else s.aerLog loc.fn aerCompleterAbort

/-- A memory request that an enumerated function does not take, with Memory Space Enable 0 or in D3hot (R289). -/
def State.unsupported (s : State) (v : Viewer) (loc : Loc) : Bool :=
  v = loc.viewer && s.powered && s.hg.linkUp && s.fnPresent loc.fn && !s.fnReached loc.fn

/-- A write that does not reach the part: an Unsupported Request is logged. -/
def State.unreached (v : Viewer) (loc : Loc) (s : State) : State :=
  if s.unsupported v loc then s.aerLog loc.fn aerUnsupported else s

/-- A refused size (R292). -/
def State.badSize (loc : Loc) (s : State) : State := s.latch (.fnStat loc.fn) 4

/-- A 4-byte host write to a register that has a row of its own: where `f` knows the register it acts; a location that
is reserved or closed is a bus error; an access that does not reach the part ends as an Unsupported Request at most. -/
def State.hostWrite (loc : Loc) (f : Reg → Option State) (s : State) : State :=
  if !s.reaches loc.viewer loc then s.unreached loc.viewer loc
  else if loc.offset % 4 ≠ 0 then s.badSize loc
  else match s.openWord loc 0 with
    | none => s.discardWrite loc.viewer loc
    | some (r, _) => (f r).getD s

end Sys2Proof.Machine
end

