-- ==== Sys2Proof/Machine/Queues.lean ====
section
/-! DEFINITION. The queue pairs: doorbells, HG_Q_CFG, the stall of a completion queue and the event that fetches a
descriptor (R53 to R60). -/

namespace Sys2Proof.Machine

/-- A configuration write to a unit was ignored (R58, R296): WR_IGN of the pair, and bit 0 of HG_WR_IGN. -/
def State.queueIgnored (t q : Nat) (s : State) : State := (s.latch (.qStat t q) 0x10).ignoredWrite 0

/-- Units that a parity mismatch keeps disabled (R300), by their number: a queue pair. -/
def queueUnit (t q : Nat) : Nat := t * 8 + q

/-- A unit is faulted while some of its registers have not been written since the mismatch (R300). -/
def State.unitFaulted (s : State) (u : Nat) : Bool := s.hg.faulted.any fun e => e.1 = u

/-- A write of a register of a faulted unit counts towards its repair; with no faulted unit left VALID of HG_PAR_ADDR
falls (R300). -/
def State.unitWritten (u off : Nat) (s : State) : State :=
  s.onHg fun h =>
    let f := (h.faulted.map fun e => if e.1 = u then (e.1, e.2.filter (· ≠ off)) else e).filter (·.2 ≠ [])
    { h with faulted := f, parAddr := if f = [] then 0 else h.parAddr }

/-- A write to HG_SQ_TAIL_DB (R54, Table 3.4). -/
def State.sqTail (t q index : Nat) (s : State) : State :=
  if (s.qpair t q).sqSize ≤ index then s.latch (.qStat t q) 4
  else s.onQ t q fun p => { p with sqTail := index }

/-- A write to HG_CQ_HEAD_DB (R57, Table 3.4): the entries up to the new head are returned. -/
def State.cqHead (t q index : Nat) (s : State) : State :=
  let p := s.qpair t q
  if p.cqSize ≤ index then s.latch (.qStat t q) 4
  else
    let used := p.cqUsed - (index + p.cqSize - p.cqHead) % p.cqSize
    s.onQ t q fun p => { p with
      cqHead := index
      cqUsed := used
      fullSince := if used < p.cqSize then none else p.fullSince
      stalled := if used < p.cqSize then false else p.stalled }

/-- Size exponents of HG_Q_CFG are valid from 4 to 16 (Table 3.2). -/
def qSizesOk (v : Nat) : Bool :=
  decide (4 ≤ bitsOf v 12 8 ∧ bitsOf v 12 8 ≤ 16 ∧ 4 ≤ bitsOf v 4 0 ∧ bitsOf v 4 0 ≤ 16)

/-- The writable fields of HG_Q_CFG but ENABLE. -/
def qCfgFields (v : Nat) : Nat := v &&& 0x001F1F1F

/-- A write of HG_Q_CFG (R58, R296, R300, Table 3.2). While ENABLE is set only ENABLE acts; while takes are outstanding
the write is ignored; enabling needs valid sizes and no unrepaired mismatch, and resets the SQ head, the CQ tail and the
phase: the indices that the doorbells wrote stay (DEDUCED, log entry 64). -/
def State.qCfg (t q : Nat) (value : Word) (s : State) : State :=
  let p := s.qpair t q
  let v := value.toNat
  if p.enabled then
    let s := if qCfgFields v ≠ qCfgFields p.cfg.toNat then s.queueIgnored t q else s
    if v.testBit 31 then s else s.onQ t q fun p => { p with cfg := p.cfg &&& 0x7FFFFFFF#32 }
  else if p.outstanding ≠ 0 then s.queueIgnored t q
  else
    let s := s.unitWritten (queueUnit t q) 0x10
    let s := s.onQ t q fun p => { p with cfg := BitVec.ofNat 32 (qCfgFields v) }
    if !v.testBit 31 then s
    else if s.unitFaulted (queueUnit t q) then s.queueIgnored t q
    else if !qSizesOk v then s.latch (.qStat t q) 8
    else s.onQ t q fun p => { p with
      cfg := BitVec.ofNat 32 (0x80000000 + qCfgFields v)
      sqHead := 0
      cqTail := 0
      phase := true
      cqUsed := let n := 2 ^ bitsOf v 12 8; (n - p.cqHead % n) % n
      owed := []
      fullSince := none
      stalled := false }

/-- A write to a word of HG_SQ_BASE or HG_CQ_BASE (Table 3.1). -/
def State.qBase (t q off : Nat) (value : Word) (s : State) : State :=
  let p := s.qpair t q
  if p.enabled || p.outstanding ≠ 0 then s.queueIgnored t q
  else
    let s := s.unitWritten (queueUnit t q) (off / 8 * 8)
    let put := fun (old : Nat) =>
      if off % 8 = 0 then old / 2 ^ 32 * 2 ^ 32 + value.toNat / 64 * 64 else value.toNat * 2 ^ 32 + old % 2 ^ 32
    s.onQ t q fun p => if off < 8 then { p with sqBase := put p.sqBase } else { p with cqBase := put p.cqBase }

/-- SQ_TAIL_DB (R54). -/
def execSqTailDb (loc : Loc) (index : BitVec 16) (env : HostEnv) (s : State) : Host.Outcome State Fault Refusal :=
  let s := s.applyEnv env
  .next (s.hostWrite loc fun
    | .queue t q 0x18 => some (s.sqTail t q index.toNat)
    | _ => none)

/-- CQ_HEAD_DB (R57). -/
def execCqHeadDb (loc : Loc) (index : BitVec 16) (s : State) : Host.Outcome State Fault Refusal :=
  .next (s.hostWrite loc fun
    | .queue t q 0x1C => some (s.cqHead t q index.toNat)
    | _ => none)

/-- Q_CFG_WRITE (R58). -/
def execQCfgWrite (loc : Loc) (value : BitVec 32) (s : State) : Host.Outcome State Fault Refusal :=
  .next (s.hostWrite loc fun
    | .queue t q 0x10 => some (s.qCfg t q value)
    | _ => none)

/-- CQ_STALL_TIMEOUT (R57): the CQ has been full for more than 1 s. -/
def execCqStallTimeout (fn q : Nat) (s : State) : Host.Outcome State Fault Refusal :=
  .next (match (s.qpair fn q).fullSince with
    | some c =>
      if c + 1000000000 < s.clock then
        (s.latch (.qStat fn q) 1).onQ fn q fun p => { p with stalled := true }
      else s
    | none => s)

/-! ### Fetching -/

/-- DESCRIPTOR_FETCH (R54, R55). -/
def execDescriptorFetch (s : State) : Host.Outcome State Fault Refusal :=
  .next (if s.fetches && s.inflightRoom then
    match s.nextPair with
    | some k => s.fetchFrom k
    | none => s
  else s)

end Sys2Proof.Machine
end

