-- ==== Sys2Proof/Machine/Time.lean ====
section
/-! DEFINITION. Device Time, the Vault RTC, and the gates (R63 to R69, R297, R426). -/

namespace Sys2Proof.Machine

/-- What a Directory write does: the state after it, and the entry's status. -/
abbrev Act := State → State × Status

/-- The action is refused and changes nothing. -/
def refuse (st : Status) : Act := fun s => (s, st)

/-- The action is done. -/
def done (f : State → State) : Act := fun s => (f s, stOk)

/-! ### Device Time -/

def State.slewLimit (s : State) : Nat := s.num 0xC000 2 0 50

/-- Slew over `ns` nanoseconds: whole nanoseconds and the millionths left over, at most what remains (R63). -/
def State.slewOver (s : State) (ns : Nat) : Nat × Nat :=
  let a := ns * s.slewLimit + s.tb.slewFrac
  if s.tb.remaining = 0 then (0, 0)
  else if s.tb.remaining.natAbs ≤ a / 1000000 then (s.tb.remaining.natAbs, 0)
  else (a / 1000000, a % 1000000)

/-- The units of R300 that are shadows. -/
def tbUnit : Nat := 0x2000
def elUnit : Nat := 0x2001

/-- A shadow is faulted and stays uncopied (R300). -/
def State.shadowFaulted (s : State) (u : Nat) : Bool := s.hg.faulted.any fun e => e.1 = u

/-- The TB_ boundary (R297). -/
def State.copyTb (s : State) : State :=
  if s.shadowFaulted tbUnit then s
  else s.onTb fun t => { t with cfgActive := t.cfgShadow, cfgPend := false }

/-- The EL_ boundary (R297). -/
def State.copyEl (s : State) : State :=
  if s.shadowFaulted elUnit then s
  else s.onEl fun e => { e with cfgActive := e.cfgShadow, cfgPend := false }

/-- No reel is open: the EL_ boundary is the Timebase tick (R297). -/
def State.noReel (s : State) : Bool :=
  match s.el.state with
  | .idle | .cut => true
  | _ => false

/-- Device Time, slewed, and the clock advance (DESIGN CHOICE, log entry 61). -/
def State.advance (ns : Nat) (s : State) : State :=
  let w := s.slewOver ns
  let neg := s.tb.remaining < 0
  let s := { s with clock := s.clock + ns }
  s.onTb fun t => { t with
    deviceTime := if neg then t.deviceTime + (ns - w.1) else t.deviceTime + ns + w.1
    slewFrac := w.2
    remaining := if neg then t.remaining + w.1 else t.remaining - w.1
    cmpSlew := if neg then t.cmpSlew - w.1 else t.cmpSlew + w.1 }

/-- The peaks of Table 8.8 at the end of a second. What samples the model does not see have shown are values below the
cutoffs, since the source passed (DESIGN CHOICE, log entry 22). -/
def HealthTest.second (h : HealthTest) (sampled : Bool) (run count : Nat) : HealthTest := { h with
  runMax := 0
  countMax := 0
  runPeak := max h.runMax (if sampled then 1 + run % 100 else 0)
  countPeak := max h.countMax (if sampled then 1 + count % 839 else 0) }

/-- A second of the clock has ended for every noise source. -/
def State.rollPeaks (s : State) : State :=
  (List.range 5).foldl (fun s i =>
    (s.onSource i fun x => { x with
      health := x.health.second (x.state = .running && decide (x.since + 1000000000 ≤ s.clock))
        (Config.freeValue 32 s.freeCtr).toNat (Config.freeValue 32 (s.freeCtr + 1)).toNat }).takeFree 2) s

/-- The function-level resets in progress end with the tick (Table 12.7) (DESIGN CHOICE, log entry 55). -/
def State.endResets (s : State) : State :=
  s.onHg fun h => { h with fns := h.fns.map fun e => (e.1, { e.2 with resetting := false }) }

/-- TIMEBASE_TICK (R63, R297): time passes, and a whole microsecond of Device Time copies the shadows. In Vault mode the
RTC, which nothing compares, runs with it (Table 2.10). -/
def execTimebaseTick (ns : Nat) (s : State) : Host.Outcome State Fault Refusal :=
  .next (if s.pwr.mode = .dark then s
  else
    let before := s.tb.deviceTime / 1000
    let second := s.clock / 1000000000
    let s := (s.advance ns).endResets
    let s := if s.powered && second < s.clock / 1000000000 then s.rollPeaks else s
    let s := if s.pwr.mode = .vault then s.onTb fun t => { t with rtc := t.rtc + ns } else s
    if before < s.tb.deviceTime / 1000 && s.powered then
      let s := s.copyTb
      if s.noReel then s.copyEl else s
    else s)

/-- The PF0 vector of TB_CFG is signalled (R426). -/
def State.timeIrq (s : State) : State :=
  if s.tb.cfgActive.getLsbD 31 then s.msix 0 (bitsOf s.tb.cfgActive.toNat 20 16) else s

/-- A write of TimeCorrection (R63): it replaces what has not been absorbed. -/
def timeCorrection (c : Int) : Act := done fun s => s.onTb fun t => { t with remaining := c, slewFrac := 0 }

/-- SLEW_ABSORBED (R63): Device Time runs at its normal rate. -/
def execSlewAbsorbed (s : State) : Host.Outcome State Fault Refusal :=
  .next (if s.tb.remaining = 0 then s.onTb fun t => { t with slewFrac := 0 } else s)

/-- TIMEBASE_COMPARE (R64): Device Time against the RTC's advance over the same second. -/
def State.timebaseCompare (rtcAdvance : Nat) (s : State) : State :=
  let t := s.tb
  let diff := ((t.deviceTime : Int) - t.cmpTime - t.cmpSlew - rtcAdvance).natAbs
  let good := decide (diff * 1000000 ≤ 200 * rtcAdvance)
  let n := if good then t.goodCompares + 1 else 0
  let fault := if good then t.timeFault && decide (n < 10) else true
  let s := s.onTb fun t => { t with
    rtc := t.rtc + rtcAdvance
    cmpTime := t.deviceTime
    cmpSlew := 0
    goodCompares := n
    timeFault := fault }
  let s := if fault ≠ t.timeFault then s.timeIrq else s
  if fault && !t.timeFault then s.raiseCause .gateTimeFault else s

/-- TIMEBASE_COMPARE (R64). -/
def execTimebaseCompare (rtcAdvance : Nat) (s : State) : Host.Outcome State Fault Refusal :=
  .next (if s.powered && decide (s.tb.cmpTime + 1000000000 ≤ s.tb.deviceTime) then s.timebaseCompare rtcAdvance else s)

/-- A write of DeviceTimeSet (R65) (DEDUCED, log entry 66). -/
def deviceTimeSet (v : Viewer) (t : Nat) : Act := fun s =>
  if v ≠ .regulator || s.pwr.mode ≠ .ceremony then (s, stModeRefused)
  else if t < (if s.tb.dtValid then s.tb.deviceTime else s.tb.timeFloor) then (s, stModeRefused)
  else
    let s := s.onTb fun b => { b with
      deviceTime := t
      rtc := t
      dtValid := true
      remaining := 0
      slewFrac := 0
      cmpTime := t
      cmpSlew := 0 }
    (s.onPwr fun p => { p with vaultLost := false }, stOk)

/-- TIME_FLOOR_ADVANCE (R65): Device Time has come within 60 s of TimeFloor. -/
def execTimeFloorAdvance (s : State) : Host.Outcome State Fault Refusal :=
  .next (if s.powered && s.tb.dtValid && decide (s.tb.timeFloor ≤ s.tb.deviceTime + 60000000000) then
    s.onTb fun t => { t with timeFloor := t.deviceTime + 3600000000000 }
  else s)

/-! ### Gates -/

/-- A write of GateCloseTime (R68, R69). -/
def gateCloseTime (v : Viewer) (g time : Nat) : Act := fun s =>
  let old := (s.gate g).close
  let put := s.onGate g fun x => { x with close := time }
  match v with
  | .tenant t =>
    if t ≠ 0 ∧ (s.gate g).owner ≠ t then (s, stBadGate)
    else if old ≤ s.tb.deviceTime ∧ old < time then (s, stGateClosed)
    else (put, stOk)
  | _ => (put, stOk)

/-- A write of GateOwner (R68): a change of owner sets the close time to 0. -/
def gateOwner (g owner : Nat) : Act := fun s =>
  if 63 < owner then (s, stModeRefused)
  else if (s.gate g).owner = owner then (s, stOk)
  else (s.onGate g fun _ => { owner := owner, close := 0 }, stOk)

end Sys2Proof.Machine
end

