-- ==== Sys2Proof/Machine/Applets.lean ====
section
/-! DEFINITION. Applets: loading, installing and unloading (R247 to R249), and the mailbox of a slot with its registers
(R252 to R255). -/

namespace Sys2Proof.Machine

/-! ### Loading (R247, R248) -/

/-- AppletLoadStatus of tenant `t`; a rejected image (0x13) sets AppletRejectOffset, and no other outcome changes it
(R247). -/
def State.loadStatus (t code offset : Nat) (s : State) : State :=
  let s := s.setNum 0x6010 5 t code
  if code = 0x13 then s.setNum 0x6010 7 t offset else s

/-- The cores of a die that no slot holds. -/
def State.freeCores (s : State) (die : Nat) : List Nat :=
  ((List.range 32).map (die * 32 + ·)).filter fun c => !s.sz.slots.any fun e => e.2.cores.contains c

/-- The lowest free slot. -/
def State.freeSlot (s : State) : Option Nat := (List.range 176).find? fun a => (s.applet a).state = .free

/-- The die an image goes to: the named one, or the lowest with enough free cores (DESIGN CHOICE, log entry 98). -/
def State.dieFor (s : State) (named cores : Nat) : Option Nat :=
  ([0, 1, 2, 3, 4, 5].filter fun d => named = 0xFF || named = d).find? fun d => cores ≤ (s.freeCores d).length

/-- The mode is one in which applets load. -/
def State.loadMode (s : State) : Bool :=
  match s.pwr.mode with
  | .standby | .service | .draw | .held => true
  | _ => false

/-- A slot and cores are taken for an image whose checks have passed (step 7 of R247). -/
def State.takeSlot (t : Nat) (i : Image) (s : State) : State :=
  match s.freeSlot with
  | none => s.loadStatus t 0x14 0
  | some a =>
    match s.dieFor (s.num 0x6010 3 t 0xFF) i.cores with
    | none => s.loadStatus t 0x15 0
    | some d =>
      let cores := (s.freeCores d).take i.cores
      let s := s.onSz fun z => { z with loads := z.loads ++ [{ tenant := t, image := i.bytes, slot := a, die := d }] }
      let s := s.onApplet a fun ap => { ap with
        owner := t
        appletId := i.appletId
        version := i.version
        kind := i.kind
        grant := i.grant
        die := d
        cores := cores }
      (s.slotState a .loading).loadStatus t 0x01 0

/-- A write of AppletLoad by tenant `t` (R247, R248): the image is fetched and checked. A failure is reported in
AppletLoadStatus; the write itself is accepted. -/
def appletLoad (t value : Nat) : Act := fun s =>
  let addr := s.num 0x6010 1 t 0
  let n := s.num 0x6010 2 t 0
  if value ≠ 0xA991 then (s, stModeRefused)
  else if s.sz.loads.any fun l => l.tenant = t then (s, stSlotBusy)
  else if !s.loadMode then (s.loadStatus t 0x18 0, stOk)
  else if !s.dmaOk t addr n then ((s.dmaReadFailed t).loadStatus t 0x16 0, stOk)
  else
    let i : Image := ⟨s.dmaBytes addr n⟩
    match i.check t (s.octets 0x6100 t 0) (s.octets 0x6000 3 0) with
    | some (code, offset) => (s.loadStatus t code offset, stOk)
    | none => (s.takeSlot t i, stOk)

/-- A core as an applet starts on it (R211). -/
def startedCore (a index : Nat) (i : Image) : SCore :=
  { run := .running
    slot := a
    index := index
    p := (Vector.replicate 8 0).set 7 0x10080000#32
    pc := BitVec.ofNat 32 i.entry
    imem := Memory.writeBytes [] 0 i.code
    dmem := Memory.writeBytes [] 0 i.data }

/-- The slot's owner epoch advances, and with it that of its DRBG instance (R193, R247, R249). -/
def State.advanceSlot (a : Nat) (s : State) : State :=
  (s.onSz fun z => { z with epochs := mapSet 0 z.epochs a ((mapGet 0 z.epochs a + 1) % 65536) }).advanceInstance (80 + a)

/-- The cores of a slot start. -/
def State.startCores (a : Nat) (i : Image) : List Nat → Nat → State → State
  | [], _, s => s
  | c :: cs, k, s => State.startCores a i cs (k + 1) (s.onCore c fun _ => startedCore a k i)

/-- APPLET_INSTALL (R247): the load of tenant `t` is complete. -/
def execAppletInstall (t : Nat) (s : State) : Host.Outcome State Fault Refusal :=
  .next (match s.sz.loads.find? fun l => l.tenant = t with
    | none => s
    | some l =>
      let a := l.slot
      let s := s.onSz fun z => { z with loads := z.loads.filter fun l => l.tenant ≠ t }
      let s := State.startCores a ⟨l.image⟩ (s.applet a).cores 0 (s.advanceSlot a)
      let s := s.onApplet a fun ap => { ap with rngEpoch := (s.drbg (80 + a)).epoch }
      ((s.setNum 0x6010 6 t a).loadStatus t 0x02 0).slotState a .running)

/-! ### Unloading (R249) -/

/-- A slot's applet goes: cores stop, services abort, a draw ends, the epoch advances, everything is zeroed
(DEDUCED, log entry 99). -/
def State.unloadSlot (a : Nat) (s : State) : State :=
  let s := s.slotState a .unloading
  let ap := s.applet a
  let s := ap.cores.foldl (fun s k => (State.abortService k s).onCore k fun c => { c with run := CoreRun.stopped }) s
  let s := (s.endSlotDraw a 6).advanceSlot a
  let s := s.onSz fun z => { z with
    cores := z.cores.filter fun e => !ap.cores.contains e.1
    loads := z.loads.filter fun l => l.slot ≠ a }
  (s.slotState a .free).onApplet a fun _ => {}

/-- A write of AppletUnload by tenant `t`. -/
def appletUnload (t a : Nat) : Act := fun s =>
  let ap := s.applet a
  if 176 ≤ a || ap.owner ≠ t || ap.state = .free then (s, stBadSlot)
  else (s.unloadSlot a, stOk)

/-! ### The registers of a slot (R255) -/

def slotUnit (a : Nat) : Nat := 0x1000 + a

def AppletSlot.inSize (ap : AppletSlot) : Nat := 2 ^ bitsOf ap.cfg.toNat 4 0
def AppletSlot.outSize (ap : AppletSlot) : Nat := 2 ^ bitsOf ap.cfg.toNat 12 8
def AppletSlot.enabled (ap : AppletSlot) : Bool := ap.cfg.getLsbD 31

/-- A configuration write was ignored. -/
def State.slotIgnored (a : Nat) (s : State) : State := (s.latch (.mbStat a) 0x10).ignoredWrite 6

/-- Ring exponents are valid from 4 to 12 (Table 10.7). -/
def ringSizesOk (v : Nat) : Bool :=
  decide (4 ≤ bitsOf v 12 8 ∧ bitsOf v 12 8 ≤ 12 ∧ 4 ≤ bitsOf v 4 0 ∧ bitsOf v 4 0 ≤ 12)

/-- A write of SZ_MB_CFG: as HG_Q_CFG, without ACTIVE (R58, R255). -/
def State.mbCfg (a : Nat) (value : Word) (s : State) : State :=
  let ap := s.applet a
  let v := value.toNat
  if ap.enabled then
    let s := if qCfgFields v ≠ qCfgFields ap.cfg.toNat then s.slotIgnored a else s
    if v.testBit 31 then s else s.onApplet a fun ap => { ap with cfg := ap.cfg &&& 0x7FFFFFFF#32 }
  else
    let s := s.unitWritten (slotUnit a) 0x10
    let s := s.onApplet a fun ap => { ap with cfg := BitVec.ofNat 32 (qCfgFields v) }
    if !v.testBit 31 then s
    else if s.unitFaulted (slotUnit a) then s.slotIgnored a
    else if !ringSizesOk v then s.latch (.mbStat a) 8
    else s.onApplet a fun ap => { ap with
      cfg := BitVec.ofNat 32 (0x80000000 + qCfgFields v)
      hostInTail := 0
      hostInHead := 0
      hostOutHead := 0
      hostOutTail := 0
      phase := true }

/-- A write to a word of SZ_MB_IN_BASE or SZ_MB_OUT_BASE. -/
def State.mbBase (a off : Nat) (value : Word) (s : State) : State :=
  if (s.applet a).enabled then s.slotIgnored a
  else
    let s := s.unitWritten (slotUnit a) (off / 8 * 8)
    let put := fun (old : Nat) =>
      if off % 8 = 0 then old / 2 ^ 32 * 2 ^ 32 + value.toNat / 64 * 64 else value.toNat * 2 ^ 32 + old % 2 ^ 32
    s.onApplet a fun ap => if off < 8 then { ap with inBase := put ap.inBase } else { ap with outBase := put ap.outBase }

/-- SZ_MB_IN_TAIL_DB. -/
def State.mbInTail (a index : Nat) (s : State) : State :=
  if (s.applet a).inSize ≤ index then s.latch (.mbStat a) 4
  else s.onApplet a fun ap => { ap with hostInTail := index }

/-- SZ_MB_OUT_HEAD_DB. -/
def State.mbOutHead (a index : Nat) (s : State) : State :=
  if (s.applet a).outSize ≤ index then s.latch (.mbStat a) 4
  else s.onApplet a fun ap => { ap with hostOutHead := index }

/-- MB_IN_TAIL_DB (R253). -/
def execMbInTailDb (loc : Loc) (index : BitVec 16) (env : HostEnv) (s : State) : Host.Outcome State Fault Refusal :=
  let s := s.applyEnv env
  .next (s.hostWrite loc fun
    | .slotFrame a 0x18 => some (s.mbInTail a index.toNat)
    | _ => none)

/-- MB_OUT_HEAD_DB (R253). -/
def execMbOutHeadDb (loc : Loc) (index : BitVec 16) (s : State) : Host.Outcome State Fault Refusal :=
  .next (s.hostWrite loc fun
    | .slotFrame a 0x1C => some (s.mbOutHead a index.toNat)
    | _ => none)

/-- MB_CFG_WRITE (R255). -/
def execMbCfgWrite (loc : Loc) (value : BitVec 32) (s : State) : Host.Outcome State Fault Refusal :=
  .next (s.hostWrite loc fun
    | .slotFrame a 0x10 => some (s.mbCfg a value)
    | _ => none)

/-! ### Transfers (R253) -/

/-- A ring access failed, or a message is too long: ENABLE clears with the bit set. -/
def State.mbError (a bit : Nat) (s : State) : State :=
  (s.latch (.mbStat a) bit).onApplet a fun ap => { ap with cfg := ap.cfg &&& 0x7FFFFFFF#32 }

/-- Cells a message of `len` payload bytes occupies (R252). -/
def messageCells (len : Nat) : Nat := (8 + len + 63) / 64

/-- Cells in a ring of `size` from `head` to `tail`. -/
def ringUsed (size head tail : Nat) : Nat := (tail + size - head) % size

/-- The cells `i` of a ring from `at'` on, wrapping. -/
def ringCells (size at' n : Nat) : List Nat := (List.range n).map fun i => (at' + i) % size

/-- One inbound message of slot `a` of `n` cells is copied whole. -/
def State.copyIn (a n : Nat) (s : State) : State :=
  let ap := s.applet a
  let cells := ringCells ap.inSize ap.hostInHead n
  if !cells.all fun c => s.dmaOk ap.owner (ap.inBase + 64 * c) 64 then (s.dmaReadFailed ap.owner).mbError a 1
  else
    let put := (cells.zip (ringCells 512 ap.inTail n)).foldl (fun (m : Memory) (p : Nat × Nat) =>
      m.writeBytes (64 * p.2) (s.dmaBytes (ap.inBase + 64 * p.1) 64)) ap.inRing
    let s := s.onApplet a fun ap => { ap with
      inRing := put
      inTail := (ap.inTail + n) % 512
      hostInHead := (ap.hostInHead + n) % ap.inSize }
    s.wakeSlot a

/-- MB_INBOUND_COPY (R253). -/
def execMbInboundCopy (slot : Nat) (s : State) : Host.Outcome State Fault Refusal :=
  .next (
    let ap := s.applet slot
    let posted := ringUsed ap.inSize ap.hostInHead ap.hostInTail
    if !ap.enabled || ap.state = .free || ap.state = .loading || posted = 0 then s
    else if !s.dmaOk ap.owner (ap.inBase + 64 * ap.hostInHead) 64 then (s.dmaReadFailed ap.owner).mbError slot 1
    else
      let len := leAt (s.dmaBytes (ap.inBase + 64 * ap.hostInHead) 2) 0 2
      let n := messageCells len
      if 4088 < len then s.mbError slot 2
      else if posted < n || 511 < ringUsed 512 ap.inHead ap.inTail + n then s
      else s.copyIn slot n)

/-- One outbound message of slot `a` of `n` cells is copied whole, its header cell last, with the phase in byte 4. -/
def State.copyOut (a n : Nat) (s : State) : State :=
  let ap := s.applet a
  let src := ringCells 496 ap.outHead n
  let dst := ringCells ap.outSize ap.hostOutTail n
  let cell := fun (c : Nat) => ap.outRing.readBytes (64 * c) 64
  let head := fun (b : Bytes) => b.take 4 ++ [BitVec.ofNat 8 (b2n ap.phase)] ++ b.drop 5
  let bytes := (src.map cell).zip dst |>.map fun (p : Bytes × Nat) => (ap.outBase + 64 * p.2, p.1)
  let ordered := match bytes with
    | [] => []
    | (x, h) :: t => t ++ [(x, head h)]
  let r := s.dmaSend ap.owner ordered
  let s := r.1
  if !r.2 then s.mbError a 1
  else
    let tail := (ap.hostOutTail + n) % ap.outSize
    let s := s.onApplet a fun ap => { ap with
      outHead := (ap.outHead + n) % 496
      hostOutTail := tail
      phase := if tail < ap.hostOutTail then !ap.phase else ap.phase }
    (s.wakeSlot a).msix ap.owner (bitsOf ap.cfg.toNat 20 16)

/-- MB_OUTBOUND_COPY (R253, R258): what an uncommitted phase of a draw posts is held. -/
def execMbOutboundCopy (slot : Nat) (s : State) : Host.Outcome State Fault Refusal :=
  .next (
    let ap := s.applet slot
    let posted := ringUsed 496 ap.outHead (ap.holdFrom.getD ap.outNext)
    let n := messageCells (leAt (ap.outRing.readBytes (64 * ap.outHead) 2) 0 2)
    if !ap.enabled || ap.state = .free || ap.state = .loading || posted < n then s
    else if ap.outSize - 1 < ringUsed ap.outSize ap.hostOutHead ap.hostOutTail + n then s
    else s.copyOut slot n)

end Sys2Proof.Machine
end

