-- ==== Sys2Proof/Machine/FleetOps.lean ====
section
/-! DEFINITION. The Fleet as landings and takes see it: roles, leases, and sending link frames (R327 to R337). -/

namespace Sys2Proof.Machine

/-! ### Objects of Table 14.11 -/

def State.fleetEnable (s : State) : Bool := s.num 0x7800 1 0 0 = 1
def State.fleetId (s : State) : Nat := s.num 0x7800 2 0 0
def State.memberId (s : State) : Nat := s.num 0x7800 3 0 0xFFFF
def State.leaseBlock (s : State) : Nat := s.num 0x7800 4 0 1024
def State.mirrorTimeout (s : State) : Nat := s.num 0x7800 5 0 20000
/-- MemberLossLimit in nanoseconds; the object is in microseconds. -/
def State.memberLossLimit (s : State) : Nat := 1000 * s.num 0x7800 6 0 5000
def State.memberUnit (s : State) (m : Nat) : Nat := s.num (0x7900 + m / 256) (m % 256) 0 0

/-! ### Frames -/

/-- Receive units a frame occupies (R328). -/
def frameUnits (len : Nat) : Nat := (40 + len + 255) / 256

def Port.credit (p : Port) (vc : Nat) : Nat := mapGet 64 p.credits vc

/-- The credits that a frame going out returns: the lowest VC with units owed (DESIGN CHOICE, log entry 119). -/
def Port.returning (p : Port) : Nat × Nat :=
  match p.owed with
  | (vc, n) :: _ => (vc, n)
  | [] => (0, 0)

/-- The header of a link frame (Table 14.2). -/
def linkHeader (f : QFrame) (seq creditVc creditCount : Nat) : Bytes :=
  [0xC5] ++ be 1 (f.vc + 4 * b2n f.down) ++ be 1 f.type ++ be 1 creditVc ++ be 2 f.payload.length ++ be 2 f.dest ++ be 2 f.src
    ++ be 2 creditCount ++ be 4 0 ++ be 8 seq

/-- A frame as it goes over the lanes: its payload under the port's key, and the tag (R327). -/
def Port.seal (q : Port) (seq : Nat) (header payload : Bytes) : Bytes :=
  let iv := q.saltTx ++ be 8 seq
  let cipher := Config.out .gcmCipher payload.length [] [q.kTx, iv, payload]
  header ++ cipher ++ Config.out .gcmTag 16 [] [q.kTx, iv, header, cipher]

/-- Put a frame on a port's lanes: it takes the next LinkSeq and its credits, and returns what is owed (R327, R328). -/
def State.transmit (p : Nat) (f : QFrame) (s : State) : State :=
  let q := s.port p
  let r := q.returning
  let wire := q.seal (q.txSeq + 1) (linkHeader f (q.txSeq + 1) r.1 r.2) f.payload
  let s := s.emit (.linkFrame p f.vc f.type f.dest f.src f.down (q.txSeq + 1) r.1 r.2 f.payload wire)
  s.onPort p fun q => { q with
    txSeq := q.txSeq + 1
    lastSent := s.clock
    owed := mapSet 0 q.owed r.1 0
    credits := mapSet 64 q.credits f.vc (q.credit f.vc - frameUnits f.payload.length) }

/-- Send a frame on an UP port, or let it wait for credit behind those of its VC (R328). -/
def State.sendPort (p : Nat) (f : QFrame) (s : State) : State :=
  let q := s.port p
  if q.state ≠ .up then s
  else if q.queue.any (fun g => g.vc = f.vc) || q.credit f.vc < frameUnits f.payload.length then
    s.onPort p fun q => { q with
      queue := q.queue ++ [f]
      stalledSince := match mapGet none q.stalledSince f.vc with
        | some _ => q.stalledSince
        | none => mapSet none q.stalledSince f.vc (some s.clock) }
  else s.transmit p f

/-- Send the frames of a list that have credit now; the rest keep waiting, in order within their VC. -/
def State.drainPort (p : Nat) : List QFrame → State → State
  | [], s => s
  | f :: fs, s =>
    let q := s.port p
    let s := if q.queue.any (fun g => g.vc = f.vc) || q.credit f.vc < frameUnits f.payload.length then
        s.onPort p fun q => { q with queue := q.queue ++ [f] }
      else s.transmit p f
    s.drainPort p fs

/-- Credits have come back: waiting frames go out (R328). -/
def State.flushPort (p : Nat) (s : State) : State :=
  let q := (s.port p).queue
  let s := s.onPort p fun q => { q with queue := [] }
  let s := s.drainPort p q
  s.onPort p fun q => { q with
    stalledSince := q.stalledSince.filter fun e => q.queue.any fun g => g.vc = e.1 }

/-- A route entry (Table 14.5): valid, local, up, output port. -/
structure Route where
  valid : Bool
  isLocal : Bool
  up : Bool
  out : Nat
  deriving DecidableEq, Repr

def State.route (s : State) (p m : Nat) : Route :=
  let r := mapGet 0 s.xl.routes (p * 1024 + m)
  { valid := bitOf r 31, isLocal := bitOf r 30, up := bitOf r 2, out := r % 4 }

/-- RouteViolations, or another counter of Table 14.11, goes up by one. -/
def State.bumpFleet (sub : Nat) (s : State) : State := s.setNum 0x7800 sub 0 (s.num 0x7800 sub 0 0 + 1)

/-- Originate a frame for member `m`: it follows table 0, and one without an entry shows at port 0 (R332)
(DESIGN CHOICE, log entry 144). -/
def State.sendMember (m vc type : Nat) (payload : Bytes) (s : State) : State :=
  let r := s.route 0 m
  if !r.valid then (s.latch (.xlPort 0) 8).bumpFleet 0xB
  else if r.isLocal then s
  else s.sendPort r.out { vc := vc, type := type, dest := m, src := s.memberId, down := !r.up, payload := payload }

/-- The other members of the membership table (R329). -/
def State.members (s : State) : List Nat :=
  (List.range 1024).filter fun m => s.memberUnit m ≠ 0 && m ≠ s.memberId

/-- Whether a frame for member `m` has a way out. -/
def State.reachable (s : State) (m : Nat) : Bool :=
  let r := s.route 0 m
  r.valid && !r.isLocal && (s.port r.out).state = .up && !s.xl.lost.contains m

/-- Send a request: it carries a RequestId and stays outstanding until its response (R328)
(DESIGN CHOICE, log entry 118). -/
def State.sendRequest (m type : Nat) (body : Bytes) (s : State) : State :=
  let id := s.xl.nextReq
  let s := s.onXl fun x => { x with
    nextReq := id + 1
    requests := x.requests ++ [{ reqId := id, dest := m, type := type, payload := be 8 id ++ body, sent := s.clock }] }
  s.sendMember m 0 type (be 8 id ++ body)

/-- The slot image of a slot as frames carry it, with the grant table; the manual does not lay these payloads out
(DEDUCED, log entry 79). -/
def roleBytes (r : RoleFields) : Bytes :=
  be 4 r.slot ++ be 2 r.roleEpoch ++ be 2 r.home ++ be 2 r.mirror ++ be 1 (b2n r.mirrored + 2 * b2n r.leased) ++ [0]
    ++ be 8 r.serial ++ be 2 r.handle ++ be 8 r.official ++ be 8 r.landing ++ slice r.digest 0 16 ++ r.leases.flatMap fun g => be 2 g.holder ++ be 8 g.first ++ be 8 g.last ++ be 8 g.acked

/-! ### Training (R329) -/

def Port.enabled (p : Port) : Bool := p.cfg.getLsbD 31

/-- The conditions under which port `p` trains. -/
def State.portMay (s : State) (p : Nat) : Bool :=
  s.powered && (s.port p).enabled && s.fleetEnable && s.en.firstSeed && s.fleetId ≠ 0 && s.memberId ≠ 0xFFFF
    && s.pwr.mode ≠ .quarantine && s.pwr.mode ≠ .retired

/-- A DOWN port that may train, and waits for no retry, starts training. -/
def State.startPort (p : Nat) (s : State) : State :=
  let q := s.port p
  if q.state = .down && q.retryAt = none && s.portMay p then
    s.onPort p fun q => { q with state := .training, since := s.clock }
  else s

def State.startPorts (s : State) : State := [0, 1, 2, 3].foldl (fun s p => s.startPort p) s

/-! ### Roles and leases (R334, R335) -/

def Slot.mirrored (x : Slot) : Bool := bitOf x.flags 0
def Slot.leased (x : Slot) : Bool := bitOf x.flags 1
def Slot.rebuilt (x : Slot) : Bool := bitOf x.flags 2
/-- A Fleet slot has a home member (R334). -/
def Slot.fleet (x : Slot) : Bool := x.home ≠ 0xFFFF && (x.mirrored || x.leased)

/-- The lease authority of a slot (Table 14.6). -/
def Slot.authority (x : Slot) : Nat := if x.leased then x.home else x.mirror

/-- The member a landing of the slot waits for at step 6: none where the authority is this member (R334, R336). -/
def State.landingHop (s : State) (n : Nat) : Option Nat :=
  let x := s.slot n
  if x.fleet && x.authority ≠ s.memberId then some x.authority else none

/-- This member serves the slot: it is not a Fleet slot, this is its home, or it holds a lease of a LEASED slot. -/
def State.serves (s : State) (n : Nat) : Bool :=
  let x := s.slot n
  x.home = 0xFFFF || x.home = s.memberId
    || (x.leased && s.xl.leases.any fun l => l.slot = n ∧ l.holder = s.memberId)

/-- A ROLE or LEASE record (Table 14.8). -/
def State.fleetRecord (s : State) (kind action reason n other first last : Nat) : Bytes :=
  let x := s.slot n
  be 1 kind ++ be 1 action ++ be 2 reason ++ be 4 n ++ be 2 x.roleEpoch ++ be 2 x.home ++ be 2 x.mirror ++ be 2 other
    ++ be 8 first ++ be 8 last ++ be 8 s.tb.deviceTime ++ be 8 s.fleetId ++ List.replicate 48 0

def State.ackKey (n holder : Nat) : Nat := n * 2048 + holder

/-- This member's image of a slot, with the grant table. -/
def State.roleOf (s : State) (n : Nat) : RoleFields :=
  let x := s.slot n
  { slot := n, roleEpoch := x.roleEpoch, home := x.home, mirror := x.mirror, leased := x.leased, mirrored := x.mirrored
    serial := x.serial, handle := x.handle, official := x.official, landing := x.landing, digest := x.digest
    leases := (s.xl.leases.filter fun l => l.slot = n).map fun l =>
      { holder := l.holder, first := l.first, last := l.last, acked := mapGet 0 s.xl.acked (ackKey n l.holder) } }

/-- A copy takes what a role state says of the slot's landings; roles and state stay its own (R334, R337). -/
def Slot.takeImage (r : RoleFields) (x : Slot) : Slot :=
  { x with serial := r.serial, handle := r.handle, official := r.official, landing := r.landing, digest := slice r.digest 0 16 }

/-- After a recovery or a rebuild, mirrored slots are restored from their Fleet peers by SYNC_REQ (R130, R345): the mirror
asks the home; after a rebuild the home asks its mirror, and the slot serves no take until the answer
(DESIGN CHOICE, log entry 120). -/
def State.restoreMirrored (rebuilt : Bool) (s : State) : State :=
  if !s.fleetEnable then s
  else (s.lg.slots.filter fun e => e.2.fleet && e.2.mirrored).foldl (fun s e =>
    let ask := fun (m : Nat) (s : State) => s.sendRequest m 0x14 (roleBytes (s.roleOf e.1))
    if e.2.mirror = s.memberId then ask e.2.home s
    else if rebuilt && e.2.home = s.memberId then
      ask e.2.mirror (s.onLg fun g => { g with
        suspended := if g.suspended.contains e.1 then g.suspended else e.1 :: g.suspended })
    else s) s

/-- GrantLimit of a slot. -/
def State.grantLimit (s : State) (n : Nat) : Nat := max (mapGet 0 s.xl.grantLimit n) (s.slot n).serial

/-- The authority's next lease for a holder: GrantLimit rises to its last serial, and the grant is in the journal
before it is sent (R335). A slot's first lease starts past its last landed serial; no lease runs past the last
serial of R71. -/
def State.grantLease (n holder : Nat) (s : State) : State × Lease :=
  let s := s.applyNum 0x7800 4 0
  let limit := s.grantLimit n
  let l : Lease := { slot := n, holder := holder, first := limit + 1, last := min (limit + s.leaseBlock) (2 ^ 64 - 1) }
  let s := s.onXl fun x => { x with
    grantLimit := mapSet 0 x.grantLimit n l.last
    leases := x.leases ++ [l] }
  (s.append (s.fleetRecord 0x51 1 0 n holder l.first l.last) [], l)

/-- The leases this member holds of a slot. -/
def State.ownLeases (s : State) (n : Nat) : List Lease :=
  s.xl.leases.filter fun l => l.slot = n ∧ l.holder = s.memberId

/-- The lowest serial above `c` of a list of leases. -/
def nextLeased (c : Nat) (ls : List Lease) : Option Nat :=
  ls.foldl (fun acc l =>
    if c + 1 ≤ l.last then
      let x := max (c + 1) l.first
      match acc with
      | some y => some (min x y)
      | none => some x
    else acc) none

/-- Serials above `c` in a list of leases: those not yet reserved. -/
def unreserved (c : Nat) (ls : List Lease) : Nat :=
  (ls.map fun l => l.last + 1 - max (c + 1) l.first).sum

/-- A holder asks for its next lease while it holds fewer than two with unreserved serials and fewer than a quarter of
a block remains (R335). The authority grants its own at once (DEDUCED, log entry 80). -/
def State.wantLease (n c : Nat) (s : State) : State :=
  let x := s.slot n
  let own := (s.ownLeases n).filter fun l => c < l.last
  if !x.fleet || 2 ≤ own.length || s.leaseBlock ≤ 4 * unreserved c own then s
  else if x.authority = s.memberId then if 2 ^ 64 - 1 ≤ s.grantLimit n then s else (s.grantLease n s.memberId).1
  else if s.xl.requests.any (fun r => r.type = 0x10 ∧ beAt r.payload 8 4 = n) then s
  else s.sendRequest x.authority 0x10 (be 4 n)

/-- The slot is given up (R337): ROLE RELINQUISHED, Suspended, its leases discarded without VOID records, and no SYNC_REQ goes
out for it any more. -/
def State.relinquish (n : Nat) (s : State) : State :=
  let s := s.onSlot n fun x => { x with state := 2 }
  let s := s.onLg fun g => { g with suspended := g.suspended.filter (· ≠ n) }
  let s := s.onXl fun x => { x with leases := x.leases.filter fun l => !(l.slot = n ∧ l.holder = s.memberId) }
  s.append (s.fleetRecord 0x50 4 0 n 0xFFFF 0 0) []

end Sys2Proof.Machine
end

