-- ==== Sys2Proof/Machine/Guard.lean ====
section
/-! DEFINITION. The Memory Guard: the map of DDR5 (R111, Table 5.4), line protection and the integrity tree (R112 to R117,
Tables 5.5 and 5.7), lines that fail (R115), and the ledger cache (R117, R118). -/

namespace Sys2Proof.Machine

/-! ### The protected memory map (R111, R116) -/

/-- A region of Table 5.4. -/
inductive MemRegion where
  | slot (n : Nat)
  | node (k n : Nat)
  | ledgerTags
  | reel
  | reelTags
  | pool
  | poolTags
  | reserved
  deriving DecidableEq, Repr

/-- Nodes of a level, and where it begins (Table 5.7). -/
def levelNodes (k : Nat) : Nat := 2097152 / 8 ^ (k + 1)

def levelBase (k : Nat) : Nat :=
  match k with
  | 0 => 0x08000000
  | 1 => 0x09000000
  | 2 => 0x09200000
  | 3 => 0x09240000
  | 4 => 0x09248000
  | _ => 0x09249000

def nodeAddress (k n : Nat) : Nat := levelBase k + 64 * n
def slotAddress (n : Nat) : Nat := 64 * n

/-- The node of level `k` on the path of slot `n`, and its counter there (R116). -/
def pathNode (k n : Nat) : Nat := n / 8 ^ (k + 1)
def pathCounter (k n : Nat) : Nat := n / 8 ^ k % 8

/-- The region of an address. In the tenant pool every ninth line holds tags. -/
def regionOf (a : Nat) : MemRegion :=
  if a < 0x08000000 then .slot (a / 64)
  else if 0x10000000 ≤ a then
    if a < 0x50000000 then .reel
    else if a < 0x58000000 then .reelTags
    else if (a - 0x58000000) / 64 % 9 = 8 then .poolTags
    else .pool
  else if 0x0A000000 ≤ a ∧ a < 0x0B249280 then .ledgerTags
  else match [0, 1, 2, 3, 4, 5].find? fun k => levelBase k ≤ a && a < nodeAddress k (levelNodes k) with
    | some k => .node k ((a - levelBase k) / 64)
    | none => .reserved

/-- The channel of a line (R111). -/
def channelOf (a : Nat) : Nat := a / 64 % 4

/-- The tag line of a protected line, and the offset of its tag there. -/
def ledgerTagLine (a : Nat) : Nat := 0x0A000000 + a / 512 * 64
def reelTagLine (a : Nat) : Nat := 0x50000000 + (a - 0x10000000) / 512 * 64
def tagOffset (a : Nat) : Nat := 8 * (a / 64 % 8)

/-- The eight lines whose tags a tag line holds. -/
def linesTagged (a : Nat) : List Nat :=
  let first := match regionOf a with
    | .ledgerTags => (a - 0x0A000000) / 64 * 512
    | .reelTags => 0x10000000 + (a - 0x50000000) / 64 * 512
    | _ => a / 64 * 64 - 512
  (List.range 8).map fun j => first + 64 * j

/-! ### Versions and laps (R112, R116, R117) -/

/-- A counter of the tree is 56 bits wide. -/
def bumpCounter (m : List (Nat × Nat)) (a : Nat) : List (Nat × Nat) := mapSet 0 m a ((mapGet 0 m a + 1) % 2 ^ 56)

/-- The version of a ledger line: its counter in the parent node. The pinned levels are written together, so the nodes
of levels 1 to 4 have one version, and the root registers hold those of level 5 (R117). -/
def State.version (s : State) (a : Nat) : Nat :=
  match regionOf a with
  | .slot _ | .node 0 _ => mapGet 0 s.lg.tree (a / 64 * 64)
  | .node 5 n => mapGet 0 s.lg.rootCtr n
  | .node _ _ => s.lg.pinnedCtr
  | _ => 0

/-- The child `j` of a node: a slot of level 0, a node of the level below otherwise. -/
def childAddress (k n j : Nat) : Nat := if k = 0 then slotAddress (8 * n + j) else nodeAddress (k - 1) (8 * n + j)

/-- A node's line: eight counters. -/
def State.nodeImage (s : State) (k n : Nat) : Bytes :=
  (List.range 8).flatMap fun j => be 8 (s.version (childAddress k n j))

/-- The lap counter of a 1 MiB chunk of the reel buffer: how often writing has entered the chunk. Records lie in it one
after the other (DEDUCED, log entry 24). -/
def State.reelLap (s : State) (chunk : Nat) : Nat :=
  let start := chunk * 2 ^ 20
  if s.lg.reelWritten ≤ start then 0 else (s.lg.reelWritten - start - 1) / 2 ^ 30 + 1

/-- A byte of the reel buffer that has not been sent and acknowledged yet. -/
def State.reelByte (s : State) (o : Nat) : Option Byte :=
  let held := s.lg.reel.flatMap (·.bytes)
  let back := (s.lg.reelWritten + 2 ^ 30 - 1 - o) % 2 ^ 30
  if back < held.length then held[held.length - 1 - back]? else none

/-! ### Line protection (R112, Table 5.5) -/

/-- The IV of a ledger or reel line: its kind, its index, its version or lap. -/
def lineIv (kind a v : Nat) : Bytes := be 1 kind ++ be 4 (a / 64) ++ be 7 v

/-- The 64-bit tag of a line under AES-256-GCM. -/
def lineTag (key iv content : Bytes) : Bytes :=
  (Config.out .gcmTag 16 [] [key, iv, [], Config.out .gcmCipher content.length [] [key, iv, content]]).take 8

/-- A slot image (Table 5.1). -/
def Slot.image (x : Slot) : Bytes :=
  be 8 x.serial ++ be 1 x.state ++ be 1 x.tenant ++ be 2 x.epoch ++ be 2 x.handle ++ be 1 x.flags ++ [0]
    ++ be 8 x.official ++ be 8 x.landing ++ slice x.digest 0 16 ++ be 2 x.home ++ be 2 x.mirror ++ be 2 x.roleEpoch
    ++ List.replicate 10 0

/-- What a ledger line holds. -/
def State.ledgerContent (s : State) (a : Nat) : Bytes :=
  match regionOf a with
  | .slot n => (s.slot n).image
  | .node k n => s.nodeImage k n
  | _ => []

/-- The tag of a ledger line as it was last written. -/
def State.ledgerTag (s : State) (a : Nat) : Bytes :=
  lineTag (mapGet [] s.lg.keys 0) (lineIv 1 a (s.version a)) (s.ledgerContent a)

/-- The tag of a reel line. -/
def State.reelTag (s : State) (a : Nat) : Bytes :=
  let o := (a - 0x10000000) / 64 * 64
  lineTag (mapGet [] s.lg.keys 1) (lineIv 2 a (s.reelLap (o / 2 ^ 20)))
    ((List.range 64).map fun i => (s.reelByte (o + i)).getD 0)

/-! ### Failed reads (R115, Table 5.6) -/

/-- A protected line fails its read from now on. -/
def State.markFailed (a : Nat) (s : State) : State :=
  s.onLg fun g => { g with failed := if g.failed.contains a then g.failed else a :: g.failed }

/-- A line of the ledger or of the reel buffer has failed a read (R115). -/
def State.lineFailed (a : Nat) (s : State) : State :=
  let s := (s.markFailed a).onLg fun g => { g with
    integrityFaults := g.integrityFaults + 1
    writesStopped := true }
  (s.latch .lgStat 1).raiseCause .memoryIntegrity

/-! ### The ledger cache (R117, R118) -/

/-- Lines of the 8 MiB cache beside the 37,448 pinned nodes. -/
def cacheRoom : Nat := 131072 - 37448

/-- Lines in use: resident slot lines, level-0 nodes, and the tag lines of both. -/
def State.cacheUsed (s : State) : Nat :=
  s.lg.resident.length + 2 * s.lg.nodes.length + (s.lg.nodes.map (· / 8)).eraseDups.length

/-- A line that a slot's residency must read and that fails. -/
def State.failedLine (s : State) (n : Nat) : Option Nat :=
  if s.lg.resident.contains n then none
  else if s.lg.failed.contains (slotAddress n) then some (slotAddress n)
  else if !s.lg.nodes.contains (n / 8) && s.lg.failed.contains (nodeAddress 0 (n / 8)) then some (nodeAddress 0 (n / 8))
  else none

/-- A slot line leaves the cache: a changed one is written, and its counter advances. With its last slot line a level-0
node leaves too, written where it has changed (DESIGN CHOICE, log entry 67). -/
def State.evictSlot (n : Nat) (s : State) : State :=
  let dirty := s.lg.dirty.contains n
  let s := s.onLg fun g => { g with
    resident := g.resident.filter (· ≠ n)
    dirty := g.dirty.filter (· ≠ n)
    tree := if dirty then bumpCounter g.tree (slotAddress n) else g.tree
    dirtyNodes := if dirty && !g.dirtyNodes.contains (n / 8) then n / 8 :: g.dirtyNodes else g.dirtyNodes }
  if s.lg.resident.any fun m => m / 8 = n / 8 then s
  else s.onLg fun g => { g with
    nodes := g.nodes.filter (· ≠ n / 8)
    tree := if g.dirtyNodes.contains (n / 8) then bumpCounter g.tree (nodeAddress 0 (n / 8)) else g.tree
    dirtyNodes := g.dirtyNodes.filter (· ≠ n / 8) }

/-- Slot lines that may leave: those without a take in flight. -/
def State.evictable (s : State) : List Nat := s.lg.resident.filter fun n => s.td.inflight.all fun t => t.slot ≠ n

/-- Room for the lines of one slot more; which line leaves is a free value (DESIGN CHOICE, log entry 67). -/
def State.makeRoom : Nat → State → State
  | 0, s => s
  | fuel + 1, s =>
    if s.cacheUsed + 4 ≤ cacheRoom || s.lg.writesStopped then s
    else match s.evictable with
      | [] => s
      | n :: ns =>
        let k := (Config.freeValue 32 s.freeCtr).toNat % (ns.length + 1)
        State.makeRoom fuel ((s.takeFree 1).evictSlot ((n :: ns).getD k n))

/-- The line of slot `n` is in the cache, and its level-0 node with it. -/
def State.makeResident (n : Nat) (s : State) : State :=
  if s.lg.resident.contains n then s
  else (s.makeRoom 4).onLg fun g => { g with
    resident := g.resident ++ [n]
    nodes := if g.nodes.contains (n / 8) then g.nodes else g.nodes ++ [n / 8] }

/-- The slot's line changes in the cache (R117). -/
def State.soil (n : Nat) (s : State) : State :=
  (s.makeResident n).onLg fun g => { g with dirty := if g.dirty.contains n then g.dirty else n :: g.dirty }

/-- Every dirty slot line, every dirty level-0 node and every pinned node is written back; the counters advance up to the
root registers (R116, R117, R132). -/
def State.writeBack (s : State) : State :=
  let d := s.lg.dirty
  let nodes := (d.map (· / 8) ++ s.lg.dirtyNodes).eraseDups
  s.onLg fun g => { g with
    tree := nodes.foldl (fun m n => bumpCounter m (nodeAddress 0 n)) (d.foldl (fun m n => bumpCounter m (slotAddress n)) g.tree)
    pinnedCtr := (g.pinnedCtr + 1) % 2 ^ 56
    rootCtr := (List.range 8).foldl bumpCounter g.rootCtr
    dirty := []
    dirtyNodes := [] }

end Sys2Proof.Machine
end

