-- ==== Sys2Proof/Machine/Takes.lean ====
section
/-! DEFINITION. A take from reservation to its digest, and manifests up to the head that is signed: R70 to R72, R84 to R95. -/

namespace Sys2Proof.Machine

/-! ### Reservation -/

/-- The Seal die of a slot (R20). -/
def sealDie (slot : Nat) : Nat := slot * 0x9E3779B1 % 2 ^ 32 * 6 / 2 ^ 32

/-- The reservation counter of a slot (R106): the last serial reserved, or its Serial. -/
def State.reservationCounter (s : State) (n : Nat) : Nat :=
  (s.td.inflight.filter fun t => t.slot = n).foldl (fun m t => max m t.serial) (s.slot n).serial

/-- The type of a handle whose unwrapped key the KRF holds. -/
def State.unwrappedType (s : State) (h : Nat) : Option Nat :=
  (s.handle h).bind fun k => if k.state = .unwrapped then some k.type else none

/-- Steps 1 and 2 of R70: what the mode owes the take, the failure of the mode, or of the descriptor. -/
def State.reserveEarly (s : State) (t : Take) : Option Status :=
  match t.failure, s.pwr.mode.takeStatus with
  | some st, _ => some st
  | none, some st => some st
  | none, none =>
    if t.malformed then some stBadDescriptor
    else if t.length = 0 then some stLenZero
    else if 16384 < t.length then some stLenTooLong
    else none

/-- Step 3 of R70: the payload is read, once (R60); `none`: a PCIe failure, which sets DMA_RD (R303). -/
def State.readPayload (s : State) (t : Take) : Option Take :=
  if t.hasPayload then some t
  else if s.dmaOk t.tenant t.payloadAddr t.length then
    some { t with payload := s.dmaBytes t.payloadAddr t.length, hasPayload := true }
  else none

/-- Step 4 of R70: slot, gate and the official time, with R76, R91 and R108. The rules name MIRROR_TIMEOUT among this
step's failures and give it no place in their order: here it follows BAD_SLOT and precedes BAD_GATE and GATE_CLOSED, and
NOT_READY of R91 comes last (DESIGN CHOICE, log entry 125). -/
def State.reserveChecks (s : State) (t : Take) : Option Status :=
  let w := s.window (t.slot / 1024)
  let x := s.slot t.slot
  let g := s.gate t.gate
  if w.owner ≠ t.tenant || w.reassigning || x.state ≠ 1 then some stBadSlot
  else match s.unwrappedType x.handle with
    | none => some stBadSlot
    | some ty =>
      if s.lg.suspended.contains t.slot then some stMirrorTimeout
      else if t.gate ≠ 0 && g.owner ≠ t.tenant then some stBadGate
      else if t.gate ≠ 0 && g.close ≤ s.tb.deviceTime then some stGateClosed
      else if ty = 0x40 && 2 ^ 44 - 1 ≤ s.td.manifestSeq then some stNotReady
      else none

/-- Step 5 of R70: the serial, from the counter or from the holder's leases (R71, R335). -/
def State.nextSerial (s : State) (n : Nat) : Except Status Nat :=
  let c := s.reservationCounter n
  if 2 ^ 64 - 1 ≤ c then .error stSerialExhausted
  else if (s.slot n).fleet then
    match nextLeased c (s.ownLeases n) with
    | some k => .ok k
    | none => .error stNoLease
  else .ok (c + 1)

/-- Step 4 of R70 stamps a take before it compares the close time: refusals from there on carry the official time (R61)
(DESIGN CHOICE, log entry 19). -/
def State.stampTake (t : Take) (s : State) : Take := { t with officialTime := s.tb.deviceTime }

/-- The take with its serial enters the In-Flight Table and goes to its Seal die. -/
def State.reserve (t : Take) (serial : Nat) (s : State) : State :=
  let x := s.slot t.slot
  let r : Take := { t with
    phase := .dispatched
    serial := serial
    officialTime := s.tb.deviceTime
    epoch := (s.window (t.slot / 1024)).epoch
    roleEpoch := x.roleEpoch
    handle := x.handle
    sealMode := b2n (s.unwrappedType x.handle = some 0x40)
    die := sealDie t.slot
    dispatched := s.clock }
  let s := s.onTd fun d => { d with
    fetched := d.fetched.filter (·.id ≠ t.id)
    inflight := d.inflight ++ [r] }
  s.wantLease t.slot serial

/-- Steps 4 and 5 of R70, one indivisible action: the slot's line is made resident, and it or its node may fail the read
(R115, R118). -/
def State.reserveStamped (t : Take) (s : State) : State :=
  match s.failedLine t.slot with
  | some a =>
    let s := s.lineFailed a
    s.refuseTake t (s.pwr.mode.takeStatus.getD stHeld)
  | none =>
  let s := s.makeResident t.slot
  match s.reserveChecks t with
    | some st => s.refuseTake (if st = stGateClosed || st = stNotReady then s.stampTake t else t) st
    | none =>
      match s.nextSerial t.slot with
      | .error st => s.refuseTake (s.stampTake t) st
      | .ok n => s.reserve t n

/-- The Dispatcher handles a fetched take (R70). While the Timebase gives no time to stamp it with, it waits with the
payload it has read. -/
def State.reserveTake (t : Take) (s : State) : State :=
  match s.reserveEarly t with
  | some st => s.refuseTake t st
  | none =>
    match s.readPayload t with
    | none => (s.dmaReadFailed t.tenant).refuseTake t stDmaFault
    | some t =>
      if s.tb.dtValid && !s.tb.timeFault then s.reserveStamped t
      else s.onTd fun x => { x with fetched := x.fetched.map fun u => if u.id = t.id then t else u }

/-- TAKE_RESERVE (R70). -/
def execTakeReserve (id : Nat) (s : State) : Host.Outcome State Fault Refusal :=
  .next (match s.td.fetched.find? fun t => t.id = id with
    | some t => if s.powered && !s.pwr.stowed then s.reserveTake t else s
    | none => s)

/-! ### On the Seal die -/

/-- A take ends on its Seal die with a failure code and returns to the Landing Unit. -/
def State.returnTake (id : Nat) (code : Option Status) (s : State) : State :=
  s.onTake id fun t => { t with failure := code, phase := .returned, rnd := [] }

/-- SEAL_TAKE_ARRIVAL (R72): the owner epoch is checked, then hashing starts. -/
def execSealTakeArrival (id : Nat) (s : State) : Host.Outcome State Fault Refusal :=
  .next (match s.takeById id with
    | some t =>
      if t.phase ≠ .dispatched then s
      else if (s.window (t.slot / 1024)).epoch ≠ t.epoch then s.returnTake id (some stStaleOwner)
      else s.onTake id fun t => { t with phase := .hashing }
    | none => s)

/-- The take header (Table 4.1). -/
def Take.header (t : Take) : Bytes :=
  be 1 0x54 ++ be 1 1 ++ be 1 t.sealMode ++ be 1 t.tenant ++ be 4 t.slot ++ be 2 t.gate ++ be 2 t.handle
    ++ be 4 t.length ++ be 8 t.serial ++ be 8 t.officialTime ++ be 8 t.clientTag ++ be 8 unitId

/-- The take digest (R84). -/
def Take.digestOf (t : Take) : Bytes := Config.sha256 (t.header ++ t.payload)

/-! ### Manifests (R87 to R95) -/

def State.manifest (s : State) (mid : Nat) : Option Manifest := s.td.manifests.find? fun m => m.id = mid

def State.onManifest (mid : Nat) (f : Manifest → Manifest) (s : State) : State :=
  s.onTd fun d => { d with manifests := d.manifests.map fun m => if m.id = mid then f m else m }

/-- MANIFEST_CLOSE (R90). -/
def State.closeManifest (mid reason : Nat) (s : State) : State :=
  s.onManifest mid fun m => { m with
    phase := .closed
    closeReason := reason
    closeTime := s.tb.deviceTime
    closeClock := s.clock }

/-- Open manifests of a Seal die. -/
def State.openManifests (s : State) (die : Nat) : List Manifest :=
  s.td.manifests.filter fun m => m.phase = .opened && m.die = die

/-- The manifest with the earliest OpenTime (R89); of equal times, which the rule does not tell apart, the one that opened
first (DESIGN CHOICE, log entry 127). -/
def earliest : List Manifest → Option Manifest
  | [] => none
  | m :: ms =>
    match earliest ms with
    | some n => if n.openTime < m.openTime then some n else some m
    | none => some m

/-- MANIFEST_OPEN (R87, R89, R91, R92): a 65th on the die closes the earliest first; the tenant's EDGE objects apply. -/
def State.openManifest (t : Take) (s : State) : State × Nat :=
  let s := if 64 ≤ (s.openManifests t.die).length then
      match earliest (s.openManifests t.die) with
      | some m => s.closeManifest m.id 4
      | none => s
    else s
  let s := (s.applyNum 0x3001 1 t.tenant).applyNum 0x3001 2 t.tenant
  let s := (s.applyNum 0x3002 1 t.tenant).applyNum 0x3002 2 t.tenant
  let seq := s.td.manifestSeq + 1
  let mid := s.pwr.bootCount % 2 ^ 20 * 2 ^ 44 + seq
  let m : Manifest := {
    id := mid
    die := t.die
    tenant := t.tenant
    handle := t.handle
    epoch := (s.window (t.slot / 1024)).epoch
    maxLeaves := s.num 0x3001 1 t.tenant 256
    deadline := s.num 0x3001 2 t.tenant 200000
    openTime := s.tb.deviceTime
    openClock := s.clock
    ringAddress := s.num 0x3002 1 t.tenant 0
    ringLog2 := s.num 0x3002 2 t.tenant 0 }
  (s.onTd fun d => { d with manifestSeq := seq, manifests := d.manifests ++ [m] }, mid)

/-- Leaves of a manifest that land on a lane (Table 4.3). -/
def Manifest.laneLeaves (m : Manifest) (lane : Nat) : Nat := (m.leaves.filter fun l => l.1 % 4 = lane).length

/-- LEAF_ENTRY, and the close that follows it at once (R88, R90). Table 4.3 does not say which reason stands when one leaf
brings several: SIZE goes before LANE, and LANE before DRAIN (DESIGN CHOICE, log entry 128). -/
def State.enterLeaf (t : Take) (digest : Bytes) (mid : Nat) (s : State) : State :=
  match s.manifest mid with
  | none => s
  | some m =>
    let leaf := m.leaves.length
    let m := { m with leaves := m.leaves ++ [(t.slot, t.officialTime, digest)] }
    let s := s.onManifest mid fun _ => m
    let s := s.onTake t.id fun t => { t with
      phase := .inManifest
      digest := some digest
      manifest := mid
      leaf := leaf }
    if m.maxLeaves ≤ leaf + 1 then s.closeManifest mid 1
    else if 96 ≤ m.laneLeaves (t.slot % 4) then s.closeManifest mid 2
    else if s.pwr.mode = .drain then s.closeManifest mid 5
    else s

/-- A digested take of manifest mode becomes a leaf. With the sequence of R91 at its end no manifest opens for it; a take that has
its serial already can be NOT_RESERVED no more, of which the rule says nothing: it lands VOID NOT_READY
(DESIGN CHOICE, log entry 129). -/
def State.joinManifest (t : Take) (digest : Bytes) (s : State) : State :=
  match s.td.manifests.find? fun m => m.phase = .opened && m.die = t.die && m.handle = t.handle with
  | some m => s.enterLeaf t digest m.id
  | none =>
    if 2 ^ 44 - 1 ≤ s.td.manifestSeq then
      s.onTake t.id fun t => { t with digest := some digest, failure := some stNotReady, phase := .returned }
    else
      let r := s.openManifest t
      r.1.enterLeaf t digest r.2

/-- MANIFEST_DEADLINE (R90): the deadline has elapsed since OpenTime. -/
def execManifestDeadline (mid : Nat) (s : State) : Host.Outcome State Fault Refusal :=
  .next (match s.manifest mid with
    | some m => if m.phase = .opened ∧ m.openClock + m.deadline ≤ s.clock then s.closeManifest mid 3 else s
    | none => s)

/-- The hash of one leaf (R93). -/
def leafHash (i : Nat) (digest : Bytes) : Bytes := Config.sha256 (0x00 :: be 4 i ++ digest)

/-- The filler of a level (R93). -/
def filler (level : Nat) : Bytes := Config.sha256 [0x02, BitVec.ofNat 8 level]

/-- The level above: pairs hashed, an odd node paired with the level's filler. -/
def pairUp (level : Nat) : List Bytes → List Bytes
  | [] => []
  | [a] => [Config.sha256 (0x01 :: a ++ filler level)]
  | a :: b :: rest => Config.sha256 (0x01 :: a ++ b) :: pairUp level rest

/-- The root of a list of nodes; eight levels are enough for 256 leaves (R93). -/
def rootOf : Nat → Nat → List Bytes → Bytes
  | _, _, [] => []
  | _, _, [a] => a
  | 0, _, a :: _ => a
  | fuel + 1, level, l => rootOf fuel (level + 1) (pairUp level l)

/-- The leaf nodes of a manifest. -/
def leafNodes : Nat → List (Nat × Nat × Bytes) → List Bytes
  | _, [] => []
  | i, l :: ls => leafHash i l.2.2 :: leafNodes (i + 1) ls

def Manifest.rootValue (m : Manifest) : Bytes := rootOf 8 0 (leafNodes 0 m.leaves)

/-- The audit path of leaf `i` (R94). -/
def pathOf : Nat → Nat → Nat → List Bytes → List Bytes
  | 0, _, _, _ => []
  | fuel + 1, level, i, l =>
    if l.length ≤ 1 then []
    else (l[if i % 2 = 0 then i + 1 else i - 1]?.getD (filler level)) :: pathOf fuel (level + 1) (i / 2) (pairUp level l)

def Manifest.path (m : Manifest) (i : Nat) : List Bytes := pathOf 8 0 i (leafNodes 0 m.leaves)

/-- The manifest head (Table 4.5). -/
def Manifest.head (m : Manifest) : Bytes :=
  let times := m.leaves.map fun l => l.2.1
  be 1 0x4D ++ be 1 1 ++ be 1 1 ++ be 1 m.tenant ++ be 2 m.handle ++ be 1 m.die ++ be 1 m.closeReason ++ be 8 unitId
    ++ be 8 m.id ++ be 4 m.leaves.length ++ be 4 0 ++ be 8 m.openTime ++ be 8 m.closeTime
    ++ be 8 (times.foldl min (times.headD 0)) ++ be 8 (times.foldl max 0) ++ slice m.root 0 32

/-- The private part of an unwrapped handle. -/
def State.privateOf (s : State) (h : Nat) : Bytes := match s.handle h with
  | some k => k.privatePart
  | none => []

end Sys2Proof.Machine
end

