-- ==== Sys2Proof/Machine/Sealing.lean ====
section
/-! DEFINITION. The sealing engines and Lattice Units at work on takes and manifests (R72 to R74, R86, R96 to R101, R139,
R141, R142, R169, R175): which one works on what, what it draws, the signatures, their verification, and the slate. -/

namespace Sys2Proof.Machine

/-! ### Engines and units in service (R139, R141, R142, R169) -/

/-- This engine works on a take, on the ECDSA half of a manifest, or for the Anchor now. -/
def State.sealWork (s : State) (e : Nat) : Bool :=
  (s.engine e).running.isSome
    || s.td.inflight.any (fun t => t.engine = some e && (t.phase = .signing || t.phase = .verifying))
    || (s.td.manifests.any fun m => (m.engine = some e || m.verifier = some e) && m.phase = .signing)
    || (match s.krf.running with
      | some k => k.engine = some e
      | none => false)

/-- The lowest idle engine of a die's sealing pool, other than the one that signed (R142)
(DESIGN CHOICE, log entry 18). -/
def State.sealEngine (s : State) (die : Nat) (signer : Option Nat) : Option Nat :=
  ((List.range 16).map (die * 16 + ·)).find? fun e =>
    (s.engine e).owner = 0xFF && !(s.engine e).retired && some e ≠ signer && !s.sealWork e

/-- The sealing engines of a die in service. -/
def State.sealingEngines (s : State) (die : Nat) : Nat :=
  ((List.range 16).filter fun i =>
    let g := s.engine (die * 16 + i)
    g.owner = 0xFF && !g.retired).length

/-- An engine has returned INTERNAL_FAULT (R141, R157). -/
def State.lieFault (e : Nat) (s : State) : State :=
  let s := s.onLi fun l => { l with faultChecks := l.faultChecks + 1 }
  let recent := s.clock :: ((s.engine e).faults.filter fun f => decide (s.clock ≤ f + 3600000000000))
  let s := s.onEngine e fun g => { g with faults := recent, retired := g.retired || decide (3 ≤ recent.length) }
  if (s.engine e).retired && s.sealingEngines (e / 16) < 2 then s.raiseCause .sealDieLost else s

/-- A sealing command has ended with this code. -/
def State.sealFault (e : Option Nat) (code : Status) (s : State) : State :=
  match e with
  | some e => if code = stInternalFault then s.lieFault e else s
  | none => s

/-- A sealing command has ended: the engine's buffer is refilled (R196). -/
def State.sealRefill (e : Option Nat) (s : State) : State :=
  match e with
  | some e => s.fillEngine e
  | none => s

/-- Units of a die in service. -/
def State.unitsInService (s : State) (die : Nat) : Nat :=
  ([0, 1, 2, 3].filter fun i => !(s.latticeUnit (die * 4 + i)).retired).length

/-- A check of R175 has failed on a unit. -/
def State.unitFault (u : Nat) (s : State) : State :=
  let s := (s.onLh fun l => { l with faultChecks := l.faultChecks + 1 }).latch (.unitStat u) 2
  let recent := s.clock :: ((s.latticeUnit u).faults.filter fun f => decide (s.clock ≤ f + 3600000000000))
  let s := s.onUnit u fun l => { l with faults := recent, retired := l.retired || decide (3 ≤ recent.length) }
  if (s.latticeUnit u).retired && s.unitsInService (u / 4) < 2 then s.raiseCause .sealDieLost else s

/-- An idle Lattice Unit of a die, other than the one that signed (R169) (DESIGN CHOICE, log entry 18). -/
def State.idleUnit (s : State) (die : Nat) (signer : Option Nat) : Option Nat :=
  [0, 1, 2, 3].map (die * 4 + ·) |>.find? fun u =>
    !(s.latticeUnit u).retired && (s.latticeUnit u).running = none && some u ≠ signer

/-- Put an operation on a Lattice Unit. -/
def State.startUnit (u : Nat) (o : UnitOp) (s : State) : State :=
  s.onUnit u fun l => { l with running := some { o with start := s.clock }, lastParam := o.param }

/-- Commands of applets and of the Anchor (R167). -/
def UnitUser.client : UnitUser → Bool
  | .service _ | .serviceVerify _ | .anchor _ => true
  | .manifestSign _ | .manifestVerify _ => false

/-- A unit of the die is free for an applet or the Anchor: one is idle, and no other command of theirs holds one, or waits
for its verification (R168). -/
def State.clientUnit (s : State) (die : Nat) : Option Nat :=
  let busy := [0, 1, 2, 3].any fun i => match (s.latticeUnit (die * 4 + i)).running with
    | some o => o.user.client
    | none => false
  if busy || s.lh.toVerify.any (fun e => e.1 / 4 = die) then none else s.idleUnit die none

/-! ### Keys and signatures -/

/-- The private key that the ML-DSA seed of a hybrid handle expands to, and the context string of R96. -/
def State.manifestKey (s : State) (h : Nat) : Bytes :=
  Config.out .mldsaPrivate 4032 [2] [slice (s.privateOf h) 32 32]

def manifestContext : Bytes := [0x54, 0x4D, 0x52, 0x2D, 0x47, 0x58, 0x38, 0x2D, 0x4D, 0x31]

/-- An ML-DSA signature: that of FIPS 204 for the key, message, context and rnd. -/
def mldsaSignature (param size : Nat) (key message context rnd : Bytes) : Bytes :=
  Config.out .mldsaSign size [param] [key, message, context, rnd]

/-- The take's key is an Ed25519 one. -/
def State.signsEd (s : State) (t : Take) : Bool := s.unwrappedType t.handle = some 0x04

/-- The individual signature (R86): the message is 0x49 ‖ TakeDigest; the suite follows the handle's type. -/
def State.signTake (t : Take) (s : State) : Bytes :=
  let m := 0x49 :: t.digest.getD []
  if s.signsEd t then edSignature 4 (s.privateOf t.handle) m
  else p256Sign (s.privateOf t.handle) m (t.rnd.take 32)

/-- The hedge of a journal signature: from instance 77 (Table 8.3). VOID records are signed while delivery is stopped too
(Table 8.11), from where the manual does not say: free bytes (DESIGN CHOICE, log entry 130). -/
def State.journalHedge (s : State) : Bytes × State :=
  if s.delivers 77 then s.generate 77 32 false else (s.freeBytes 32, s.takeFree 32)

/-- The Anchor's journal key's signature over 0x52 ‖ bytes 0 to 127 of a VOID record (R75 step 5, R447). -/
def State.journalSignature (s : State) (covered : Bytes) : Bytes × State :=
  let r := s.journalHedge
  (p256Sign (s.krf.journal.getD ([], [])).1 (0x52 :: covered) r.1, r.2)

/-! ### Work goes to what is idle -/

/-- Opcode and curve of the internal command that a take's phase needs (R142). -/
def State.sealCommand (s : State) (t : Take) : Nat × Nat :=
  let op := if t.phase = .signing then 1 else 2
  if s.signsEd t then (op + 2, 4) else (op, 1)

/-- Engine `e` takes up the take's command: its need is in the engine's buffer, or the command ends as the Bank answers
(R159 check 7, R196). -/
def State.beginSeal (e : Nat) (t : Take) (s : State) : State :=
  match s.entropyBlock with
  | some st => s.returnTake t.id (some st)
  | none =>
    let r := s.engineBytes e (drawNeed (s.sealCommand t).1 (s.sealCommand t).2 4) false
    r.2.onTake t.id fun t => { t with engine := some e, rnd := r.1 }

/-- A take that waits for an engine gets an idle one of its die; never the one that signed it. -/
def State.assignTake (t : Take) (s : State) : State :=
  if t.engine.isSome || (t.phase ≠ .signing && t.phase ≠ .verifying) then s
  else match s.sealEngine t.die t.signer with
    | some e => s.beginSeal e t
    | none => s

/-- The ECDSA half of a manifest: one engine signs, another verifies; it waits until two are idle
(DESIGN CHOICE, log entry 18). -/
def State.assignEc (m : Manifest) (s : State) : State :=
  if m.engine.isSome then s
  else match s.sealEngine m.die none with
    | none => s
    | some e => match s.sealEngine m.die (some e) with
      | none => s
      | some v =>
        let r := s.engineBytes e (drawNeed 1 1 4) false
        let q := r.2.engineBytes v (drawNeed 2 1 4) false
        q.2.onManifest m.id fun n => { n with
          engine := some e
          verifier := some v
          ecSig := p256Sign (slice (s.privateOf m.handle) 0 32) m.head (r.1.take 32) }

/-- A Lattice Unit works for a manifest now. -/
def State.unitWorks (s : State) (mid : Nat) : Bool :=
  s.lh.units.any fun e => match e.2.running with
    | some o => o.user = .manifestSign mid || o.user = .manifestVerify mid
    | none => false

/-- The ML-DSA half of a manifest: a unit signs, with rnd from the pool's instance, and then a different unit of the die
verifies; each step waits until such a unit is idle (R96, R169). -/
def State.assignMl (m : Manifest) (s : State) : State :=
  if m.mlVerified || s.unitWorks m.id then s
  else match s.idleUnit m.die m.mlUnit with
    | none => s
    | some u =>
      let o : UnitOp := {
        op := 2
        param := 0x02
        user := .manifestSign m.id
        key := s.manifestKey m.handle
        handle := m.handle
        message := m.head
        context := manifestContext }
      if m.mlUnit.isNone then
        let r := s.unitBytes u 32 false false
        (r.2.startUnit u { o with rnd := r.1 }).onManifest m.id fun n => { n with mlUnit := some u }
      else s.startUnit u { o with op := 3, user := .manifestVerify m.id, result := some m.mlSig }

/-- A manifest that is being signed gets what it waits for. -/
def State.assignManifest (m : Manifest) (s : State) : State :=
  if m.phase ≠ .signing then s
  else if s.entropyBlock.isSome then s.abandonManifests (fun n => n.id = m.id) stEntropyFail
  else (s.assignEc m).assignMl m

/-- A signature of a service goes to a second unit of its die for verification (R175). -/
def State.assignVerify (e : Nat × UnitOp) (s : State) : State :=
  match s.idleUnit (e.1 / 4) (some e.1) with
  | none => s
  | some v => (s.onLh fun l => { l with toVerify := l.toVerify.filter (· ≠ e) }).startUnit v { e.2 with op := 3 }

/-- Bytes that an operation draws (R173). -/
def UnitOp.need (o : UnitOp) : Nat :=
  match o.op with
  | 1 => if o.param = 0x11 || o.param = 0x12 then 64 else 32
  | 2 => if o.fixed then 0 else 32
  | 4 => 32
  | _ => 0

/-- What an operation that draws ends with where the Bank does not deliver (R173, R205). -/
def State.unitBlock (s : State) (o : UnitOp) : Option Status := if o.need = 0 then none else s.entropyBlock

/-- A service's operation begins on unit `u` with what it draws: key generation with prediction resistance (R195). -/
def State.beginService (core u : Nat) (o : UnitOp) (s : State) : State :=
  match s.unitBlock o with
  | some st => s.serviceEnd core st
  | none =>
    let r := s.unitBytes u o.need true (o.op = 1)
    (r.2.startUnit u { o with rnd := if o.fixed then List.replicate 32 0 else r.1 }).awaits core (.lattice u)

/-- A LATTICE call that waits gets a unit of its core's die. -/
def State.assignService (core : Nat) (s : State) : State :=
  match mapGet none s.sz.outstanding core with
  | some (.latticeWait o) =>
    (match s.clientUnit (core / 32) with
    | some u => s.beginService core u o
    | none => s)
  | _ => s

/-- The parameter set of a key type's lattice part (Table 12.10). -/
def latticeParam (type : Nat) : Option Nat :=
  match type with
  | 0x21 => some 1
  | 0x22 | 0x40 => some 2
  | 0x23 => some 3
  | 0x31 => some 0x11
  | 0x32 => some 0x12
  | _ => none

/-- The unit's operation of a function of the Anchor that waits: the Ceremony's pair, a key creation's lattice part or the
decapsulation of an import, the verification of a microcode update (R167). -/
def State.anchorWaits (s : State) : AnchorJob → Option UnitOp
  | .importPair => if s.krf.pairDue then some { op := 1, param := 0x12, user := .anchor .importPair } else none
  | .keyOp => s.krf.running.bind fun k =>
      if k.imported then some { op := 5, param := 0x12, user := .anchor .keyOp }
      else (latticeParam k.type).map fun p => { op := 1, param := p, user := .anchor .keyOp }
  | .ucode => if s.li.ucodeLoad.isSome then some { op := 3, param := 3, user := .anchor .ucode } else none

/-- A unit works for this function of the Anchor. -/
def State.anchorRuns (s : State) (j : AnchorJob) : Bool :=
  s.lh.units.any fun e => match e.2.running with
    | some o => o.user = .anchor j
    | none => false

/-- A function of the Anchor that waits gets a unit of Seal die 0; the pair draws its seed from instance 77 with prediction
resistance, or is not made (R195, R205, R442). -/
def State.assignAnchor (j : AnchorJob) (s : State) : State :=
  match s.anchorWaits j, s.clientUnit 0 with
  | some o, some u =>
    if s.anchorRuns j then s
    else if j ≠ .importPair then s.startUnit u o
    else if s.coreEntropyBlock.isSome then s.onKrf fun k => { k with pairDue := false }
    else
      let r := s.generate 77 64 true
      r.2.startUnit u { o with rnd := r.1 }
  | _, _ => s

/-- The elliptic-curve part of a key creation runs on a sealing engine of Seal die 0 (R167). -/
def State.assignKeyEngine (s : State) : State :=
  match s.krf.running with
  | some k =>
    if k.engine.isSome || !((1 ≤ k.type && k.type ≤ 7) || k.type = 0x40) then s
    else s.onKrf fun x => { x with running := some { k with engine := s.sealEngine 0 none } }
  | none => s

/-- The key creation holds what its computation needs. -/
def State.keyOpPlaced (s : State) (k : KeyOp) : Bool :=
  ((s.anchorWaits .keyOp).isNone || s.anchorRuns .keyOp) && (k.engine.isSome || !((1 ≤ k.type && k.type ≤ 7) || k.type = 0x40))

/-- Takes and manifests that wait for an engine or a unit, the oldest first, get those that are idle; then, where the take
pipeline leaves one, the Anchor's functions and the services of the applets (R168) (DESIGN CHOICE, log entry 18). -/
def State.assignWork (s : State) : State :=
  let s := s.td.inflight.foldl (fun s t => s.assignTake t) s
  let s := s.td.manifests.foldl (fun s m => s.assignManifest m) s
  let s := s.lh.toVerify.foldl (fun s e => s.assignVerify e) s.assignKeyEngine
  let s := (([.importPair, .keyOp, .ucode] : List AnchorJob).foldl (fun s j => s.assignAnchor j) s)
  s.sz.outstanding.foldl (fun s e => s.assignService e.1) s

/-! ### On the Seal die -/

/-- A lower serial of the slot has yet to be digested: leaves enter in serial order (R88). -/
def State.leafWaits (s : State) (t : Take) : Bool :=
  s.td.inflight.any fun u => u.slot = t.slot && u.serial < t.serial
    && (u.phase = .dispatched || u.phase = .hashing)

/-- TAKE_DIGEST_COMPLETE (R72, R84, R87, R88). -/
def execTakeDigestComplete (id : Nat) (s : State) : Host.Outcome State Fault Refusal :=
  .next (match s.takeById id with
    | some t =>
      if t.phase ≠ .hashing then s
      else if t.sealMode = 0 then
        (s.onTake id fun t => { t with digest := some t.digestOf, phase := .signing }).assignWork
      else if s.leafWaits t then s
      else s.joinManifest t t.digestOf
    | none => s)

/-! ### Manifests (R93 to R101) -/

/-- MANIFEST_ROOT_COMPLETE (R93, R95, R96): the head is complete, and both halves are begun. -/
def execManifestRootComplete (mid : Nat) (s : State) : Host.Outcome State Fault Refusal :=
  .next (match s.manifest mid with
    | some m =>
      if m.phase ≠ .closed then s
      else (s.onManifest mid fun m => { m with phase := .signing, root := m.rootValue }).assignWork
    | none => s)

/-- A manifest slate (Table 4.7): what its Continuity covers. -/
def Manifest.slate (m : Manifest) : Bytes :=
  [0x10, 0x00] ++ be 2 3512 ++ be 4 0 ++ slice m.head 0 96 ++ slice m.ecSig 0 64 ++ slice m.mlSig 0 3309 ++ [0, 0, 0]

/-- SLATE_COPY_WRITE (R92, R101): to the ring in force when the manifest opened (DEDUCED, log entry 65). Once PERST# has come in
Drain it is not written (R48). -/
def State.slateCopy (m : Manifest) (bytes : Bytes) (s : State) : State :=
  let k := m.ringLog2
  if k = 0 || s.silentDrain then s
  else
    let entry := (s.counts m.tenant).slateNext % 2 ^ k
    let addr := m.ringAddress + 4096 * entry
    let ok := s.dmaLands m.tenant addr bytes.length
    let s := s.dmaWrite m.tenant addr bytes
    if ok then
      (s.onManifest m.id fun m => { m with slateEntry := entry }).onCounts m.tenant fun c =>
        { c with slateNext := (entry + 1) % 2 ^ k }
    else s.onCounts m.tenant fun c => { c with slateFaults := c.slateFaults + 1 }

/-- MANIFEST_SLATE_APPEND (R97, R101): the slate joins the journal and the leaves' takes may land. -/
def State.slateManifest (m : Manifest) (s : State) : State :=
  let m : Manifest := { m with phase := .slated }
  let s := s.onManifest m.id fun _ => m
  let body := m.slate
  let c := chain s.lg.continuity body
  let s := (s.journal body []).slateCopy m (body ++ c)
  let s := s.onCounts m.tenant fun c => { c with manifestsSigned := c.manifestsSigned + 1 }
  let s := s.onTd fun d => { d with inflight := d.inflight.map fun t =>
    if t.manifest = m.id && t.phase = .inManifest then { t with phase := .returned } else t }
  s.afterJournal

/-- The units that work for a manifest; a check that has failed there is a fault of the unit (R175). -/
def State.mlFault (mid : Nat) (code : Status) (s : State) : State :=
  if code ≠ stInternalFault && code ≠ stSignatureCheckFailed then s
  else (List.range 24).foldl (fun s u => match (s.latticeUnit u).running with
    | some o => if o.user = .manifestSign mid || o.user = .manifestVerify mid then s.unitFault u else s
    | none => s) s

/-- MANIFEST_SIGNING_COMPLETE (R73, R96 to R99, R142): how the two halves ended, 0 for made and verified. A half can have
failed only where it has been begun, and both can have been made only once a second unit has verified the ML-DSA half. Where
both have failed the takes carry the ECDSA half's code (DESIGN CHOICE, log entry 126). -/
def execManifestSigningComplete (mid : Nat) (ecEnd mlEnd : BitVec 16) (s : State) :
    Host.Outcome State Fault Refusal :=
  .next (match s.manifest mid with
    | some m =>
      let ecBad := ecEnd ≠ 0 && m.engine.isSome
      let mlBad := mlEnd ≠ 0 && s.unitWorks mid
      if m.phase ≠ .signing then s
      else if ecBad || mlBad then
        let s := if ecBad then s.sealFault m.engine ecEnd else s
        let s := if mlBad then s.mlFault mid mlEnd else s
        (s.abandonManifests (fun n => n.id = mid) (if ecBad then ecEnd else mlEnd)).assignWork
      else if ecEnd = 0 && mlEnd = 0 && m.engine.isSome && m.mlVerified then
        (((s.slateManifest m).sealRefill m.engine).sealRefill m.verifier).assignWork
      else s.assignWork
    | none => s)

/-! ### Individual signatures -/

/-- INDIVIDUAL_SIGN_COMPLETE (R72, R73, R86): 0, or the code the sealing command ended with. A take that waits for an
engine has not been signed. -/
def execIndividualSignComplete (id : Nat) (fin : BitVec 16) (s : State) : Host.Outcome State Fault Refusal :=
  .next (match s.takeById id with
    | some t =>
      if t.phase ≠ .signing then s
      else if t.engine.isNone then s.assignWork
      else if fin ≠ 0 then (((s.sealFault t.engine fin).returnTake id (some fin)).sealRefill t.engine).assignWork
      else
        let sig := s.signTake t
        ((s.onTake id fun t => { t with
          signature := sig
          phase := .verifying
          signer := t.engine
          engine := none
          rnd := [] }).sealRefill t.engine).assignWork
    | none => s)

/-- INDIVIDUAL_VERIFY_COMPLETE (R73): 0 verifies; otherwise the signature is discarded. -/
def execIndividualVerifyComplete (id : Nat) (fin : BitVec 16) (s : State) : Host.Outcome State Fault Refusal :=
  .next (match s.takeById id with
    | some t =>
      if t.phase ≠ .verifying then s
      else if t.engine.isNone then s.assignWork
      else
        let s := s.sealFault t.engine fin
        let s := if fin = 0 then s else s.onTake id fun t => { t with signature := [] }
        ((s.returnTake id (if fin = 0 then none else some fin)).sealRefill t.engine).assignWork
    | none => s)

/-! ### Late results (R74) -/

/-- The take's result has not come in time (R74): 50 µs after dispatch, or 60 µs after its manifest closed. -/
def State.resultLate (s : State) (t : Take) : Bool :=
  match t.phase with
  | .dispatched | .hashing | .signing | .verifying => t.sealMode = 0 && decide (t.dispatched + 50000 ≤ s.clock)
  | .inManifest =>
    match s.manifest t.manifest with
    | some m => (m.phase = .closed || m.phase = .signing) && decide (m.closeClock + 60000 ≤ s.clock)
    | none => false
  | _ => false

/-- A late result (R74): the take lands VOID INTERNAL_FAULT; the takes of a late manifest, which are late together, all
do, and the manifest, whose result is discarded, is abandoned. -/
def State.lateTake (t : Take) (s : State) : State :=
  match t.phase with
  | .inManifest => s.abandonManifests (fun m => m.id = t.manifest) stInternalFault
  | _ => s.returnTake t.id (some stInternalFault)

/-- RESULT_TIMEOUT (R74): the take lands VOID INTERNAL_FAULT and SEAL_DIE_LOST arises. -/
def execResultTimeout (id : Nat) (s : State) : Host.Outcome State Fault Refusal :=
  .next (match s.takeById id with
    | some t => if s.resultLate t then ((s.lateTake t).raiseCause .sealDieLost).assignWork else s
    | none => s)

end Sys2Proof.Machine
end

