-- ==== Sys2Proof/Machine/ModeOps.lean ====
section
/-! DEFINITION. What several parts of the GX8 do to the mode: the cut of the reel, the end of a Ceremony, entry to Drain
and to Quarantine, what each loses (Table 2.10), and alarms with their coalescing window (R366 to R381). -/

namespace Sys2Proof.Machine

/-! ### The cut (R320, R321) -/

/-- One bit of the CRC-32 of IEEE 802.3. -/
def crcBit (c : BitVec 32) : BitVec 32 := if c.getLsbD 0 then (c >>> 1) ^^^ 0xEDB88320#32 else c >>> 1

/-- One byte of it. -/
def crcByte (c : BitVec 32) (b : Byte) : BitVec 32 :=
  (List.range 8).foldl (fun c _ => crcBit c) (c ^^^ b.setWidth 32)

/-- CRC-32 (IEEE 802.3). -/
def crc32 (b : Bytes) : Nat := (b.foldl crcByte 0xFFFFFFFF#32 ^^^ 0xFFFFFFFF#32).toNat

def cutErase : Nat := 1
def cutPower : Nat := 2

/-- A cut frame (Table 13.8); with no reel its ReelId and its LastFrameSeq are 0. -/
def State.cutFrame (s : State) (kind sources index : Nat) : Bytes :=
  let reel := decide (s.el.state ≠ .idle)
  let body := be 4 0x544D5243 ++ be 1 kind ++ be 3 0 ++ be 8 (if reel then s.el.reelId else 0) ++ be 8 unitId
    ++ be 8 (if reel then s.el.frameSeq else 0)
    ++ be 8 s.tb.deviceTime ++ be 4 sources ++ be 4 index ++ be 8 s.lg.journalCount ++ be 4 0
  body ++ be 4 (crc32 body)

/-- The cut frame goes out eight times on every lane that has link, and the transmitters are disabled. -/
def State.sendCut (kind sources index : Nat) (s : State) : State :=
  if !s.el.transmit then s
  else
    let f := s.cutFrame kind sources index
    let s := (List.range 4).foldl (fun s l =>
      if bitOf s.el.rxLock l then (List.range 8).foldl (fun s _ => s.emit (.escrowFrame l 0x43 f)) s else s) s
    s.onEl fun e => { e with transmit := false }

/-- The reel's keys and its ephemeral secret are zeroed (R313, R320). -/
def El.unkeyed (e : El) : El :=
  { e with keyed := false, secret := 0, kFw := [], kSt := [], saltFw := [], saltSt := [], lastTag := [] }

/-- The reel ends at the cut: its keys and what it had sent are gone (DESIGN CHOICE, log entry 84). -/
def State.cutReel (s : State) : State :=
  s.onEl fun e => { e.unkeyed with
    state := .cut
    reelId := if e.state = .idle then 0 else e.reelId
    frameSeq := if e.state = .idle then 0 else e.frameSeq
    frames := []
    stalled := false
    waiver := false
    waived := false }

/-! ### Losing what Table 2.10 says is lost -/

/-- The VOL objects that other fields hold. -/
def State.loseVolFields (s : State) : State :=
  { s with
    pwr := { s.pwr with selfTest := 0, calMonitor := 0xFFFF, calRatio := 0, vaultLost := false }
    tb := { s.tb with remaining := 0, slewFrac := 0, timeFault := false, goodCompares := 0,
                      cmpTime := s.tb.deviceTime, cmpSlew := 0 }
    hg := { s.hg with fns := s.hg.fns.map fun e => (e.1, { e.2 with resets := 0, busErrors := 0 }) }
    td := { s.td with counts := [], device := {} }
    lg := { s.lg with tapWritten := 0, tapConsumed := 0, tapFailed := false, recoveryStatus := 0,
                      integrityFaults := 0, eccCorrected := 0, eccUncorrected := 0 }
    li := { s.li with curves := [], ucodeVersion := 0, ucodeRom := true, ucodeStatus := 0, ucodeLoad := none,
                      faultChecks := 0 }
    lh := { s.lh with rejectionLimits := 0, faultChecks := 0, tagFailures := 0 }
    sp := { s.sp with refusals := 0, dropped := 0 }
    el := { s.el with statusDropped := 0, result := 0, heldCount := 0,
                      reelId := if s.el.state = .cut then s.el.reelId else 0 }
    xl := { s.xl with ceremonyHolder := 0xFFFF }
    ch := { s.ch with opStatus := 0 }
    tg := { s.tg with reprovisionStatus := 0 }
    lc := { s.lc with certStatus := 0, certSerial := 0, debugStatus := 0, challenge := [], rights := 0 }
    pd := { s.pd with staging := [] } }

/-- VOL objects are lost (Table 2.10) (DEDUCED, log entry 82). -/
def State.loseVol (s : State) : State := (s.loseClass .vol none).loseVolFields

/-- WRM objects and owner epochs are lost (Table 2.10). -/
def State.loseWrm (s : State) : State :=
  let s := s.loseClass .wrm none
  { s with
    td := { s.td with gates := [] }
    lg := { s.lg with windows := [], poolUnits := [], pool := [], poolLines := [], tapAddress := 0, tapLog2 := 0 }
    li := { s.li with engines := s.li.engines.map fun e => (e.1, { e.2 with owner := 0xFF, epoch := 0 }) }
    sz := { s.sz with regions := [], epochs := [] }
    en := { s.en with instances := [] } }

/-- The KRF is cleared (R375): unwrapped keys, the journal key, and what a ceremony had there. -/
def State.clearKrf (s : State) : State :=
  s.onKrf fun k => { k with
    handles := k.handles.map fun e => (e.1, e.2.map fun (h : Handle) => { h with
      state := if h.state = .unwrapped then .wrapped else h.state
      privatePart := [] })
    running := none
    importPair := none
    pairDue := false
    journal := none }

/-- Engines, Lattice Units, Sezel cores, applets, DRBG instances and FIFOs end with all they hold (Tables 2.10, 16.5)
(DEDUCED, log entry 83). -/
def State.wipeCompute (s : State) : State :=
  { s with
    li := { s.li with engines := s.li.engines.map fun e => (e.1, { e.2 with running := none, buffer := [] }) }
    lh := { s.lh with toVerify := [], units := s.lh.units.map fun e =>
      (e.1, { e.2 with running := none, sealBuf := [], directBuf := [] }) }
    sz := { s.sz with
      cores := []
      slots := []
      loads := []
      draw := none
      outstanding := []
      regions := s.sz.regions.map fun e => (e.1, { e.2 with mem := [] }) }
    en := { s.en with
      reserve := []
      vaultBlock := none
      firstSeed := false
      drawWait := none
      fifos := []
      sources := s.en.sources.map fun e => (e.1, { e.2 with candidate := none })
      instances := s.en.instances.map fun e => (e.1, { epoch := e.2.epoch }) } }

/-- Every Crossing Link port goes DOWN, and what waited on the links is gone. -/
def State.portsDown (s : State) : State :=
  s.onXl fun x => { x with
    ports := x.ports.map fun e => (e.1, { cfg := e.2.cfg })
    requests := []
    answered := []
    forwarded := []
    offer := none
    claim := none
    takeover := []
    lost := []
    memberSeen := [] }

/-- Retired is entered (R410): the Escrow Line's transmitters are off, the Crossing Links are DOWN, and the KRF holds no
journal key (R447) (DEDUCED, log entry 102). -/
def State.enterRetired (s : State) : State :=
  ((s.portsDown.onEl fun e => { e with transmit := false }).onKrf fun k => { k with journal := none }).onPwr fun p => { p with
    mode := .retired
    entering := none
    ceremonyFrom := none
    drain := none }

/-- A GX8 whose transition to Scrapped has completed goes to Retired from Standby or Quarantine (Table 2.2, R397), from another
mode when it next comes to one of the two (DESIGN CHOICE, log entry 102). -/
def State.retireIfScrapped (s : State) : State :=
  if s.lc.state = 5 && (s.pwr.mode = .standby || s.pwr.mode = .quarantine) then s.enterRetired else s

/-- The card bus stops and its power goes low (R350, R362). -/
def State.cardOff (s : State) : State :=
  s.onCh fun c => { c with
    present := false
    facts := none
    initStep := 0
    mode := 0
    v18 := false
    tap := 0
    powered := false
    label := []
    op := none
    retune := none }

/-! ### Ceremony (Table 2.2) -/

/-- A Ceremony ends: in Quarantine where it began there and the ERASED flag is still set, otherwise in Standby, where a staged
life-cycle transition burns (R396); after a re-provisioning with cause LEDGER_ROOT (R391). The import pair goes with the
Ceremony, and a unit that still makes it stops (R442). -/
def State.endCeremony (s : State) : State :=
  if s.pwr.mode ≠ .ceremony then s
  else
    let back := s.pwr.ceremonyFrom = some .quarantine && s.tg.erased
    let done := s.tg.reprovisioned
    let s := s.onPwr fun p => { p with mode := if back then .quarantine else .standby, ceremonyFrom := none }
    let s := (s.releaseUnits (· = .anchor .importPair)).onKrf fun k => { k with importPair := none, pairDue := false }
    let s := s.onXl fun x => { x with ceremonyHolder := 0xFFFF }
    let s := s.onLc fun l => { l with
      burning := if !back && l.staged.isSome then l.staged else l.burning
      staged := none }
    let s := if back || !done then s else s.onTg fun t => { t with reprovisioned := false }
    let s := if done && !back then s.raiseCause .ledgerRoot else s
    let s := if s.fleetEnable then
      (s.members.filter s.reachable).foldl (fun s m => State.sendMember m 3 0x05 [] s) s
    else s
    s.retireIfScrapped

/-- The Yilile session closes with its keys, SESSION_CHG is set; the Ceremony it held open ends (R284). A request of it that
executes still is answered to nobody, one that waits its turn goes (DESIGN CHOICE, log entry 33). -/
def State.dropSession (s : State) : State :=
  let was := match s.sp.session with
    | some x => x.opened
    | none => false
  let s := s.onSp fun p => { p with session := none, closing := false }
  let s := if was then s.latch .spLink 1 else s
  let s := s.onPd fun p => { p with
    staging := p.staging.filter fun x => x.viewer ≠ .regulator
    deferred := p.deferred.map fun r => if r.sink = .session then { r with sink := .dropped } else r
    waiting := p.waiting.filter fun r => r.sink ≠ .session }
  if was then s.endCeremony else s

/-! ### Drain (R46) -/

/-- Entry to Drain: descriptor fetch goes on only to complete what is queued (R46 step 1), every open manifest closes
(step 2), and a draw ends with reason DRAIN (Table 10.12). DrainLimit applies (R33). -/
def State.enterDrain (ending : Option ResetKind) (silent : Bool) (s : State) : State :=
  let s := (s.applyNum 0x1100 9 0).onLc fun l => { l with challenge := [] }
  let s := if s.pwr.mode = .ceremony then s.endCeremony else s
  let s := s.onPwr fun p => { p with
    mode := .drain
    entering := none
    drain := some { ending := ending, silent := silent, start := s.clock, handedOver := false } }
  let s := (s.oweQueues stNotReady).drawEnd (some 4) (some stNotReady)
  let s := match s.en.drawWait with
    | some c => (s.onEn fun e => { e with drawWait := none }).serviceEnd c stNotReady
    | none => s
  ((s.td.manifests.filter fun m => m.phase = .opened).foldl (fun s m => s.closeManifest m.id 5) s).noteFull

/-! ### Quarantine (R49, R377, Table 2.10) -/

/-- Every take ends with QUARANTINE: one not reserved NOT_RESERVED, a reserved one UNLANDED with its serial (R81); then
what is queued is fetched and completes (R49). A queue without a free CQ entry owes its completions. -/
def State.quarantineTakes (s : State) : State :=
  let s := s.td.fetched.foldl (fun s t => s.completeTake t stQuarantine 0) s
  let s := s.td.inflight.foldl (fun s t => s.completeTake t stQuarantine 3) s
  let s := s.onTd fun d => { d with fetched := [], inflight := [], manifests := [] }
  (if s.fetches then s.emptyQueues stQuarantine (512 * 65536) else s).oweQueues stQuarantine

/-- The ledger's root, its cache and the Memory Guard's keys are zero: the ledger and the reel buffer are unreadable, and
the anchor is INVALID (R122, R376). -/
def State.zeroLedger (s : State) : State :=
  s.onLg fun g => { g with
    slots := []
    suspended := []
    rootCtr := []
    tree := []
    pinnedCtr := 0
    resident := []
    nodes := []
    dirty := []
    dirtyNodes := []
    failed := []
    writesStopped := false
    valid := false
    sweep := none
    checkpointDue := false
    recovering := none
    waitSince := none
    reel := []
    reelWritten := 0
    keys := []
    anchor := { g.anchor with state := .invalid } }

/-- The erase (R375 to R377, Table 16.5): keys, then everything else on the dies that is secret. -/
def State.eraseSecrets (s : State) : State :=
  let s := s.clearKrf
  let s := s.onTg fun t => { t with rootKey := none, erased := true, reprovisioning := false,
                                    reprovisioned := false, gangwaysKeyed := [], gangwaysStopped := [],
                                    shieldPattern := t.shieldPattern + 1 }
  let s := s.rekeyShield.drawEnd none none
  let s := s.onLi fun l => { l with engines := l.engines.map fun e =>
    if e.2.running.isSome then (e.1, { e.2 with status := stQuarantine.toNat, detail := 0 }) else e }
  let s := s.wipeCompute
  let s := s.dropSession
  (s.zeroLedger.portsDown.onXl fun x => { x with leases := [], grantLimit := [], acked := [] }).cardOff

/-- Quarantine is entered (R49): takes complete, the reel is cut, and what Table 2.10 loses is lost. Retired stays
Retired (R410). -/
def State.enterQuarantine (s : State) : State :=
  let s := s.quarantineTakes
  let s := (s.eraseSecrets.cutReel.loseVol).loseWrm
  let s := s.onLc fun l => { l with maint := false, rights := 0, staged := none }
  if s.pwr.mode = .retired then s
  else
    let s := if s.silentDrain then s.onHg fun h => { h with queues := [] } else s
    let s := s.onPwr fun p => { p with
      mode := .quarantine
      wakeStep := max p.wakeStep 7
      entering := none
      ceremonyFrom := none
      drain := none
      s0 := some s.clock }
    ((s.onEn fun e => { e with stopped := false }).addCause .eraseAlarm).retireIfScrapped

/-! ### Monitors and sources (R366, R367, R371, R373) -/

/-- The source of a monitor number (Tables 16.1 and 16.4). -/
def sourceOf (monitor : Nat) : Option Nat :=
  match monitor / 4096 with
  | 1 => some 8
  | 2 => some 7
  | 3 => some 9
  | 4 => some 6
  | 5 => some 5
  | 6 => some 10
  | 7 => some 11
  | 8 => some 2
  | 9 => some 0
  | 10 => some 1
  | 11 => some 3
  | 12 => some 4
  | 13 => some 12
  | 14 => some 13
  | _ => none

/-- The nominal voltage of a rail in mV, and its thresholds: 7 % of nominal, rounded toward it to a whole mV, and 8 % for a
glitch (R368, Table 16.2). -/
def railNominal (rail : Nat) : Nat := [750, 700, 700, 700, 700, 700, 700, 800, 900, 1200, 1100, 1800, 3300, 1800].getD rail 0
def railUnder (rail : Nat) : Nat := (railNominal rail * 93 + 99) / 100
def railOver (rail : Nat) : Nat := railNominal rail * 107 / 100
def railGlitch (rail : Nat) : Nat := railNominal rail * 8 / 100

/-- The monitor's reading is an alarm (Tables 16.2 and 16.3), under main power or on battery. -/
def trips (battery : Bool) (m : MonitorReading) : Bool :=
  let i := m.monitor % 4096
  match m.monitor / 4096, m.reading with
  | 1, .rail mV ns => decide (mV < railUnder i ∧ 50 ≤ ns)
  | 2, .rail mV ns => decide (railOver i < mV ∧ 50 ≤ ns)
  | 3, .glitch mV ns => decide (railGlitch i < mV ∧ 1 ≤ ns)
  | 4, .clock ppm shortest | 5, .clock ppm shortest => decide (50000 < ppm ∨ shortest < 60)
  | 6, .temperature t => decide (t < -25 ∨ (if battery then 95 else 115) < t)
  | 7, .rate change ms => decide (10 < change ∧ ms ≤ if battery then 1000 else 100)
  | 8, .light pA ns => decide (40 < pA ∧ 50 ≤ ns)
  | 9, .net differs | 10, .net differs => differs
  | 11, .check | 12, .check => true
  | 13, .vbat mV fall => decide (300 < fall ∨ 3900 < mV)
  | 14, .crystal us => decide (100 ≤ us)
  | _, _ => false

/-- The monitor's reading is a warning (Table 16.3). -/
def warns (m : MonitorReading) : Bool :=
  let n := railNominal (m.monitor % 4096)
  match m.monitor / 4096, m.reading with
  | 1, .rail mV ns => decide (100 * mV < 96 * n ∧ 1000000 ≤ ns)
  | 2, .rail mV ns => decide (104 * n < 100 * mV ∧ 1000000 ≤ ns)
  | 4, .clock ppm _ | 5, .clock ppm _ => decide (20000 < ppm)
  | 6, .temperature t => decide (t < -15 ∨ 110 < t)
  | 7, .rate change ms => decide (5 < change ∧ ms ≤ 100)
  | 13, .vbat mV _ => decide (mV < 2600)
  | _, _ => false

/-- Rail, clock and temperature monitors have a trim, which Wake step 4 loads (R372). -/
def trimmed (m : Nat) : Bool := decide (1 ≤ m / 4096 ∧ m / 4096 ≤ 7)

/-- The monitor's output is an alarm; one that waits for its trim has no threshold the manual states
(DEDUCED, log entry 146). -/
def State.outputs (s : State) (m : MonitorReading) : Bool :=
  trips (s.pwr.mode = .vault) m || (trimmed m.monitor && s.pwr.mode = .wake && decide (s.pwr.wakeStep < 4))

/-- The group of a source (Table 16.1). -/
def groupOf (source : Nat) : Nat :=
  match source with
  | 0 | 1 => 0
  | 2 => 1
  | 3 => 2
  | 4 => 3
  | 5 | 6 => 4
  | 7 | 8 | 9 => 5
  | 10 | 11 => 6
  | _ => 7

/-- The instance of a monitor number names a monitor of Table 16.4. -/
def monitorExists (m : Nat) : Bool :=
  let i := m % 4096
  match m / 4096 with
  | 1 | 2 | 3 => decide (i < 14)
  | 4 => decide (i < 288)
  | 5 => decide (i < 4)
  | 6 | 7 => decide (i < 8)
  | 8 => decide (i < 1024)
  | 9 => decide (i < 64)
  | 10 => decide (i < 2048)
  | 11 => decide (i < 13)
  | 12 => decide (i < 16) || decide (0x100 ≤ i ∧ i < 0x104) || decide (0x200 ≤ i ∧ i < 0x204)
  | 13 | 14 => i = 0
  | _ => false

/-- The group of a source is fused off and its monitors are unpowered (R383). -/
def State.fusedOff (s : State) (source : Nat) : Bool := bitOf s.tg.groupsFused (groupOf source)

/-- The source is in class ERASE (R367); on battery every source is (R382). -/
def State.isErase (s : State) (source : Nat) : Bool :=
  s.pwr.mode = .vault || source < 5 || source = 12 || source = 13 || bitOf s.tg.eraseFused source

/-- Monitors the Vault keeps armed on battery (R382). -/
def vaultMonitor (m : Nat) : Bool :=
  match m / 4096 with
  | 6 | 7 => m % 4096 = 7
  | 8 => decide (960 ≤ m % 4096)
  | 9 | 10 | 13 | 14 => true
  | _ => false

/-- The SD rails are watched only while the card host signals at their voltage (R368). -/
def State.railWatched (s : State) (rail : Nat) : Bool :=
  if rail = 12 then s.ch.powered && !s.ch.v18 else if rail = 13 then s.ch.powered && s.ch.v18 else true

/-- Under main power: armed at its point of R371, and not disarmed by a stow. -/
def State.mainArmed (s : State) (m : Nat) : Bool :=
  if s.pwr.stowed then vaultMonitor m || m / 4096 = 8
  else vaultMonitor m || (match m / 4096 with
    | 1 | 2 | 3 => s.railWatched (m % 4096)
    | 4 | 5 => s.tg.armed.contains m
    | 6 | 7 => true
    | 8 => decide (3 ≤ s.pwr.wakeStep)
    | 11 => s.tg.gangwaysKeyed.contains (m % 4096)
    | 12 => decide (4 ≤ s.pwr.wakeStep)
    | _ => false)

/-- The monitor raises alarms and warnings now. -/
def State.monitorArmed (s : State) (m : Nat) : Bool :=
  monitorExists m && (match sourceOf m with
    | some k => !s.fusedOff k
    | none => false)
  && (match s.pwr.mode with
    | .dark => false
    | .vault => vaultMonitor m
    | _ => s.mainArmed m)

/-! ### Windows and records (R374, R377, R379, R381) -/

/-- Data of an ALARM or WARNING record (Table 16.7). -/
def alarmData (sources first count : Nat) : Bytes := be 4 sources ++ be 2 first ++ be 2 (min count 65535)

/-- A later alarm output while the ERASED flag is set (R381). -/
def State.postErase (source : Nat) (s : State) : State :=
  s.onTg fun t => { t with
    postSources := t.postSources ||| 2 ^ source
    postCount := min (t.postCount + 1) 0xFFFFFFFF }

/-- The sources of a bitmap. -/
def sourcesIn (b : Nat) : List Nat := (List.range 14).filter fun k => bitOf b k

/-- A source is due: it has written no record in the last 60 s (R374). -/
def rateDue (last : List (Nat × Option Nat)) (k now : Nat) : Bool :=
  match mapGet none last k with
  | some t => decide (t + 60000000000 ≤ now)
  | none => true

/-- The ALARM record of a HOLD window, at most one for each source in 60 s (R374). -/
def State.holdRecord (w : AlarmWindow) (s : State) : State :=
  let ks := sourcesIn w.sources
  if ks.any fun k => rateDue s.tg.holdLast k s.clock then
    let n := w.count + (ks.map fun k => mapGet 0 s.tg.holdBack k).sum
    let s := s.evidence 1 2 w.time (alarmData w.sources w.first n) false
    s.onTg fun t => { t with
      holdBack := ks.foldl (fun m k => mapSet 0 m k 0) t.holdBack
      holdLast := ks.foldl (fun m k => mapSet none m k (some s.clock)) t.holdLast }
  else s.onTg fun t => { t with
    holdBack := w.perSource.foldl (fun m e => mapSet 0 m e.1 (mapGet 0 m e.1 + e.2)) t.holdBack }

/-- The coalescing window closes: one ALARM record (R379), and for an erase the cut frames with its bitmap (R377)
(DEDUCED, log entry 85). -/
def State.closeAlarmWindow (s : State) : State :=
  match s.tg.window with
  | none => s
  | some w =>
    let s := s.onTg fun t => { t with window := none }
    if w.erase then
      let index := s.tg.nextSeq % 16384
      let s := s.evidence 1 1 w.time (alarmData w.sources w.first w.count) true
      let s := if s.pwr.mode = .retired then s else s.sendCut cutErase w.sources index
      s.afterEvidence
    else (s.holdRecord w).afterEvidence

/-- An alarm output joins the open window, or opens one (R379). -/
def State.joinWindow (monitor source : Nat) (erase : Bool) (s : State) : State :=
  match s.tg.window with
  | some w => s.onTg fun t => { t with window := some { w with
      sources := w.sources ||| 2 ^ source
      count := w.count + 1
      perSource := mapSet 0 w.perSource source (mapGet 0 w.perSource source + 1)
      erase := w.erase || erase } }
  | none => s.onTg fun t => { t with window := some {
      sources := 2 ^ source
      first := monitor
      count := 1
      perSource := [(source, 1)]
      erase := erase
      time := s.stamp
      start := s.clock } }

/-- The window that is open, if 1 µs has not passed since its first output; one that is over closes. -/
def State.expireWindow (s : State) : State :=
  match s.tg.window with
  | some w => if w.start + 1000 ≤ s.clock then s.closeAlarmWindow else s
  | none => s

/-- A monitor of the source is outside its warning threshold now. -/
def State.leftRange (source : Nat) (s : State) : State :=
  s.onTg fun t => { t with outside := mapSet 0 t.outside source s.clock }

/-- A HOLD-class alarm's action (R374) (DEDUCED, log entry 90). -/
def State.holdAction (source : Nat) (s : State) : State :=
  let s := s.onTg fun t => { t with
    holdActive := if t.holdActive.contains source then t.holdActive else source :: t.holdActive }
  match s.pwr.mode with
  | .ceremony => s.endCeremony.raiseCause .holdAlarm
  | .drain => s.raiseCause .holdInDrain
  | .quarantine | .retired => s
  | _ => s.raiseCause .holdAlarm

/-- An alarm output of an armed monitor (R374, R375, R379 to R381). -/
def State.alarm (monitor : Nat) (s : State) : State :=
  match sourceOf monitor with
  | none => s
  | some k =>
    let s := s.expireWindow
    let erase := s.isErase k
    let s := (s.leftRange k).latch .tgAlarm (2 ^ k)
    let s := s.latch .alarmsSeen (2 ^ k)
    let s := if s.tg.window = none && s.tg.erased then s.postErase k else s.joinWindow monitor k erase
    if erase then s.enterQuarantine else s.holdAction k

/-- An alarm of a monitor, where it is armed. -/
def State.alarmIfArmed (monitor : Nat) (s : State) : State := if s.monitorArmed monitor then s.alarm monitor else s

/-- Alarms on battery (R382): all found together share one window, and each acts as ERASE
(DEDUCED, log entry 115). -/
def State.batteryAlarm (monitors : List Nat) (s : State) : State :=
  match monitors.filter fun m => s.monitorArmed m with
  | [] => s
  | m :: ms =>
    let ks := (m :: ms).filterMap sourceOf
    if s.tg.erased then ks.foldl (fun s k => State.postErase k s) s
    else
      let s := s.onTg fun t => { t with rootKey := none, erased := true }
      let bits := ks.foldl (fun b k => b ||| 2 ^ k) 0
      s.evidence 1 1 s.stamp (alarmData bits m ks.length) true

/-- A compare or parity mismatch of a security block (R75, R114, R299, R384): an ERASE alarm, or with the group fused
off only INTEGRITY_STOP; the answer says which. -/
def State.securityMismatch (monitor : Nat) (s : State) : State × Bool :=
  if s.fusedOff 4 then (s.raiseCause .integrityStop, false) else (s.alarmIfArmed (0xC000 + monitor), true)

end Sys2Proof.Machine
end

