-- ==== Sys2Proof/Machine/Card.lean ====
section
/-! DEFINITION. The Custodian Card Host (R349 to R365): initialisation, tuning, the card layout, and the operations of the
Regulator with what a removal makes of them. -/

namespace Sys2Proof.Machine

def Ch.enabled (c : Ch) : Bool := c.cfg.getLsbD 31
def Ch.maxMode (c : Ch) : Nat := bitsOf c.cfg.toNat 6 4

/-- A command goes to the card. -/
def State.cardCommand (command arg : Nat) (data : Bytes) (s : State) : State := s.emit (.card command arg data)

def State.cardCommands (cs : List (Nat × Nat)) (s : State) : State :=
  cs.foldl (fun s c => State.cardCommand c.1 c.2 [] s) s

/-! ### The layout (R354 to R356) -/

def labelMagic : Nat := 0x4758384355535444
def recordMagic : Nat := 0x4758385348415245

/-- Every byte from an offset on for `n` bytes is zero. -/
def zerosAt (b : Bytes) (off n : Nat) : Bool := slice b off n = List.replicate n 0

/-- The label is valid (R356). -/
def labelOk (b : Bytes) : Bool :=
  b.length = 512 && beAt b 0 8 = labelMagic && beAt b 8 2 = 1 && beAt b 10 2 = 64 && zerosAt b 12 4 && zerosAt b 40 440
    && slice b 480 32 = Config.sha256 (b.take 480)

def State.cardLabelOk (s : State) : Bool := s.ch.present && labelOk s.ch.label

/-- The mode that the card runs in, once it is initialised (Table 15.2 step 9). -/
def State.cardMode (s : State) : Nat := if s.ch.present then s.ch.mode else 0

/-- CardId of a valid label. -/
def State.cardId (s : State) : Nat := if s.cardLabelOk then beAt s.ch.label 16 8 else 0

/-- A new label (Table 15.4); CardId is never zero: where the DRBG gives zeros, it is 1 (DESIGN CHOICE, log entry 145). -/
def State.newLabel (s : State) (id : Bytes) : Bytes :=
  let b := be 8 labelMagic ++ be 2 1 ++ be 2 64 ++ be 4 0 ++ (if ofBe id = 0 then be 8 1 else id) ++ be 8 s.tb.deviceTime
    ++ be 8 unitId ++ List.replicate 440 0
  b ++ Config.sha256 b

/-- First block of copy A (0) or B (1) of a record (Table 15.3). -/
def copyLba (r copy : Nat) : Nat := 64 + 18 * r + 9 * copy

/-- A record copy is valid (R355). -/
def copyOk (r cardId : Nat) (b : Bytes) : Bool :=
  let n := beAt b 12 4
  b.length = 4608 && beAt b 0 8 = recordMagic && beAt b 8 2 = 1 && beAt b 10 2 = r && beAt b 24 8 = cardId
    && decide (n ≤ 4096) && zerosAt b 59 5 && zerosAt b (64 + n) (4096 - n) && zerosAt b 4160 416
    && slice b 4576 32 = Config.sha256 (b.take 4576)

def copyVersion (b : Bytes) : Nat := beAt b 16 8

def State.recShareSet (s : State) : Nat := s.num 0x8010 9 0 0
def State.recShare (s : State) : Nat := s.num 0x8010 0xA 0 0
def State.cardPayload (s : State) : Bytes := s.octets 0x8010 8 0

/-- The CardRec objects are consistent with Table 15.5. -/
def State.shareOk (s : State) : Bool :=
  let k := s.recShare
  let index := k / 65536 % 256
  let threshold := k / 256 % 256
  let count := k % 256
  if s.recShareSet = 0 then k = 0
  else decide (k < 2 ^ 24 ∧ 1 ≤ count ∧ 1 ≤ index ∧ index ≤ count ∧ 1 ≤ threshold ∧ threshold ≤ count)

/-- A record copy of the payload staged (Table 15.5). -/
def State.copyImage (s : State) (r version : Nat) : Bytes :=
  let b := be 8 recordMagic ++ be 2 1 ++ be 2 r ++ be 4 s.cardPayload.length ++ be 8 version ++ be 8 s.cardId
    ++ be 8 s.tb.deviceTime ++ be 8 unitId ++ be 8 s.recShareSet ++ be 3 s.recShare ++ be 5 0
    ++ padTo 4096 s.cardPayload ++ List.replicate 416 0
  b ++ Config.sha256 b

/-! ### The end of an operation (R357 to R361) -/

/-- An operation ends: OP_DONE and CardOpStatus. -/
def State.endCardOp (code : Status) (s : State) : State :=
  (s.onCh fun c => { c with op := none, opStatus := code.toNat }).latch .chStat 4

/-- An operation ends because the card is gone (Table 15.6). -/
def State.cardOpRemoved (s : State) : State :=
  match s.ch.op with
  | none => s
  | some o =>
    let unknown := match o.kind with
      | .read => false
      | .write => decide (4 ≤ o.step)
      | .format => decide (1 ≤ o.step)
    if unknown then (s.endCardOp stWriteIndeterminate).latch .chStat 8 else s.endCardOp stCardRemoved

/-- The bus has failed otherwise: INTERNAL_FAULT from the read-back on, CARD_REMOVED before it (R359). -/
def State.cardOpFailed (o : CardOp) (s : State) : State :=
  let last := match o.kind with
    | .read => 2
    | .write => 7
    | .format => 3
  s.endCardOp (if last ≤ o.step then stInternalFault else stCardRemoved)

/-- A removal (R350): the bus stops, the operation ends by its phase, and the card loses its power. -/
def State.cardRemoved (s : State) : State :=
  if s.ch.facts = none then s else (s.cardOpRemoved.latch .chStat 2).cardOff

/-- CARD_REMOVAL. -/
def execCardRemoval (s : State) : Host.Outcome State Fault Refusal := .next s.cardRemoved

/-- CARD_TIMEOUT (R350): no response, or busy for too long, is handled as a removal. -/
def execCardTimeout (s : State) : Host.Outcome State Fault Refusal :=
  .next (if s.ch.initStep ≠ 0 || s.ch.op.isSome then s.cardRemoved else s)

/-! ### Initialisation (R352, R353) -/

/-- CMD19 at each of the 64 sample taps (R353). -/
def tuningCommands : List (Nat × Nat) := List.replicate 64 (19, 0)

/-- The commands of a step of Table 15.2. -/
def initCommands (step mode : Nat) : List (Nat × Nat) :=
  match step with
  | 2 => [(0, 0), (8, 0x1AA)]
  | 3 => [(55, 0), (41, 0x41000000)]
  | 4 => [(11, 0)]
  | 5 => [(0, 0), (8, 0x1AA), (55, 0), (41, 0x40000000)]
  | 6 => [(2, 0), (3, 0), (9, 0), (7, 0), (55, 0), (6, 2), (55, 0), (51, 0)]
  | 7 => [(6, mode)]
  | 8 => tuningCommands
  | 9 => [(17, 0)]
  | _ => []

/-- A step of Table 15.2 begins. -/
def State.cardStep (n : Nat) (s : State) : State :=
  (s.onCh fun c => { c with initStep := n }).cardCommands (initCommands n s.ch.mode)

/-- Initialisation fails: CARD_INIT_FAILED, and the card's power goes low (DEDUCED, log entry 104). -/
def State.cardInitFailed (s : State) : State :=
  (s.onCh fun c => { c with initStep := 0, mode := 0, v18 := false, tap := 0, powered := false
                            opStatus := stCardInitFailed.toNat }).latch .chStat 0x10

/-- The highest mode that the card and MAX_MODE support at the voltage in use (Table 15.1). -/
def bestMode (modes : List Nat) (max : Nat) (v18 : Bool) : Nat :=
  (modes.filter fun m => decide (1 ≤ m ∧ m ≤ max) && (if v18 then decide (3 ≤ m) else decide (m ≤ 2))).foldl Nat.max 0

/-- SDR50 and SDR104 are tuned. -/
def tunedMode (m : Nat) : Bool := m = 5 || m = 7

/-- The longest run of taps that pass, its first tap and its length; of equal ones the first (DESIGN CHOICE, log entry 147). -/
def longestRun (taps : Nat) : Nat × Nat :=
  ((List.range 64).foldl (fun (a : (Nat × Nat) × (Nat × Nat)) i =>
    let run := if taps.testBit i then (if a.2.2 = 0 then i else a.2.1, a.2.2 + 1) else (0, 0)
    (if a.1.2 < run.2 then run else a.1, run)) ((0, 0), (0, 0))).1

/-- The middle tap of the longest run, the lower one of two (R353) (DESIGN CHOICE, log entry 147). -/
def middleTap (taps : Nat) : Nat := (longestRun taps).1 + ((longestRun taps).2 - 1) / 2

/-- The 64 taps from the two words of a row. -/
def tapsOf (low high : Nat) : Nat := low % 2 ^ 32 + high % 2 ^ 32 * 2 ^ 32

/-- CMD19 has run at each of the 64 taps: the middle tap of a longest run of at least 8, or the next lower mode by CMD6
(R353). -/
def State.tune (taps : Nat) (s : State) : State :=
  if 8 ≤ (longestRun taps).2 then s.onCh fun c => { c with tap := middleTap taps, lastTune := s.clock, tuneTemp := c.temp, retune := none }
  else (s.onCh fun c => { c with
    mode := if c.mode = 7 then 5 else 6
    lastTune := if c.mode = 7 then 0 else s.clock
    tuneTemp := c.temp
    retune := none }).latch .chStat 0x40 |>.cardCommand 6 (if s.ch.mode = 7 then 5 else 6) []

/-- A step of Table 15.2 has ended well. -/
def State.cardInitNext (f : CardFacts) (s : State) : State :=
  match s.ch.initStep with
  | 1 => s.cardStep 2
  | 2 => if f.cmd8Ok then s.cardStep 3 else s.cardInitFailed
  | 3 =>
    if !(f.ready && f.ccs) then s.cardInitFailed
    else if f.s18a && decide (3 ≤ s.ch.maxMode) then s.cardStep 4
    else s.cardStep 6
  | 4 => if f.cmd11Ok then (s.onCh fun c => { c with v18 := true }).cardStep 6 else s.cardStep 5
  | 5 => s.cardStep 6
  | 6 =>
    let m := bestMode f.modes s.ch.maxMode s.ch.v18
    if !f.supported || m = 0 then s.cardInitFailed else (s.onCh fun c => { c with mode := m }).cardStep 7
  | 7 => if tunedMode s.ch.mode then s.cardStep 8 else s.cardStep 9
  | 8 =>
    let s := s.tune f.taps
    if s.ch.mode = 5 && decide ((longestRun f.taps).2 < 8) then s.cardStep 8 else s.cardStep 9
  | 9 => s.onCh fun c => { c with initStep := 0, present := true, label := slice f.label 0 512 }
  | _ => s

/-- CARD_INSERTION (R350, R352): ignored while the slot is not in use, and while EXTEST (0) or
CLAMP (3) holds the pins (R408). -/
def execCardInsertion (facts : CardFacts) (s : State) : Host.Outcome State Fault Refusal :=
  .next (if !s.powered || !s.ch.enabled || s.pwr.mode = .quarantine || s.pwr.mode = .retired || s.ch.facts.isSome
      || s.lc.tapInstr = 0 || s.lc.tapInstr = 3 then s
  else
    let s := s.onCh fun c => { c with
      facts := some facts
      initStep := 1
      present := false
      mode := 0
      v18 := false
      tap := 0
      powered := true
      label := [] }
    s.latch .chStat 1)

/-! ### Operations (R357 to R360) -/

/-- The record copy to write: the invalid one, else the lower Version (R359) (DEDUCED, log entry 103). -/
def targetCopy (r id : Nat) (a b : Bytes) : Nat :=
  if !copyOk r id a then 0 else if !copyOk r id b then 1 else if copyVersion a < copyVersion b then 0 else 1

/-- The highest Version of the valid copies; 0 for none. -/
def highVersion (r id : Nat) (a b : Bytes) : Nat :=
  max (if copyOk r id a then copyVersion a else 0) (if copyOk r id b then copyVersion b else 0)

/-- A record has been read (R358). -/
def State.loadRecord (r : Nat) (a b : Bytes) (s : State) : State :=
  let id := s.cardId
  let pick := if copyOk r id a && !(copyOk r id b && decide (copyVersion a < copyVersion b)) then some a
    else if copyOk r id b then some b else none
  match pick with
  | none => s.endCardOp stCardRecordInvalid
  | some c =>
    let s := s.setOctets 0x8010 8 0 (slice c 64 (beAt c 12 4))
    let s := (s.setNum 0x8010 9 0 (beAt c 48 8)).setNum 0x8010 0xA 0 (beAt c 56 3)
    (s.setNum 0x8010 6 0 (copyVersion c)).endCardOp stOk

/-- Put an operation at its next command. -/
def State.cardOpStep (o : CardOp) (s : State) : State := s.onCh fun c => { c with op := some o }

/-- The next command of a read. -/
def State.readNext (o : CardOp) (b : Bytes) (s : State) : State :=
  if o.step = 0 then
    (s.cardOpStep { o with step := 1, copyA := b }).cardCommand 18 (copyLba o.slot 1) []
  else s.loadRecord o.slot o.copyA b

/-- The next command of a write (R359). -/
def State.writeNext (o : CardOp) (b : Bytes) (s : State) : State :=
  let id := s.cardId
  match o.step with
  | 0 => (s.cardOpStep { o with step := 1, copyA := b }).cardCommand 18 (copyLba o.slot 1) []
  | 1 =>
    let v := highVersion o.slot id o.copyA b + 1
    let o := { o with step := 2, target := targetCopy o.slot id o.copyA b, version := v, image := s.copyImage o.slot v }
    ((s.setNum 0x8010 7 0 v).cardOpStep o).cardCommand 23 9 []
  | 2 => (s.cardOpStep { o with step := 3 }).cardCommand 25 (copyLba o.slot o.target) []
  | 3 => (s.cardOpStep { o with step := 4 }).cardCommand 25 (copyLba o.slot o.target) o.image
  | 4 => s.cardOpStep { o with step := 5 }
  | 5 => (s.cardOpStep { o with step := 6 }).cardCommand 13 0 []
  | 6 => (s.cardOpStep { o with step := 7 }).cardCommand 18 (copyLba o.slot o.target) []
  | _ => if b = o.image then (s.setNum 0x8010 6 0 o.version).endCardOp stOk else s.endCardOp stInternalFault

/-- The next command of a format (R360). -/
def State.formatNext (o : CardOp) (b : Bytes) (s : State) : State :=
  match o.step with
  | 0 => (s.cardOpStep { o with step := 1 }).cardCommand 24 0 o.image
  | 1 => s.cardOpStep { o with step := 2 }
  | 2 => (s.cardOpStep { o with step := 3 }).cardCommand 17 0 []
  | _ =>
    if b = o.image then (s.onCh fun c => { c with label := o.image }).endCardOp stOk else s.endCardOp stInternalFault

/-- Tuning that fell due during a command runs before the next (R353). -/
def State.tuneIfDue (s : State) : State :=
  match s.ch.retune with
  | some taps => ((s.cardCommands tuningCommands).tune taps).latch .chStat 0x20
  | none => s

/-- CARD_COMMAND_COMPLETE (R352, R358 to R360): what was in progress goes on. A CMD11 that fails falls back (step 5). -/
def execCardCommandComplete (reply : CardReply) (s : State) : Host.Outcome State Fault Refusal :=
  .next (match s.ch.facts with
    | none => s
    | some f =>
      if s.ch.initStep ≠ 0 then
        if reply ≠ .error then s.cardInitNext f
        else if s.ch.initStep = 4 then s.cardStep 5
        else s.cardInitFailed
      else match s.ch.op with
        | none => s
        | some o =>
          let s := s.tuneIfDue
          match reply with
          | .error => s.cardOpFailed o
          | .ok =>
            match o.kind with
            | .read => s.readNext o []
            | .write => s.writeNext o []
            | .format => s.formatNext o []
          | .data b =>
            match o.kind with
            | .read => s.readNext o b
            | .write => s.writeNext o b
            | .format => s.formatNext o b)

/-- Tuning is due: now, or after the command in progress (R353). -/
def State.retuneNow (taps : Nat) (s : State) : State :=
  if s.ch.op.isSome then s.onCh fun c => { c with retune := some taps }
  else ((s.cardCommands tuningCommands).tune taps).latch .chStat 0x20

/-- A card runs in a mode that is tuned. -/
def State.tunes (s : State) : Bool := s.ch.present && tunedMode s.ch.mode

/-- CARD_RETUNE_TIMER (R353), with the taps that pass. -/
def execCardRetuneTimer (low high : Nat) (s : State) : Host.Outcome State Fault Refusal :=
  .next (if s.tunes && decide (s.ch.lastTune + 4000000000 ≤ s.clock) then s.retuneNow (tapsOf low high) else s)

/-- CARD_TEMP_POLL (R353), in degrees Celsius, with the taps that pass where it makes the host tune. -/
def execCardTempPoll (temperature : Int) (low high : Nat) (s : State) : Host.Outcome State Fault Refusal :=
  .next (if !s.powered then s
  else
    let s := s.onCh fun c => { c with temp := temperature }
    if s.tunes && decide (15 ≤ (temperature - s.ch.tuneTemp).natAbs) then s.retuneNow (tapsOf low high) else s)

/-- SD_WP after polarity; without a card it reads as the card left it: not protected. -/
def State.cardProtected (s : State) : Bool :=
  match s.ch.facts with
  | some f => f.wp != s.ch.cfg.getLsbD 1
  | none => false

/-- What a trigger write meets before an operation starts (R357). -/
def State.cardBlocked (s : State) (needsLabel : Bool) : Option Status :=
  if s.ch.op.isSome then some stSlotBusy
  else if !s.ch.present then some stCardRemoved
  else if needsLabel && !s.cardLabelOk then some stCardRecordInvalid
  else none

def State.recordSelect (s : State) : Nat := s.num 0x8010 1 0 0

/-- A write of CardRead (R358): only 0x0000_CA4D acts. -/
def cardRead (value : Nat) : Act := fun s =>
  if value ≠ 0xCA4D then (s, stModeRefused)
  else match s.cardBlocked true with
    | some st => (s, st)
    | none => ((s.cardOpStep { kind := .read, step := 0, slot := s.recordSelect }).cardCommand 18
        (copyLba s.recordSelect 0) [], stOk)

/-- A write of CardWrite (R351, R359): only 0x0000_CA57 acts. -/
def cardWrite (value : Nat) : Act := fun s =>
  if value ≠ 0xCA57 then (s, stModeRefused)
  else match s.cardBlocked true with
    | some st => (s, st)
    | none =>
      if !s.shareOk then (s, stBadDescriptor)
      else if s.cardProtected then (s.endCardOp stCardWriteProtected, stOk)
      else ((s.cardOpStep { kind := .write, step := 0, slot := s.recordSelect }).cardCommand 18
        (copyLba s.recordSelect 0) [], stOk)

/-- A write of CardFormat (R351, R354, R360): only 0x0000_CAF0 acts; CardId comes from instance 77. -/
def cardFormat (value : Nat) : Act := fun s =>
  if value ≠ 0xCAF0 then (s, stModeRefused)
  else match s.cardBlocked false with
    | some st => (s, st)
    | none =>
      if s.cardProtected then (s.endCardOp stCardWriteProtected, stOk)
      else match s.coreEntropyBlock with
        | some st => (s, st)
        | none =>
          let r := s.generate 77 8 false
          let s := r.2
          ((s.cardOpStep { kind := .format, step := 0, slot := 0, image := s.newLabel r.1 }).cardCommand 24 0 [], stOk)

/-! ### CH_CFG (R296, R298, R363) -/

/-- The card host as a unit of R300: CH_CFG is its one register, so a write repairs it. -/
def chUnit : Nat := 0x2002

/-- MAX_MODE, WP_INV and CD_INV. -/
def chFields : Nat := 0x73

/-- A write of CH_CFG: the enable rule of R296 and the lock of R298; clearing ENABLE ends an operation as a removal. -/
def State.chCfg (value : Word) (s : State) : State :=
  let old := s.ch.cfg.toNat
  let v := value.toNat
  let fields := v &&& chFields
  let differs := decide (fields ≠ old &&& chFields)
  if s.ch.enabled then
    let s := if differs || bitOf s.hg.blockLock 12 then s.ignoredWrite 12 else s
    if v.testBit 31 then s
    else
      let s := s.cardOpRemoved.cardOff
      s.onCh fun c => { c with cfg := c.cfg &&& 0x7FFFFFFF#32 }
  else
    let s := s.unitWritten chUnit 8
    let locked := bitOf s.hg.blockLock 12
    let s := if locked then s.ignoredWrite 12 else s
    let fields := if locked then old &&& chFields else fields
    if v.testBit 31 && bitsOf fields 6 4 = 0 then
      (s.onCh fun c => { c with cfg := BitVec.ofNat 32 fields }).ignoredWrite 12
    else s.onCh fun c => { c with cfg := BitVec.ofNat 32 (b2n (v.testBit 31) * 2 ^ 31 + fields) }

/-- CH_CFG_WRITE, by tenant 0 through BAR2. -/
def execChCfgWrite (value : BitVec 32) (s : State) : Host.Outcome State Fault Refusal :=
  .next (s.hostWrite (.bar2 0xC0008) fun
    | .chCfg => some (s.chCfg value)
    | _ => none)

/-- A write of CardMaxMode, the view of MAX_MODE (R364); the OFF rule is the Directory's. While block 12 is locked the field
keeps its value, as under a register write (R9, R298) (DESIGN CHOICE, log entry 135). -/
def cardMaxMode (value : Nat) : Act := fun s =>
  if value = 0 || 7 < value then (s, stModeRefused)
  else if bitOf s.hg.blockLock 12 then (s.ignoredWrite 12, stOk)
  else (s.onCh fun c => { c with cfg := BitVec.ofNat 32 (c.cfg.toNat &&& 0x80000003) ||| BitVec.ofNat 32 (value * 16) }, stOk)

end Sys2Proof.Machine
end

