-- ==== Sys2Proof/Machine/Buffers.lean ====
section
/-! DEFINITION. Buffers of commands: tenant pools behind the Memory Guard (R111, R112, R115, R137), and the memory of a
Sezel core as its services reach it (R256). -/

namespace Sys2Proof.Machine

/-! ### Tenant pools -/

/-- Bytes of the pool in force for tenant `t`: units of 64 MiB (R137). -/
def State.poolBytes (s : State) (t : Nat) : Nat := mapGet 0 s.lg.poolUnits t * 67108864

/-- A range lies in the tenant's allocation. -/
def State.poolHas (s : State) (t addr n : Nat) : Bool := decide (addr + n ≤ s.poolBytes t)

def poolKey (t line : Nat) : Nat := t * 2 ^ 34 + line

/-- The lines of a range. -/
def linesOf (addr n : Nat) : List Nat := if n = 0 then [] else List.range' (addr / 64) ((addr + n - 1) / 64 + 1 - addr / 64)

/-- A line fails on read: it was never written under this key, or DDR5 has lost it (R112, R115)
(DEDUCED, log entry 87). -/
def State.poolLineFails (s : State) (t line : Nat) : Bool :=
  !mapGet false s.lg.poolLines (poolKey t line) || s.lg.failed.contains (Config.poolAddress t line)

/-- A read of the pool: its bytes, or MEMORY_INTEGRITY (Table 5.6). -/
def State.poolRead (s : State) (t addr n : Nat) : Except Status Bytes :=
  if (linesOf addr n).any fun l => s.poolLineFails t l then .error stMemoryIntegrity
  else .ok (s.lg.pool.readBytes (t * 2 ^ 40 + addr) n)

/-- A write of the pool: its lines verify from now on. -/
def State.poolWrite (t addr : Nat) (b : Bytes) (s : State) : State :=
  s.onLg fun g => { g with
    pool := g.pool.writeBytes (t * 2 ^ 40 + addr) b
    poolLines := (linesOf addr b.length).foldl (fun m l => mapSet false m (poolKey t l) true) g.poolLines
    failed := g.failed.filter fun a => !(linesOf addr b.length).any fun l => a = Config.poolAddress t l }

/-- The pool of a tenant under a new K_t: nothing in it verifies (R113). -/
def State.renewPool (t : Nat) (s : State) : State :=
  (s.onLg fun g => { g with
    pool := g.pool.filter fun c => c.1 / 2 ^ 40 ≠ t
    poolLines := g.poolLines.filter fun e => e.1 / 2 ^ 34 ≠ t }).renewKey (t + 2)

/-! ### Memory of a core -/

/-- Where a buffer of a core lies, if wholly in its data memory or in one region of its slot's grant (R256). -/
def State.bufferPlace (s : State) (core addr n : Nat) : Option Place :=
  let a := (s.core core).slot
  match s.place a addr, s.place a (addr + n - 1) with
  | .data x, .data y => if n = 0 ∨ y + 1 = x + n then some (.data x) else none
  | .shared d t x, .shared d' t' y =>
    if n = 0 ∨ (d = d' ∧ t = t' ∧ y + 1 = x + n) then some (.shared d t x) else none
  | _, _ => none

/-- The bytes of a buffer. -/
def State.bufferRead (s : State) (core addr n : Nat) : Option Bytes :=
  if n = 0 then some []
  else (s.bufferPlace core addr n).bind fun
    | .data x => some ((s.core core).dmem.readBytes x n)
    | .shared d t x => some ((s.region d t).mem.readBytes x n)
    | _ => none

/-- Write a buffer; reservations of the granules fall (R239). -/
def State.bufferWrite (core addr : Nat) (b : Bytes) (s : State) : State :=
  match s.bufferPlace core addr b.length with
  | some (.data x) => s.writeResult core 0 x b
  | some (.shared d t x) => s.writeResult core (1 + d * 64 + t) x b
  | _ => s

/-- A buffer that a service may use. -/
def State.bufferOk (s : State) (core addr n : Nat) : Bool := n = 0 || (s.bufferPlace core addr n).isSome

end Sys2Proof.Machine
end

