-- ==== Sys2Proof/Machine/Entropy.lean ====
section
/-! DEFINITION. The Entropy Source and the DRBG Bank (R186 to R209): the first seed, health-test failures and their
sequence, the entropy failure latch, reserve blocks, the register pair, and the draw seed. -/

namespace Sys2Proof.Machine

/-! ### Sources and instances -/

/-- The instances that are instantiated outside a draw: all but the draw instance, or 77 to 79 alone while the latch
is set (R206). -/
def State.instancesNow (s : State) : List Nat :=
  (List.range 256).filter fun i => i ≠ 76 && (!s.en.latch || coreInstance i)

/-- An Anchor source that is not isolated. -/
def State.anchorSource (s : State) : Bool := (List.range 4).any fun i => (s.source i).state ≠ .isolated

/-- FIRST_SEED (R197, Table 8.4): at S0 + 1.8 ms; after entry to Quarantine instances 77 to 79 alone. RESEEDED of the
register pairs rises where a warm reset has lost the instances (R193, Table 8.6). A Memory Guard that Self-Test has left without
keys gets them (R113). -/
def execFirstSeed (s : State) : Host.Outcome State Fault Refusal :=
  .next (match s.pwr.s0 with
    | none => s
    | some s0 =>
      if s.powered && !s.en.firstSeed && !s.en.stopped && s.anchorSource && decide (s0 + 1800000 ≤ s.clock) then
        let is := if s.pwr.mode = .quarantine then [] else s.instancesNow.filter fun i => !coreInstance i
        let s := ([77, 78, 79] ++ is).foldl (fun s i => State.instantiate i s) s
        let s := if s.pwr.lastReset = .powerOn then s else is.foldl (fun s i => State.noteReseed i s) s
        let s := (s.fillReserve.onEn fun e => { e with firstSeed := true }).startPorts
        if s.pwr.wakeStep < 13 then s else s.guardKeys
      else s)

/-! ### Health-test failures -/

/-- Failures within the last 86,400 s, by the Vault RTC (R206). -/
def State.recentFailures (s : State) : Nat :=
  (s.en.history.filter fun t => decide (s.tb.rtc < t + 86400000000000)).length

/-- RC bit of EN_SRC_STAT for a test code (Table 8.8). -/
def testBit (test : Nat) : Nat :=
  match test with
  | 1 => 1
  | 2 => 2
  | 3 => 4
  | _ => 0

/-- What a failed test leaves in the peaks of Table 8.8: its cutoff at the least (Table 8.2). -/
def HealthTest.failed (h : HealthTest) (test : Nat) : HealthTest :=
  match test with
  | 1 => { h with runMax := max h.runMax 101 }
  | 2 => { h with countMax := max h.countMax 840 }
  | _ => h

/-- A source is isolated after a failure. -/
def State.isolate (test : Nat) (s : State) (i : Nat) : State :=
  (s.onSource i fun x => { x with
    state := .isolated
    since := s.clock
    health := x.health.failed test
    candidate := none }).latch (.srcStat i) (testBit test)

/-- The Evidence Log record of a failure (Table 16.8) (DEDUCED, log entry 93). -/
def State.failureRecord (source test : Nat) (s : State) : State :=
  s.logEvent 0x0003 ([BitVec.ofNat 8 source, BitVec.ofNat 8 test, BitVec.ofNat 8 s.recentFailures]
    ++ List.replicate 5 0)

/-- The failure enters the history, unless the latch is set already (R206), and is the last failure. -/
def State.rememberFailure (source test : Nat) (s : State) : State :=
  s.onEn fun e => { e with
    history := if e.latch then e.history else (s.tb.rtc :: e.history).take 3
    lastSource := source
    lastTest := test
    lastTime := s.stamp }

/-- The third failure within 86,400 s sets the latch (R206): the failed sources stay isolated, and of the instances only
77 to 79 remain. -/
def State.latchFailure (s : State) : State :=
  s.onEn fun e => { e with
    latch := true
    sources := e.sources.map fun x => (x.1, { x.2 with stays := x.2.stays || x.2.state = .isolated })
    instances := e.instances.map fun x =>
      if coreInstance x.1 then x else (x.1, { x.2 with live := false, requests := 0, lastReseed := 0 }) }

/-- The RANDOM calls that wait for their instance end without a byte. -/
def State.endRandoms (code : Status) (s : State) : State :=
  s.sz.outstanding.foldl (fun s e => match e.2 with
    | some (.randomWait _ _) => s.serviceEnd e.1 code
    | _ => s) s

/-- Steps 1 and 2 of Table 8.7: delivery stops, what was buffered is discarded, every request that waits and every LIE
and Lattice command in execution ends with ENTROPY_FAIL. -/
def State.stopDelivery (s : State) : State :=
  let s := (s.onEn fun e => { e with
    stopped := true
    reserve := []
    vaultBlock := none
    fifos := []
    sources := e.sources.map fun x => (x.1, { x.2 with candidate := none }) }).dropBuffers.latch .bankStat 1
  let s := match s.en.drawWait with
    | some c => (s.onEn fun e => { e with drawWait := none }).serviceEnd c stEntropyFail
    | none => s
  let s := s.endRandoms stEntropyFail
  let s := s.abortEngines (fun _ _ => true) (some stEntropyFail)
  let s := (s.abortUnits (fun _ => true) stEntropyFail).failKeyOp stEntropyFail
  let s := s.abandonManifests (fun m => m.phase = .signing) stEntropyFail
  s.failTakes (fun t => t.phase = .signing || t.phase = .verifying) stEntropyFail

/-- A failure (R191): before the first seed R198 holds; afterwards Table 8.7, and with the third the latch (R206). -/
def State.entropyFailure (sources : List Nat) (test : Nat) (s : State) : State :=
  let source := sources.headD 0xFF
  let first := s.en.firstSeed
  let s := sources.foldl (fun s i => State.isolate test s i) s
  let was := s.en.latch
  let s := s.rememberFailure source test
  let third := !was && decide (3 ≤ s.recentFailures)
  let s := if third then s.latchFailure else s
  if !first then
    let s := s.onEn fun e => { e with stopped := true }
    let s := if s.pwr.mode = .quarantine then s else s.onPwr fun p => { p with selfTest := p.selfTest ||| 8 }
    if third then s.raiseCause .entropyLatch else s
  else
    let s := s.stopDelivery
    let s := if was then s else s.raiseCause (if third then .entropyLatch else .entropyFail)
    let s := (if sources = [] then [0xFF] else sources).foldl (fun s i => State.failureRecord i test s) s
    if third && s.pwr.mode = .held then s.enterDrain none false else s

/-- The sources in `now` have failed a test (R191). Sources that fail while the Bank is stopped are isolated and recorded;
they form no further failure, but for a source that fails during its own restart: that is a new one. -/
def State.healthFail (now : List Nat) (test : Nat) (s : State) : State :=
  if s.en.stopped && now.all (fun i => (s.source i).state = .running) then
    let s := now.foldl (fun s i => State.isolate test s i) s
    now.foldl (fun s i => State.failureRecord i test s) s
  else s.entropyFailure now test

/-- The source is sampled now. -/
def State.samples (s : State) (i : Nat) : Bool := (s.source i).state = .running || (s.source i).state = .startup

/-- ENTROPY_HEALTH_FAIL (R191, R204). The known-answer tests name no source. -/
def execEntropyHealthFail (sources : List Nat) (test : BitVec 8) (s : State) : Host.Outcome State Fault Refusal :=
  .next (
    let t := test.toNat
    let now := (List.range 5).filter fun i => sources.contains i && s.samples i
    if !s.powered || t = 0 || 5 < t || (t ≤ 3 && now = []) then s
    else s.healthFail (if t ≤ 3 then now else []) t)

/-! ### Restart and resumption (Table 8.7 steps 5 and 6) -/

/-- The isolated sources that restart. -/
def State.restarting (s : State) : List Nat :=
  (List.range 5).filter fun i => (s.source i).state = .isolated && !(s.source i).stays

/-- The failed source restarts 10 ms after F0, the others that are isolated with it. A failure before the first seed
ends in no restart (R197, R198); a source that was isolated when Quarantine was entered has its own still to come. -/
def State.restartDue (s : State) : Bool :=
  s.powered && (s.en.firstSeed || !s.en.stopped)
    && s.restarting.any fun i => (s.source i).since + 10000000 ≤ s.clock

/-- SOURCE_RESTART (R204 step 5): a source that fails its start-up test is a new failure. -/
def execSourceRestart (failed : List Nat) (s : State) : Host.Outcome State Fault Refusal :=
  .next (if s.restartDue then
    let is := s.restarting
    let s := is.foldl (fun s i => s.onSource i fun x => { x with state := .startup, since := s.clock, health := {} }) s
    let bad := is.filter failed.contains
    if bad = [] then s else s.entropyFailure bad 3
  else s)

/-- ENTROPY_DELIVERY_RESUME (R204 step 6, R206): every source that restarted has passed, the instantiated instances are
reseeded from fresh blocks, the reserve is full, delivery resumes. -/
def execEntropyDeliveryResume (s : State) : Host.Outcome State Fault Refusal :=
  .next (if !s.powered || s.restarting ≠ [] || !s.anchorSource || (s.en.stopped && !s.en.firstSeed) then s
  else
    let was := s.en.stopped
    let s := s.onEn fun e => { e with
      stopped := false
      sources := e.sources.map fun x =>
        if x.2.state = .startup then (x.1, { x.2 with state := .running, since := s.clock }) else x }
    if was then
      let live := (List.range 256).filter fun i => (s.drbg i).live
      State.fillReserve (live.foldl (fun s i => State.reseed i s) s)
    else s)

/-- A write of EnLatchClear (R207): start-up tests of all five sources. -/
def enLatchClear (value : BitVec 32) (failed : List Nat) : Act := fun s =>
  let bad := (List.range 5).filter failed.contains
  if value ≠ 0xE7A1#32 then (s, stModeRefused)
  else if bad ≠ [] then (bad.foldl (fun s i => s.latch (.srcStat i) 4) s, stEntropyFail)
  else
    let s := s.onEn fun e => { e with
      latch := false
      stopped := false
      history := []
      sources := (List.range 5).foldl (fun m i => mapSet {} m i { state := .running, since := s.clock }) e.sources }
    let s := s.clearCause .entropyLatch
    ((s.instancesNow.foldl (fun s i => State.noteReseed i (State.instantiate i s)) s).fillReserve, stOk)

/-! ### Reserve and instances -/

/-- One raw sample passes both continuous tests, or fails one: 1 for the RCT, 2 for the APT (R189, Table 8.2). -/
def HealthTest.sample (h : HealthTest) (x : Bool) : HealthTest × Nat :=
  let run := if h.last = some x then h.run + 1 else 1
  let first := if h.seen = 0 then x else h.first
  let count := if h.seen = 0 then 1 else if x = h.first then h.count + 1 else h.count
  let full := decide (h.seen + 1 = 1024)
  let next : HealthTest := { h with
    last := some x
    run := run
    first := first
    seen := if full then 0 else h.seen + 1
    count := count
    runMax := max h.runMax run
    countMax := max h.countMax count }
  (next, if 101 ≤ run then 1 else if 840 ≤ count then 2 else 0)

/-- Samples pass in order; the first that fails a test ends it. -/
def HealthTest.pass (h : HealthTest) : List Bool → HealthTest × Nat
  | [] => (h, 0)
  | x :: xs => match h.sample x with
    | (h, 0) => h.pass xs
    | r => r

/-- The samples of packed bytes: the first one is bit 7 of byte 0 (R187). -/
def samplesOf (packed : Bytes) : List Bool := packed.flatMap fun b => [7, 6, 5, 4, 3, 2, 1, 0].map fun k => b.getLsbD k

/-- The Anchor source whose turn it is: the rotation passes over sources that do not run (R187). -/
def State.turn (s : State) : Option Nat :=
  ((List.range 4).map fun k => (s.en.nextSource + k) % 4).find? fun i => (s.source i).state = .running

/-- A healthy block of a source joins what the Bank holds: up to 64 Anchor blocks, one Vault block (R188). -/
def State.keepBlock (i : Nat) (b : Bytes) (s : State) : State :=
  s.onEn fun e =>
    if i = 4 then { e with vaultBlock := e.vaultBlock <|> some b }
    else if 64 ≤ e.reserve.length then e
    else { e with reserve := e.reserve ++ [b] }

/-- The block whose last window has closed is healthy (R190). -/
def State.releaseCandidate (i : Nat) (s : State) : State :=
  match (s.source i).candidate with
  | some b => (s.onSource i fun x => { x with candidate := none }).keepBlock i b
  | none => s

/-- CONDITIONING_BLOCK (R187 to R190): 1,152 consecutive samples of a running source, packed into 144 bytes. The continuous
tests see every one of them. Of an Anchor source whose turn it is, and of the Vault's source, the block is conditioned; it is
held back until the APT window of its last sample has closed. While delivery is stopped no block is kept
(DESIGN CHOICE, log entry 94). -/
def execConditioningBlock (block : NoiseSamples) (s : State) : Host.Outcome State Fault Refusal :=
  let source := block.source
  let packed := block.packed
  .next (if !s.powered || (s.source source).state ≠ .running || 4 < source || packed.length ≠ 144 then s
  else
    let r := (s.source source).health.pass (samplesOf packed)
    let turn := decide (source = 4) || s.turn = some source
    let s := s.onSource source fun x => { x with health := r.1 }
    if r.2 ≠ 0 then s.healthFail [source] r.2
    else
      let s := s.releaseCandidate source
      if s.en.stopped || !turn then s
      else
        let s := s.onEn fun e => { e with nextSource := if source = 4 then e.nextSource else (source + 1) % 4 }
        if r.1.seen = 0 then s.keepBlock source (conditioned packed)
        else s.onSource source fun x => { x with candidate := some (conditioned packed) })

/-- A reseed outside a request, of an instance that delivers. -/
def State.reseedIf (i : Nat) (due : Bool) (s : State) : State :=
  if s.delivers i && due then s.reseed i else s

/-- DRBG_RESEED_COUNT (R194). -/
def execDrbgReseedCount (i : Nat) (s : State) : Host.Outcome State Fault Refusal :=
  .next (s.reseedIf i (decide ((s.drbg i).maxRequests ≤ (s.drbg i).requests)))

/-- DRBG_RESEED_INTERVAL (R194). -/
def execDrbgReseedInterval (i : Nat) (s : State) : Host.Outcome State Fault Refusal :=
  .next (s.reseedIf i (decide ((s.drbg i).lastReseed + (s.drbg i).maxInterval * 1000000 ≤ s.clock)))

/-- Bytes for a RANDOM from the slot's instance, by the epoch that the applet holds (R193, R256). -/
def State.randomFrom (n addr len : Nat) (s : State) : State × Option Status :=
  let a := (s.core n).slot
  match s.generateFor (80 + a) (s.applet a).rngEpoch len false with
  | .ok (b, s) => (s.bufferWrite n addr b, some stOk)
  | .error st => (s, some st)

/-- The RANDOM calls that wait for instance `i` go on. -/
def State.resumeRandoms (i : Nat) (s : State) : State :=
  s.sz.outstanding.foldl (fun s e => match e.2 with
    | some (.randomWait addr len) =>
      if i = 80 + (s.core e.1).slot then
        let r := s.randomFrom e.1 addr len
        r.1.serviceEnd e.1 (r.2.getD stOk)
      else s
    | _ => s) s

/-- DRBG_REINSTANTIATE (R193): an instance whose epoch has advanced starts again from the reserve. -/
def execDrbgReinstantiate (i : Nat) (s : State) : Host.Outcome State Fault Refusal :=
  .next (if s.en.firstSeed && !s.en.stopped && !(s.drbg i).live && s.instancesNow.contains i
      && s.pwr.mode ≠ .quarantine then ((s.instantiate i).noteReseed i).resumeRandoms i
  else s)

/-! ### The register pair (R199 to R201) -/

/-- An error read of EN_RNG_DATA: ERR, and the first cause for each viewer. -/
def State.rngError (t cause : Nat) (s : State) : State :=
  { s with latches := (s.rcViewers (.rngStat t)).foldl (fun m v =>
      let k := latchKey (.rngStat t) v
      setLatch (if bitsOf (mapGet 0 m k) 7 4 = 0 then 1 + 16 * cause else 1) k m) s.latches }

/-- Why a read of EN_RNG_DATA has no word to return, if it has none. -/
def State.rngCause (s : State) (t size : Nat) : Nat :=
  if size ≠ 8 then 4
  else match s.entropyBlock with
    | some st => if st = stNotReady then 1 else 2
    | none => if !(s.drbg t).live || s.fifo t = [] then 3 else 0

/-- EN_RNG_DATA of tenant `t` is read. -/
def State.rngRead (v : Viewer) (loc : Loc) (t size : Nat) (s : State) : State :=
  let c := s.rngCause t size
  if c ≠ 0 then (s.rngError t c).emit (.readData v loc 0)
  else match s.fifo t with
    | w :: ws => (s.onFifo t fun _ => ws).emit (.readData v loc w.toNat)
    | [] => s

/-- EN_RNG_STAT (Table 8.6). -/
def State.rngStat (s : State) (t : Nat) (v : Viewer) : Nat :=
  (s.fifo t).length * 0x10000 + s.latched (.rngStat t) v + b2n (s.delivers t) * 2

/-- RNG_DATA_READ (R200): an 8-byte read is aligned to 8. -/
def execRngDataRead (loc : Loc) (size : Nat) (s : State) : Host.Outcome State Fault Refusal :=
  .next (if !s.reaches loc.viewer loc then s
  else if (size ≠ 4 && size ≠ 8) || loc.offset % size ≠ 0 then
    (s.badSize loc).emit (.readData loc.viewer loc (2 ^ (8 * size) - 1))
  else match s.openWord loc 0 with
    | some (.rngData t, _) => s.rngRead loc.viewer loc t size
    | _ => s)

/-- The words of a generate's output, little endian (DESIGN CHOICE, log entry 132). -/
def rngWords (b : Bytes) : List (BitVec 64) := (List.range (b.length / 8)).map fun i => BitVec.ofNat 64 (leAt b (8 * i) 8)

/-- RNG_FIFO_REFILL (R199): one generate of 128 bytes when the level is 16 words or below. -/
def execRngFifoRefill (fn : Nat) (s : State) : Host.Outcome State Fault Refusal :=
  .next (if fn < 64 && s.delivers fn && decide ((s.fifo fn).length ≤ 16) then
    let r := s.generate fn 128 false
    r.2.onFifo fn fun f => f ++ rngWords r.1
  else s)

/-! ### The draw seed (R202) -/

/-- The 512-bit entropy input of the draw instance. -/
def drawSeed (anchor vault : Bytes) : Bytes := List.zipWith (· ^^^ ·) anchor vault

/-- DRAW_SEED_READY: the draw instance is instantiated from an Anchor and the Vault block under its next epoch, and the
claim proceeds into Draw, which changes the slot's DRAW word (R254). -/
def execDrawSeedReady (s : State) : Host.Outcome State Fault Refusal :=
  .next (match s.en.drawWait, s.en.vaultBlock with
    | some c, some vault =>
      if s.pwr.mode = .service && s.entropyBlock = none then
        let r := (s.advanceInstance 76).takeBlock
        let s := (r.2.onEn fun e => { e with drawWait := none, vaultBlock := none }).seedInstance 76 (drawSeed r.1 vault)
        let n := s.sz.drawCount + 1
        let a := (s.core c).slot
        let s := s.onSz fun z => { z with drawCount := n, draw := some { slot := a, seq := n } }
        ((s.onPwr fun p => { p with mode := .draw }).wakeSlot a).serviceEnd c stOk
      else s
    | _, _ => s)

end Sys2Proof.Machine
end

