-- ==== Sys2Proof/Machine/Ledger.lean ====
section
/-! DEFINITION. Windows, slot administration, checkpoints, the tap, recovery and rebuild (R103 to R131, R135). -/

namespace Sys2Proof.Machine

/-! ### Windows (R107, R108) -/

/-- A write of WindowOwner (R108): step 1, and step 2 decides the takes of the window; a leaf stays in its manifest, which is
signed with it, and fails at landing step 1 (Table 4.8). -/
def windowOwner (w owner : Nat) : Act := fun s =>
  let x := s.window w
  if 63 < owner ∧ owner ≠ 0xFF then (s, stModeRefused)
  else if x.reassigning then (s, stSlotBusy)
  else if x.owner = owner then (s, stOk)
  else
    let s := s.onWindow w fun x => { owner := owner, epoch := (x.epoch + 1) % 65536, reassigning := true }
    (s.failTakes (fun t => t.slot / 1024 = w && t.phase ≠ .inManifest) stStaleOwner, stOk)

/-- Step 3 of R108. -/
def State.rewriteWindow (w : Nat) (s : State) : State :=
  let x := s.window w
  (List.range 1024).foldl (fun s i => (s.onSlot (w * 1024 + i) fun z => { z with
    state := 0
    handle := 0
    tenant := x.owner
    epoch := x.epoch }).soil (w * 1024 + i)) s

/-- WINDOW_REASSIGN_COMPLETE (R108): the VOID landings are done; not once a stow has ended the journal (R125). -/
def execWindowReassignComplete (w : Nat) (s : State) : Host.Outcome State Fault Refusal :=
  .next (
    let x := s.window w
    if x.reassigning && !s.pwr.stowed && s.td.inflight.all (fun t => t.slot / 1024 ≠ w) then
      let s := s.rewriteWindow w
      let s := s.append (slotAdmin 1 0 x.owner x.epoch (w * 1024) 1024 0 s.tb.deviceTime 0 0 0 0) []
      s.onWindow w fun x => { x with reassigning := false }
    else s)

/-! ### Slot administration (R109, R110, R131) -/

def State.slotSelect (s : State) (inst : Nat) : Nat := s.num 0x4010 1 inst 0
def State.slotNewHandle (s : State) (inst : Nat) : Nat := s.num 0x4010 2 inst 0
def State.slotNewState (s : State) (inst : Nat) : Nat := s.num 0x4010 3 inst 0

/-- A slot has takes in the In-Flight Table. -/
def State.slotInFlight (s : State) (n : Nat) : Bool := s.td.inflight.any fun t => t.slot = n

/-- A SLOT_ADMIN record of one slot joins the journal, and the slot takes the record's Time and Continuity (R105). -/
def State.adminSlot (n action first last : Nat) (s : State) : State :=
  let x := s.slot n
  let w := s.window (n / 1024)
  let body := slotAdmin action 0 w.owner w.epoch n 1 x.serial s.tb.deviceTime x.handle x.state first last
  let digest := (chain s.lg.continuity body).take 16
  (((s.journal body []).onSlot n fun x => { x with landing := s.tb.deviceTime, digest := digest }).soil n).afterJournal

/-- The handle may seal: usage SEAL of type 0x01, 0x04 or 0x40, owned by tenant `t` (R109, R440). -/
def State.handleOwned (s : State) (h t : Nat) : Bool :=
  match s.handle h with
  | some k => k.owner = t
  | none => false

def State.handleSeals (s : State) (h : Nat) : Bool :=
  match s.handle h with
  | some k => k.usage = 1 && (k.type = 0x01 || k.type = 0x04 || k.type = 0x40)
  | none => false

/-- Whether Table 5.2 lets administration take a slot from one state to another. -/
def stateChangeOk (old new : Nat) : Bool :=
  old = new || (old = 1 && (new = 2 || new = 3)) || ((old = 0 || old = 2) && decide (new ≤ 3))

/-- The checks of R109 in their order; `regulator` may select any slot. While a window is being reassigned (R108) and while
a slot waits for its authority the status is SLOT_BUSY, after the check that SlotSelect names a slot of the writer's windows: the
old owner, and any other tenant, gets BAD_SLOT (DESIGN CHOICE, log entry 139). -/
def State.applyCheck (s : State) (regulator : Bool) (inst : Nat) : Option Status :=
  let n := s.slotSelect inst
  let h := s.slotNewHandle inst
  let st := s.slotNewState inst
  let x := s.slot n
  let w := s.window (n / 1024)
  let owner := if regulator then w.owner else inst
  if 2097152 ≤ n || (!regulator && w.owner ≠ inst) then some stBadSlot
  else if w.reassigning || !s.serves n then some stSlotBusy
  else if h ≠ 0 && !s.handleOwned h owner then some stBadSlot
  else if st = 1 && h = 0 then some stBadSlot
  else if h ≠ 0 && !s.handleSeals h then some stBadSlot
  else if h ≠ x.handle && (x.state = 1 || s.slotInFlight n) then some stSlotBusy
  else if x.state = 3 && (!regulator || h ≠ x.handle) then some stBadSlot
  else if !stateChangeOk x.state st then some stBadSlot
  else none

/-- SlotApply = 0x01 on a slot that is not reopened (R109). -/
def State.slotApply (regulator : Bool) (inst : Nat) (s : State) : State × Status :=
  match s.applyCheck regulator inst with
  | some st => (s, st)
  | none =>
    let n := s.slotSelect inst
    let x := s.slot n
    let h := s.slotNewHandle inst
    let st := s.slotNewState inst
    if h = x.handle ∧ st = x.state then (s, stOk)
    else
      let s := s.onSlot n fun x => { x with handle := h, state := st }
      (s.adminSlot n (if h = x.handle then 3 else 2) 0 0, stOk)

/-- The Regulator reopens a Closed slot at SlotReopenSerial (R131) (DEDUCED, log entry 68). -/
def State.slotReopen (inst : Nat) (s : State) : State × Status :=
  let n := s.slotSelect inst
  let x := s.slot n
  let k := s.num 0x4010 6 inst 0
  let margin := if x.rebuilt then 16777216 else 2049
  if 2097152 ≤ n then (s, stBadSlot)
  else if (s.window (n / 1024)).reassigning || s.slotInFlight n then (s, stSlotBusy)
  else if x.handle = 0 || k < x.serial + margin then (s, stBadSlot)
  else
    let s := s.onSlot n fun x => { x with state := 1, flags := setBit x.flags 2 false }
    let s := s.adminSlot n 5 (x.serial + 1) (k - 1)
    (s.onSlot n fun x => { x with serial := k - 1 }, stOk)

/-- A write of SlotApply: only 0x01 acts (Table 5.17). Once a stow has ended the journal none is made (R125), with NOT_READY
(DESIGN CHOICE, log entry 50). -/
def slotApplyWrite (v : Viewer) (inst value : Nat) : Act := fun s =>
  if value ≠ 1 then (s, stModeRefused)
  else if s.pwr.stowed then (s, stNotReady)
  else
    let n := s.slotSelect inst
    if v = .regulator && n < 2097152 && (s.slot n).state = 3 && s.slotNewState inst = 1 then s.slotReopen inst
    else s.slotApply (v = .regulator) inst

/-! ### Checkpoints and the anchor (R120 to R122) -/

/-- The slot an image holds. -/
def slotOfImage (b : Bytes) : Slot :=
  { serial := beAt b 0 8
    state := beAt b 8 1
    tenant := beAt b 9 1
    epoch := beAt b 10 2
    handle := beAt b 12 2
    flags := beAt b 14 1
    official := beAt b 16 8
    landing := beAt b 24 8
    digest := if slice b 32 16 = List.replicate 16 0 then [] else slice b 32 16
    home := beAt b 48 2
    mirror := beAt b 50 2
    roleEpoch := beAt b 52 2 }

def checkpointModes : List Mode := [.service, .draw, .held, .standby]

/-- Chunk `c` of the slot images: 64 KiB (R120). -/
def State.chunk (s : State) (c : Nat) : Bytes := (List.range 1024).flatMap fun i => (s.slot (c * 1024 + i)).image

/-- The Window Table as bytes (Table 5.8). -/
def State.windowTable (s : State) : Bytes :=
  (List.range 2048).flatMap fun w => be 1 (s.window w).owner ++ [0] ++ be 2 (s.window w).epoch

/-- A checkpoint header (Table 5.8). -/
def State.checkpointHeader (s : State) (seq : Nat) (w : Sweep) : Bytes :=
  [0x47, 0x58, 0x38, 0x4C, 0x45, 0x44, 0x47, 0x52] ++ be 8 seq ++ be 8 unitId ++ be 8 w.startCount
    ++ be 8 s.lg.journalCount ++ be 8 w.startTime ++ slice w.startContinuity 0 32 ++ List.replicate 48 0
    ++ s.windowTable ++ ((List.range 2048).flatMap fun c => Config.sha256 (s.chunk c)) ++ List.replicate 57216 0

/-- Where an area begins: odd sequence numbers in area A (R120). -/
def areaAddress (base seq : Nat) : Nat := if seq % 2 = 1 then base else base + 0x08020000

/-- Step 1 of R121. -/
def State.startCheckpoint (s : State) : State :=
  let s := s.applyNum 0x4000 3 0
  s.onLg fun g => { g with
    sweep := some { startCount := g.journalCount, startContinuity := g.continuity, startTime := s.tb.deviceTime }
    lastCheckpoint := s.clock
    checkpointDue := false }

def State.checkpointAddress (s : State) : Nat := s.num 0x4000 2 0 0

/-- A checkpoint may be taken now (R121). -/
def State.canCheckpoint (s : State) : Bool :=
  s.checkpointAddress ≠ 0 && checkpointModes.contains s.pwr.mode && s.lg.sweep = none && s.lg.valid && !s.pwr.stowed

/-- CHECKPOINT_START (R121): every CheckpointInterval, or when a tap fault or a recovery asks for one. A written interval
counts at once and is in force from the next checkpoint on: no rule names its boundary (DESIGN CHOICE, log entry 140). -/
def execCheckpointStart (s : State) : Host.Outcome State Fault Refusal :=
  .next (if s.canCheckpoint && (s.lg.checkpointDue
      || decide (s.lg.lastCheckpoint + 1000000 * s.numWritten 0x4000 3 0 2000 ≤ s.clock)) then s.startCheckpoint
  else s)

/-- Steps 2 to 5 of R121. -/
def State.commitCheckpoint (w : Sweep) (s : State) : State :=
  let seq := s.lg.checkpointSeq + 1
  let base := areaAddress s.checkpointAddress seq
  let header := s.checkpointHeader seq w
  let r := s.dmaSend 0 ((List.range 2048).map (fun c => (base + 131072 + c * 65536, s.chunk c)) ++ [(base, header)])
  let s' := r.1.onLg fun g => { g with sweep := none }
  if !r.2 then s'.latch .lgStat 4
  else
    let digest := Config.sha256 header
    let s' := s'.append ([0x31] ++ List.replicate 7 0 ++ be 8 seq ++ be 8 w.startCount ++ be 8 s.lg.journalCount
      ++ slice w.startContinuity 0 32 ++ digest) []
    let s' := s'.onLg fun g => { g with
      checkpointSeq := seq
      anchor := { g.anchor with
        state := .checkpointed
        seq := seq
        headerDigest := digest
        startCount := w.startCount
        startContinuity := w.startContinuity } }
    s'.latch .lgStat 2

/-- CHECKPOINT_COMMIT (R121). -/
def execCheckpointCommit (s : State) : Host.Outcome State Fault Refusal :=
  .next (match s.lg.sweep with
    | some w => s.commitCheckpoint w
    | none => s)

/-! ### The tap (R123) -/

/-- A write of TapConsumed. -/
def tapConsumed (value : Nat) : Act := fun s =>
  if s.lg.tapConsumed ≤ value ∧ value ≤ s.lg.tapWritten then
    (s.onLg fun g => { g with tapConsumed := value }, stOk)
  else (s, stModeRefused)

/-- TAP_WRITE_FAULT (R123): TAP_FAULT, and a checkpoint at once. -/
def execTapWriteFault (s : State) : Host.Outcome State Fault Refusal :=
  .next (if s.lg.tapFailed then
    let s := (s.onLg fun g => { g with tapFailed := false, checkpointDue := true }).latch .lgStat 8
    if s.canCheckpoint then s.startCheckpoint else s
  else s)

/-- TapAddress or TapLog2 has been written and not applied. -/
def State.tapStaged (s : State) : Bool :=
  (mapGet none s.pd.staged (objKey 0x4000 5 0)).isSome || (mapGet none s.pd.staged (objKey 0x4000 6 0)).isSome

/-- TAP_RING_APPLY (R123): TapAddress and TapLog2 apply together and the counts restart. -/
def execTapRingApply (s : State) : Host.Outcome State Fault Refusal :=
  .next (if s.tapStaged then
    let s := (s.applyNum 0x4000 5 0).applyNum 0x4000 6 0
    s.onLg fun g => { g with
      tapAddress := s.num 0x4000 5 0 0
      tapLog2 := s.num 0x4000 6 0 0
      tapWritten := 0
      tapConsumed := 0 }
  else s)

/-- The condition of TAP_FULL has cleared: half the ring is free, or the tap is off (R123). -/
def State.tapRoomy (s : State) : Bool := s.lg.tapLog2 = 0 || 2 ^ s.lg.tapLog2 ≤ 2 * s.tapFree

/-! ### Recovery and rebuild (R127 to R130) -/

/-- RecoveryStatus codes (R137). -/
def rsWaiting : Nat := 0x01
def rsRunning : Nat := 0x02
def rsDone : Nat := 0x03
def rsCheckpointMismatch : Nat := 0x10
def rsChunkMismatch : Nat := 0x11
def rsTailShort : Nat := 0x12
def rsContinuityMismatch : Nat := 0x13
def rsNoStow : Nat := 0x14
def rsDmaFault : Nat := 0x15
def rsVerifyFailed : Nat := 0x16
def rsWaitExpired : Nat := 0x17

/-- Length of a record and offset of its Continuity, from its first bytes (R128). -/
def recordShape (b : Bytes) : Option (Nat × Nat) :=
  let len := beAt b 2 2
  match beAt b 0 1 with
  | 0x01 => if beAt b 1 1 = 0 then some (192, 96) else if beAt b 1 1 = 1 then some (128, 96) else none
  | 0x02 => some (192, 96)
  | 0x10 => if len = 3512 then some (3512, 3480) else none
  | 0x20 | 0x21 | 0x22 | 0x30 | 0x31 | 0x50 | 0x51 => some (128, 96)
  | 0x40 | 0x41 | 0x42 =>
    let n := beAt b 48 4
    if len = 88 + n + (8 - n % 8) % 8 then some (len, len - 32) else none
  | _ => none

/-- A SEALED or VOID record replayed (R128). -/
def State.applyLanding (b cont : Bytes) (s : State) : State :=
  let n := beAt b 8 4
  if (s.slot n).serial < beAt b 16 8 then s.onSlot n fun x => { x with
    serial := beAt b 16 8
    official := beAt b 24 8
    landing := beAt b 32 8
    digest := cont.take 16 }
  else s

/-- A rebuild closes this slot: Open or Suspended, and not a mirrored one, which its Fleet peers restore (R130). -/
def Slot.closes (x : Slot) : Bool := (x.state = 1 || x.state = 2) && !(x.fleet && x.mirrored)

/-- The slots of window `w` that a rebuild closes (R130). -/
def State.closeWindow (w : Nat) (s : State) : State :=
  (List.range 1024).foldl (fun s i =>
    if (s.slot (w * 1024 + i)).closes then
      s.onSlot (w * 1024 + i) fun x => { x with state := 3, flags := setBit x.flags 2 true }
    else s) s

/-- A SLOT_ADMIN record replayed (R105, R108, R110, R128). -/
def State.applyAdmin (b cont : Bytes) (s : State) : State :=
  let n := beAt b 8 4
  let w := n / 1024
  match beAt b 1 1 with
  | 1 =>
    let s := s.onWindow w fun _ => { owner := beAt b 4 1, epoch := beAt b 6 2, reassigning := false }
    s.rewriteWindow w
  | 4 => s.closeWindow w
  | 5 => s.onSlot n fun x => { x with
      serial := beAt b 48 8
      state := beAt b 34 1
      flags := setBit x.flags 2 false
      landing := beAt b 24 8
      digest := cont.take 16 }
  | _ => s.onSlot n fun x => { x with
      handle := beAt b 32 2
      state := beAt b 34 1
      landing := beAt b 24 8
      digest := cont.take 16 }

/-- The replay of R128: `n` records of the tail from `cont`; the state, the last Continuity, or the failure. -/
def State.replay : Nat → Bytes → Bytes → State → Except Nat (State × Bytes)
  | 0, _, cont, s => .ok (s, cont)
  | n + 1, tail, cont, s =>
    match tail with
    | [] => .error rsTailShort
    | _ :: _ =>
      match recordShape tail with
      | none => .error rsContinuityMismatch
      | some (len, c) =>
        if tail.length < len then .error rsTailShort
        else
          let r := tail.take len
          if slice r c 32 ≠ chain cont (r.take c) then .error rsContinuityMismatch
          else
            let k := beAt r 0 1
            let next := slice r c 32
            let s := if k = 1 ∨ k = 2 then s.applyLanding r next else if k = 0x30 then s.applyAdmin r next else s
            State.replay n (tail.drop len) next s

/-- The images and the Window Table of a checkpoint area replace the ledger (R128 step 3), under a fresh K_led. -/
def State.installCheckpoint (header images : Bytes) (s : State) : State :=
  let s := s.onLg fun g => { g with
    slots := []
    windows := []
    rootCtr := []
    tree := []
    pinnedCtr := 0
    resident := []
    nodes := []
    dirty := []
    dirtyNodes := []
    failed := []
    writesStopped := false }
  let s := s.renewKey 0
  let s := (List.range 2048).foldl (fun s w => s.onWindow w fun _ =>
    { owner := beAt header (128 + 4 * w) 1, epoch := beAt header (130 + 4 * w) 2 }) s
  (List.range 2097152).foldl (fun s n => s.onSlot n fun _ => slotOfImage (slice images (64 * n) 64)) s

/-- A time from `a` to `b`, where `free` says which: a slot's official times rise with its serials (R66). -/
def betweenTimes (a b free : Nat) : Nat := if b ≤ a then a else a + free % (b + 1 - a)

/-- SealMode of a slot's key handle (Table 3.10). -/
def State.slotSealMode (s : State) (n : Nat) : Nat :=
  b2n (((s.handle (s.slot n).handle).map (·.type)) = some 0x40)

/-- A VOID record for a serial whose take is not at hand (R71, R128 step 5, R340, Table 3.10), and the slot image it leaves.
What only the take gives it, gate, ClientTag and length, is a free value; its official time is one that R66 allows;
ManifestId, LeafIndex and TakeDigest are zero. The rules do not say whether such a record counts in TakesVoid: it does not,
for no take of this boot lands (DESIGN CHOICE, log entries 110 and 131). -/
def State.landUnseen (n serial tenant epoch : Nat) (code : Status) (s : State) : State :=
  let x := s.slot n
  let free := s.freeBytes 22
  let s := s.takeFree 22
  let official := betweenTimes x.official s.tb.deviceTime (beAt free 2 8)
  let body := be 1 2 ++ be 1 (s.slotSealMode n) ++ be 2 code.toNat ++ be 1 tenant ++ [0] ++ be 2 epoch ++ be 4 n
    ++ free.take 2 ++ be 2 x.handle ++ be 8 serial ++ be 8 official ++ be 8 s.tb.deviceTime ++ slice free 10 8
    ++ be 8 0 ++ be 4 0 ++ slice free 18 4 ++ List.replicate 32 0
  let c := chain s.lg.continuity body
  let sig := s.journalSignature (body ++ c)
  let s := sig.2.append body sig.1
  (s.onSlot n fun x => { x with
    serial := serial
    official := official
    landing := s.tb.deviceTime
    digest := c.take 16 }).soil n

/-- The VOID POWER_LOSS record of a stowed take (R128 step 5). -/
def State.landPowerLoss (e : StowEntry) (s : State) : State :=
  s.landUnseen e.slot e.serial e.tenant e.epoch stPowerLoss

/-- Slot and serial order of the stow list (R128 step 5). -/
def stowInsert (e : StowEntry) : List StowEntry → List StowEntry
  | [] => [e]
  | f :: l => if e.slot < f.slot ∨ (e.slot = f.slot ∧ e.serial ≤ f.serial) then e :: f :: l else f :: stowInsert e l

def stowSort (l : List StowEntry) : List StowEntry := l.foldr stowInsert []

/-- Steps 1 to 4 of R128: the area that the anchor names, checked chunk by chunk, and the tail replayed up to record
`endCount`. -/
def State.restoreLedger (digest endCont : Bytes) (endCount : Nat) (seq : Option Nat) (s : State) : Except Nat State :=
  let base := s.checkpointAddress
  let areas := [base, base + 0x08020000]
  if areas.any (fun a => !s.dmaOk 0 a 131072) then .error rsDmaFault
  else match areas.find? fun a =>
      let h := s.dmaBytes a 131072
      Config.sha256 h = digest && (match seq with | some q => beAt h 8 8 = q | none => true) with
    | none => .error rsCheckpointMismatch
    | some a =>
      let h := s.dmaBytes a 131072
      if !s.dmaOk 0 (a + 131072) 134217728 then .error rsDmaFault
      else
        let images := s.dmaBytes (a + 131072) 134217728
        if (List.range 2048).any fun c =>
            Config.sha256 (slice images (65536 * c) 65536) ≠ slice h (8320 + 32 * c) 32 then .error rsChunkMismatch
        else
          let addr := s.num 0x4000 0xA 0 0
          let len := s.num 0x4000 0xB 0 0
          if !s.dmaOk 0 addr len then .error rsDmaFault
          else
            let tail := s.dmaBytes addr len
            let s := s.installCheckpoint h images
            match s.replay (endCount - beAt h 24 8) tail (slice h 48 32) with
            | .error e => .error e
            | .ok (s, cont) =>
              if cont ≠ endCont then .error rsContinuityMismatch
              else .ok (s.onLg fun g => { g with
                journalCount := endCount
                continuity := endCont
                checkpointSeq := beAt h 8 8 })

/-- A recovery may start: Self-Test waits for it, or Standby stands with LEDGER_ROOT (R127). -/
def State.recoveryAllowed (s : State) : Bool :=
  s.lg.recovering = none && (s.lg.waitSince.isSome || (s.pwr.mode = .standby && s.stands .ledgerRoot))

/-- The recovery has failed: nothing of the ledger and the anchor changes (R128). -/
def State.recoveryFailed (code : Nat) (s : State) : State :=
  let s := if code = rsDmaFault then s.dmaReadFailed 0 else s
  s.onLg fun g => { g with recoveryStatus := code }

/-- Recovery (R128): steps 1 to 5. The anchor changes at step 6. -/
def State.recover (s : State) : State :=
  let a := s.lg.anchor
  match s.restoreLedger a.headerDigest a.stowContinuity a.stowCount (some a.seq) with
  | .error e => s.recoveryFailed e
  | .ok t =>
    let t := (stowSort a.stow).foldl (fun t e => t.landPowerLoss e) t
    t.onLg fun g => { g with recovering := some false, recoveryStatus := rsRunning, waitSince := none, anchor := a }

/-- What the Regulator's values put into the anchor (R130): the checkpoint that RebuildHeaderDigest names, and the end of
the journal. Its state changes at step 6 of R128. -/
def State.rebuiltAnchor (s : State) (a : Anchor) : Anchor :=
  let base := s.checkpointAddress
  let digest := s.octets 0x4000 0xF 0
  match [base, base + 0x08020000].find? fun p => Config.sha256 (s.dmaBytes p 131072) = digest with
  | none => a
  | some p =>
    let h := s.dmaBytes p 131072
    { state := a.state
      seq := beAt h 8 8
      headerDigest := digest
      startCount := beAt h 24 8
      startContinuity := slice h 48 32
      stowCount := s.num 0x4000 0x10 0 0
      stowContinuity := s.octets 0x4000 0x11 0
      stow := [] }

/-- Rebuild (R130): steps 1 to 4 with the Regulator's values, which replace the anchor; then every Open or Suspended slot
but the mirrored ones is closed. -/
def State.rebuild (s : State) : State :=
  match s.restoreLedger (s.octets 0x4000 0xF 0) (s.octets 0x4000 0x11 0) (s.num 0x4000 0x10 0 0) none with
  | .error e => s.recoveryFailed e
  | .ok t =>
    let t := (List.range 2048).foldl (fun t w =>
      if (List.range 1024).any (fun i => (t.slot (w * 1024 + i)).closes) then
        let x := t.window w
        let first := ((List.range' (w * 1024) 1024).find? fun n => (t.slot n).closes).getD 0
        let t := t.closeWindow w
        t.append (slotAdmin 4 stLedgerRebuilt.toNat x.owner x.epoch first 1024 0 t.tb.deviceTime 0 3 0 0) []
      else t) t
    t.onLg fun g => { g with recovering := some true, recoveryStatus := rsRunning, waitSince := none
                             anchor := s.rebuiltAnchor g.anchor }

/-- The Regulator has supplied rebuild values (R130) (DEDUCED, log entry 45). -/
def State.rebuildSupplied (s : State) : Bool := s.octets 0x4000 0xF 0 ≠ []

/-- A write of RecoveryStart (R128, R130): only 0x0000_C35A acts. In Standby with the Regulator's values it is a rebuild;
otherwise, with a stow in the anchor, a recovery. Where none is awaited, or neither a stow nor rebuild values exist, the write
completes with MODE_REFUSED (DESIGN CHOICE, log entry 141). -/
def recoveryStart (value : Nat) : Act := fun s =>
  if value ≠ 0xC35A then (s, stModeRefused)
  else if !s.recoveryAllowed then (s, stModeRefused)
  else if s.pwr.mode = .standby && s.rebuildSupplied then (s.rebuild, stOk)
  else if s.lg.anchor.state = .stowed then (s.recover, stOk)
  else (s, stModeRefused)

/-- RECOVERY_COMPLETE (R128 step 6): the tree and the root, the anchor, and a checkpoint; mirrored slots are restored. -/
def execRecoveryComplete (s : State) : Host.Outcome State Fault Refusal :=
  .next (match s.lg.recovering with
    | none => s
    | some rebuilt =>
      let s := s.onLg fun g => { g with
        recovering := none
        recoveryStatus := rsDone
        valid := true
        anchor := { g.anchor with state := .checkpointed }
        checkpointDue := true }
      let s := (s.clearCause .ledgerRoot).latch .lgStat 0x20
      let s := if s.canCheckpoint then s.startCheckpoint else s
      s.restoreMirrored rebuilt)

/-- RECOVERY_WAIT_EXPIRY (R127). The step to Standby is SELF_TEST_COMPLETE's. -/
def State.recoveryExpired (s : State) : Bool :=
  match s.lg.waitSince with
  | some c => decide (c + 1000000000 * s.num 0x4000 0xE 0 600 ≤ s.clock)
  | none => false

/-- A line has failed: a ledger line that the cache holds is not read from DDR5 (R118); a tag line fails the lines it
covers (R111); of the tenant pool the line alone reads as failed (Table 5.6). -/
def State.badRead (a : Nat) (s : State) : State :=
  match regionOf a with
  | .slot n => if s.lg.resident.contains n then s else s.lineFailed a
  | .node 0 n => if s.lg.nodes.contains n then s else s.lineFailed a
  | .node _ _ => s
  | .reel => s.lineFailed a
  | .ledgerTags | .reelTags => (linesTagged a).foldl (fun s l => s.markFailed l) (s.lineFailed a)
  | .pool => s.markFailed a
  | .poolTags => (linesTagged a).foldl (fun s l => s.markFailed l) s
  | .reserved => s

/-- The tag found for a line does not verify (R115). -/
def State.tagFails (s : State) (a : Nat) (found : Bytes) : Bool :=
  match regionOf a with
  | .slot _ | .node _ _ => found ≠ s.ledgerTag a
  | .reel => found ≠ s.reelTag a
  | .pool => true
  | _ => false

/-- The version of a line's copy is not the current one; the pool has no versions (Table 5.5). -/
def State.versionStale (s : State) (a v : Nat) : Bool :=
  match regionOf a with
  | .slot _ | .node _ _ => v ≠ s.version a
  | .reel => v ≠ s.reelLap ((a - 0x10000000) / 2 ^ 20)
  | _ => false

/-- MEMORY_SCRUB (R114, R115, R135): corrected errors are counted, a line that fails is handled under R115, and a difference
that the check before a write finds is an alarm (DESIGN CHOICE, log entry 142). -/
def State.badLine (b : BadLine) (s : State) : State :=
  let a := b.address / 64 * 64
  let ch := channelOf a
  if regionOf a = .reserved then s
  else match b.fault with
    | .corrected => (s.onLg fun g => { g with eccCorrected := g.eccCorrected + 1 }).latch (.chanStat ch) 4
    | .uncorrectable =>
      ((s.onLg fun g => { g with eccUncorrected := g.eccUncorrected + 1 }).latch (.chanStat ch) 8).badRead a
    | .tag found => if s.tagFails a found then s.badRead a else s
    | .version v => if s.versionStale a v then s.badRead a else s
    | .guard => match regionOf a with
      | .slot _ | .node _ _ | .reel => (s.securityMismatch 3).1
      | _ => s

def execMemoryScrub (bad : List BadLine) (s : State) : Host.Outcome State Fault Refusal :=
  .next (if s.powered then bad.foldl (fun s b => s.badLine b) s else s)

end Sys2Proof.Machine
end

