-- ==== Sys2Proof/Machine/Escrow.lean ====
section
/-! DEFINITION. The Escrow Line (R306 to R325): opening a reel, pickup, slates, frames, status, stalls, run-outs, and the
receive lanes. -/

namespace Sys2Proof.Machine

/-! ### The escrow policy (Table 13.14) -/

def State.recorderDigest (s : State) : Nat := s.num 0x7010 1 0 0
def State.reelCadence (s : State) : Nat := s.num 0x7010 2 0 2624
def State.escrowFec (s : State) : Nat := s.num 0x7010 3 0 1
def State.statusLimit (s : State) : Nat := s.num 0x7010 4 0 5
def State.ackLimit (s : State) : Nat := s.num 0x7010 5 0 20

/-- The policy's EDGE writes apply (R311, R324). -/
def State.applyPolicy (s : State) : State := [1, 2, 3, 4, 5].foldl (fun s k => s.applyNum 0x7010 k 0) s

/-! ### Slates (R316) -/

/-- PolicyDigest (Table 13.7). -/
def State.policyDigest (s : State) : Bytes :=
  Config.sha256 (be 32 s.recorderDigest ++ be 4 s.reelCadence ++ be 1 s.escrowFec ++ be 4 s.statusLimit
    ++ be 4 s.ackLimit)

/-- A reel slate up to its Continuity (Table 13.7). -/
def State.reelSlate (s : State) (kind reason count gapFirst gapLast : Nat) (waived : Bool) : Bytes :=
  be 1 kind ++ be 1 reason ++ be 2 128 ++ be 4 s.el.cadence ++ be 8 s.el.reelId ++ be 8 unitId ++ be 8 s.tb.deviceTime
    ++ be 8 count ++ be 8 gapFirst ++ be 8 gapLast ++ be 4 s.tg.groupsBurnt ++ be 2 s.el.runOut
    ++ be 1 (b2n s.lc.maint + 2 * s.escrowFec + 4 * b2n waived) ++ [0] ++ s.policyDigest

/-- BufferFirstCount: the first record the reel buffer holds, or the next one's count while it is empty (R314)
(DESIGN CHOICE, log entry 44). -/
def State.bufferFirst (s : State) : Nat :=
  match s.lg.reel with
  | r :: _ => r.last
  | [] => s.lg.journalCount + 1

/-- The opening slate (R314 to R316), with the gap that a waiver leaves. -/
def State.appendOpening (s : State) : State :=
  let gap := s.el.waived && decide (s.el.heldCount + 1 < s.bufferFirst)
  let body := s.reelSlate 0x20 0 s.el.heldCount (if gap then s.el.heldCount + 1 else 0)
    (if gap then s.bufferFirst - 1 else 0) gap
  let s := s.append body []
  s.onEl fun e => { e with segmentStart := s.lg.journalCount, waived := false }

/-- The reel reaches RUNNING (Table 13.10 OPENED). -/
def State.reelRunning (s : State) : State := (s.onEl fun e => { e with state := .running }).latch .elReel 1

/-- REEL_NOTICE of Maintenance, on a reel that is RUNNING (R45, R316). -/
def State.noticeMaintenance (s : State) : State :=
  if s.el.state = .running then s.append (s.reelSlate 0x21 1 0 0 0 false) [] else s

/-! ### Opening (R311, R312) -/

/-- What R311 and R396 ask before a reel opens. -/
def State.mayOpenReel (s : State) : Bool :=
  s.el.state = .idle && (s.pwr.mode = .standby || s.pwr.mode = .held) && s.en.firstSeed && !s.stands .ledgerRoot
    && !s.stands .vaultLost && !(match s.lc.staged with
      | some (dest, _) => dest = 5
      | none => false)

/-- A new reel in OPENING; the ephemeral secret and the nonce come from instance 77 (R309). -/
def State.openReel (s : State) : State :=
  let s := s.applyPolicy
  let r := s.generate 77 88 false
  let secret := r.1
  let s := r.2
  s.onEl fun e => { e with
    state := .opening
    reelId := s.pwr.bootCount % 2 ^ 20 * 2 ^ 44 + (e.reelCount + 1)
    reelCount := e.reelCount + 1
    cadence := s.reelCadence
    runOut := 0
    nonce := secret.take 32
    secret := p384Scalar (secret.drop 32)
    ephemeral := p384Point (p384Scalar (secret.drop 32))
    openSent := []
    openCount := s.lg.journalCount
    openContinuity := if s.lg.journalCount = 0 then List.replicate 32 0 else s.lg.continuity
    keyed := false
    frameSeq := 0
    statusSeq := 0
    ackSeq := 0
    sentPart := 0
    streamOffset := 0
    segmentStart := 0
    endCount := 0
    frames := []
    openStart := s.clock
    stopCause := 0
    ending := false
    waived := e.waiver
    waiver := false }

/-- A write of ReelOpen (R311): only 0x0000_0E1A acts (DEDUCED, log entry 107). -/
def reelOpen (value : Nat) : Act := fun s =>
  if value ≠ 0xE1A || !s.mayOpenReel then (s, stModeRefused)
  else match s.coreEntropyBlock with
    | some st => (s, st)
    | none => (s.openReel, stOk)

/-- A write of PickupWaive (R315). -/
def pickupWaive (value : Nat) : Act := fun s =>
  if value ≠ 0x5C1E then (s, stModeRefused) else (s.onEl fun e => { e with waiver := true }, stOk)

/-- An open is refused: ReelResult, and the reel is IDLE again (R312). -/
def State.refuseReel (code : Nat) (s : State) : State :=
  (s.onEl fun e => { e.unkeyed with state := .idle, result := code, waived := false }).latch .elReel 4

/-- Check 3 of R312. -/
def runOutOk (runOut cadence : Nat) : Bool :=
  decide (20 ≤ runOut ∧ runOut ≤ 2000 ∧ 1073741824 * cadence ≤ 32512 * (runOut - 10) * 1000000)

/-- The refusal code of an OPEN_ACK, if it is refused: the checks of R312 in order (DEDUCED, log entry 105). -/
def State.ackRefusal (s : State) (f : OpenAckFields) : Option Nat :=
  if s.recorderDigest = 0 || ofBe (Config.sha256 f.recorderKey) ≠ s.recorderDigest then some 0x10
  else if !(p384Valid f.ephemeral && f.sigOk) then some 0x11
  else if !runOutOk f.runOut s.el.cadence then some 0x12
  else if s.el.openCount < f.heldCount
      || (f.heldCount = s.el.openCount && slice f.heldContinuity 0 32 ≠ s.el.openContinuity) then some 0x13
  else none

/-- HeldCount covers records: they leave the reel buffer (R317). -/
def State.heldTo (n : Nat) (s : State) : State :=
  let s := s.onLg fun g => { g with reel := g.reel.filter fun r => n < r.last }
  s.onEl fun e => { e with
    heldCount := n
    sentCount := max n e.sentCount
    sentPart := if e.sentCount < n then 0 else e.sentPart }

/-- The OPEN_ACK frame (Tables 13.3 and 13.5). -/
def ackBytes (f : OpenAckFields) : Bytes :=
  be 4 0x544D5253 ++ [0x11, 0] ++ be 2 416 ++ be 8 f.reelId ++ be 8 0 ++ be 8 f.ackSeq ++ be 8 f.heldCount ++ be 4 f.freeMib
    ++ be 4 0 ++ slice f.nonce 0 32 ++ slice f.ephemeral 0 97 ++ slice f.recorderKey 0 97 ++ be 6 0
    ++ slice f.heldContinuity 0 32 ++ be 2 f.runOut ++ be 6 0 ++ slice f.signature 0 96

/-- A key of R313 under z, for one of its labels. -/
def reelKey (z : Bytes) (label n : Nat) (th : Bytes) : Bytes :=
  Config.out .hmacSha384 n [] [z, [0x46, BitVec.ofNat 8 label] ++ th]

/-- Both ends key the reel, then zero the secrets (R313). -/
def El.keyReel (f : OpenAckFields) (e : El) : El :=
  let z := p384Shared e.secret f.ephemeral
  let th := Config.sha384 (slice e.openSent 0 624 ++ ackBytes f)
  let salt := reelKey z 3 8 th
  { e with
    keyed := true
    secret := 0
    kFw := reelKey z 1 32 th
    kSt := reelKey z 2 32 th
    saltFw := salt.take 4
    saltSt := salt.drop 4
    lastTag := th.take 16 }

/-- An accepted OPEN_ACK: the reel is keyed (R313), and with nothing to pick up it runs (R314)
(DEDUCED, log entry 105). -/
def State.acceptAck (f : OpenAckFields) (s : State) : State :=
  let s := (s.onEl fun e => { e with sentCount := f.heldCount, sentPart := 0 }).heldTo f.heldCount
  let s := s.onEl fun e => { e.keyReel f with
    runOut := f.runOut
    heldContinuity := slice f.heldContinuity 0 32
    lastStatus := s.clock
    goodSince := s.clock }
  if f.heldCount = s.lg.journalCount then s.appendOpening.reelRunning
  else s.onEl fun e => { e with state := .pickup }

/-- A discarded frame of the recorder (R310). -/
def State.dropStatus (s : State) : State := s.onEl fun e => { e with statusDropped := e.statusDropped + 1 }

/-- OPEN_ACK (R312 to R314). -/
def execOpenAck (f : OpenAckFields) (s : State) : Host.Outcome State Fault Refusal :=
  .next (if !s.serdes then s
  else if s.el.state ≠ .opening || f.reelId ≠ s.el.reelId then s.dropStatus
  else match s.ackRefusal f with
    | some c => s.refuseReel c
    | none => s.acceptAck f)

/-- RECORDER_REFUSE (R312). -/
def execRecorderRefuse (reelId : Nat) (s : State) : Host.Outcome State Fault Refusal :=
  .next (if !s.serdes then s
  else if s.el.state ≠ .opening || reelId ≠ s.el.reelId then s.dropStatus
  else s.refuseReel 0x15)

/-- OPEN_TIMEOUT (R312): 1,000 ms of silence. -/
def execOpenTimeout (s : State) : Host.Outcome State Fault Refusal :=
  .next (if s.el.state = .opening && decide (s.el.openStart + 1000000000 ≤ s.clock) then s.refuseReel 0x14 else s)

/-! ### Stops (R319) -/

def endDrain : Nat := 1
def endRecorder : Nat := 2
def endBroken : Nat := 3
def endRequest : Nat := 4
def endPickup : Nat := 5

/-- The run-out begins. -/
def State.startRunOut (cause : Nat) (s : State) : State :=
  s.onEl fun e => { e with state := .runout, stopCause := cause, stopClock := s.clock }

/-- A stop request (R319) (DEDUCED, log entry 108). -/
def State.stopReel (cause : Nat) (s : State) : State :=
  match s.el.state with
  | .opening => s.refuseReel 0x14
  | .pickup | .running =>
    let s := s.startRunOut cause
    if cause ≠ endDrain && s.sealing then s.raiseCause .reelEnded else s
  | _ => s

/-- A write of ReelStop (R319): only 0x0000_0E50 acts. -/
def reelStop (value : Nat) : Act := fun s =>
  if value ≠ 0xE50 then (s, stModeRefused) else (s.stopReel endRequest, stOk)

/-! ### Pickup (R314) -/

/-- The `n` records of a byte string, each chained from `cont`: the records, the last one's count and Continuity. -/
def chainRecords : Nat → Bytes → Bytes → Nat → Option (List JournalRec × Bytes)
  | 0, [], cont, _ => some ([], cont)
  | 0, _ :: _, _, _ => none
  | n + 1, b, cont, last =>
    match recordShape b with
    | none => none
    | some (len, c) =>
      if b.length < len || slice b c 32 ≠ chain cont (b.take c) then none
      else
        match chainRecords n (b.drop len) (slice b c 32) (last + 1) with
        | none => none
        | some (rs, e) => some ({ bytes := b.take len, last := last + 1 } :: rs, e)

/-- The record at BufferFirstCount chains from `cont`; with an empty buffer `cont` is the journal's last Continuity. -/
def State.bufferChains (s : State) (cont : Bytes) : Bool :=
  match s.lg.reel with
  | [] => cont = s.lg.continuity
  | r :: _ =>
    match recordShape r.bytes with
    | some (_, c) => slice r.bytes c 32 = chain cont (r.bytes.take c)
    | none => false

/-- The host part's records, where every check of R314 passes. -/
def State.hostPart (s : State) : Option (List JournalRec) :=
  let addr := s.num 0x7000 9 0 0
  let n := s.num 0x7000 0xA 0 0
  if addr = 0 || n = 0 || 2 ^ 30 - s.reelFill - 2 ^ 20 < n || !s.dmaOk 0 addr n then none
  else match chainRecords (s.bufferFirst - 1 - s.el.heldCount) (s.dmaBytes addr n) s.el.heldContinuity s.el.heldCount with
    | some (rs, cont) => if s.bufferChains cont then some rs else none
    | none => none

/-- The host part is needed (R314, R315). -/
def State.hostPartNeeded (s : State) : Bool := !s.el.waived && decide (s.el.heldCount + 1 < s.bufferFirst)

/-- The read of the host part fails on PCIe. -/
def State.hostPartUnread (s : State) : Bool :=
  let addr := s.num 0x7000 9 0 0
  let n := s.num 0x7000 0xA 0 0
  addr ≠ 0 && n ≠ 0 && decide (n ≤ 2 ^ 30 - s.reelFill - 2 ^ 20) && !s.dmaOk 0 addr n

/-- PICKUP_VERIFIED (R314): the slate follows a check that passes; one that fails ends the reel with leader alone. -/
def execPickupVerified (s : State) : Host.Outcome State Fault Refusal :=
  .next (if s.el.state ≠ .pickup || s.el.segmentStart ≠ 0 then s
  else if !s.hostPartNeeded then s.appendOpening
  else match s.hostPart with
    | some rs => (s.onLg fun g => { g with reel := rs ++ g.reel }).appendOpening
    | none =>
      let s := if s.hostPartUnread then s.dmaReadFailed 0 else s
      (s.onEl fun e => { e with result := endPickup }).startRunOut endPickup)

/-! ### Frames (R307 to R309) -/

/-- A reel frame's header (Table 13.2). -/
def State.frameHeader (s : State) (type flags fill seq firstRecord : Nat) : Bytes :=
  be 4 0x544D524C ++ be 1 type ++ be 1 flags ++ be 2 fill ++ be 8 s.el.reelId ++ be 8 seq
    ++ be 8 (if seq = 0 then 0 else s.el.streamOffset) ++ be 2 firstRecord ++ be 6 0 ++ be 8 s.tb.deviceTime

/-- The OPEN frame, to its last body byte in use (Table 13.4); the rest of its body and its tag are zero. -/
def State.openFrame (s : State) : Bytes :=
  let h := s.frameHeader 4 0 576 0 0xFFFF
  let body := slice s.el.nonce 0 32 ++ slice s.el.ephemeral 0 97 ++ List.replicate 7 0 ++ deviceCert
    ++ be 8 s.el.openCount ++ slice s.el.openContinuity 0 32 ++ be 4 s.el.cadence ++ be 1 s.escrowFec ++ [0, 0, 0]
  h ++ body ++ deviceSign s.freeCtr (0x45 :: 0x44 :: Config.sha384 (h ++ body))

/-- Body bytes from the records still to be sent: `part` bytes of the first are sent, `room` bytes fit. The bytes, the
count of the last record now sent whole, and the bytes sent of the next. -/
def fillBody : List JournalRec → Nat → Nat → Nat → Bytes × Nat × Nat
  | [], part, _, sent => ([], sent, part)
  | r :: rs, part, room, sent =>
    let rest := r.bytes.drop part
    if rest.length ≤ room then
      let x := fillBody rs 0 (room - rest.length) r.last
      (rest ++ x.1, x.2)
    else (rest.take room, sent, part + room)

/-- The records that may be sent now: none before the slate, none past REEL_END. -/
def State.toSend (s : State) : List JournalRec :=
  if s.el.segmentStart = 0 then []
  else s.lg.reel.filter fun r => s.el.sentCount < r.last && (s.el.endCount = 0 || r.last ≤ s.el.endCount)

/-- Body offset of the first record that begins in a frame of `fill` bytes; 0xFFFF for none. -/
def firstRecordAt (l : List JournalRec) (part fill : Nat) : Nat :=
  let rest := if part = 0 then 0 else ((l.head?.map fun r => r.bytes.length).getD 0) - part
  if rest < fill then rest else 0xFFFF

/-- The reel ends with its FINAL frame (R319). -/
def State.endReel (s : State) : State :=
  (s.onEl fun e => { e.unkeyed with
    state := .idle
    result := e.stopCause
    frames := []
    segmentStart := 0
    endCount := 0
    ending := false
    waived := false }).latch .elReel 2

/-- An authenticated frame (R309): its body, filled up with zeros, under K_fw, and the tag that chains it to the frame before. -/
def El.seal (e : El) (seq : Nat) (header body : Bytes) : Bytes × Bytes :=
  let iv := e.saltFw ++ be 8 seq
  let cipher := Config.out .gcmCipher 8128 [] [e.kFw, iv, slice body 0 8128]
  (cipher, Config.out .gcmTag 16 [] [e.kFw, iv, header ++ e.lastTag, cipher])

/-- One authenticated frame goes out, on lane FrameSeq mod 4 (R307). -/
def State.sendFrame (s : State) : State :=
  let l := s.toSend
  let x := fillBody l s.el.sentPart 8128 s.el.sentCount
  let fill := x.1.length
  let runout := decide (s.el.state = .runout)
  let final := s.el.ending && (s.el.endCount = 0 || s.el.endCount ≤ x.2.1)
  let type := if fill = 0 then 2 else if s.el.state = .pickup then 3 else 1
  let seq := s.el.frameSeq + 1
  let h := s.frameHeader type (b2n runout + 2 * b2n final) fill seq (firstRecordAt l s.el.sentPart fill)
  let c := s.el.seal seq h x.1
  let s := s.emit (.escrowFrame (seq % 4) type (h ++ c.1 ++ c.2))
  let s := s.onEl fun e => { e with
    frameSeq := seq
    lastTag := c.2
    sentCount := x.2.1
    sentPart := x.2.2
    streamOffset := e.streamOffset + fill
    frames := e.frames ++ [(seq, s.clock)] }
  if final then s.endReel
  else if s.el.state = .pickup && s.el.segmentStart ≠ 0 && s.el.segmentStart ≤ s.el.sentCount then s.reelRunning
  else s

/-- REEL_FRAME_TICK (R297, R307). -/
def execReelFrameTick (s : State) : Host.Outcome State Fault Refusal :=
  .next (if !s.powered || !s.el.transmit then s
  else match s.el.state with
    | .opening =>
      let f := s.openFrame
      let s := [0, 1, 2, 3].foldl (fun s l => s.emit (.escrowFrame l 4 (slice f 0 8192))) s
      ((s.takeFree 1).onEl fun e => { e with openSent := f }).copyEl
    | .pickup | .running | .runout => s.sendFrame.copyEl
    | _ => s)

/-- REEL_END_APPEND (R319): S + RunOut − 5 ms has come. Without an opening slate there is none to append. -/
def execReelEndAppend (s : State) : Host.Outcome State Fault Refusal :=
  .next (if s.el.state ≠ .runout || s.el.ending
      || s.clock + 5000000 < s.el.stopClock + s.el.runOut * 1000000 then s
  else if s.el.segmentStart = 0 then s.onEl fun e => { e with ending := true }
  else
    let n := s.lg.journalCount + 1
    let s := s.append (s.reelSlate 0x22 s.el.stopCause (n + 1 - s.el.segmentStart) 0 0 false) []
    s.onEl fun e => { e with ending := true, endCount := n })

/-! ### Status and stalls (R310, R317, R318) -/

/-- A status frame is one the GX8 accepts (R310). -/
def State.statusAccepted (s : State) (f : StatusFields) : Bool :=
  s.el.keyed && f.tagOk && f.reelId = s.el.reelId && decide (s.el.statusSeq < f.statusSeq)

/-- What an accepted status frame reports is taken. -/
def State.takeStatus (f : StatusFields) (s : State) : State :=
  let s := s.onEl fun e => { e with
    statusSeq := f.statusSeq
    goodSince := if e.lastStatus + s.statusLimit * 1000000 < s.clock then s.clock else e.goodSince
    lastStatus := s.clock
    ackSeq := f.ackSeq
    frames := e.frames.filter fun x => f.ackSeq < x.1 }
  let s := s.heldTo f.heldCount
  if f.stop || f.broken then (s.latch .elReel 0x20).stopReel (if f.broken then endBroken else endRecorder) else s

/-- STATUS_FRAME (R310, R317, R319). -/
def execStatusFrame (f : StatusFields) (s : State) : Host.Outcome State Fault Refusal :=
  .next (if !s.powered then s else if s.statusAccepted f then s.takeStatus f else s.dropStatus)

/-- ESCROW_STALL (R318). -/
def State.stallReel (s : State) : State :=
  ((s.onEl fun e => { e with stalled := true }).latch .elReel 0x10).raiseCause .escrowStall

/-- STATUS_LIMIT_EXPIRY (R318). -/
def execStatusLimitExpiry (s : State) : Host.Outcome State Fault Refusal :=
  .next (if s.el.state = .running && !s.el.stalled
      && decide (s.el.lastStatus + s.statusLimit * 1000000 ≤ s.clock) then s.stallReel else s)

/-- A sent frame has not been acknowledged within AckLimit of its start. -/
def State.ackOverdue (s : State) : Bool := s.el.frames.any fun x => decide (x.2 + s.ackLimit * 1000000 ≤ s.clock)

/-- ACK_LIMIT_EXPIRY (R318). -/
def execAckLimitExpiry (s : State) : Host.Outcome State Fault Refusal :=
  .next (if s.el.state = .running && !s.el.stalled && s.ackOverdue then s.stallReel else s)

/-- STALL_RECOVERY (R318): 10 ms of status frames without a gap, and every sent frame acknowledged
(DEDUCED, log entry 106). -/
def execStallRecovery (s : State) : Host.Outcome State Fault Refusal :=
  .next (if s.el.stalled && s.el.keyed && decide (s.el.goodSince + 10000000 ≤ s.clock)
      && decide (s.clock < s.el.lastStatus + s.statusLimit * 1000000) && s.el.frames.isEmpty then
    s.onEl fun e => { e with stalled := false }
  else s)

/-- REEL_BUFFER_RESUME (R27, R77): with no other cause the GX8 goes back to Service by itself (R24). -/
def execReelBufferResume (s : State) : Host.Outcome State Fault Refusal :=
  .next (if !s.stands .reelBufferFull || 2 ^ 29 < s.reelFill then s
  else
    let s := s.clearCause .reelBufferFull
    if s.pwr.mode = .held && s.pwr.causes = [] then s.onPwr fun p => { p with mode := .service } else s)

/-! ### Receive lanes (Table 13.11) -/

/-- ESCROW_LANE_BLOCK_LOCK. -/
def execEscrowLaneBlockLock (lane : Nat) (locked : Bool) (s : State) : Host.Outcome State Fault Refusal :=
  .next (if !s.powered || 4 ≤ lane || (locked && !s.serdes) then s
  else
    let lost := bitOf s.el.rxLock lane && !locked
    let s := s.onEl fun e => { e with rxLock := setBit e.rxLock lane locked }
    if lost then s.latch (.elLane 0) (2 ^ (8 + lane)) else s)

/-- UNCORRECTABLE_CODEWORD: bits [15:12] of EL_LANE_STAT, or bit 5 of XL_PORT_STAT of the lane's
port (Table 14.10). -/
def execUncorrectableCodeword (escrow : Bool) (lane : Nat) (s : State) : Host.Outcome State Fault Refusal :=
  .next (if !s.powered || (if escrow then 4 else 16) ≤ lane then s
  else if escrow then s.latch (.elLane 0) (2 ^ (12 + lane)) else s.latch (.xlPort (lane / 4)) 0x20)

end Sys2Proof.Machine
end

