-- ==== Sys2Proof/Machine/Landing.lean ====
section
/-! DEFINITION. Landing (R75 to R81, R97 to R100, R119, R336): the checks, the journal record and its signature, the
mirror's answer, the commit, the receipt and the completion. -/

namespace Sys2Proof.Machine

/-- Landings go on: main power, no stow, no erase (R81, R125). -/
def State.lands (s : State) : Bool :=
  s.powered && !s.pwr.stowed && s.pwr.mode ≠ .quarantine && s.pwr.mode ≠ .retired

/-- Landing step 2 (R21): no take of the slot with a lower serial is still in flight. -/
def State.turnToLand (s : State) (t : Take) : Bool :=
  s.td.inflight.all fun u => u.slot ≠ t.slot || t.serial ≤ u.serial

/-- The code a take lands VOID with, after step 1: its own failure; a stale owner epoch; a stale role epoch of a Fleet
slot; a slot that waits for its authority (R75, R76, R80, R337). -/
def State.landingCode (s : State) (t : Take) : Option Status :=
  match t.failure with
  | some c => some c
  | none =>
    if (s.window (t.slot / 1024)).epoch ≠ t.epoch then some stStaleOwner
    else if (s.slot t.slot).fleet && (s.slot t.slot).roleEpoch ≠ t.roleEpoch then some stNotMirror
    else if s.lg.suspended.contains t.slot then some stMirrorTimeout
    else none

/-- What the Continuity of a take's record covers: bytes 0 to 95 of Table 3.10. -/
def Take.record (t : Take) (time : Nat) : Bytes :=
  let reason := match t.failure with
    | some c => c.toNat
    | none => 0
  be 1 (if t.failure = none then 1 else 2) ++ be 1 t.sealMode ++ be 2 reason ++ be 1 t.tenant ++ [0] ++ be 2 t.epoch
    ++ be 4 t.slot ++ be 2 t.gate ++ be 2 t.handle ++ be 8 t.serial ++ be 8 t.officialTime ++ be 8 time
    ++ be 8 t.clientTag ++ be 8 t.manifest ++ be 4 (if t.manifest = 0 then 0 else t.leaf) ++ be 4 t.length
    ++ slice (t.digest.getD []) 0 32

/-- The signature at the end of a record: none in a manifest-mode SEALED record (R78). -/
def State.recordTail (s : State) (t : Take) (body : Bytes) : Bytes × State :=
  if t.failure ≠ none then s.journalSignature (body ++ chain s.lg.continuity body)
  else (if t.sealMode = 0 then slice t.signature 0 64 else [], s)

/-- The slot image of a landing (R119). -/
def State.landImage (t : Take) (s : State) : State :=
  (s.onSlot t.slot fun x => { x with
    serial := t.serial
    official := t.officialTime
    landing := s.tb.deviceTime
    digest := s.lg.continuity.take 16 }).soil t.slot

/-- The signature suite of a handle type (Table 4.6): 0x01 hybrid, 0x02 ECDSA P-256, 0x03 Ed25519. -/
def sigSuite (type : Nat) : Nat :=
  match type with
  | 0x40 => 0x01
  | 0x01 => 0x02
  | 0x04 => 0x03
  | _ => 0

/-- Levels of a tree of `n` leaves: ceil(log2 n). -/
def treeDepth (n : Nat) : Nat := ((List.range 9).find? fun k => decide (n ≤ 2 ^ k)).getD 8

/-- The receipt of a SEALED take (R100, Tables 4.9 to 4.11). -/
def State.receiptOf (s : State) (t : Take) : Bytes :=
  let head := fun (kind len suite path leaf entry : Nat) =>
    le 1 kind ++ le 1 1 ++ le 2 len ++ le 1 suite ++ le 1 path ++ le 2 0 ++ le 4 leaf ++ le 4 entry
  let digest := slice (t.digest.getD []) 0 32
  match s.manifest t.manifest with
  | some m =>
    if t.sealMode = 0 then []
    else
      let d := treeDepth m.leaves.length
      head 2 (256 + 32 * d) 1 d t.leaf m.slateEntry ++ t.header ++ digest ++ m.head ++ slice m.ecSig 0 64
        ++ (m.path t.leaf).flatten
  | none =>
    head 1 160 (sigSuite ((s.handle t.handle).map (·.type) |>.getD 0)) 0 0 0xFFFFFFFF ++ t.header ++ digest
      ++ slice t.signature 0 64

/-- The receipt and then the completion of a landed take (R75 step 7, R98): a receipt that fails gives DMA_FAULT with
Outcome SEALED (R61). -/
def State.finishTake (t : Take) (s : State) : State :=
  match t.failure with
  | some c => s.completeTake t c 2
  | none =>
    if t.noReceipt || t.silent || s.silentDrain then s.completeTake t stOk 1
    else
      let b := s.receiptOf t
      let ok := s.dmaLands t.tenant t.receipt b.length
      (s.dmaWrite t.tenant t.receipt b).completeTake t (if ok then stOk else stDmaFault) 1

/-- A slated manifest whose takes have all landed is done. -/
def State.retireManifest (mid : Nat) (s : State) : State :=
  if mid ≠ 0 && s.td.inflight.all (fun t => t.manifest ≠ mid) then
    s.onTd fun d => { d with manifests := d.manifests.filter fun m => !(m.id = mid && m.phase = .slated) }
  else s

/-- Landing step 7: the record and the slot image, the release of the In-Flight entry, the receipt and the completion,
then the checks that follow a journal record. -/
def State.commitTake (t : Take) (s : State) : State :=
  let body := t.record s.tb.deviceTime
  let tail := s.recordTail t body
  let s := (tail.2.journal body tail.1).landImage t
  let s := s.onTd fun d => { d with inflight := d.inflight.filter fun u => u.id ≠ t.id }
  let s := s.finishTake t
  (s.retireManifest t.manifest).afterJournal.admitSeals

/-- The mirror a record goes to, unless it has been there, or lands without it (R76, R337). -/
def State.hopNeeded (s : State) (t : Take) : Option Nat :=
  if t.mirrorSent.isSome || t.failure = some stNotMirror || t.failure = some stMirrorTimeout
    || s.lg.suspended.contains t.slot then none
  else s.landingHop t.slot

/-- Landing step 6 (R336): MIRROR_REC to the authority with the record as it stands, or step 7
(DEDUCED, log entry 86). -/
def State.hopOrCommit (t : Take) (s : State) : State :=
  match s.hopNeeded t with
  | none => s.commitTake t
  | some m =>
    let body := t.record s.tb.deviceTime
    let tail := s.recordTail t body
    let record := body ++ chain s.lg.continuity body ++ tail.1
    let s := (tail.2.applyNum 0x7800 5 0).onTake t.id fun t => { t with phase := .mirror, mirrorSent := some s.clock }
    s.sendMember m 2 0x30 (be 4 t.slot ++ be 2 t.roleEpoch ++ be 2 t.epoch ++ record)

/-- Steps 3 to 5 of R75 for a take whose code is known: a VOID record goes to the journal signer first. -/
def State.recordTake (t : Take) (s : State) : State :=
  match t.failure with
  | some _ => s.onTake t.id fun _ => { t with signature := [], phase := .journalSign }
  | none => s.hopOrCommit t

/-- A landing compare that finds a difference (R75 step 4, R384) (DESIGN CHOICE, log entry 114). -/
def State.compareMismatch (t : Take) (s : State) : State :=
  let r := s.securityMismatch (0x100 + t.slot % 4)
  if r.2 then r.1
  else match r.1.takeById t.id with
    | some t => r.1.recordTake { t with failure := some (t.failure.getD stInternalFault) }
    | none => r.1

/-- TAKE_LANDING (R75, R76). -/
def execTakeLanding (id : Nat) (compareEqual : Bool) (s : State) : Host.Outcome State Fault Refusal :=
  .next (match s.takeById id with
    | some t =>
      if t.phase ≠ .returned || !s.lands || !s.turnToLand t then s
      else
        let t : Take := { t with failure := s.landingCode t }
        if compareEqual then s.recordTake t else s.compareMismatch t
    | none => s)

/-- JOURNAL_SIGN_COMPLETE (R75 step 5): the landing of a VOID record goes on. -/
def execJournalSignComplete (id : Nat) (s : State) : Host.Outcome State Fault Refusal :=
  .next (match s.takeById id with
    | some t => if t.phase = .journalSign && s.lands && s.turnToLand t then s.hopOrCommit t else s
    | none => s)

end Sys2Proof.Machine
end

