-- ==== Sys2Proof/Machine/Fleet.lean ====
section
/-! DEFINITION. The Crossing Links and the Fleet (R326 to R348): bring-up, frames and their routes, leases, roles, landings
at the authority, member loss and takeover, handover, and Ceremony claims. -/

namespace Sys2Proof.Machine

/-! ### Ports (R329 to R331) -/

/-- A port goes DOWN: its keys and the frames queued for it are gone; while the conditions of R329 hold it trains again
(Table 14.4). -/
def State.portDown (p : Nat) (s : State) : State :=
  let s := if (s.port p).state = .up then s.latch (.xlPort p) 2 else s
  (s.onPort p fun q => { cfg := q.cfg }).startPort p

/-- A failure of authentication or of a tag (R331): AUTH_FAIL, LinkAuthFailures and an Evidence Log record
(DEDUCED, log entry 112). -/
def State.authFailed (p claimed : Nat) (s : State) : State :=
  ((s.latch (.xlPort p) 4).bumpFleet 0xA).logEvent 0x0005 (be 1 p ++ [0] ++ be 2 claimed ++ be 4 0)

/-- Bring-up has failed: DOWN, with a new attempt 1 s later (Table 14.4). -/
def State.retryPort (p : Nat) (s : State) : State :=
  s.onPort p fun q => { cfg := q.cfg, retryAt := some (s.clock + 1000000000) }

/-- A HELLO goes to the link partner, without or with its signature (R330): in the clear, its tag zero (R327). -/
def State.sendHello (p : Nat) (sig : Bytes) (s : State) : State :=
  let payload := (s.port p).hello ++ slice sig 0 96
  let f : QFrame := { vc := 3, type := 0x01, dest := 0xFFFF, src := s.memberId, down := false, payload := payload }
  s.emit (.linkFrame p 3 0x01 0xFFFF s.memberId false 0 0 0 payload (linkHeader f 0 0 0 ++ payload ++ List.replicate 16 0))

/-- Bytes 0 to 447 of a HELLO (R330). -/
def helloBytes (nonce ephemeral cert : Bytes) (fleet member : Nat) : Bytes :=
  slice nonce 0 32 ++ slice ephemeral 0 97 ++ List.replicate 7 0 ++ slice cert 0 296 ++ be 8 fleet ++ be 2 member ++ be 6 0

/-- PORT_LANES_LOCKED: keying starts with a HELLO, not yet signed (R330). While instance 79 does not deliver, keying is
refused (Table 2.7). -/
def execPortLanesLocked (p : Nat) (s : State) : Host.Outcome State Fault Refusal :=
  .next (if (s.port p).state ≠ .training || !s.portMay p || !s.serdes then s
  else if s.coreEntropyBlock.isSome then s.retryPort p
  else
    let r := s.generate 79 88 false
    let s := r.2
    let d := p384Scalar (r.1.drop 32)
    let hello := helloBytes r.1 (p384Point d) deviceCert s.fleetId s.memberId
    let s := s.onPort p fun q => { q with
      state := .keying, since := s.clock, hello := hello, helloSigned := false, secret := d }
    s.sendHello p [])

/-- TRAINING_TIMEOUT: the lanes have not locked within 100 ms. -/
def execTrainingTimeout (p : Nat) (s : State) : Host.Outcome State Fault Refusal :=
  .next (if (s.port p).state = .training && decide ((s.port p).since + 100000000 ≤ s.clock) then s.retryPort p else s)

/-- KEYING_TIMEOUT: keying has not ended within 5 ms. -/
def execKeyingTimeout (p : Nat) (s : State) : Host.Outcome State Fault Refusal :=
  .next (if (s.port p).state = .keying && decide ((s.port p).since + 5000000 ≤ s.clock) then
    (s.authFailed p (s.port p).partner).retryPort p
  else s)

/-- KEYING_RETRY: 1 s after the failure. -/
def execKeyingRetry (p : Nat) (s : State) : Host.Outcome State Fault Refusal :=
  .next (match (s.port p).retryAt with
    | some t => if t ≤ s.clock then (s.onPort p fun q => { q with retryAt := none }).startPort p else s
    | none => s)

/-- The partner's signed HELLO is accepted (R330). -/
def State.helloAccepted (s : State) (h : HelloFields) : Bool :=
  h.certOk && p384Valid h.ephemeral && h.sigOk && decide (h.memberId < 1024) && s.memberUnit h.memberId ≠ 0
    && s.memberUnit h.memberId = h.unitId && h.fleetId = s.fleetId && h.memberId ≠ s.memberId

/-- The transcript hash of both HELLOs, the lower MemberId first (R330). -/
def State.linkHash (p : Nat) (h : HelloFields) (s : State) : Bytes :=
  let own := (s.port p).hello
  let other := helloBytes h.nonce h.ephemeral h.cert h.fleetId h.memberId
  Config.sha384 (if s.memberId < h.memberId then own ++ other else other ++ own)

/-- A key of R330 under z, for one of its labels. -/
def linkKey (z : Bytes) (label n : Nat) (th : Bytes) : Bytes :=
  Config.out .hmacSha384 n [] [z, [0x4E, BitVec.ofNat 8 label] ++ th]

/-- The port is keyed and UP; z and the ephemeral secret are gone (R330). -/
def State.portUp (p : Nat) (h : HelloFields) (s : State) : State :=
  let th := s.linkHash p h
  let z := p384Shared (s.port p).secret h.ephemeral
  let up := linkKey z 1 32 th
  let dn := linkKey z 2 32 th
  let salt := linkKey z 3 8 th
  let low := decide (s.memberId < h.memberId)
  (s.onPort p fun q => {
    cfg := q.cfg, state := .up, partner := h.memberId, lastFrame := s.clock, lastSent := s.clock
    kTx := if low then up else dn, kRx := if low then dn else up
    saltTx := if low then salt.take 4 else salt.drop 4
    saltRx := if low then salt.drop 4 else salt.take 4 }).latch (.xlPort p) 1

/-- This side's signed HELLO, once: its signature covers both HELLOs (R330). -/
def State.signHello (p : Nat) (h : HelloFields) (s : State) : State :=
  if (s.port p).helloSigned then s
  else
    let sig := deviceSign s.freeCtr (0x4C :: s.linkHash p h)
    ((s.takeFree 1).onPort p fun q => { q with helloSigned := true, partner := h.memberId }).sendHello p sig

/-- HELLO (R330). On a port that is UP a HELLO's LinkSeq is not the next expected (R331). -/
def execHello (p : Nat) (h : HelloFields) (s : State) : Host.Outcome State Fault Refusal :=
  .next (match (s.port p).state with
    | .keying =>
      if !h.signed then s.signHello p h
      else if s.helloAccepted h then (s.signHello p h).portUp p h
      else (s.authFailed p h.memberId).retryPort p
    | .up => s.portDown p
    | _ => s)

/-- LINK_IDLE_TIMEOUT (R331). -/
def execLinkIdleTimeout (p : Nat) (s : State) : Host.Outcome State Fault Refusal :=
  .next (if (s.port p).state = .up && decide ((s.port p).lastFrame + 100000 ≤ s.clock) then s.portDown p else s)

/-! ### Frames (R327, R328, R332, R333) -/

/-- A frame has come in on a link: LinkSeq and tag are checked (R331), its credits are returned, and the units it takes are
freed. -/
def State.frameIn (h : LinkHdr) (s : State) : State × Bool :=
  let q := s.port h.port
  if q.state ≠ .up then (s, false)
  else if !h.tagOk then ((s.authFailed h.port q.partner).portDown h.port, false)
  else if h.seq ≠ q.rxSeq + 1 then (s.portDown h.port, false)
  else
    let s := s.onPort h.port fun q => { q with
      rxSeq := h.seq
      lastFrame := s.clock
      credits := mapSet 64 q.credits h.creditVc (min 64 (q.credit h.creditVc + h.creditCount))
      owed := mapSet 0 q.owed h.vc (mapGet 0 q.owed h.vc + frameUnits h.length) }
    let s := s.onXl fun x => { x with
      memberSeen := mapSet 0 x.memberSeen h.src s.clock
      lost := x.lost.filter (· ≠ h.src) }
    (s.flushPort h.port, true)

/-- A frame that R332 or R333 discards. -/
def State.routeViolation (p : Nat) (s : State) : State := (s.latch (.xlPort p) 8).bumpFleet 0xB

/-- A frame for another member leaves by its entry (R332, R333). -/
def State.forwardFrame (h : LinkHdr) (type : Nat) (payload : Bytes) (s : State) : State :=
  let r := s.route h.port h.dest
  if h.wentDown && r.up then s.routeViolation h.port
  else s.sendPort r.out { vc := h.vc, type := type, dest := h.dest, src := h.src, down := h.wentDown || !r.up,
                          payload := payload }

/-- The VC of a frame type (Table 14.3). -/
def vcOf (type : Nat) : Option Nat :=
  if 0x10 ≤ type ∧ type ≤ 0x14 then some 0
  else if 0x20 ≤ type ∧ type ≤ 0x26 then some 1
  else if 0x30 ≤ type ∧ type ≤ 0x33 then some 2
  else if 0x01 ≤ type ∧ type ≤ 0x05 then some 3
  else none

/-- A frame of a known type arrives: one on the wrong VC is discarded and counted (R327); one for this member acts; one for
another is forwarded. -/
def State.receive (h : LinkHdr) (type : Nat) (payload : Bytes) (f : State → State) (s : State) : State :=
  let r := s.frameIn h
  let s := r.1
  if !r.2 then s
  else if vcOf type ≠ some h.vc then s.bumpFleet 0xA
  else if h.dest = 0xFFFF then f s
  else
    let e := s.route h.port h.dest
    if !e.valid then s.routeViolation h.port
    else if e.isLocal then f s
    else s.forwardFrame h type payload

/-- LINK_FRAME_FORWARD (R332, R333): a frame for another member; for this member the row of its type acts. -/
def execLinkFrameForward (h : LinkHdr) (type : Nat) (payload : List (BitVec 8)) (s : State) :
    Host.Outcome State Fault Refusal :=
  .next (s.receive h type payload fun s => s)

/-- LINK_FRAME_DISCARD (R327). -/
def execLinkFrameDiscard (h : LinkHdr) (type : Nat) (s : State) : Host.Outcome State Fault Refusal :=
  .next (
    let r := s.frameIn h
    if r.2 && vcOf type ≠ some h.vc then r.1.bumpFleet 0xA else r.1)

/-- CREDIT_TICK (R331): a port idle for 10 µs sends a CREDIT frame. -/
def execCreditTick (p : Nat) (s : State) : Host.Outcome State Fault Refusal :=
  .next (if (s.port p).state = .up && decide ((s.port p).lastSent + 10000 ≤ s.clock) then
    s.sendPort p { vc := 3, type := 0x03, dest := 0xFFFF, src := s.memberId, down := false, payload := [] }
  else s)

/-- CREDIT (R328). -/
def execCredit (h : LinkHdr) (s : State) : Host.Outcome State Fault Refusal :=
  .next (s.receive h 0x03 [] fun s => s)

/-- CREDIT_STALL_TIMER (R328). -/
def execCreditStallTimer (p vc : Nat) (s : State) : Host.Outcome State Fault Refusal :=
  .next (match mapGet none (s.port p).stalledSince vc with
    | some c => if c + 1000000 < s.clock then s.latch (.xlPort p) 0x10 else s
    | none => s)

/-- LINK_REQUEST_RESEND (R328): the same RequestId after 1 ms. -/
def execLinkRequestResend (reqId : Nat) (s : State) : Host.Outcome State Fault Refusal :=
  .next (match s.xl.requests.find? fun r => r.reqId = reqId with
    | some r =>
      if r.sent + 1000000 ≤ s.clock then
        (s.onXl fun x => { x with requests := x.requests.map fun q =>
          if q.reqId = reqId then { q with sent := s.clock } else q }).sendMember r.dest 0 r.type r.payload
      else s
    | none => s)

/-- The response to a request: it carries the request's RequestId and is kept for a repetition (R328). -/
def State.respond (h : LinkHdr) (type : Nat) (body : Bytes) (s : State) : State :=
  let payload := be 8 h.reqId ++ body
  (s.onXl fun x => { x with answered := x.answered ++
    [{ src := h.src, reqId := h.reqId, type := type, payload := payload }] }).sendMember h.src 1 type payload

/-- A request acts once; its repetition gets the first answer again (R328). -/
def State.asRequest (h : LinkHdr) (f : State → State) (s : State) : State :=
  match s.xl.answered.find? fun a => a.src = h.src && a.reqId = h.reqId with
  | some a => s.sendMember h.src 1 a.type a.payload
  | none => f s

/-- The request that a response answers, taken from those outstanding. -/
def State.takeRequest (h : LinkHdr) (type : Nat) (s : State) : Option (LinkReq × State) :=
  (s.xl.requests.find? fun r => r.reqId = h.reqId && r.dest = h.src && r.type = type).map fun r =>
    (r, s.onXl fun x => { x with requests := x.requests.filter fun q => q.reqId ≠ r.reqId })

/-! ### Leases (R335) -/

/-- The copy of a LEASED and MIRRORED slot goes to the mirror before a grant (Table 14.6). -/
def State.copyToMirror (n : Nat) (s : State) : State :=
  let x := s.slot n
  if x.leased && x.mirrored && x.home = s.memberId then
    s.sendMember x.mirror 1 0x26 (be 8 0 ++ roleBytes (s.roleOf n))
  else s

/-- LEASE_REQ (R335): the authority grants the next lease. -/
def execLeaseReq (h : LinkHdr) (slot : Nat) (s : State) : Host.Outcome State Fault Refusal :=
  .next (s.receive h 0x10 (be 8 h.reqId ++ be 4 slot) fun s => s.asRequest h fun s =>
    let x := s.slot slot
    if x.fleet && x.authority = s.memberId && (x.leased || x.home = h.src)
        && !s.xl.takeover.any (fun t => t.slot = slot) && s.grantLimit slot < 2 ^ 64 - 1 then
      let r := s.grantLease slot h.src
      (r.1.copyToMirror slot).respond h 0x20 (be 4 slot ++ be 8 r.2.first ++ be 8 r.2.last)
    else s)

/-- LEASE_GRANT (R335). -/
def execLeaseGrant (h : LinkHdr) (slot : Nat) (range : LeaseRange) (s : State) : Host.Outcome State Fault Refusal :=
  .next (s.receive h 0x20 (be 8 h.reqId ++ be 4 slot ++ be 8 range.first ++ be 8 range.last) fun s =>
    match s.takeRequest h 0x10 with
    | none => s
    | some (r, s) =>
      if beAt r.payload 8 4 = slot && (s.slot slot).fleet && (s.slot slot).authority = h.src then
        s.onXl fun x => { x with leases := x.leases ++
          [{ slot := slot, holder := s.memberId, first := range.first, last := range.last }] }
      else s)

/-! ### Roles (R338) -/

/-- A slot image takes roles. -/
def State.setRoles (n home mirror : Nat) (mirrored leased : Bool) (epoch : Nat) (s : State) : State :=
  (s.onSlot n fun x => { x with
    home := home
    mirror := mirror
    roleEpoch := epoch % 65536
    flags := setBit (setBit x.flags 0 mirrored) 1 leased }).soil n

/-- The leases, grants and acknowledgements of a slot start afresh from a serial. -/
def State.freshGrants (n serial : Nat) (s : State) : State :=
  s.onXl fun x => { x with
    leases := x.leases.filter fun l => l.slot ≠ n
    acked := x.acked.filter fun e => e.1 / 2048 ≠ n
    forwarded := x.forwarded.filter fun f => f.slot ≠ n
    grantLimit := mapSet 0 x.grantLimit n serial }

/-- A copy of the grant table comes with a role state: the leases of other members, each holder's last acknowledged serial,
and GrantLimit, which never decreases (R335, Table 14.7). -/
def State.installGrants (r : RoleFields) (s : State) : State :=
  let me := s.memberId
  s.onXl fun x => { x with
    leases := (x.leases.filter fun l => l.slot ≠ r.slot || l.holder = me)
      ++ (r.leases.filter fun g => g.holder ≠ me).map fun g =>
        { slot := r.slot, holder := g.holder, first := g.first, last := g.last }
    acked := r.leases.foldl (fun m g => mapSet 0 m (ackKey r.slot g.holder) g.acked) x.acked
    grantLimit := mapSet 0 x.grantLimit r.slot
      (r.leases.foldl (fun m g => max m g.last) (max r.serial (mapGet 0 x.grantLimit r.slot))) }

/-- A slot with a new role epoch serves again (R76) (DEDUCED, log entry 111). -/
def State.serveAgain (n : Nat) (s : State) : State :=
  s.onLg fun g => { g with suspended := g.suspended.filter (· ≠ n) }

/-- A role change takes effect at the home (R338): ROLE ASSIGNED. With another authority the leases start afresh. -/
def State.assignRole (n m : Nat) (leased : Bool) (s : State) : State :=
  let old := s.slot n
  let s := s.setRoles n s.memberId m (m ≠ 0xFFFF) leased (old.roleEpoch + 1)
  let s := if old.fleet && old.authority = (s.slot n).authority then s else s.freshGrants n old.serial
  let s := (s.serveAgain n).append (s.fleetRecord 0x50 1 0 n 0xFFFF 0 0) []
  s.wantLease n (s.slot n).serial

/-- The role epoch of a slot has changed: the other members that hold it are told. -/
def State.noticeRole (n except : Nat) (s : State) : State :=
  let x := s.slot n
  let who := ([x.home, x.mirror] ++ (s.xl.leases.filter fun l => l.slot = n).map (·.holder)).eraseDups
  (who.filter fun m => m ≠ 0xFFFF && m ≠ s.memberId && m ≠ except).foldl
    (fun s m => State.sendMember m 3 0x04 (be 4 n ++ be 2 x.roleEpoch) s) s

/-- A WRITE whose completion waits for another member; the Directory answers it when that comes. -/
def stWaits : Status := 0xFFFF

def State.roleSlot (s : State) : Nat := s.num 0x7820 1 0 0
def State.roleMirror (s : State) : Nat := s.num 0x7820 2 0 0xFFFF
def State.roleLeased (s : State) : Bool := s.num 0x7820 3 0 0 = 1

/-- Other members hold leases of the slot. -/
def State.lentOut (s : State) (n : Nat) : Bool := s.xl.leases.any fun l => l.slot = n && l.holder ≠ s.memberId

/-- A write of RoleApply (R338): only 0x01 acts. -/
def roleApply (value : Nat) : Act := fun s =>
  let n := s.roleSlot
  let m := s.roleMirror
  let x := s.slot n
  let w := s.window (n / 1024)
  if value ≠ 1 then (s, stModeRefused)
  else if 2097152 ≤ n || w.owner = 0xFF || w.reassigning || (x.fleet && x.home ≠ s.memberId) then (s, stBadSlot)
  else if s.slotInFlight n || s.xl.offer.isSome || (x.fleet && x.leased && s.lentOut n) then (s, stSlotBusy)
  else if m = 0xFFFF then
    let old := x.mirror
    let s := s.assignRole n 0xFFFF s.roleLeased
    (if x.mirrored then s.sendMember old 3 0x04 (be 4 n ++ be 2 (s.slot n).roleEpoch) else s, stOk)
  else if m = s.memberId || !s.reachable m then (s, stMirrorTimeout)
  else
    let r : RoleFields := { s.roleOf n with roleEpoch := (x.roleEpoch + 1) % 65536, home := s.memberId, mirror := m
                                            mirrored := true, leased := s.roleLeased, leases := [] }
    let id := s.xl.nextReq
    let s := s.sendRequest m 0x11 (roleBytes r ++ be 1 w.owner)
    (s.onXl fun y => { y with offer := some { slot := n, mirror := m, leased := s.roleLeased, start := s.clock
                                              reqId := id } }, stWaits)

/-- ROLE_OFFER (R334, R338): the mirror accepts unless another tenant owns the window here, it has takes of the slot in flight,
or the slot has another home. -/
def execRoleOffer (h : LinkHdr) (r : RoleFields) (tenant : Nat) (s : State) : Host.Outcome State Fault Refusal :=
  .next (s.receive h 0x11 (be 8 h.reqId ++ roleBytes r ++ be 1 tenant) fun s => s.asRequest h fun s =>
    let n := r.slot
    let x := s.slot n
    if 2097152 ≤ n || (s.window (n / 1024)).owner ≠ tenant || (s.window (n / 1024)).reassigning then s.respond h 0x21 [2]
    else if r.mirror ≠ s.memberId || s.slotInFlight n || (x.fleet && x.home ≠ h.src) then s.respond h 0x21 [0]
    else
      let keep := x.fleet && x.leased = r.leased && x.mirror = s.memberId
      let s := s.setRoles n h.src s.memberId true r.leased r.roleEpoch
      let s := s.onSlot n fun x => { x.takeImage r with state := 2 }
      let s := if keep then s else s.freshGrants n r.serial
      let s := (s.serveAgain n).append (s.fleetRecord 0x50 1 0 n 0xFFFF 0 0) []
      s.respond h 0x21 [1])

/-- The answer as a ROLE_ANSWER carries it; the manual does not lay the payload out (DEDUCED, log entry 79). -/
def answerByte : RoleAnswer → Nat
  | .refused => 0
  | .accepted => 1
  | .badSlot => 2

/-- ROLE_ANSWER decides the offer that is open: the RoleApply completes (R338). -/
def State.roleAnswered (h : LinkHdr) (answer : RoleAnswer) (s : State) : State × Option Status :=
  match s.xl.offer, s.takeRequest h 0x11 with
  | some o, some (r, s) =>
    if o.reqId ≠ r.reqId then (s, none)
    else
      let s := s.onXl fun x => { x with offer := none }
      match answer with
      | .accepted => (s.assignRole o.slot o.mirror o.leased, some stOk)
      | .refused => (s, some stSlotBusy)
      | .badSlot => (s, some stBadSlot)
  | _, _ => (s, none)

/-- ROLE_OFFER_TIMEOUT: no answer within 1 ms. -/
def State.roleOfferLate (s : State) : State × Option Status :=
  match s.xl.offer with
  | some o =>
    if o.start + 1000000 ≤ s.clock then
      (s.onXl fun x => { x with offer := none, requests := x.requests.filter fun q => q.reqId ≠ o.reqId },
        some stMirrorTimeout)
    else (s, none)
  | none => (s, none)

/-! ### Landings at the authority (R336, R337) -/

/-- Role epochs are compared modulo 2^16: `a` is ahead of `b`. -/
def epochAhead (a b : Nat) : Bool :=
  let d := (a + 65536 - b % 65536) % 65536
  decide (0 < d ∧ d < 32768)

/-- The conditions of R336 for an acknowledgement. -/
def State.mayAck (s : State) (m : MirrorFields) (holder : Nat) : Bool :=
  let x := s.slot m.slot
  x.fleet && x.authority = s.memberId && x.roleEpoch = m.roleEpoch
    && !s.xl.takeover.any (fun t => t.slot = m.slot)
    && nextLeased (mapGet 0 s.xl.acked (ackKey m.slot holder))
        (s.xl.leases.filter fun l => l.slot = m.slot && l.holder = holder) = some m.serial

/-- `serial` is the holder's last acknowledged one, and its used-up leases are done with; a mirror's copy takes it too. -/
def State.recordAck (n holder serial : Nat) (continuity : Bytes) (s : State) : State :=
  let s := s.onXl fun x => { x with
    acked := mapSet 0 x.acked (ackKey n holder) serial
    leases := x.leases.filter fun l => !(l.slot = n && l.holder = holder && l.last < serial) }
  if (s.slot n).home = s.memberId then s
  else (s.onSlot n fun x => { x with serial := serial, digest := slice continuity 0 16 }).soil n

/-- Answers to a MIRROR_REC: MIRROR_ACK and MIRROR_REFUSE, which names the authority's role epoch. -/
def State.sendAck (holder n serial : Nat) (s : State) : State :=
  s.sendMember holder 1 0x24 (be 8 0 ++ be 4 n ++ be 2 (s.slot n).roleEpoch ++ be 8 serial)
def State.sendRefuse (holder n serial : Nat) (s : State) : State :=
  s.sendMember holder 1 0x25 (be 8 0 ++ be 4 n ++ be 2 (s.slot n).roleEpoch ++ be 8 serial)

/-- The payload of a MIRROR_REC as this model's operands give it. -/
def mirrorBytes (m : MirrorFields) : Bytes :=
  be 4 m.slot ++ be 2 m.roleEpoch ++ be 2 m.ownerEpoch ++ be 8 m.serial ++ slice m.continuity 0 32

/-- The holder of the lease that a serial of a slot lies in; a mirror of a LEASED slot finds in its copy of the grant table
whose landing the home forwards. -/
def State.holderOf (s : State) (n serial other : Nat) : Nat :=
  match s.xl.leases.find? fun l => l.slot = n && decide (l.first ≤ serial ∧ serial ≤ l.last) with
  | some l => l.holder
  | none => other

/-- MIRROR_REC (R336): acknowledged, forwarded to the mirror first, or refused. The mirror of a LEASED slot keeps its copy
and answers the home. -/
def execMirrorRec (h : LinkHdr) (m : MirrorFields) (s : State) : Host.Outcome State Fault Refusal :=
  .next (s.receive h 0x30 (mirrorBytes m) fun s =>
    let x := s.slot m.slot
    if s.mayAck m h.src then
      if x.leased && x.mirrored then
        (s.onXl fun y => { y with forwarded := y.forwarded ++
          [{ slot := m.slot, serial := m.serial, holder := h.src }] }).sendMember x.mirror 2 0x30 (mirrorBytes m)
      else (s.recordAck m.slot h.src m.serial m.continuity).sendAck h.src m.slot m.serial
    else if x.leased && x.mirrored && x.mirror = s.memberId && x.home = h.src && x.roleEpoch = m.roleEpoch then
      (s.recordAck m.slot (s.holderOf m.slot m.serial h.src) m.serial m.continuity).sendAck h.src m.slot m.serial
    else s.sendRefuse h.src m.slot m.serial)

/-- The forwarded landing that an answer of the slot's mirror is about. -/
def State.forwardedFor (s : State) (n serial src : Nat) : Option Forwarded :=
  if (s.slot n).mirror = src then s.xl.forwarded.find? fun f => f.slot = n && f.serial = serial else none

def State.dropForwarded (n serial : Nat) (s : State) : State :=
  s.onXl fun x => { x with forwarded := x.forwarded.filter fun f => !(f.slot = n && f.serial = serial) }

/-- The take that waits for an answer about this serial. -/
def State.waitingTake (s : State) (n serial : Nat) : Option Take :=
  s.td.inflight.find? fun t => t.slot = n && t.serial = serial && t.phase = .mirror

/-- MIRROR_ACK (R336): landing step 7. -/
def execMirrorAck (h : LinkHdr) (slot roleEpoch serial : Nat) (s : State) : Host.Outcome State Fault Refusal :=
  .next (s.receive h 0x24 (be 8 h.reqId ++ be 4 slot ++ be 2 roleEpoch ++ be 8 serial) fun s =>
    match s.forwardedFor slot serial h.src with
    | some f => if (s.slot slot).roleEpoch ≠ roleEpoch then s else ((s.dropForwarded slot serial).recordAck slot f.holder serial []).sendAck f.holder slot serial
    | none =>
      match s.waitingTake slot serial with
      | some t =>
        if s.lands && (s.slot slot).authority = h.src && t.roleEpoch = roleEpoch then s.commitTake t else s
      | none => s)

/-- A take lands without its authority's acknowledgement: VOID with this code, where it has none of its own. -/
def State.landRefused (t : Take) (code : Status) (s : State) : State :=
  match t.failure with
  | some _ => if s.lands then s.commitTake t else s
  | none => s.onTake t.id fun t => { t with signature := [], failure := some code, phase := .journalSign }

/-- A holder that learns a higher role epoch gives the slot up (R337). -/
def State.learnEpoch (n epoch : Nat) (s : State) : State :=
  if (s.slot n).fleet && epochAhead epoch (s.slot n).roleEpoch then
    let serving := s.serves n
    let s := s.onSlot n fun x => { x with roleEpoch := epoch }
    if serving then s.relinquish n else s
  else s

/-- MIRROR_REFUSE (R336, R337). -/
def execMirrorRefuse (h : LinkHdr) (slot roleEpoch serial : Nat) (s : State) : Host.Outcome State Fault Refusal :=
  .next (s.receive h 0x25 (be 8 h.reqId ++ be 4 slot ++ be 2 roleEpoch ++ be 8 serial) fun s =>
    match s.forwardedFor slot serial h.src with
    | some f => (s.dropForwarded slot serial).sendRefuse f.holder slot serial
    | none =>
      let s := match s.waitingTake slot serial with
        | some t => if (s.slot slot).authority = h.src then s.landRefused t stNotMirror else s
        | none => s
      s.learnEpoch slot roleEpoch)

/-- MIRROR_TIMEOUT_EXPIRY (R337): the slot serves no take until a sync. -/
def execMirrorTimeoutExpiry (id : Nat) (s : State) : Host.Outcome State Fault Refusal :=
  .next (match s.takeById id with
    | some t =>
      match t.mirrorSent with
      | some c =>
        if t.phase = .mirror && decide (c + s.mirrorTimeout ≤ s.clock) then
          let s := (s.bumpFleet 9).onLg fun g => { g with
            suspended := if g.suspended.contains t.slot then g.suspended else t.slot :: g.suspended }
          s.landRefused t stMirrorTimeout
        else s
      | none => s
    | none => s)

/-- SYNC_REQ_TICK (R337): the holder asks, every 1 ms, until the slot serves again. -/
def execSyncReqTick (slot : Nat) (s : State) : Host.Outcome State Fault Refusal :=
  .next (if !s.lg.suspended.contains slot || s.xl.requests.any (fun r => r.type = 0x14 && beAt r.payload 8 4 = slot) then s
  else s.sendRequest (s.slot slot).authority 0x14 (roleBytes (s.roleOf slot)))

/-- SYNC_REQ (R337): an authority with the same role epoch takes the holder's slot image; the answer is a SYNC_IMAGE
(DEDUCED, log entry 111). -/
def execSyncReq (h : LinkHdr) (r : RoleFields) (s : State) : Host.Outcome State Fault Refusal :=
  .next (s.receive h 0x14 (be 8 h.reqId ++ roleBytes r) fun s => s.asRequest h fun s =>
    let x := s.slot r.slot
    let s := if x.fleet && x.authority = s.memberId && x.roleEpoch = r.roleEpoch then
        let s := s.recordAck r.slot h.src r.serial r.digest
        if x.home = s.memberId then s else s.onSlot r.slot (Slot.takeImage r)
      else s
    s.respond h 0x26 (roleBytes (s.roleOf r.slot)))

/-- SYNC_IMAGE (R130, R337, R345): with the same role epoch a waiting slot serves again, a mirror takes its home's image with
the grant table, and a rebuilt home of a LEASED slot its mirror's copy of that table; a higher one makes the holder relinquish. -/
def execSyncImage (h : LinkHdr) (r : RoleFields) (s : State) : Host.Outcome State Fault Refusal :=
  .next (s.receive h 0x26 (be 8 h.reqId ++ roleBytes r) fun s =>
    let s := match s.takeRequest h 0x14 with
      | some (_, s) => s
      | none => s
    let x := s.slot r.slot
    if x.fleet && x.roleEpoch = r.roleEpoch then
      if x.mirror = s.memberId && x.home = h.src then
        let s := if x.leased then s.installGrants r else s
        (s.onSlot r.slot (Slot.takeImage r)).soil r.slot
      else if x.authority = h.src then s.serveAgain r.slot
      else if x.leased && x.mirrored && x.home = s.memberId && x.mirror = h.src then
        (s.installGrants r).serveAgain r.slot
      else s
    else s.learnEpoch r.slot r.roleEpoch)

/-! ### Handover (R342) -/

/-- A VOID record for a serial that was never reserved here (R71, R340). -/
def State.landVoid (n serial : Nat) (code : Status) (s : State) : State :=
  let w := s.window (n / 1024)
  s.landUnseen n serial w.owner w.epoch code

/-- The serials of a lease from `c` on. -/
def serialsFrom (c : Nat) (l : Lease) : List Nat :=
  (List.range (l.last + 1 - max c l.first)).map (max c l.first + ·)

/-- The leases of a holder, in ascending order. -/
def State.leasesOf (s : State) (n holder : Nat) : List Lease :=
  s.xl.leases.filter fun l => l.slot = n && l.holder = holder

/-- This member lands VOID for what it holds of a slot and never reserved; its leases are gone. -/
def State.voidUnreserved (n : Nat) (code : Status) (s : State) : State :=
  let c := s.reservationCounter n
  let s' := ((s.leasesOf n s.memberId).flatMap (serialsFrom (c + 1))).foldl (fun s k => State.landVoid n k code s) s
  s'.onXl fun x => { x with leases := x.leases.filter fun l => !(l.slot = n && l.holder = s.memberId) }

/-- The authority has a lease back: LEASE RETURN. -/
def State.leaseBack (l : Lease) (s : State) : State :=
  let s := s.onXl fun x => { x with leases := x.leases.filter fun m => m ≠ l }
  s.append (s.fleetRecord 0x51 2 0 l.slot l.holder l.first l.last) []

/-- This member returns its leases of a LEASED slot. -/
def State.returnLeases (n : Nat) (s : State) : State :=
  let mine := s.leasesOf n s.memberId
  if mine = [] then s
  else
    let s := s.voidUnreserved n stLeaseReturned
    let home := (s.slot n).home
    mine.foldl (fun s l =>
      if home = s.memberId then s.leaseBack l
      else s.sendMember home 2 0x33 (be 4 n ++ be 8 l.first ++ be 8 l.last)) s

/-- One slot is handed over at Drain step 4. -/
def State.handOverSlot (n : Nat) (s : State) : State :=
  let x := s.slot n
  let me := s.memberId
  if !x.fleet then s
  else
    let s := if x.leased then s.returnLeases n else s
    if x.home = me && x.mirrored then
      let r : RoleFields := { s.roleOf n with home := x.mirror, mirror := 0xFFFF, mirrored := false
                                              roleEpoch := (x.roleEpoch + 1) % 65536 }
      let s := s.sendMember x.mirror 2 0x31 (roleBytes r)
      let s := (s.setRoles n x.mirror 0xFFFF false x.leased (x.roleEpoch + 1)).freshGrants n (s.slot n).serial
      let s := s.onSlot n fun x => { x with state := 2 }
      s.append (s.fleetRecord 0x50 3 0 n x.mirror 0 0) []
    else if x.home = me then
      ((s.xl.leases.filter fun l => l.slot = n && l.holder ≠ me).map (·.holder)).eraseDups.foldl
        (fun s m => State.sendMember m 3 0x04 (be 4 n ++ be 2 x.roleEpoch) s) s
    else if x.mirrored && x.mirror = me then
      let s := s.sendMember x.home 2 0x32 (be 4 n)
      let s := (s.setRoles n x.home 0xFFFF false x.leased (x.roleEpoch + 1)).freshGrants n (s.slot n).serial
      s.append (s.fleetRecord 0x50 3 0 n x.home 0 0) []
    else s

/-- The slots in which this member has a role or a lease. -/
def State.roleSlots (s : State) : List Nat :=
  (s.lg.slots.filter fun e => e.2.fleet
    && (e.2.home = s.memberId || e.2.mirror = s.memberId || s.xl.leases.any fun l => l.slot = e.1)).map (·.1)

/-- Drain step 4 (R342). It is done once no other member holds a lease of a LEASED slot homed here. -/
def State.handOverRoles (s : State) : State := s.roleSlots.foldl (fun s n => s.handOverSlot n) s
def State.rolesHandedOver (s : State) : Bool := s.roleSlots.all fun n => !s.lentOut n

/-- R47: the roles that remain are released unilaterally, with an Evidence Log record. -/
def State.releaseRoles (s : State) : State :=
  let ns := s.roleSlots
  if ns = [] then s
  else
    let others := (ns.flatMap fun n => ([(s.slot n).home, (s.slot n).mirror]
      ++ (s.xl.leases.filter fun l => l.slot = n).map (·.holder))).eraseDups.filter fun m => m ≠ 0xFFFF && m ≠ s.memberId
    let s := others.foldl (fun s m => State.sendMember m 2 0x32 (ns.flatMap (be 4)) s) s
    let s := ns.foldl (fun s n => (State.relinquish n s).onXl fun x => { x with
      leases := x.leases.filter fun l => l.slot ≠ n }) s
    s.logEvent 0x0004 (be 4 ns.length ++ be 4 0)

/-- HANDOVER (R342): the mirror becomes the home and goes on from the last landed serial. -/
def execHandover (h : LinkHdr) (r : RoleFields) (s : State) : Host.Outcome State Fault Refusal :=
  .next (s.receive h 0x31 (roleBytes r) fun s =>
    let x := s.slot r.slot
    if x.fleet && x.mirrored && x.home = h.src && x.mirror = s.memberId && epochAhead r.roleEpoch x.roleEpoch then
      let s := s.setRoles r.slot s.memberId 0xFFFF false r.leased r.roleEpoch
      let s := s.onSlot r.slot fun x => { x.takeImage r with state := 1 }
      let s := if r.leased then s.installGrants r else s.freshGrants r.slot r.serial
      (s.serveAgain r.slot).append (s.fleetRecord 0x50 3 0 r.slot h.src 0 0) []
    else s)

/-- LEASE_RETURN (R342). -/
def execLeaseReturn (h : LinkHdr) (slot : Nat) (range : LeaseRange) (s : State) : Host.Outcome State Fault Refusal :=
  .next (s.receive h 0x33 (be 4 slot ++ be 8 range.first ++ be 8 range.last) fun s =>
    match s.xl.leases.find? fun l => l.slot = slot && l.holder = h.src && l.first = range.first && l.last = range.last with
    | some l => if (s.slot slot).authority = s.memberId then s.leaseBack l else s
    | none => s)

/-- ROLE_NOTICE (R337, R342): a higher role epoch makes a stale holder relinquish; the home's own epoch recalls leases
(DEDUCED, log entry 109). -/
def execRoleNotice (h : LinkHdr) (slot roleEpoch : Nat) (s : State) : Host.Outcome State Fault Refusal :=
  .next (s.receive h 0x04 (be 4 slot ++ be 2 roleEpoch) fun s =>
    let x := s.slot slot
    if x.leased && x.home = h.src && x.roleEpoch = roleEpoch then s.returnLeases slot
    else s.learnEpoch slot roleEpoch)

/-! ### Member loss (R339, R340) -/

/-- The members that share a slot role with this one. -/
def State.partners (s : State) : List Nat :=
  ((s.roleSlots.flatMap fun n => [(s.slot n).home, (s.slot n).mirror]
    ++ (s.leasesOf n s.memberId).map (fun _ => (s.slot n).home)
    ++ (s.xl.leases.filter fun l => l.slot = n).map (·.holder)).eraseDups).filter fun m => m ≠ 0xFFFF && m ≠ s.memberId

/-- HEARTBEAT_TICK (R339): every 500 µs. -/
def execHeartbeatTick (s : State) : Host.Outcome State Fault Refusal :=
  .next (if s.fleetEnable && decide (s.xl.lastHeartbeat + 500000 ≤ s.clock) then
    let s := s.onXl fun x => { x with lastHeartbeat := s.clock }
    s.partners.foldl (fun s m => State.sendMember m 3 0x02 [] s) s
  else s)

/-- HEARTBEAT (R339). -/
def execHeartbeat (h : LinkHdr) (s : State) : Host.Outcome State Fault Refusal :=
  .next (s.receive h 0x02 [] fun s => s)

/-- The lost member held leases of the slot from this authority. -/
def State.heldBy (s : State) (n m : Nat) : Bool := s.xl.leases.any fun l => l.slot = n && l.holder = m

/-- Step 1 of R340: the role epoch advances, the other members are told, and the slot is Suspended until the takeover. -/
def State.beginTakeover (n m : Nat) (s : State) : State :=
  let x := s.slot n
  let s := s.onSlot n fun x => { x with roleEpoch := (x.roleEpoch + 1) % 65536, state := 2 }
  let s := s.noticeRole n m
  s.onXl fun y => { y with takeover := y.takeover ++ [{ slot := n, member := m, state := x.state }] }

/-- MIRRORED falls and the home goes on from its reservation counter (Table 14.7, R342). -/
def State.loseMirror (n m action reason : Nat) (s : State) : State :=
  let x := s.slot n
  let s := s.setRoles n x.home 0xFFFF false x.leased (x.roleEpoch + 1)
  let s := if x.leased then s else s.freshGrants n x.serial
  let s := (s.serveAgain n).noticeRole n m
  (if action = 2 then s.bumpFleet 8 else s).append (s.fleetRecord 0x50 action reason n m 0 0) []

/-- Member `m` is lost for slot `n`: what Table 14.7 says of this survivor. -/
def State.loseSlot (m n : Nat) (s : State) : State :=
  let x := s.slot n
  let me := s.memberId
  if !x.fleet || s.xl.takeover.any (fun t => t.slot = n) then s
  else if x.home = m && x.mirrored && x.mirror = me then s.beginTakeover n m
  else if x.home = me && x.leased && s.heldBy n m then s.beginTakeover n m
  else if x.home = me && x.mirrored && x.mirror = m then s.loseMirror n m 2 stMemberLost.toNat
  else if x.home = m && x.leased && !x.mirrored && s.leasesOf n me ≠ [] then
    (s.voidUnreserved n stMemberLost).onSlot n fun x => { x with state := 2 }
  else s

/-- MEMBER_LOSS (R339, R340, R343): no frame for MemberLossLimit; a claimant's loss ends its claim. -/
def execMemberLoss (m : Nat) (s : State) : Host.Outcome State Fault Refusal :=
  .next (
    let s := s.applyNum 0x7800 6 0
    if s.fleetEnable && !s.xl.lost.contains m && (s.partners.contains m || s.xl.ceremonyHolder = m)
        && decide (mapGet 0 s.xl.memberSeen m + s.memberLossLimit ≤ s.clock) then
      let s := s.onXl fun x => { x with
        lost := m :: x.lost
        ceremonyHolder := if x.ceremonyHolder = m && m ≠ s.memberId then 0xFFFF else x.ceremonyHolder }
      s.roleSlots.foldl (fun s n => s.loseSlot m n) s
    else s)

/-- RELEASE (R339, R342): the sender is lost for these slots; a mirror that releases its role hands it over. -/
def execRelease (h : LinkHdr) (slots : List Nat) (s : State) : Host.Outcome State Fault Refusal :=
  .next (s.receive h 0x32 (slots.flatMap (be 4)) fun s =>
    slots.foldl (fun s n =>
      let x := s.slot n
      if x.fleet && x.home = s.memberId && x.mirrored && x.mirror = h.src then s.loseMirror n h.src 3 0
      else s.loseSlot h.src n) s)

/-- The holders whose leases a takeover voids: all of them where the home of a slot is lost, else the lost one. -/
def State.voidedHolders (s : State) (t : Takeover) : List Nat :=
  if (s.slot t.slot).home = t.member then
    ((s.xl.leases.filter fun l => l.slot = t.slot).map (·.holder)).eraseDups
  else [t.member]

/-- The serials a takeover voids for one holder: from its last acknowledged serial, included, up to its leases' Last. -/
def State.voidedSerials (s : State) (n holder : Nat) : List Nat :=
  (s.leasesOf n holder).flatMap (serialsFrom (mapGet 0 s.xl.acked (ackKey n holder)))

/-- Step 2 of R340. -/
def State.voidTakeover (t : Takeover) (s : State) : State :=
  ((s.voidedHolders t).flatMap fun h => s.voidedSerials t.slot h).foldl
    (fun s k => State.landVoid t.slot k stMemberLost s) s

/-- Step 3 of R340: the row of Table 14.7, with ROLE TAKEOVER, or LEASE CLOSED for a lost holder. -/
def State.finishTakeover (t : Takeover) (s : State) : State :=
  let n := t.slot
  let x := s.slot n
  let holders := s.voidedHolders t
  let serials := holders.flatMap fun h => s.voidedSerials n h
  let first := serials.foldl min (serials.headD 0)
  let last := serials.foldl max 0
  let closed := s.xl.leases.filter fun l => l.slot = n && holders.contains l.holder
  let s := s.voidTakeover t
  let s := s.onXl fun y => { y with
    leases := y.leases.filter fun l => !(l.slot = n && holders.contains l.holder)
    takeover := y.takeover.filter fun u => u ≠ t }
  if x.home = t.member then
    let s := s.setRoles n s.memberId 0xFFFF false x.leased x.roleEpoch
    let s := s.onSlot n fun y => { y with state := 1, serial := max x.serial last }
    ((s.serveAgain n).bumpFleet 8).append (s.fleetRecord 0x50 2 stMemberLost.toNat n t.member first last) []
  else
    let s := s.onSlot n fun y => { y with state := t.state, serial := x.serial }
    let s := if x.mirrored && x.mirror = t.member then
        (s.setRoles n x.home 0xFFFF false x.leased x.roleEpoch).serveAgain n else s
    let s := closed.foldl (fun s l =>
      s.append (s.fleetRecord 0x51 3 stMemberLost.toNat n t.member l.first l.last) []) s
    (s.bumpFleet 8).append (s.fleetRecord 0x50 2 stMemberLost.toNat n t.member first last) []

/-- TAKEOVER_COMPLETE (R340). -/
def execTakeoverComplete (slot : Nat) (s : State) : Host.Outcome State Fault Refusal :=
  .next (match s.xl.takeover.find? fun t => t.slot = slot with
    | some t => s.finishTakeover t
    | none => s)

/-! ### Ceremony claims (R343) -/

/-- Members to ask before a Ceremony. -/
def State.claimees (s : State) : List Nat := if s.fleetEnable then s.members.filter s.reachable else []

/-- This member denies a claim. -/
def State.deniesClaim (s : State) (unit : Nat) : Bool :=
  s.pwr.mode = .ceremony || s.xl.ceremonyHolder ≠ 0xFFFF || (s.xl.claim.isSome && decide (unitId < unit))

/-- CEREMONY_CLAIM (R343). -/
def execCeremonyClaim (h : LinkHdr) (unit : Nat) (s : State) : Host.Outcome State Fault Refusal :=
  .next (s.receive h 0x13 (be 8 h.reqId ++ be 8 unit) fun s => s.asRequest h fun s =>
    if s.deniesClaim unit then s.respond h 0x23 [0]
    else (s.onXl fun x => { x with ceremonyHolder := h.src }).respond h 0x23 [1])

/-- CEREMONY_END (R343). -/
def execCeremonyEnd (h : LinkHdr) (s : State) : Host.Outcome State Fault Refusal :=
  .next (s.receive h 0x05 [] fun s =>
    if s.xl.ceremonyHolder = h.src then s.onXl fun x => { x with ceremonyHolder := 0xFFFF } else s)

/-- This member's claim starts: every reachable member is asked. -/
def State.startClaim (s : State) : State :=
  let who := s.claimees
  let s := who.foldl (fun s m => State.sendRequest m 0x13 (be 8 unitId) s) s
  s.onXl fun x => { x with claim := some { start := s.clock, waiting := who } }

/-- The claim is over; one that failed is withdrawn from those that may have granted it. -/
def State.dropClaim (failed : Bool) (s : State) : State :=
  let s := s.onXl fun x => { x with
    claim := none
    requests := x.requests.filter fun r => r.type ≠ 0x13 }
  if failed then s.claimees.foldl (fun s m => State.sendMember m 3 0x05 [] s) s else s

/-- CLAIM_ANSWER: whether the claim has succeeded or failed by it. -/
def State.claimAnswered (h : LinkHdr) (granted : Bool) (s : State) : State × Option Bool :=
  match s.xl.claim, s.takeRequest h 0x13 with
  | some c, some (_, s) =>
    if !granted then (s.dropClaim true, some false)
    else
      let rest := c.waiting.filter (· ≠ h.src)
      if rest = [] then (s.dropClaim false, some true)
      else (s.onXl fun x => { x with claim := some { c with waiting := rest } }, none)
  | _, _ => (s, none)

/-- CEREMONY_CLAIM_TIMEOUT: 10 ms have passed without every answer. -/
def State.claimLate (s : State) : State × Option Bool :=
  match s.xl.claim with
  | some c => if c.start + 10000000 ≤ s.clock then (s.dropClaim true, some false) else (s, none)
  | none => (s, none)

/-! ### Objects that act (R347) -/

/-- A write of FleetEnable (R331, R347, R396). -/
def fleetEnable (value : Nat) : Act := fun s =>
  let scrap := match s.lc.staged with
    | some (dest, _) => dest = 5
    | none => false
  if 1 < value || (value = 1 && scrap) then (s, stModeRefused)
  else
    let s := s.setNum 0x7800 1 0 value
    (if value = 1 then s.startPorts
     else [0, 1, 2, 3].foldl (fun s p => if (s.port p).state = .down then s else State.portDown p s) s, stOk)

/-- A write of MemberUnitId (R347). -/
def memberUnitId (m unit : Nat) : Act := done fun s =>
  let s := s.setNum (0x7900 + m / 256) (m % 256) 0 unit
  [0, 1, 2, 3].foldl (fun s p =>
    if (s.port p).state = .up && (s.port p).partner = m then State.portDown p s else s) s

end Sys2Proof.Machine
end

