-- ==== Sys2Proof/Machine/Lattice.lean ====
section
/-! DEFINITION. The Lattice Units (R167 to R185): parameter sets, times, signing in rounds, completion, and the retirement
of a unit. -/

namespace Sys2Proof.Machine

/-! ### Parameter sets (Table 7.1) -/

def isDsa (param : Nat) : Bool := param = 1 || param = 2 || param = 3
def isKem (param : Nat) : Bool := param = 0x11 || param = 0x12

def latticePublic (param : Nat) : Nat :=
  match param with
  | 1 => 1312
  | 2 => 1952
  | 3 => 2592
  | 0x11 => 1184
  | _ => 1568

def latticePrivate (param : Nat) : Nat :=
  match param with
  | 1 => 2560
  | 2 => 4032
  | 3 => 4896
  | 0x11 => 2400
  | _ => 3168

/-- Bytes of a signature or ciphertext. -/
def latticeOutput (param : Nat) : Nat :=
  match param with
  | 1 => 2420
  | 2 => 3309
  | 3 => 4627
  | 0x11 => 1088
  | _ => 1568

/-- The handle type of a parameter set (Table 12.10). -/
def latticeType (param : Nat) : Nat :=
  match param with
  | 1 => 0x21
  | 2 => 0x22
  | 3 => 0x23
  | 0x11 => 0x31
  | _ => 0x32

/-! ### Times (R174, Table 7.2), in nanoseconds -/

/-- The time a message and context past 4,096 bytes add. -/
def longMessage (n : Nat) : Nat := (n - 4096 + 4095) / 4096 * 200

def signSetup (param : Nat) : Nat :=
  match param with
  | 1 => 2000
  | 2 => 3000
  | _ => 4500

def signRound (param : Nat) : Nat :=
  match param with
  | 1 => 850
  | 2 => 1250
  | _ => 1800

/-- The time of an operation other than a signing. -/
def latticeTime (op param : Nat) : Nat :=
  match op, param with
  | 1, 1 => 3000
  | 1, 2 => 4500
  | 1, 3 => 6500
  | 1, 0x11 => 2500
  | 1, _ => 3400
  | 3, 1 => 3500
  | 3, 2 => 5000
  | 3, _ => 7000
  | 4, 0x11 => 2800
  | 4, _ => 3800
  | _, 0x11 => 3600
  | _, _ => 4900

def UnitOp.extra (o : UnitOp) : Nat := longMessage (o.message.length + o.context.length)

/-- The end of the round that runs now. -/
def UnitOp.roundEnd (o : UnitOp) : Nat := o.start + signSetup o.param + o.extra + (o.rounds + 1) * signRound o.param

/-- What an operation ends with where no check of R175 fails: a verification that does not pass; an encapsulation key or a
decapsulation key that the checks of R176 reject. -/
def UnitOp.code (o : UnitOp) : Status :=
  match o.op, o.user with
  | 3, .service _ =>
    if Config.passes .mldsa [o.param] [o.key, o.message, o.context, o.result.getD []] then stOk else stSignatureCheckFailed
  | 4, _ => if Config.passes .mlkemKey [o.param, 0] [o.key] then stOk else stOperandGeModulus
  | 5, _ => if Config.passes .mlkemKey [o.param, 1] [o.key] then stOk else stKeyHandleInvalid
  | _, _ => stOk

/-- When an operation ends: a signing after its rounds, a key that fails its check within 0.2 µs (R176), any other after its
time. -/
def UnitOp.fin (o : UnitOp) : Nat :=
  if o.op = 2 then o.start + signSetup o.param + o.extra + o.rounds * signRound o.param
  else if o.code = stOperandGeModulus || o.code = stKeyHandleInvalid then o.start + 200
  else o.start + latticeTime o.op o.param + (if o.op = 3 then o.extra else 0)

/-- The public part and the private part that a key generation makes from its seed (FIPS 203, FIPS 204). -/
def UnitOp.pair (o : UnitOp) : Bytes × Bytes :=
  if isDsa o.param then
    (Config.out .mldsaPublic (latticePublic o.param) [o.param] [o.rnd],
      Config.out .mldsaPrivate (latticePrivate o.param) [o.param] [o.rnd])
  else
    (Config.out .mlkemPublic (latticePublic o.param) [o.param] [o.rnd],
      Config.out .mlkemPrivate (latticePrivate o.param) [o.param] [o.rnd])

/-! ### Signing in rounds (R171, R172) -/

/-- FIPS 204 accepts candidate `i` of a signing. -/
def UnitOp.accepts (o : UnitOp) (i : Nat) : Bool :=
  Config.passes .mldsaAccepts [o.param, i] [o.key, o.message, o.context, o.rnd]

/-- Round r computes candidates 8(r − 1) to 8r − 1. -/
def UnitOp.roundAccepts (o : UnitOp) : Bool := (List.range 8).any fun i => o.accepts (8 * o.rounds + i)

/-- The signature: that of FIPS 204 for the same key, message, context and rnd. -/
def UnitOp.signature (o : UnitOp) : Bytes :=
  mldsaSignature o.param (latticeOutput o.param) o.key o.message o.context o.rnd

/-- An operation has ended without a result: what its user learns, and the manifest it worked for is abandoned
(Table 4.8). -/
def State.unitFails (o : UnitOp) (code : Status) (s : State) : State :=
  match o.user with
  | .manifestSign mid | .manifestVerify mid => s.abandonManifests (fun m => m.id = mid) code
  | _ => s.unitEnds o code

/-- A signature is made: a second unit verifies it before it is released (R169, R175). -/
def State.signatureMade (u : Nat) (o : UnitOp) (s : State) : State :=
  match o.user with
  | .manifestSign mid => s.onManifest mid fun m => { m with mlSig := o.signature }
  | .service core => s.onLh fun l => { l with
      toVerify := l.toVerify ++ [(u, { o with user := .serviceVerify core, result := some o.signature })] }
  | _ => s

/-- A round has ended: the lowest accepted candidate is the signature, or another round starts, 20 at most. -/
def State.signRoundEnd (u : Nat) (o : UnitOp) (s : State) : State :=
  let n := o.rounds + 1
  let s := s.onUnit u fun l => { l with lastRounds := n }
  if o.roundAccepts then ((s.freeUnit u).signatureMade u o).assignWork
  else if n < 20 then s.onUnit u fun l => { l with running := some { o with rounds := n } }
  else
    let s := (s.onLh fun l => { l with rejectionLimits := l.rejectionLimits + 1 }).latch (.unitStat u) 4
    ((s.freeUnit u).unitFails o stRejectionLimit).assignWork

/-- LATTICE_SIGN_ROUND (R171). -/
def execLatticeSignRound (u : Nat) (s : State) : Host.Outcome State Fault Refusal :=
  .next (match (s.latticeUnit u).running with
    | some o => if o.op = 2 && o.roundEnd ≤ s.clock then s.signRoundEnd u o else s
    | none => s)

/-! ### Completion (R174 to R176, R182) -/

/-- The results of a service's operation, written to its buffers. -/
def State.unitRelease (o : UnitOp) (core : Nat) (s : State) : State :=
  match o.op with
  | 1 => (s.bufferWrite core o.outAddr o.pair.1).bufferWrite core o.sigAddr o.pair.2
  | 4 =>
    (s.bufferWrite core o.sigAddr (Config.out .mlkemCipher (latticeOutput o.param) [o.param] [o.key, o.rnd])).bufferWrite core
      o.outAddr (Config.out .mlkemSecret 32 [o.param, 0] [o.key, o.rnd])
  | 5 => s.bufferWrite core o.outAddr (Config.out .mlkemSecret 32 [o.param, 1] [o.key, o.message])
  | _ => s

/-- An operation ends and no check of R175 has failed: a service gets its results and its status, a verified signature is
released, the Ceremony's pair is in place. -/
def State.unitSucceeds (o : UnitOp) (s : State) : State :=
  match o.user with
  | .service core => (if o.code = stOk then s.unitRelease o core else s).serviceEnd core o.code
  | .serviceVerify core => (s.bufferWrite core o.sigAddr (o.result.getD [])).serviceEnd core stOk
  | .manifestVerify mid => s.onManifest mid fun m => { m with mlVerified := true }
  | .anchor .importPair => s.onKrf fun k => { k with pairDue := false, importPair := some o.pair }
  | _ => s

/-- A check of R175 is made: on a signature, by the unit that verifies it, and inside a key generation. -/
def UnitOp.checked (o : UnitOp) : Bool :=
  match o.user with
  | .manifestVerify _ | .serviceVerify _ => true
  | _ => o.op = 1 && o.code = stOk

/-- LATTICE_OP_COMPLETE: a failed check releases nothing and is a fault of the unit (R175). A manifest's takes carry
SIGNATURE_CHECK_FAILED (R73), every other user INTERNAL_FAULT. -/
def State.unitComplete (u : Nat) (o : UnitOp) (checkFailed : Bool) (s : State) : State :=
  let s := s.freeUnit u
  if checkFailed && o.checked then
    let code := match o.user with
      | .manifestVerify _ => stSignatureCheckFailed
      | _ => stInternalFault
    (((s.unitFault u).unitFails o code).assignWork)
  else (s.unitSucceeds o).assignWork

/-- The end of this operation is another command's: KEY_OP_COMPLETE's or UCODE_LOAD_DONE's. -/
def UnitOp.elsewhere (o : UnitOp) : Bool := o.user = .anchor .keyOp || o.user = .anchor .ucode

/-- LATTICE_OP_COMPLETE. -/
def execLatticeOpComplete (u : Nat) (checkFailed : Bool) (s : State) : Host.Outcome State Fault Refusal :=
  .next (match (s.latticeUnit u).running with
    | some o => if o.op ≠ 2 && !o.elsewhere && o.fin ≤ s.clock then s.unitComplete u o checkFailed else s
    | none => s)

end Sys2Proof.Machine
end

