-- ==== Sys2Proof/Machine/Lie.lean ====
section
/-! DEFINITION. The Long-Integer Engines (R139 to R166): ownership, the checks before execution, the commands with their
value edge cases and nominal times, completion, aborts, and the microcode. -/

namespace Sys2Proof.Machine

/-! ### The command block (Table 6.7) -/

/-- A command block. -/
structure LieBlock where
  words : List Nat
  deriving DecidableEq, Repr

def LieBlock.word (b : LieBlock) (i : Nat) : Nat := b.words[i]?.getD 0
def LieBlock.op (b : LieBlock) : Nat := bitsOf (b.word 0) 7 0
def LieBlock.curve (b : LieBlock) : Nat := bitsOf (b.word 0) 15 8
/-- LengthWords, W. -/
def LieBlock.len (b : LieBlock) : Nat := bitsOf (b.word 0) 23 16
/-- L of Table 6.8. -/
def LieBlock.bytes (b : LieBlock) : Nat := 8 * b.len
def LieBlock.irq (b : LieBlock) : Bool := bitOf (b.word 0) 32
def LieBlock.kat (b : LieBlock) : Bool := bitOf (b.word 0) 33
def LieBlock.poolKey (b : LieBlock) : Bool := bitOf (b.word 0) 34
def LieBlock.opPool (b : LieBlock) : Bool := bitOf (b.word 0) 35
def LieBlock.resPool (b : LieBlock) : Bool := bitOf (b.word 0) 36
def LieBlock.xdh (b : LieBlock) : Bool := bitOf (b.word 0) 37
def LieBlock.handle (b : LieBlock) : Nat := bitsOf (b.word 1) 47 32
def LieBlock.epoch (b : LieBlock) : Nat := bitsOf (b.word 1) 31 16
def LieBlock.vector (b : LieBlock) : Nat := bitsOf (b.word 1) 4 0
def LieBlock.operand (b : LieBlock) : Nat := b.word 2
def LieBlock.result (b : LieBlock) : Nat := b.word 3
def LieBlock.keyAddr (b : LieBlock) : Nat := b.word 4
def LieBlock.msg (b : LieBlock) : Nat := bitsOf (b.word 5) 31 0

def LieBlock.isEd (b : LieBlock) : Bool := b.curve = 4 || b.curve = 5
def LieBlock.isRsa (b : LieBlock) : Bool := b.op = 8 || b.op = 9
/-- The commands with a key (R151). -/
def LieBlock.isPrivate (b : LieBlock) : Bool := b.op = 1 || b.op = 3 || b.op = 5 || b.op = 6 || b.op = 8

/-- Bytes of an encoded Edwards point or EdDSA seed, and of an XDH value (R152). -/
def LieBlock.edBytes (b : LieBlock) : Nat := if b.curve = 4 then 32 else 57
def LieBlock.xdhBytes (b : LieBlock) : Nat := if b.curve = 4 then 32 else 56

/-- Bytes of the operand area (Table 6.8). -/
def LieBlock.operandBytes (b : LieBlock) : Nat :=
  match b.op with
  | 1 => b.bytes
  | 2 => 5 * b.bytes
  | 3 => b.msg
  | 4 => 192 + b.msg
  | 5 => if b.isEd then b.xdhBytes else 2 * b.bytes
  | 7 => if b.isEd then b.edBytes else 2 * b.bytes
  | 8 => b.bytes
  | 9 => 2 * b.bytes + 8
  | 10 => 6 * b.bytes + 8
  | _ => 0

/-- Bytes of the key, read or written (Table 6.8). -/
def LieBlock.keyBytes (b : LieBlock) : Nat :=
  match b.op with
  | 1 => b.bytes
  | 3 => b.edBytes
  | 5 => if b.isEd then b.xdhBytes else b.bytes
  | 6 => if b.isEd then (if b.xdh then b.xdhBytes else b.edBytes) else b.bytes
  | 8 => 7 * b.bytes / 2 + 8
  | _ => 0

/-- Bytes of the result area (Table 6.8). -/
def LieBlock.resultBytes (b : LieBlock) : Nat :=
  match b.op with
  | 1 => 2 * b.bytes
  | 3 => if b.curve = 4 then 64 else 114
  | 5 => if b.isEd then b.xdhBytes else b.bytes
  | 6 => if b.isEd then (if b.xdh then b.xdhBytes else b.edBytes) else 2 * b.bytes
  | 8 | 9 => b.bytes
  | _ => 0

/-- The opcode allows the curve (R143, R150): RSA names none, EdDSA Curve25519 and Curve448, ECDSA Weierstrass curves. -/
def LieBlock.curveAllowed (b : LieBlock) : Bool :=
  match b.op with
  | 8 | 9 => b.curve = 0
  | 3 | 4 => b.isEd || b.curve = 0 || (5 < b.curve && b.curve < 0x10) || 0x4F < b.curve
  | 1 | 2 => !b.isEd
  | _ => true

/-- Nominal execution time in nanoseconds (R158, Table 6.9). -/
def LieBlock.nominal (b : LieBlock) : Nat :=
  let w := b.len
  let mb := (b.msg + 127) / 128
  let pick := fun (p256 p384 p521 c25519 c448 loaded : Nat) =>
    match b.curve with
    | 1 => p256
    | 2 => p384
    | 3 => p521
    | 4 => c25519
    | 5 => c448
    | _ => loaded
  match b.op with
  | 1 | 3 => pick 10000 22000 46000 (8000 + 100 * mb) (24000 + 100 * mb) (1500 * w * w + 4000)
  | 2 | 4 => pick 14000 31000 64000 (12000 + 50 * mb) (34000 + 50 * mb) (2100 * w * w + 5000)
  | 5 => pick 9000 20000 42000 7000 21000 (1400 * w * w + 3000)
  | 6 => pick 8000 18000 38000 7000 20000 (1300 * w * w + 3000)
  | 7 => pick 1000 1500 2000 1000 2000 500
  | 8 => (42 * w * w * w + 99) / 100 * 10 + 10000
  | 9 => (70 * w * w + 9) / 10 * 10 + 2000
  | 10 => 30000000
  | 11 => 1000
  | _ => 0

/-! ### The checks before execution (R159) -/

/-- The curve of a command, where it is valid for tenant `t`: a built-in one, or one that `t` has loaded. -/
def State.curveOf (s : State) (id t : Nat) : Option Curve :=
  if id < 0x10 then builtin id
  else match mapGet none s.li.curves id with
    | some c => if c.tenant = t then some c else none
    | none => none

/-- LengthWords is valid: W of the curve, or 16 to 128 for RSA, even for RSA_PRIVATE (R150, R152). -/
def State.lengthOk (s : State) (b : LieBlock) (t : Nat) : Bool :=
  let w := b.len
  if w = 0 || 128 < w then false
  else if b.isRsa then 16 ≤ w && (b.op = 9 || w % 2 = 0)
  else if b.op = 10 then true
  else match s.curveOf b.curve t with
    | some c => w = c.words
    | none => true

/-- Check 2 of R159, word 0. `direct`: not a service. -/
def State.badWord0 (s : State) (b : LieBlock) (t : Nat) (direct : Bool) : Bool :=
  bitsOf (b.word 0) 47 40 ≠ 0 || bitsOf (b.word 0) 39 38 ≠ 0 || bitsOf (b.word 0) 31 24 ≠ 0
    || b.op = 0 || 11 < b.op || !b.curveAllowed || !s.lengthOk b t || (b.kat && !s.lc.maint)
    || (direct && b.op = 5 && !b.resPool) || (b.op = 6 && !b.poolKey) || (!direct && (b.opPool || b.resPool))

/-- An area of a command can be used: inside the tenant's pool, or inside the core's memory. -/
def State.areaOk (s : State) (user : LieUser) (t : Nat) (pool : Bool) (addr n : Nat) : Bool :=
  match user with
  | .direct => !pool || s.poolHas t addr n
  | .service core => s.bufferOk core addr n

/-- Check 2 of R159: the number of the first word at fault. -/
def State.badWord (s : State) (b : LieBlock) (user : LieUser) (t : Nat) : Option Nat :=
  if s.badWord0 b t (user = .direct) then some 0
  else if bitsOf (b.word 1) 63 48 ≠ 0 || bitsOf (b.word 1) 15 5 ≠ 0 then some 1
  else if b.operand % 8 ≠ 0 || !s.areaOk user t b.opPool b.operand (if b.msg ≤ 16384 then b.operandBytes else 0) then
    some 2
  else if b.resultBytes ≠ 0 && (b.result % 8 ≠ 0 || !s.areaOk user t b.resPool b.result b.resultBytes) then some 3
  else if (if b.poolKey then b.keyAddr % 8 ≠ 0 || !s.areaOk user t true b.keyAddr b.keyBytes else b.keyAddr ≠ 0) then
    some 4
  else if bitsOf (b.word 5) 63 32 ≠ 0 || (b.msg ≠ 0 && b.op ≠ 3 && b.op ≠ 4) then some 5
  else if b.word 6 ≠ 0 then some 6
  else if b.word 7 ≠ 0 then some 7
  else none

/-- Check 5: the curve is valid for this tenant; DETAIL 0x01 for a CurveId in use, 0x02 otherwise (R145). -/
def State.badCurve (s : State) (b : LieBlock) (t : Nat) : Option Nat :=
  if b.isRsa then none
  else if b.op = 10 then
    if b.curve < 0x10 || 0x4F < b.curve then some 2
    else if (mapGet none s.li.curves b.curve).isSome then some 1
    else none
  else if b.op = 11 && (b.curve < 0x10 || 0x4F < b.curve) then some 2
  else if (s.curveOf b.curve t).isNone then some 2
  else none

/-- The key type of Table 12.10 that a command needs; loaded curves have none. -/
def LieBlock.keyType (b : LieBlock) : Option Nat :=
  if b.op = 8 then some 0x10
  else match b.curve with
    | 1 => some 1
    | 2 => some 2
    | 3 => some 3
    | 4 => some (if b.op = 5 then 6 else 4)
    | 5 => some (if b.op = 5 then 7 else 5)
    | _ => none

/-- Check 6 (R151): the handle of a private command that takes its key from the KRF. -/
def State.badHandle (s : State) (b : LieBlock) (t : Nat) : Bool :=
  b.isPrivate && !b.poolKey && (match s.handle b.handle with
    | some h => !(h.owner = t && h.usage = 2 && h.state = .unwrapped && b.keyType = some h.type
        && (h.type ≠ 0x10 || h.words = b.len))
    | none => true)

/-- The mode's answer to a GO (R154, Table 16.9). -/
def State.lieMode (s : State) : Option Status :=
  match s.pwr.mode with
  | .standby | .service | .draw | .held => none
  | .quarantine => some stQuarantine
  | _ => some stNotReady

/-- A curve is in use by some engine's command (R145) (DEDUCED, log entry 88). -/
def State.curveBusy (s : State) (id : Nat) : Bool :=
  s.li.engines.any fun e => match e.2.running with
    | some c => c.curve = id
    | none => false

/-- Checks 1 to 7 of R159, and SLOT_BUSY of CURVE_UNLOAD. -/
def State.lieChecks (s : State) (b : LieBlock) (user : LieUser) (t epoch : Nat) : Option (Status × Nat) :=
  match s.lieMode with
  | some st => some (st, 0)
  | none =>
    match s.badWord b user t with
    | some w => some (stBadDescriptor, w)
    | none =>
      if b.epoch ≠ epoch then some (stStaleOwner, 0)
      else if 16384 < b.msg then some (stLenTooLong, 0)
      else match s.badCurve b t with
        | some d => some (stCurveRejected, d)
        | none =>
          if s.badHandle b t then some (stKeyHandleInvalid, 0)
          else match s.entropyBlock with
            | some st => some (st, 0)
            | none => if b.op = 11 && s.curveBusy b.curve then some (stSlotBusy, 0) else none

/-- An area is fetched (checks 8 and 9). -/
def State.lieFetch (s : State) (user : LieUser) (t : Nat) (pool : Bool) (addr n : Nat) : Except Status Bytes :=
  match user with
  | .direct =>
    if pool then s.poolRead t addr n
    else if s.dmaOk t addr n then .ok (s.dmaBytes addr n)
    else .error stDmaFault
  | .service core => match s.bufferRead core addr n with
    | some x => .ok x
    | none => .error stBadDescriptor

/-- The key of a command: from the KRF, or from its area. -/
def State.lieKey (s : State) (b : LieBlock) (user : LieUser) (t : Nat) : Except Status Bytes :=
  if !b.isPrivate || b.op = 6 then .ok []
  else if b.poolKey then s.lieFetch user t true b.keyAddr b.keyBytes
  else .ok (s.privateOf b.handle)

/-! ### The commands (R152 to R157, R160) -/

/-- What a command ends with: its result area and, for EC_KEYGEN, its private key; or its status. -/
abbrev LieResult := Except Status (Bytes × Bytes)

/-- The value defects of an affine point (Table 6.10). `low`: small order counts. -/
def Curve.pointDefect (c : Curve) (low : Bool) (x y : Nat) : Option Status :=
  if c.p ≤ x || c.p ≤ y then some stOperandGeModulus
  else if (x = 0 && y = 0) || !c.holds x y then some stPointNotOnCurve
  else if low && c.mul c.h (some (x, y)) = none then some stLowOrderPoint
  else none

/-- The value defects of an encoded Edwards point. -/
def Curve.edDefect (c : Curve) (enc : Bytes) : Option Status :=
  if c.p ≤ c.edY enc then some stOperandGeModulus
  else match c.edDecode enc with
    | none => some stPointNotOnCurve
    | some u => if c.edMul c.h u = (0, 1) then some stLowOrderPoint else none

/-- The first defect in the order of R160. -/
def firstDefect (l : List (Option Status)) : Option Status :=
  [stRsaKeyInvalid, stOperandGeModulus, stPointNotOnCurve, stLowOrderPoint, stScalarZero, stSignatureCheckFailed].find?
    fun st => l.contains (some st)

/-- A private scalar (Table 6.10). -/
def Curve.scalarDefect (c : Curve) (d : Nat) : Option Status :=
  if d = 0 then some stScalarZero else if c.n ≤ d then some stOperandGeModulus else none

/-- ECDSA_SIGN. -/
def lieSign (b : LieBlock) (c : Curve) (operand key rnd : Bytes) : LieResult :=
  let d := ofBe key
  let z := ofBe operand
  match c.scalarDefect d with
  | some st => .error st
  | none =>
    let k := c.secret b.len d z (if b.kat then [] else rnd.take 32)
    let r := c.ecdsa d z k
    .ok (be b.bytes r.1 ++ be b.bytes r.2, [])

/-- ECDSA_VERIFY. -/
def lieVerify (b : LieBlock) (c : Curve) (operand : Bytes) : LieResult :=
  let at' := fun i => beAt operand (i * b.bytes) b.bytes
  match c.pointDefect false (at' 0) (at' 1) with
  | some st => .error st
  | none => if c.ecdsaVerify (some (at' 0, at' 1)) (at' 2) (at' 3) (at' 4) then .ok ([], []) else .error stSignatureCheckFailed

/-- EDDSA_SIGN (RFC 8032). -/
def lieEdSign (c : Curve) (operand key : Bytes) : LieResult := .ok (c.edSign key operand, [])

/-- EDDSA_VERIFY (RFC 8032): A, R and S as Table 6.10 says, then the equation. -/
def lieEdVerify (b : LieBlock) (c : Curve) (operand : Bytes) : LieResult :=
  let n := b.edBytes
  let a := slice operand 0 n
  let r := slice operand 64 n
  let sb := slice operand (64 + n) n
  let m := operand.drop 192
  match firstDefect [c.edDefect a, c.edDefect r] with
  | some st => .error st
  | none =>
    if c.edVerify a r sb m then .ok ([], []) else .error stSignatureCheckFailed

/-- ECDH. -/
def lieEcdh (b : LieBlock) (c : Curve) (operand key : Bytes) : LieResult :=
  if b.isEd then
    let z := xdh b.curve key operand
    if z = List.replicate b.xdhBytes 0 then .error stLowOrderPoint else .ok (z, [])
  else
    let x := beAt operand 0 b.bytes
    let y := beAt operand b.bytes b.bytes
    match firstDefect [c.scalarDefect (ofBe key), c.pointDefect true x y] with
    | some st => .error st
    | none => match c.mul (ofBe key) (some (x, y)) with
      | some (u, _) => .ok (be b.bytes u, [])
      | none => .error stLowOrderPoint

/-- EC_KEYGEN (R155): `rnd` holds the DRBG's bytes. -/
def lieKeygen (b : LieBlock) (c : Curve) (rnd : Bytes) : LieResult :=
  if b.isEd then
    let seed := if b.xdh then (clamp b.curve (rnd.take b.xdhBytes)).take b.xdhBytes else rnd.take b.edBytes
    .ok (ecPublic b.curve b.xdh seed, seed)
  else
    let bits := bitLen c.n + 64
    let d := ofBe (rnd.take ((bits + 7) / 8)) % 2 ^ bits % (c.n - 1) + 1
    match c.mul d c.base with
    | some (x, y) => .ok (be b.bytes x ++ be b.bytes y, be b.bytes d)
    | none => .error stInternalFault

/-- EC_POINT_CHECK. -/
def liePointCheck (b : LieBlock) (c : Curve) (operand : Bytes) : LieResult :=
  match (if b.isEd then c.edDefect (slice operand 0 b.edBytes)
      else c.pointDefect true (beAt operand 0 b.bytes) (beAt operand b.bytes b.bytes)) with
  | some st => .error st
  | none => .ok ([], [])

/-- The value defects of an RSA input (Table 6.10). -/
def rsaInput (n m : Nat) : Option Status :=
  if m = 0 then some stScalarZero else if n ≤ m then some stOperandGeModulus else none

/-- The RSA key a command finds: the KRF's p ‖ q ‖ e, or the layout of Table 6.8. -/
def LieBlock.rsaKey (b : LieBlock) (key : Bytes) : RsaKey :=
  let l := b.bytes
  if b.poolKey then
    { n := beAt key 0 l, e := beAt key l 8, p := beAt key (l + 8) (l / 2), q := beAt key (l + l / 2 + 8) (l / 2)
      dp := beAt key (2 * l + 8) (l / 2), dq := beAt key (2 * l + l / 2 + 8) (l / 2)
      qinv := beAt key (3 * l + 8) (l / 2) }
  else rsaOf (beAt key 0 (l / 2)) (beAt key (l / 2) (l / 2)) (beAt key l 8)

/-- RSA_PRIVATE, with its fault check that s^e mod n = m (R157). -/
def lieRsaPrivate (b : LieBlock) (operand key : Bytes) : LieResult :=
  let k := b.rsaKey key
  let m := ofBe operand
  match firstDefect [if rsaBad b.len k.n k.e || k.p * k.q ≠ k.n then some stRsaKeyInvalid else none, rsaInput k.n m] with
  | some st => .error st
  | none =>
    let v := k.power m
    if modPow k.n v k.e = m then .ok (be b.bytes v, []) else .error stInternalFault

/-- RSA_PUBLIC. -/
def lieRsaPublic (b : LieBlock) (operand : Bytes) : LieResult :=
  let l := b.bytes
  let n := beAt operand 0 l
  let e := beAt operand l 8
  let m := beAt operand (l + 8) l
  match firstDefect [if rsaBad b.len n e then some stRsaKeyInvalid else none, rsaInput n m] with
  | some st => .error st
  | none => .ok (be l (modPow n m e), [])

/-- The curve of a CURVE_LOAD's operand area (Table 6.8). -/
def LieBlock.curveLoaded (b : LieBlock) (t : Nat) (operand : Bytes) : Curve :=
  let at' := fun i => beAt operand (i * b.bytes) b.bytes
  { tenant := t, words := b.len, p := at' 0, a := at' 1, b := at' 2, gx := at' 3, gy := at' 4, n := at' 5
    h := beAt operand (6 * b.bytes) 8, digest := Config.sha256 operand }

/-- The result of a command other than CURVE_LOAD on the curve `c`. -/
def lieRun (b : LieBlock) (c : Curve) (operand key rnd : Bytes) : LieResult :=
  match b.op with
  | 1 => lieSign b c operand key rnd
  | 2 => lieVerify b c operand
  | 3 => lieEdSign c operand key
  | 4 => lieEdVerify b c operand
  | 5 => lieEcdh b c operand key
  | 6 => lieKeygen b c rnd
  | 7 => liePointCheck b c operand
  | 8 => lieRsaPrivate b operand key
  | 9 => lieRsaPublic b operand
  | _ => .ok ([], [])

/-- A stand-in where no curve is named. -/
def noCurve : Curve := { tenant := 0, words := 0, p := 0, a := 0, b := 0, gx := 0, gy := 0, n := 0, h := 0 }

/-- Space of a write (LieCmd.writes). -/
def writeSpace (user : LieUser) (pool : Bool) : Nat :=
  match user with
  | .direct => b2n pool
  | .service _ => 2

/-- The command as it runs: its end is known from its operands and what it has drawn (R158). -/
def State.lieCommand (s : State) (b : LieBlock) (user : LieUser) (t : Nat) (operand key rnd : Bytes) : LieCmd :=
  let base : LieCmd := {
    opcode := b.op, user := user, tenant := t, epoch := b.epoch, status := stOk, detail := 0, writes := []
    nominal := b.nominal, start := s.clock, curve := if b.isRsa then 0 else b.curve, load := none
    guarded := b.isPrivate
    handle := if b.isPrivate && !b.poolKey then b.handle else 0 }
  if b.op = 10 then
    let c := b.curveLoaded t operand
    let d := c.sanity rnd
    if d = 0 then { base with load := some c } else { base with status := stCurveRejected, detail := d }
  else
    match lieRun b ((s.curveOf b.curve t).getD noCurve) operand key rnd with
    | .error st => { base with status := st }
    | .ok (r, k) => { base with
        writes := [(writeSpace user b.resPool, b.result, r), (writeSpace user true, b.keyAddr, k)].filter (·.2.2 ≠ []) }

/-- The operand and the key of a command, or the status and DETAIL of a read that fails. -/
def State.lieInputs (s : State) (b : LieBlock) (user : LieUser) (t : Nat) : Except (Status × Nat) (Bytes × Bytes) :=
  match s.lieFetch user t b.opPool b.operand b.operandBytes, s.lieKey b user t with
  | .ok operand, .ok key => .ok (operand, key)
  | .error st, _ => .error (st, if st = stBadDescriptor then 2 else 0)
  | _, .error st => .error (st, if st = stBadDescriptor then 4 else 0)

/-- The command runs, once the engine's buffer holds its whole need (R196). -/
def State.lieBegin (e : Nat) (b : LieBlock) (user : LieUser) (t : Nat) (operand key : Bytes) (s : State) : State :=
  let r := s.engineBytes e (drawNeed b.op b.curve b.len) (b.op = 6)
  let c := s.lieCommand b user t operand key r.1
  r.2.onEngine e fun g => { g with running := some c }

/-- A GO on an idle engine: the command runs, or ends before execution with a status and DETAIL (R159). -/
def State.lieStart (e : Nat) (b : LieBlock) (user : LieUser) (t : Nat) (s : State) : State × Option (Status × Nat) :=
  match s.lieChecks b user t (s.engine e).epoch with
  | some r => (s, some r)
  | none =>
    match s.lieInputs b user t with
    | .ok (operand, key) => (s.lieBegin e b user t operand key, none)
    | .error (st, d) => (if st = stDmaFault then s.dmaReadFailed t else s, some (st, d))

/-! ### Services that wait (R256) -/

/-- Direct engines of a die that a tenant owns and that are in service. -/
def State.directEngines (s : State) (die t : Nat) : List Nat :=
  ((List.range 16).map (die * 16 + ·)).filter fun e => (s.engine e).owner = t && !(s.engine e).retired

/-- A LIE call that waits gets the lowest idle engine of its die that its tenant owns. -/
def State.resumeLieCall (n : Nat) (s : State) : State :=
  match mapGet none s.sz.outstanding n with
  | some (.lieWait block operand key) =>
    let ap := s.applet (s.core n).slot
    let own := s.directEngines ap.die ap.owner
    (match own.find? fun e => (s.engine e).running.isNone with
    | none => if own = [] then s.serviceEnd n stNotReady else s
    | some e =>
      match s.lieChecks ⟨block⟩ (.service n) ap.owner (s.engine e).epoch with
      | some (st, _) => s.serviceEnd n st
      | none => (s.lieBegin e ⟨block⟩ (.service n) ap.owner operand key).awaits n (.lie e))
  | _ => s

/-- An engine may have become idle: LIE calls that wait go on. -/
def State.resumeLie (s : State) : State := s.sz.outstanding.foldl (fun s e => s.resumeLieCall e.1) s

/-! ### Frames (R148, R149) -/

/-- A write to a frame was ignored. -/
def State.liIgnored (e : Nat) (s : State) : State := (s.latch (.liStat e) 0x20000000).ignoredWrite 4

/-- Through BAR2 tenant 0 issues commands only to engines it owns (R148); through its window only an owned engine has a
frame at all. -/
def State.commands (s : State) (e t : Nat) : Bool := (s.engine e).owner = t

/-- DONE (Table 6.5), and the interrupt of a command with the IRQ flag. -/
def State.lieDone (e : Nat) (s : State) : State :=
  let s := s.latch (.liStat e) 0x40000000
  let g := s.engine e
  if g.irq && g.owner < 64 then s.msix g.owner g.vector else s

/-- GO (Table 6.4): ignored while a command runs and on a retired engine. -/
def State.lieGo (e t : Nat) (s : State) : State :=
  let g := s.engine e
  if !s.commands e t || g.running.isSome || g.retired then s.liIgnored e
  else
    let b : LieBlock := ⟨(List.range 8).map fun i => mapGet 0 g.cmd i⟩
    let s := s.onEngine e fun g => { g with
      status := 0, detail := 0, nominal := 0, stale := false, irq := b.irq, vector := b.vector }
    match s.lieStart e b .direct t with
    | (s, none) => s
    | (s, some (st, d)) => (s.onEngine e fun g => { g with status := st.toNat, detail := d }).lieDone e

/-- ABORT (R148, R162): the owner's direct engine, or any direct engine for tenant 0 through BAR2. A running service is
the applet's, and ends for it too. -/
def State.lieAbort (e : Nat) (s : State) : State :=
  if (s.engine e).owner < 64 then (s.endEngine e (some stAborted)).resumeLie else s

/-- A write of LI_CTRL: with both bits set only ABORT acts (DEDUCED, log entry 89). -/
def State.liCtrl (e t value : Nat) (s : State) : State :=
  if value.testBit 1 then s.lieAbort e else if value.testBit 0 then s.lieGo e t else s

/-- A write to a word of LI_CMD. -/
def State.liCmd (e t off value : Nat) (s : State) : State :=
  let g := s.engine e
  if !s.commands e t || g.running.isSome then s.liIgnored e
  else
    let old := mapGet 0 g.cmd (off / 8)
    let new := if off % 8 = 0 then old / 2 ^ 32 * 2 ^ 32 + value else value * 2 ^ 32 + old % 2 ^ 32
    s.onEngine e fun g => { g with cmd := mapSet 0 g.cmd (off / 8) new }

/-- GO by the row of one opcode: LI_CMD0 names it. -/
def State.lieRow (op : Nat) (loc : Loc) (s : State) : State :=
  s.hostWrite loc fun
    | .frame e 0x40 => if mapGet 0 (s.engine e).cmd 0 % 256 = op then some (s.lieGo e loc.fn) else none
    | _ => none

/-- ECDSA_SIGN. -/
def execEcdsaSign (loc : Loc) (env : HostEnv) (s : State) : Host.Outcome State Fault Refusal :=
  .next ((s.applyEnv env).lieRow 1 loc)
/-- ECDSA_VERIFY. -/
def execEcdsaVerify (loc : Loc) (env : HostEnv) (s : State) : Host.Outcome State Fault Refusal :=
  .next ((s.applyEnv env).lieRow 2 loc)
/-- EDDSA_SIGN. -/
def execEddsaSign (loc : Loc) (env : HostEnv) (s : State) : Host.Outcome State Fault Refusal :=
  .next ((s.applyEnv env).lieRow 3 loc)
/-- EDDSA_VERIFY. -/
def execEddsaVerify (loc : Loc) (env : HostEnv) (s : State) : Host.Outcome State Fault Refusal :=
  .next ((s.applyEnv env).lieRow 4 loc)
/-- ECDH. -/
def execEcdh (loc : Loc) (env : HostEnv) (s : State) : Host.Outcome State Fault Refusal :=
  .next ((s.applyEnv env).lieRow 5 loc)
/-- EC_KEYGEN. -/
def execEcKeygen (loc : Loc) (env : HostEnv) (s : State) : Host.Outcome State Fault Refusal :=
  .next ((s.applyEnv env).lieRow 6 loc)
/-- EC_POINT_CHECK. -/
def execEcPointCheck (loc : Loc) (env : HostEnv) (s : State) : Host.Outcome State Fault Refusal :=
  .next ((s.applyEnv env).lieRow 7 loc)
/-- RSA_PRIVATE. -/
def execRsaPrivate (loc : Loc) (env : HostEnv) (s : State) : Host.Outcome State Fault Refusal :=
  .next ((s.applyEnv env).lieRow 8 loc)
/-- RSA_PUBLIC. -/
def execRsaPublic (loc : Loc) (env : HostEnv) (s : State) : Host.Outcome State Fault Refusal :=
  .next ((s.applyEnv env).lieRow 9 loc)
/-- CURVE_LOAD. -/
def execCurveLoad (loc : Loc) (env : HostEnv) (s : State) : Host.Outcome State Fault Refusal :=
  .next ((s.applyEnv env).lieRow 10 loc)
/-- CURVE_UNLOAD. -/
def execCurveUnload (loc : Loc) (env : HostEnv) (s : State) : Host.Outcome State Fault Refusal :=
  .next ((s.applyEnv env).lieRow 11 loc)

/-- ABORT (R162): LI_CTRL written with ABORT. -/
def execAbort (loc : Loc) (s : State) : Host.Outcome State Fault Refusal :=
  .next (s.hostWrite loc fun
    | .frame e 0x40 => some (s.lieAbort e)
    | _ => none)

/-! ### Completion (R158, R161, R163) -/

/-- The writes of a command that ends OK, up to the first that fails; the answer says whether all succeeded (R161). -/
def State.lieWrites (t : Nat) (user : LieUser) : List (Nat × Nat × Bytes) → State → State × Bool
  | [], s => (s, true)
  | (space, addr, b) :: rest, s =>
    let r := if space = 0 then (s.dmaWrite t addr b, s.dmaLands t addr b.length)
      else if space = 1 then (s.poolWrite t addr b, true)
      else match user with
        | .service core => (s.bufferWrite core addr b, true)
        | .direct => (s, true)
    if r.2 then r.1.lieWrites t user rest else (r.1, false)

/-- What a command ends with, a failed fault check and a CurveId taken meanwhile included. -/
def State.lieEnd (s : State) (c : LieCmd) (faultCheck : Bool) : Status × Nat :=
  if c.status ≠ stOk then (c.status, c.detail)
  else if c.guarded && faultCheck then (stInternalFault, 0)
  else if c.load.isSome && (mapGet none s.li.curves c.curve).isSome then (stCurveRejected, 1)
  else (stOk, 0)

/-- LIE_COMMAND_COMPLETE (R158): after its nominal time a command ends; an OK writes its areas (R161). -/
def State.lieComplete (e : Nat) (c : LieCmd) (faultCheck : Bool) (s : State) : State :=
  let r := s.lieEnd c faultCheck
  let s := s.onEngine e fun g => { g with running := none, nominal := c.nominal }
  let w := if r.1 = stOk then s.lieWrites c.tenant c.user c.writes else (s, true)
  let s := w.1
  let s := if r.1 ≠ stOk then s
    else match c.load with
      | some v => s.onLi fun l => { l with curves := mapSet none l.curves c.curve (some v) }
      | none => if c.opcode = 11 then s.onLi fun l => { l with curves := mapSet none l.curves c.curve none } else s
  let st := if r.1 = stOk && !w.2 then stDmaFault else r.1
  let s := (if st = stInternalFault then s.lieFault e else s).fillEngine e
  let s := match c.user with
    | .service core => s.serviceEnd core st
    | .direct => (s.onEngine e fun g => { g with status := st.toNat, detail := r.2 }).lieDone e
  s.resumeLie

/-- LIE_COMMAND_COMPLETE. -/
def execLieCommandComplete (e : Nat) (faultCheck : Bool) (s : State) : Host.Outcome State Fault Refusal :=
  .next (match (s.engine e).running with
    | some c => if c.start + c.nominal ≤ s.clock then s.lieComplete e c faultCheck else s
    | none => s)

/-! ### Ownership (R140, R164) -/

/-- The running command of an engine whose owner changes ends (R162): the former owner alone sees STALE_OWNER
(DEDUCED, log entry 78). -/
def State.ownerAbort (e : Nat) (s : State) : State :=
  let g := s.engine e
  match g.running with
  | none => s
  | some c =>
    let s := s.onEngine e fun g => { g with running := none, stale := decide (c.user = .direct ∧ g.owner = 0) }
    match c.user with
    | .service core => s.serviceEnd core stStaleOwner
    | .direct =>
      let s := if g.owner = 0 then { s with latches := setLatch 0x40000000 (latchKey (.liStat e) (.tenant 0)) s.latches }
        else s
      if g.irq && g.owner < 64 then s.msix g.owner g.vector else s

/-- A write of LiEngineOwner (R140). -/
def liEngineOwner (e owner : Nat) : Act := fun s =>
  let g := s.engine e
  if 63 < owner && owner ≠ 0xFF then (s, stModeRefused)
  else if g.owner = owner then (s, stOk)
  else if (g.owner = 0xFF || owner = 0xFF) && s.pwr.mode ≠ .standby then (s, stModeRefused)
  else if g.owner = 0xFF && !g.retired && s.sealingEngines (e / 16) ≤ 2 then (s, stModeRefused)
  else
    let s := { s with latches := s.latches.filter fun l => l.1 / 2048 ≠ RcReg.code (.liStat e) }
    let s := (s.onEngine e fun g => { g with stale := false }).ownerAbort e
    ((s.onEngine e fun g => { g with
      owner := owner
      buffer := if (g.owner = 0xFF) = (owner = 0xFF) then g.buffer else []
      epoch := (g.epoch + 1) % 65536
      status := 0
      detail := 0
      nominal := 0 }).resumeLie.assignWork, stOk)

/-! ### Microcode (R146, R147) -/

/-- Version of the ROM image (0x5000.02): set in silicon. -/
def romVersion : Nat := (Config.silicon 32 1).toNat

def State.activeVersion (s : State) : Nat := if s.li.ucodeRom then romVersion else s.li.ucodeVersion

/-- EVENT 0x0002 of a load (Table 16.8). -/
def State.ucodeEvent (version status : Nat) (s : State) : State :=
  (s.onLi fun l => { l with ucodeStatus := status, ucodeLoad := none }).logEvent 2 (be 4 version ++ be 1 status ++ be 3 0)

/-- The format of an image (Table 6.2). -/
def ucodeFormatOk (b : Bytes) : Bool :=
  let n := beAt b 16 4
  beAt b 0 8 = 0x4758384C49455543 && beAt b 8 2 = 1 && beAt b 10 2 = 0 && beAt b 12 4 ≠ 0 && n % 16 = 0
    && b.length = 80 + n + 96 + 4627 && beAt b 20 12 = 0 && slice b 32 48 = Config.sha384 (slice b 80 n)

/-- Both signatures verify under Termar's keys. -/
def ucodeSigned (b : Bytes) : Bool :=
  let n := 80 + beAt b 16 4
  Config.passes .p384 [0x5543] [b.take n, slice b n 96] && Config.passes .mldsa [3, 0x5543] [b.take n, slice b (n + 96) 4627]

/-- A write of LiUcodeLoad: the image is fetched and its format checked; UCODE_LOAD_DONE ends the rest. -/
def liUcodeLoad (value : Nat) : Act := fun s =>
  let addr := s.num 0x5000 5 0 0
  let n := s.num 0x5000 6 0 0
  if value ≠ 0x5A3C then (s, stModeRefused)
  else if s.li.ucodeLoad.isSome then (s, stSlotBusy)
  else if s.pwr.mode ≠ .standby then (s.ucodeEvent 0 0x15, stOk)
  else if !s.dmaOk 0 addr n then ((s.dmaReadFailed 0).ucodeEvent 0 0x14, stOk)
  else
    let b := s.dmaBytes addr n
    if !ucodeFormatOk b then (s.ucodeEvent (beAt b 12 4) 0x10, stOk)
    else ((s.onLi fun l => { l with ucodeStatus := 1, ucodeLoad := some b }).assignWork, stOk)

/-- How a load whose verification has run ends: both signatures, the version, then the known-answer tests. -/
def State.ucodeResult (b : Bytes) (katOk : Bool) (s : State) : State :=
  let v := beAt b 12 4
  if !ucodeSigned b then s.ucodeEvent v 0x11
  else if v < s.li.ucodeMin then s.ucodeEvent v 0x12
  else if katOk then (s.onLi fun l => { l with ucodeRom := false, ucodeVersion := v }).ucodeEvent v 2
  else s.ucodeEvent v 0x13

/-- UCODE_LOAD_DONE (R147): it ends once a Lattice Unit of Seal die 0 has verified the ML-DSA-87 signature (R167). -/
def execUcodeLoadDone (katOk : Bool) (s : State) : Host.Outcome State Fault Refusal :=
  .next (match s.li.ucodeLoad with
    | some b =>
      if s.anchorRuns .ucode then ((s.ucodeResult b katOk).releaseUnits (· = .anchor .ucode)).assignWork else s.assignWork
    | none => s)

/-- A write of LiUcodeMinVersion (R147): raised up to the active version; one of 64 fuse steps burns, unless
the burn fails (R263). -/
def liUcodeMin (value : Nat) (burnt : Bool) : Act := fun s =>
  if 64 ≤ s.li.ucodeSteps || value < s.li.ucodeMin || s.activeVersion < value then (s, stModeRefused)
  else if value = s.li.ucodeMin then (s, stOk)
  else if !burnt then (s, stInternalFault)
  else (s.onLi fun l => { l with ucodeMin := value, ucodeSteps := l.ucodeSteps + 1 }, stOk)

end Sys2Proof.Machine
end

