-- ==== Sys2Proof/Machine/Keys.lean ====
section
/-! DEFINITION. Key handles (R440 to R446): types, generation, import, the key store, unwrapping, deletion, and what the
objects of Table 12.12 return. -/

namespace Sys2Proof.Machine

/-! ### Types (Table 12.10) -/

def keyTypes : List Nat := [1, 2, 3, 4, 5, 6, 7, 0x10, 0x21, 0x22, 0x23, 0x31, 0x32, 0x40]

/-- Bytes of the private part; `w` is the RSA length in words. -/
def privateBytes (type w : Nat) : Nat :=
  match type with
  | 2 => 48
  | 3 => 72
  | 5 => 57
  | 7 => 56
  | 0x10 => 8 * w + 8
  | 0x31 | 0x32 | 0x40 => 64
  | _ => 32

/-- Bytes of the public part. -/
def publicBytes (type w : Nat) : Nat :=
  match type with
  | 1 => 64
  | 2 => 96
  | 3 => 144
  | 4 | 6 => 32
  | 5 => 57
  | 7 => 56
  | 0x10 => 8 * w + 8
  | 0x21 => 1312
  | 0x22 => 1952
  | 0x23 => 2592
  | 0x31 => 1184
  | 0x32 => 1568
  | _ => 2016

/-- A type and a usage that go together. -/
def usageOk (type usage : Nat) : Bool :=
  if type = 1 || type = 4 then usage = 1 || usage = 2
  else if type = 0x40 then usage = 1
  else keyTypes.contains type && usage = 2

/-- The built-in curve of a Weierstrass type. -/
def curveOfType (type : Nat) : Option Curve := if 1 ≤ type ∧ type ≤ 3 then builtin type else none

/-- The public part of a private part on a Weierstrass curve, coordinates of `l` bytes. -/
def ecPublicPart (type l : Nat) (priv : Bytes) : Bytes :=
  match curveOfType type with
  | some c => (match c.mul (ofBe priv) c.base with
    | some (x, y) => be l x ++ be l y
    | none => List.replicate (2 * l) 0)
  | none => []

/-- The public part that belongs to a private part. -/
def publicPart (type w : Nat) (priv : Bytes) : Bytes :=
  let n := publicBytes type w
  match type with
  | 1 | 2 | 3 => ecPublicPart type (n / 2) priv
  | 0x10 => be (8 * w) (beAt priv 0 (4 * w) * beAt priv (4 * w) (4 * w)) ++ slice priv (8 * w) 8
  | 0x21 => Config.out .mldsaPublic n [1] [priv]
  | 0x22 => Config.out .mldsaPublic n [2] [priv]
  | 0x23 => Config.out .mldsaPublic n [3] [priv]
  | 0x31 => Config.out .mlkemPublic n [0x11] [priv]
  | 0x32 => Config.out .mlkemPublic n [0x12] [priv]
  | 0x40 => ecPublicPart 1 32 (priv.take 32) ++ Config.out .mldsaPublic 1952 [2] [priv.drop 32]
  | 4 => ecPublic 4 false priv
  | 5 => ecPublic 5 false priv
  | 6 => ecPublic 4 true priv
  | _ => ecPublic 5 true priv

/-- A scalar by the extra-random-bits method (R155) from free bytes. -/
def scalarFrom (type l : Nat) (free : Bytes) : Bytes :=
  match curveOfType type with
  | some c =>
    let bits := bitLen c.n + 64
    be l (ofBe (free.take ((bits + 7) / 8)) % 2 ^ bits % (c.n - 1) + 1)
  | none => []

/-- The private part that a generation draws (R441 step 3). -/
def drawnPrivate (type : Nat) (free : Bytes) : Bytes :=
  match type with
  | 1 | 2 | 3 => scalarFrom type (privateBytes type 0) free
  | 6 => clamp 4 (free.take 32)
  | 7 => clamp 5 (free.take 56)
  | 0x40 => scalarFrom 1 32 free ++ (free.drop 128).take 32
  | _ => free.take (privateBytes type 0)

/-! ### The key store (R443) -/

def State.keyStore (s : State) : Nat := s.num 0x2100 0xE 0 0

/-- A key that the Vault derives from its root key (R398). -/
def State.derive (s : State) (purpose : Nat) (context : Bytes) : Bytes :=
  Config.out .hmacSha384 32 [] [s.tg.rootKey.getD [], [0x4B] ++ be 1 s.lc.state ++ be 2 purpose ++ be 8 unitId ++ context]

/-- The wrapping key of a handle (purpose 0x0001) and the IV of its entry (R443). -/
def State.wrapKey (s : State) (h owner generation : Nat) : List Bytes :=
  [s.derive 1 (be 1 owner ++ be 2 h), be 4 generation ++ List.replicate 8 0]

/-- The entry of a handle up to its wrapped part (Table 12.11): the additional data. -/
def entryHead (h : Nat) (k : Handle) (pub : Bytes) : Bytes :=
  be 8 0x4758384B45595354 ++ be 2 h ++ be 1 k.type ++ be 1 k.usage ++ be 1 k.owner ++ be 1 k.words ++ be 2 0
    ++ be 4 k.generation ++ be 2 (publicBytes k.type k.words) ++ be 2 (privateBytes k.type k.words) ++ be 8 unitId ++ pub

/-- The whole entry. -/
def State.storeEntry (s : State) (h : Nat) (k : Handle) (pub priv : Bytes) : Bytes :=
  let w := s.wrapKey h k.owner k.generation
  let head := entryHead h k pub
  let cipher := Config.out .gcmCipher (privateBytes k.type k.words) [] (w ++ [priv])
  head ++ cipher ++ Config.out .gcmTag 16 [] (w ++ [head, cipher])

def State.entryAddress (s : State) (h : Nat) : Nat := s.keyStore + 0x1000 * h

def entryBytes (k : Handle) : Nat := 48 + publicBytes k.type k.words + privateBytes k.type k.words

/-- The public part in the key store, where it is readable and matches the table (R445). -/
def State.storedPublic (s : State) (h : Nat) (k : Handle) : Option Bytes :=
  let n := publicBytes k.type k.words
  let a := s.entryAddress h + 32
  if s.keyStore ≠ 0 && s.dmaOk 0 a n && Config.sha256 (s.dmaBytes a n) = k.publicDigest then some (s.dmaBytes a n)
  else none

/-- Unwrap the entry of handle `h` (R443). -/
def State.unwrapHandle (h : Nat) (s : State) : State :=
  match s.handle h with
  | none => s
  | some k =>
    let a := s.entryAddress h
    let n := entryBytes k
    if !s.dmaOk 0 a n then
      (s.dmaReadFailed 0).onHandle h fun _ => some { k with state := .failed, publicPart := [], privatePart := [] }
    else
      let e := s.dmaBytes a n
      let np := publicBytes k.type k.words
      let nk := privateBytes k.type k.words
      let pub := slice e 32 np
      let cipher := slice e (32 + np) nk
      let w := s.wrapKey h k.owner k.generation
      let ok := s.derives && e.take 32 = (entryHead h k []).take 32 && Config.sha256 pub = k.publicDigest
        && Config.out .gcmTag 16 [] (w ++ [e.take (32 + np), cipher]) = slice e (32 + np + nk) 16
      s.onHandle h fun _ => some (if ok then
          { k with state := .unwrapped, publicPart := pub, privatePart := Config.out .gcmPlain nk [] (w ++ [cipher]) }
        else { k with state := .failed, publicPart := [], privatePart := [] })

/-- The allocated handles that `p` names are unwrapped from the key store. -/
def State.unwrapAll (p : Handle → Bool) (s : State) : State :=
  let hs := (s.krf.handles.filter fun e => match e.2 with
    | some k => p k
    | none => false).map (·.1)
  hs.foldl (fun s h => State.unwrapHandle h s) s

/-- Unwrapped handles that `p` names are zeroed: they are wrapped again (Table 2.10, Drain step 6). -/
def State.zeroHandles (p : Handle → Bool) (s : State) : State :=
  s.onKrf fun k => { k with
    handles := k.handles.map fun e => (e.1, e.2.map fun (h : Handle) =>
      if p h && h.state = .unwrapped then { h with state := .wrapped, publicPart := [], privatePart := [] } else h) }

/-! ### Creation (R441, R442) -/

def State.keyStatus (inst : Nat) (st : Status) (s : State) : State := s.setNum 0x2100 0xA inst st.toNat

/-- What instance `inst` of the key objects names, as an operation. -/
def State.keyOp (s : State) (v : Viewer) (inst : Nat) (imported : Bool) : KeyOp :=
  { viewer := v, tenant := inst, handle := s.num 0x2100 1 inst 0, type := s.num 0x2100 2 inst 0
    usage := s.num 0x2100 3 inst 0, words := s.num 0x2100 4 inst 0, imported := imported
    blob := if imported then s.octets 0x2100 7 inst else [], start := s.clock }

/-- The operation is accepted: its parts go to what is idle of Seal die 0 (R167). -/
def State.startKeyOp (o : KeyOp) (s : State) : State := (s.onKrf fun k => { k with running := some o }).assignWork

/-- A write of KeyGenerate (R441). -/
def keyGenerate (v : Viewer) (inst value : Nat) : Act := fun s =>
  let mode := match s.pwr.mode with
    | .standby | .service | .draw | .held => true
    | _ => false
  if value ≠ 0x6E4B then (s, stModeRefused)
  else if !mode || !s.en.firstSeed then (s, stNotReady)
  else if s.keyStore = 0 then (s, stModeRefused)
  else if s.krf.running.isSome then (s, stSlotBusy)
  else (s.startKeyOp (s.keyOp v inst false), stOk)

/-- The Ceremony in progress was entered from Standby. -/
def State.standbyCeremony (s : State) : Bool := s.pwr.mode = .ceremony && s.pwr.ceremonyFrom = some .standby

/-- A write of KeyImport (R442). -/
def keyImport (v : Viewer) (inst value : Nat) : Act := fun s =>
  if !s.standbyCeremony then (s, stAccessDenied)
  else if value ≠ 0x1A4B || s.keyStore = 0 then (s, stModeRefused)
  else if s.krf.running.isSome then (s, stSlotBusy)
  else (s.startKeyOp (s.keyOp v inst true), stOk)

/-- The lengths of an RSA key (Table 12.10). -/
def wordsOk (type w : Nat) : Bool := type ≠ 0x10 || (w % 2 = 0 && 16 ≤ w && w ≤ 128)

/-- Steps 1 and 2 of R441. -/
def State.keyOpBlock (s : State) (o : KeyOp) : Option Status :=
  if o.handle = 0 || 0xFFF < o.handle || (s.handle o.handle).isSome then some stKeyHandleInvalid
  else if !usageOk o.type o.usage || !wordsOk o.type o.words || (!o.imported && o.type = 0x10) then some stBadDescriptor
  else if !s.derives then some stModeRefused
  else if !o.imported then s.coreEntropyBlock
  else none

/-- The additional data and key of an import (R442). -/
def importAd (o : KeyOp) : Bytes :=
  [0x42] ++ be 8 unitId ++ be 2 o.handle ++ be 1 o.type ++ be 1 o.usage ++ be 1 o.tenant
    ++ be 1 (if o.type = 0x10 then o.words else 0)

/-- The checks of an imported private part (R442). -/
def importDefect (type w : Nat) (priv : Bytes) : Option Status :=
  match type with
  | 1 | 2 | 3 => (curveOfType type).bind fun c => c.scalarDefect (ofBe priv)
  | 0x40 => (builtin 1).bind fun c => c.scalarDefect (ofBe (priv.take 32))
  | 0x10 =>
    let k := rsaOf (beAt priv 0 (4 * w)) (beAt priv (4 * w) (4 * w)) (beAt priv (8 * w) 8)
    if rsaBad w k.n k.e then some stRsaKeyInvalid else none
  | _ => none

/-- The private part of an import, or its failure; a tag failure counts with the lanes of Seal die 0 (R185), and without
a pair nothing verifies (DEDUCED, log entry 91). -/
def State.importPrivate (s : State) (o : KeyOp) : State × Except Status Bytes :=
  let n := privateBytes o.type o.words
  if o.blob.length ≠ 1568 + n + 16 then (s, .error stBadDescriptor)
  else
    let dk := match s.krf.importPair with
      | some p => p.2
      | none => []
    let ss := Config.out .mlkemSecret 32 [0x12, 1] [dk, o.blob.take 1568]
    let k := Config.out .hmacSha384 32 [] [ss, importAd o]
    let cipher := slice o.blob 1568 n
    let w := [k, List.replicate 12 0]
    if s.krf.importPair = none || Config.out .gcmTag 16 [] (w ++ [importAd o, cipher]) ≠ slice o.blob (1568 + n) 16 then
      ((s.onLh fun l => { l with tagFailures := l.tagFailures + 1 }).latch (.laneStat 0) 4, .error stAuthTagMismatch)
    else
      let priv := Config.out .gcmPlain n [] (w ++ [cipher])
      match importDefect o.type o.words priv with
      | some st => (s, .error st)
      | none => (s, .ok priv)

/-- Steps 5 and 6 of R441: the handle is allocated, its entry written, its key placed in the KRF where the mode has
keys (DEDUCED, log entry 92). -/
def State.createHandle (o : KeyOp) (priv : Bytes) (s : State) : State :=
  let g := mapGet 0 s.krf.generations o.handle + 1
  let pub := publicPart o.type o.words priv
  let k : Handle := {
    type := o.type, usage := o.usage, owner := o.tenant, generation := g
    words := if o.type = 0x10 then o.words else 0, publicDigest := Config.sha256 pub, state := .wrapped
    publicPart := [], privatePart := [] }
  let s := s.onKrf fun x => { x with generations := mapSet 0 x.generations o.handle g }
  let e := s.storeEntry o.handle k pub priv
  let ok := s.dmaLands 0 (s.entryAddress o.handle) e.length
  let s := s.dmaWrite 0 (s.entryAddress o.handle) e
  if !ok then s.keyStatus o.tenant stDmaFault
  else
    let now := match s.pwr.mode with
      | .service | .draw | .held => true
      | _ => false
    let k := if now then { k with state := .unwrapped, publicPart := pub, privatePart := priv } else k
    (s.onHandle o.handle fun _ => some k).keyStatus o.tenant stOk

/-- A check has failed: with INTERNAL_FAULT, and a fault of the unit or the engine that made it; of a hybrid key the unit's
(R157, R175) (DESIGN CHOICE, log entry 136). -/
def State.keyCheckFailed (o : KeyOp) (s : State) : State :=
  let units := (List.range 4).filter fun u => match (s.latticeUnit u).running with
    | some x => x.user = .anchor .keyOp
    | none => false
  let s := match units, o.engine with
    | u :: _, _ => s.unitFault u
    | [], some e => s.lieFault e
    | [], none => s
  s.keyStatus o.tenant stInternalFault

/-- The operation runs to its end. -/
def State.finishKeyOp (o : KeyOp) (checkFailed : Bool) (s : State) : State :=
  let s := s.onKrf fun x => { x with running := none }
  let s := if o.imported then s.setOctets 0x2100 7 o.tenant [] else s
  match s.keyOpBlock o with
  | some st => s.keyStatus o.tenant st
  | none =>
    if o.imported then
      match s.importPrivate o with
      | (s, .error st) => s.keyStatus o.tenant st
      | (s, .ok priv) => if checkFailed then s.keyCheckFailed o else s.createHandle o priv
    else
      let r := s.generate 77 160 true
      if checkFailed then r.2.keyCheckFailed o else r.2.createHandle o (drawnPrivate o.type r.1)

/-- KEY_OP_COMPLETE (R441, R442): `checkFailed` is a check of R157 or R175, or the consistency test, that failed. An operation
that waits for an engine or a unit of Seal die 0 has not ended; one that has frees them. -/
def execKeyOpComplete (checkFailed : Bool) (s : State) : Host.Outcome State Fault Refusal :=
  .next (match s.krf.running with
    | some o =>
      if (s.keyOpBlock o).isSome || s.keyOpPlaced o then
        ((s.finishKeyOp o checkFailed).releaseUnits (· = .anchor .keyOp)).assignWork
      else s.assignWork
    | none => s)

/-! ### Deletion (R444) -/

/-- A handle is in use: by a slot, an open manifest, or a running command or service. -/
def State.handleUsed (s : State) (h : Nat) : Bool :=
  s.lg.slots.any (fun e => e.2.handle = h)
    || s.td.manifests.any (fun m => m.handle = h)
    || s.li.engines.any (fun e => match e.2.running with
      | some c => c.handle = h
      | none => false)
    || s.lh.units.any (fun e => match e.2.running with
      | some o => o.handle = h
      | none => false)
    || s.lh.toVerify.any (fun e => e.2.handle = h)

/-- A viewer reaches a handle (R445): a tenant from 1 to 63 only free handles and its own. -/
def reachesHandle (v : Viewer) (k : Option Handle) : Bool :=
  match v, k with
  | .tenant t, some k => t = 0 || k.owner = t
  | _, _ => true

/-- A write of KeyDelete. -/
def keyDelete (v : Viewer) (inst value : Nat) : Act := fun s =>
  let h := s.num 0x2100 1 inst 0
  let k := s.handle h
  if v = .regulator && !s.standbyCeremony then (s, stAccessDenied)
  else if value ≠ 0xDE4B then (s, stModeRefused)
  else if s.krf.running.isSome then (s, stSlotBusy)
  else if k.isNone || !reachesHandle v k then (s, stKeyHandleInvalid)
  else if s.handleUsed h then (s, stSlotBusy)
  else ((s.onHandle h fun _ => none).keyStatus inst stOk, stOk)

/-! ### What the objects return (R445, R446) -/

def KeyState.code : KeyState → Nat
  | .wrapped => 1
  | .unwrapped => 2
  | .failed => 3

/-- KeyInfo. -/
def keyInfo (k : Option Handle) : Nat :=
  match k with
  | none => 0x00FF000000000000
  | some k => k.state.code * 2 ^ 56 + k.owner * 2 ^ 48 + k.usage * 2 ^ 40 + k.type * 2 ^ 32 + k.generation

/-- The public part of a handle, from the KRF or from the key store. -/
def State.publicOf (s : State) (h : Nat) (k : Handle) : Option Bytes :=
  if k.state = .unwrapped then some k.publicPart else s.storedPublic h k

/-- KeyPublic and KeyAttestation go to the key store, and the read fails (R303, R445). -/
def State.storeReadFails (s : State) (v : Viewer) (inst : Nat) : Bool :=
  let h := s.num 0x2100 1 inst 0
  match s.handle h with
  | some k => reachesHandle v (some k) && k.state ≠ .unwrapped && s.keyStore ≠ 0
      && !s.dmaOk 0 (s.entryAddress h + 32) (publicBytes k.type k.words)
  | none => false

/-- KeyPublic. -/
def State.keyPublic (s : State) (v : Viewer) (inst : Nat) : Except Status Bytes :=
  let h := s.num 0x2100 1 inst 0
  match s.handle h with
  | some k =>
    if !reachesHandle v (some k) then .error stKeyHandleInvalid
    else match s.publicOf h k with
      | some b => .ok b
      | none => .error stKeyHandleInvalid
  | none => .error stKeyHandleInvalid

/-- KeyAttestation: a deterministic signature of the device identity key. -/
def State.keyAttestation (s : State) (v : Viewer) (inst : Nat) : Except Status Bytes :=
  let h := s.num 0x2100 1 inst 0
  match s.handle h, s.keyPublic v inst with
  | some k, .ok pub => .ok (deviceSign 0 ([0x41] ++ be 8 unitId ++ be 2 h ++ be 1 k.type ++ be 1 k.usage ++ be 1 k.owner
      ++ be 4 k.generation ++ Config.sha384 pub))
  | _, _ => .error stKeyHandleInvalid

/-- KeyHandlesFree. -/
def State.handlesFree (s : State) : Nat := 4095 - (s.krf.handles.filter fun e => e.2.isSome).length

end Sys2Proof.Machine
end

