-- ==== Sys2Proof/Machine/SezelFlow.lean ====
section
/-! DEFINITION. Control flow, loops, CSRs, waiting and halting on the Sezel cores (R227, R228, R236, R218, R222, R250, R243). -/

namespace Sys2Proof.Machine

/-- A conditional branch (R228): to the branch's own address plus 2 × offset, after one delay slot. -/
def branchBody (cond : BitVec 4) (offset : Word) : Body := unlessReserved (cond.toNat < 15) fun _s c =>
  .ok (_s, c, .transfer (if condHolds c.flags cond then some (c.pc + 2 * offset) else none))

/-- C.B (R228). -/
def execCB (core : Nat) (cond : BitVec 4) (offset : BitVec 8) (s : State) : Host.Outcome State Fault Refusal :=
  .next (s.sezel core 2 (branchBody cond (offset.signExtend 32)))

/-- B.L (R228). -/
def execBL (core : Nat) (cond : BitVec 4) (offset : BitVec 20) (s : State) : Host.Outcome State Fault Refusal :=
  .next (s.sezel core 4 (branchBody cond (offset.signExtend 32)))

/-- JR: to rs after one delay slot (R225). -/
def execJr (core : Nat) (rs : Fin 16) (s : State) : Host.Outcome State Fault Refusal :=
  .next (s.sezel core 2 (fun s c => .ok (s, c, .transfer (some c.w[rs]))))

/-- NOP (R227). -/
def execNop (core : Nat) (s : State) : Host.Outcome State Fault Refusal :=
  .next (s.sezel core 2 (pureBody id))

/-- LPCLR: lc := 0 (R227). -/
def execLpclr (core : Nat) (level : Fin 3) (s : State) : Host.Outcome State Fault Refusal :=
  .next (s.sezel core 2 (pureBody fun c => { c with lc := c.lc.set level 0 }))

/-- FENCE: every earlier store of the core is visible already, since stores take effect in program order (R222). -/
def execFence (core : Nat) (s : State) : Host.Outcome State Fault Refusal :=
  .next (s.sezel core 2 (pureBody id))

/-- LOOP (R236): ls, le and lc of the level; a count of zero goes on at le without the body. E = 0 is reserved. -/
def loopBody (level : Fin 3) (count : LoopCount) (e : BitVec 10) : Body := unlessReserved (e != 0) fun s c =>
  let n : Word := match count with
    | .imm n => n.setWidth 32
    | .reg w => c.w[w]
  let ls := c.pc + 4
  let le := ls + 2 * e.setWidth 32
  .ok (s, { c with ls := c.ls.set level ls, le := c.le.set level le, lc := c.lc.set level n },
    if n = 0 then .goto le else .seq)

/-- LOOP (R236). -/
def execLoop (core : Nat) (level : Fin 3) (count : LoopCount) (e : BitVec 10) (s : State) : Host.Outcome State Fault Refusal :=
  .next (s.sezel core 4 (loopBody level count e))

/-- A CSR's value (Table 9.5); any other number reads zero (R218). -/
def SCore.csr (core : Nat) (c : SCore) (n : Nat) : Word :=
  match n with
  | 0x00 => c.mode
  | 0x01 => c.flags
  | 0x02 => BitVec.ofNat 32 core
  | 0x03 => c.instret.setWidth 32
  | 0x04 => (c.instret >>> 32).setWidth 32
  | 0x08 => c.ls[0]
  | 0x09 => c.ls[1]
  | 0x0A => c.ls[2]
  | 0x0B => c.le[0]
  | 0x0C => c.le[1]
  | 0x0D => c.le[2]
  | 0x0E => c.lc[0]
  | 0x0F => c.lc[1]
  | 0x10 => c.lc[2]
  | 0x18 => c.brev.setWidth 32
  | _ => if h : 0x20 ≤ n ∧ n ≤ 0x27 then (c.m[n - 0x20]'(by omega)).setWidth 32 else 0

/-- Write FLAGS: every flag, visible at distance 1. -/
def SCore.putAllFlags (v : Word) (c : SCore) : SCore :=
  (List.finRange 5).foldl (fun c i => c.putFlag i 1 (v.getLsbD i.val)) c

/-- A CSRW (Table 9.5); any other number, and a read-only one, has no effect (R218). Reserved bits stay zero. -/
def SCore.setCsr (n : Nat) (v : Word) (c : SCore) : SCore :=
  match n with
  | 0x00 => { c with mode := v &&& 7 }
  | 0x01 => c.putAllFlags v
  | 0x08 => { c with ls := c.ls.set 0 v }
  | 0x09 => { c with ls := c.ls.set 1 v }
  | 0x0A => { c with ls := c.ls.set 2 v }
  | 0x0B => { c with le := c.le.set 0 v }
  | 0x0C => { c with le := c.le.set 1 v }
  | 0x0D => { c with le := c.le.set 2 v }
  | 0x0E => { c with lc := c.lc.set 0 v }
  | 0x0F => { c with lc := c.lc.set 1 v }
  | 0x10 => { c with lc := c.lc.set 2 v }
  | 0x18 => { c with brev := v.setWidth 8 }
  | _ => if h : 0x20 ≤ n ∧ n ≤ 0x27 then { c with m := c.m.set (n - 0x20) (v.setWidth 24) (by omega) } else c

/-- CSRR: rd := CSR (R218). -/
def execCsrr (core : Nat) (rd : Fin 16) (csr : BitVec 8) (s : State) : Host.Outcome State Fault Refusal :=
  .next (s.sezel core 4 (pureBody fun c => c.putW rd 1 (c.csr core csr.toNat)))

/-- CSRW: CSR := rs (R218). -/
def execCsrw (core : Nat) (rs : Fin 16) (csr : BitVec 8) (s : State) : Host.Outcome State Fault Refusal :=
  .next (s.sezel core 4 (pureBody fun c => c.setCsr csr.toNat c.w[rs]))

/-- WAIT: the reservation goes; the core waits for a mailbox event, unless one is latched for it (R227, R254). -/
def waitBody : Body := pureBody fun c =>
  if c.wake then { c with reservation := none, wake := false }
  else { c with reservation := none, run := .waiting }

/-- WAIT (R227). -/
def execWait (core : Nat) (s : State) : Host.Outcome State Fault Refusal :=
  .next (s.sezel core 2 (waitBody))

/-- WAIT_RESUME (R254): IN_TAIL, OUT_HEAD or the DRAW word has changed, and the waiting core runs on. -/
def execWaitResume (core : Nat) (s : State) : Host.Outcome State Fault Refusal :=
  let c := s.core core
  .next (if core < 192 ∧ c.run = .waiting ∧ c.wake = true then
    s.onCore core fun c => { c with run := .running, wake := false } else s)

/-- SLOT_HALTED (R250): the slot enters HALTED with the exit code when no core of it runs any more. -/
def State.slotHalted (core : Nat) (code : Nat) (s : State) : State :=
  let a := (s.core core).slot
  let ap := s.applet a
  if ap.state = .running && ap.cores.all (fun k => (s.core k).run = .halted) then
    (s.onApplet a fun ap => { ap with exit := code }).slotState a .halted
  else s

/-- HALT (R227, R250): stops the core with an exit code. -/
def execHalt (core : Nat) (code : BitVec 8) (s : State) : Host.Outcome State Fault Refusal :=
  let ran := s.sezel core 2 fun s c => .ok (s, { c with run := .halted }, .seq)
  .next (if (s.core core).run ≠ .halted ∧ (ran.core core).run = .halted then ran.slotHalted core code.toNat else ran)

/-- BKPT: halts for the debugger while Maintenance is set, else faults (R227) (DEDUCED, log entry 72). -/
def execBkpt (core : Nat) (s : State) : Host.Outcome State Fault Refusal :=
  .next (s.sezel core 2 (fun s c =>
    if s.lc.maint then .ok (s, { c with run := .debug }, .seq) else .error ⟨causeBreakpoint, 0⟩))

/-- A reserved encoding reached at run time (R243). -/
def execReservedEncoding (core : Nat) (wide : Bool) (s : State) : Host.Outcome State Fault Refusal :=
  .next (s.sezel core (if wide then 4 else 2) (reservedBody))

end Sys2Proof.Machine
end

