-- ==== Sys2Proof/Machine/LifeCycle.lean ====
section
/-! DEFINITION. Life cycle, rights and debug authority (R395 to R413): transitions, certificates, challenge and response, and
the TAP instructions but DBG_REG and DBG_DIR. -/

namespace Sys2Proof.Machine

/-! ### States and rights (R395, R400) -/

/-- The state that fuse groups show: the highest group with two or more burnt fuses (R395). -/
def fusedState (f : Vector Nat 4) : Nat :=
  if 2 ≤ f[3] then 5 else if 2 ≤ f[2] then 4 else if 2 ≤ f[1] then 3 else if 2 ≤ f[0] then 2 else 1

/-- Wake step 4 completes the burn of a group with exactly two burnt fuses (R395). -/
def completeBurns (f : Vector Nat 4) : Vector Nat 4 :=
  let done := fun n => if n = 2 then 3 else n
  #v[done f[0], done f[1], done f[2], done f[3]]

/-- The states that allow each right, bit (code − 1) (Table 17.4). -/
def rightStates : List Nat := [0b1111, 0b1111, 0b1111, 0b0001, 0b1011, 0b0011, 0b0010, 0b1001]

/-- The rights of a bitmap that the state allows. -/
def allowedRights (state rights : Nat) : Nat :=
  ofBits (rightStates.mapIdx fun k a => bitOf rights k && bitOf a (state - 1))

/-- A right is held. -/
def State.hasRight (s : State) (k : Nat) : Bool := s.lc.maint && bitOf s.lc.rights k

/-- DENIED of LC_STAT. -/
def State.denied (s : State) : State := s.latch .lcStat 2

/-- Maintenance is set with rights, or has its rights replaced: EVENT 0x0006 and R45 follow only where it was clear. In Fielded
the Vault refuses derivations from here on, and the KRF holds no journal key (R399, R447). -/
def State.setMaintenance (rights : Nat) (s : State) : State :=
  let was := s.lc.maint
  let s := s.onLc fun l => { l with maint := true, rights := allowedRights l.state rights }
  let s := if s.derives then s else s.onKrf fun k => { k with journal := none }
  if was then s else (s.logEvent 0x0006 (be 1 s.lc.state ++ be 7 0)).noticeMaintenance

/-! ### Transitions (R396, R397) -/

/-- A burn starts. -/
def State.startBurn (dest requester : Nat) (s : State) : State := s.onLc fun l => { l with burning := some (dest, requester) }

/-- What a transition to Scrapped from Standby also needs. -/
def State.mayScrap (s : State) : Bool := s.el.state = .idle && !s.fleetEnable

/-- A write of LcRequest (Table 17.2) (DEDUCED, log entry 148). -/
def lcRequest (v : Viewer) (value : Nat) : Act := fun s =>
  let l := s.lc.state
  let standby := decide (s.pwr.mode = .standby)
  if s.lc.burning.isSome then (s, stModeRefused)
  else match v, value with
    | .maker, 2 =>
      if l ≠ 1 || !standby || !s.lc.maint then (s, stModeRefused)
      else if !s.hasRight 3 then (s, stAccessDenied)
      else (s.startBurn 2 1, stOk)
    | .maker, 5 =>
      if (l ≠ 1 && l ≠ 2 && l ≠ 4) || !standby || !s.lc.maint || !s.mayScrap then (s, stModeRefused)
      else if !s.hasRight 4 then (s, stAccessDenied)
      else (s.startBurn 5 1, stOk)
    | .tenant 0, 3 => if l = 2 && standby && !s.lc.maint then (s.startBurn 3 2, stOk) else (s, stModeRefused)
    | .regulator, 4 =>
      if l = 3 && s.pwr.mode = .ceremony then (s.onLc fun l => { l with staged := some (4, 3) }, stOk)
      else (s, stModeRefused)
    | .regulator, 5 =>
      if l = 3 && s.pwr.mode = .ceremony && s.mayScrap then (s.onLc fun l => { l with staged := some (5, 3) }, stOk)
      else (s, stModeRefused)
    | _, _ => (s, stModeRefused)

/-- A write of LC_XFER (Table 17.11). -/
def State.lcXferWrite (value : Word) (s : State) : State :=
  let v := value.toNat
  if bitsOf v 31 16 ≠ 0x5C4A || bitsOf v 3 0 ≠ 5 || s.pwr.mode ≠ .quarantine || s.lc.burning.isSome || s.lc.state = 5 then
    s.denied
  else s.startBurn 5 2

/-- LC_XFER, by tenant 0 through BAR2. -/
def execLcXfer (value : BitVec 32) (s : State) : Host.Outcome State Fault Refusal :=
  .next (s.hostWrite (.bar2 0xE0008) fun
    | .lcXfer => some (s.lcXferWrite value)
    | _ => none)

/-- LC_BURN_COMPLETE (R397). -/
def execLcBurnComplete (s : State) : Host.Outcome State Fault Refusal :=
  .next (match s.lc.burning with
    | none => s
    | some (dest, who) =>
      let source := s.lc.state
      let s := s.onLc fun l => { l with
        fuses := l.fuses.setIfInBounds (dest - 2) 3
        state := dest
        burning := none
        maint := false
        rights := 0 }
      let s := (s.latch .lcStat 1).logEvent 0x0101 (be 1 source ++ be 1 dest ++ be 1 who ++ be 5 0)
      s.retireIfScrapped)

/-! ### Certificates of rights (R402 to R404) -/

/-- LcAuthorityDigest, fused (R402). -/
def lcAuthorityDigest : Bytes := Config.out .authorityDigest 48 [] []

/-- Both signatures of the debug authority over `m` verify: ECDSA P-384, then ML-DSA-87 under a context (0x4C43 for
"TMR-GX8-LC", 0x4441 for "TMR-GX8-DA"). The authority's key block is known by its digest. -/
def debugSigned (ctx : Nat) (m ecSig mlSig : Bytes) : Bool :=
  Config.passes .p384 [ctx] [lcAuthorityDigest, m, ecSig] && Config.passes .mldsa [3, ctx] [lcAuthorityDigest, m, mlSig]

/-- Recovery: Standby with a cause (R403). -/
def State.inRecovery (s : State) : Bool := s.pwr.mode = .standby && s.pwr.causes ≠ []

/-- A presented certificate is checked now (R403). -/
def State.certDue (s : State) : Bool :=
  s.lc.certBuffer ≠ [] && ((s.pwr.mode = .wake && decide (6 ≤ s.pwr.wakeStep) && !s.wakeStopped) || s.pwr.mode = .selfTest
    || s.inRecovery)

/-- Check 1 of Table 17.6. -/
def certFormatOk (c : Bytes) : Bool :=
  beAt c 0 1 = 0x44 && beAt c 1 1 = 1 && (beAt c 2 1 &&& 0xF4) = 0 && beAt c 3 1 = 0 && beAt c 4 3 = 0 && beAt c 28 4 = 0
    && beAt c 48 80 = 0 && beAt c 8 8 ≠ 0 && beAt c 16 8 ≠ 0

/-- The first check of Table 17.6 that fails (DEDUCED, log entry 116). -/
def State.certFailure (s : State) (c : Bytes) : Option Nat :=
  if !certFormatOk c then some 0x10
  else if beAt c 16 8 ≠ unitId then some 0x11
  else if !bitOf (beAt c 2 1) (s.lc.state - 1) then some 0x12
  else if !debugSigned 0x4C43 (c.take 128) (slice c 128 96) (slice c 224 4627) then some 0x13
  else if beAt c 24 4 < s.pwr.bootCount
      || (s.tb.dtValid && (decide (s.tb.deviceTime < beAt c 32 8) || decide (beAt c 40 8 ≤ s.tb.deviceTime))) then some 0x14
  else none

/-- A certificate is refused (R404). -/
def State.refuseCert (serial code : Nat) (s : State) : State :=
  let s := s.onLc fun l => { l with certStatus := code, certBuffer := [] }
  (s.latch .lcStat 8).logEvent 0x0103 (be 4 serial ++ be 1 code ++ be 3 0)

/-- The check of the certificate in the buffer (R404). -/
def State.checkCert (s : State) : State :=
  let c := s.lc.certBuffer
  match s.certFailure c with
  | some code => s.refuseCert (beAt c 8 8) code
  | none =>
    let s := s.onLc fun l => { l with
      certStatus := 1
      certSerial := beAt c 8 8
      certBuffer := [] }
    let s := (s.latch .lcStat 4).logEvent 0x0102
      (be 4 (beAt c 8 8) ++ be 1 (allowedRights s.lc.state (beAt c 4 4)) ++ be 3 0)
    s.setMaintenance (beAt c 4 4)

/-- CERT_CHECK (R403, R404). -/
def execCertCheck (s : State) : Host.Outcome State Fault Refusal := .next (if s.certDue then s.checkCert else s)

/-- A write of LC_CERT_CTRL (R403): GO fetches in recovery; at any other time it is ignored and sets DENIED. -/
def State.certGo (value : Word) (s : State) : State :=
  if !value.getLsbD 31 then s
  else if !s.inRecovery then s.denied
  else if !s.dmaOk 0 s.lc.certAddr 4851 then (s.dmaReadFailed 0).refuseCert 0 0x15
  else (s.onLc fun l => { l with certBuffer := s.dmaBytes l.certAddr 4851 }).checkCert

/-- LC_CERT_GO, by tenant 0 through BAR2. -/
def execLcCertGo (value : BitVec 32) (env : HostEnv) (s : State) : Host.Outcome State Fault Refusal :=
  let s := s.applyEnv env
  .next (s.hostWrite (.bar2 0xE0018) fun
    | .lcCertCtrl => some (s.certGo value)
    | _ => none)

/-! ### Challenge and response (R405, R406) -/

def State.rightsRequested (s : State) : Nat := s.num 0x9810 1 0 0

/-- A write of DebugChallengeIssue (R405): only 0x0000_D3B6 acts, in Fielded and Standby. -/
def debugChallengeIssue (value : Nat) : Act := fun s =>
  if value ≠ 0xD3B6 || s.lc.state ≠ 3 || s.pwr.mode ≠ .standby then (s, stModeRefused)
  else match s.coreEntropyBlock with
    | some st => (s, st)
    | none =>
      let r := s.generate 77 32 false
      let nonce := r.1
      let s := r.2
      let b := [0x4A, 0x01, 0x03, 0x00] ++ be 4 s.rightsRequested ++ be 8 unitId ++ be 4 s.pwr.bootCount
        ++ be 4 s.tg.nextSeq ++ be 8 s.tb.deviceTime ++ nonce
      let sig := deviceSign s.freeCtr b
      ((s.takeFree 1).onLc fun l => { l with challenge := b ++ sig, debugStatus := 1 }, stOk)

/-- The checks of R406 in order, on the response fetched. -/
def State.responseFailure (s : State) (r : Bytes) : Option Nat :=
  let c := s.lc.challenge
  if s.pwr.mode ≠ .standby then some 0x15
  else if c = [] then some 0x10
  else if slice r 8 32 ≠ Config.sha256 c then some 0x11
  else if beAt r 0 1 ≠ 0x4F || beAt r 1 1 ≠ 1 || beAt r 2 2 ≠ 0 || beAt r 48 16 ≠ 0
      || beAt r 4 4 &&& beAt c 4 4 ≠ beAt r 4 4 then some 0x12
  else if !debugSigned 0x4441 (r.take 64) (slice r 64 96) (slice r 160 4627) then some 0x13
  else if beAt r 40 8 ≤ s.tb.deviceTime || beAt c 24 8 + 600000000000 < s.tb.deviceTime then some 0x14
  else if 16320 ≤ s.unarchived then some 0x16
  else none

/-- A debug response is refused (R406). -/
def State.refuseResponse (code : Nat) (s : State) : State :=
  (s.onLc fun l => { l with debugStatus := code, challenge := [] }).logEvent 0x0104 (be 1 code ++ be 7 0)

/-- A write of DebugResponseSubmit (R406): only 0x0000_D3C7 acts (DEDUCED, log entry 101). -/
def debugResponseSubmit (value : Nat) : Act := fun s =>
  let addr := s.num 0x9810 4 0 0
  if value ≠ 0xD3C7 then (s, stModeRefused)
  else if !s.dmaOk 0 addr 4787 then ((s.dmaReadFailed 0).refuseResponse 0x17, stOk)
  else
    let r := s.dmaBytes addr 4787
    match s.responseFailure r with
    | some code => (s.refuseResponse code, stOk)
    | none =>
      ((s.onLc fun l => { l with challenge := [], debugStatus := 2 }).setMaintenance (beAt r 4 4), stOk)

/-! ### JTAG (R407 to R410) -/

/-- The TAP loads an instruction. -/
def State.tapLoad (i : Nat) (s : State) : State := s.onLc fun l => { l with tapInstr := i }

/-- An instruction that is not available acts as BYPASS and sets DENIED. -/
def State.tapDenied (s : State) : State := (s.tapLoad 0xFF).denied

/-- EXTEST and CLAMP are available (Table 17.9): of the stops in Wake, not in that of DBG_SCAN (R408). -/
def State.boundaryFree (s : State) : Bool :=
  s.pwr.mode = .standby || s.pwr.mode = .quarantine || s.pwr.mode = .retired
    || (s.wakeStopped && !s.stands .debugScan)

/-- TAP_RESET. -/
def execTapReset (s : State) : Host.Outcome State Fault Refusal :=
  .next (if s.powered then s.tapLoad 2 else s)

/-- EXTEST: the chain drives the pins, and the card host treats the card as removed (R408). -/
def execExtest (drive : List Bool) (s : State) : Host.Outcome State Fault Refusal :=
  .next (if !s.powered then s
  else if s.boundaryFree then ((s.tapLoad 0).onLc fun l => { l with boundary := drive }).cardRemoved
  else s.tapDenied)

/-- SAMPLE/PRELOAD: the pins are captured, and values to drive are shifted in. -/
def execSamplePreload (pins preload : List Bool) (s : State) : Host.Outcome State Fault Refusal :=
  .next (if !s.powered then s
  else ((s.tapLoad 1).onLc fun l => { l with preload := preload }).emit (.jtag pins.length (ofBits pins)))

/-- JtagIdcode (Table 17.13): stepping and manufacturer are set in silicon. -/
def jtagIdcode : Nat :=
  (Config.silicon 4 3).toNat * 2 ^ 28 + 0x4176 * 2 ^ 12 + (Config.silicon 11 4).toNat * 2 + 1

/-- IDCODE. -/
def execIdcode (s : State) : Host.Outcome State Fault Refusal :=
  .next (if s.powered then (s.tapLoad 2).emit (.jtag 32 jtagIdcode) else s)

/-- CLAMP: what SAMPLE/PRELOAD put into the chain is driven, the bypass register selected. -/
def execClamp (s : State) : Host.Outcome State Fault Refusal :=
  .next (if !s.powered then s
  else if s.boundaryFree then ((s.tapLoad 3).onLc fun l => { l with boundary := l.preload }).cardRemoved
  else s.tapDenied)

/-- LC_STAT as a viewer reads it (Table 17.10). -/
def State.lcStat (s : State) (v : Viewer) : Nat :=
  s.lc.state * 2 ^ 28 + s.lc.rights % 256 * 2 ^ 16 + b2n s.lc.maint * 128 + b2n s.lc.burning.isSome * 64
    + s.latched .lcStat v % 16

/-- LC_STATUS: LC_STAT as the Maker sees it; no latch is cleared. -/
def execLcStatus (s : State) : Host.Outcome State Fault Refusal :=
  .next (if s.powered then (s.tapLoad 0x10).emit (.jtag 32 (s.lcStat .maker)) else s)

/-- LC_AUTH (R403): a later presentation replaces the buffer; Retired accepts none (R410). -/
def execLcAuth (cert : List (BitVec 8)) (s : State) : Host.Outcome State Fault Refusal :=
  .next (if !s.powered then s
  else if s.pwr.mode = .retired then s.tapDenied
  else (s.tapLoad 0x11).onLc fun l => { l with certBuffer := slice cert 0 4851 })

/-- The core belongs to a DRAW-kind slot that holds the claim (R408). -/
def State.drawHolds (s : State) (core : Nat) : Bool :=
  match s.sz.draw with
  | some d => (s.applet d.slot).cores.contains core
  | none => false

/-- What DBG_CORE captures: bit 72 ERROR, below it what was read. -/
def State.coreResult (error : Bool) (value : Nat) (s : State) : State := s.emit (.jtag 73 (b2n error * 2 ^ 72 + value))

/-- The debugger's operation on a core (R408) (DESIGN CHOICE, log entry 76). -/
def State.debugCore (n : Nat) (op : CoreOp) (s : State) : State :=
  let c := (s.core n).settle
  match op with
  | .halt =>
    if c.run = .running || c.run = .waiting || c.run = .service then
      (s.onCore n fun c => { c with run := .debug, resumeTo := c.run }).coreResult false 0
    else s.coreResult true 0
  | .resume =>
    if c.run = .debug then (s.onCore n fun c => { c with run := c.resumeTo, resumeTo := .running }).coreResult false 0
    else s.coreResult true 0
  | .step =>
    if c.run = .debug && c.resumeTo = .running then (s.onCore n fun c => { c with run := .stepping }).coreResult false 0
    else s.coreResult true 0
  | .readW i => s.coreResult false c.w[i].toNat
  | .readP i => s.coreResult false c.p[i].toNat
  | .readAcc i => s.coreResult false c.acc[i].toNat
  | .readCsr i => s.coreResult false (c.csr n i.toNat).toNat

/-- DBG_CORE (R408): right DEBUG_TAP. -/
def execDbgCore (core : Nat) (op : CoreOp) (s : State) : Host.Outcome State Fault Refusal :=
  .next (if !s.powered then s
  else if !s.hasRight 0 then s.tapDenied
  else
    let s := s.tapLoad 0x22
    if 192 ≤ core || s.drawHolds core then s.coreResult true 0 else s.debugCore core op)

/-- DBG_SCAN (R408): every item of Table 16.5 but the root key is cleared, then Wake stops with DEBUG_SCAN. -/
def State.scan (s : State) : State :=
  let anchor := s.lg.anchor
  let s := s.drawEnd none none
  let s := s.clearKrf.wipeCompute.dropSession
  let s := s.zeroLedger.onLg fun g => { g with anchor := anchor }
  let s := s.onTd fun d => { d with fetched := [], inflight := [], manifests := [] }
  let s := s.onTg fun t => { t with gangwaysKeyed := [], shieldPattern := t.shieldPattern + 1 }
  let s := s.rekeyShield
  let s := (s.portsDown.cutReel.cardOff).onLc fun l => { l with challenge := [], staged := none }
  let before := s.pwr.mode
  let s := s.onPwr fun p => { p with mode := .wake, entering := none, ceremonyFrom := none, drain := none }
  ((s.addCause .debugScan).causeRecord .debugScan before .wake).afterEvidence

/-- DBG_SCAN: right SCAN, in any mode with main power but Retired (Table 2.2). -/
def execDbgScan (s : State) : Host.Outcome State Fault Refusal :=
  .next (if !s.powered then s
  else if !s.hasRight 7 || s.pwr.mode = .retired then s.tapDenied
  else (s.tapLoad 0x23).scan)

/-- BYPASS: the one-bit register captures 0. -/
def execBypass (s : State) : Host.Outcome State Fault Refusal :=
  .next (if s.powered then (s.tapLoad 0xFF).emit (.jtag 1 0) else s)

end Sys2Proof.Machine
end

