-- ==== Sys2Proof/Machine/Supervisory.lean ====
section
/-! DEFINITION. The Supervisory Port (R275 to R284): link, MDIO, ARP and ICMP, the Yilile session from HELLO_C to its end,
and its objects that act. Records show their bodies before encryption. -/

namespace Sys2Proof.Machine

/-! ### Objects (Table 11.17) -/

def State.spEnabled (s : State) : Bool := s.num 0xA000 1 0 0 = 1
def State.spMac (s : State) : Nat := s.num 0xA000 2 0 0
def State.spIp (s : State) : Nat := s.num 0xA000 3 0 0
def State.spPeer (s : State) : Nat := s.num 0xA000 6 0 0
def State.sessionIdle (s : State) : Nat := s.num 0xA000 9 0 30

/-- The port is on and its link is up. -/
def State.spUp (s : State) : Bool := s.powered && s.spEnabled && s.sp.link

/-- A session is open. -/
def State.sessionOpen (s : State) : Bool :=
  match s.sp.session with
  | some x => x.opened
  | none => false

/-- The regulator root in force: the latest fuse slot written (R277). -/
def State.rootDigest (s : State) : Bytes := s.sp.rootDigests.getLastD (List.replicate 32 0)

/-- The port goes off: sessions, the link and the ARP cache end. -/
def State.spOff (s : State) : State :=
  let s := if s.sp.link then s.latch .spLink 2 else s
  s.dropSession.onSp fun p => { p with link := false, speed := 0, downSince := none, arp := [] }

/-- The session ends that a Regulator's write of SpEnable = 0 has left open for its response (R277). -/
def State.spClose (s : State) : State :=
  if !s.sp.closing then s
  else if s.spEnabled then s.dropSession
  else s.spOff

/-- A write of SpEnable (R277): the Operator only while no session is open. The Regulator's session ends once the response
has been sent. -/
def spEnable (v : Viewer) (value : Nat) : Act := fun s =>
  if 1 < value then (s, stModeRefused)
  else
    let operator := match v with
      | .tenant _ => true
      | _ => false
    if operator && s.sessionOpen then (s, stAccessDenied)
    else if value = 1 && (s.spMac = 0 || s.spIp = 0) then (s, stModeRefused)
    else
      let s := s.setNum 0xA000 1 0 value
      (if value ≠ 0 then s else if v = .regulator then s.onSp fun p => { p with closing := true } else s.spOff, stOk)

/-- A write of SpRegulatorRootDigest (R277): one of four fuse slots, unless the burn fails (R263). The Maker writes only the
first root, in Integrator (life-cycle code 2) with right ROOT_DIGEST (R400). -/
def spRootDigest (v : Viewer) (digest : Bytes) (burnt : Bool) : Act := fun s =>
  if v = .maker && (s.lc.state ≠ 2 || !bitOf s.lc.rights 6 || s.sp.rootDigests ≠ []) then (s, stAccessDenied)
  else if 4 ≤ s.sp.rootDigests.length then (s, stModeRefused)
  else if !burnt then (s, stInternalFault)
  else (s.onSp fun p => { p with rootDigests := p.rootDigests ++ [slice digest 0 32] }, stOk)

/-! ### Records (R278, Tables 11.18 and 11.19) -/

/-- The header of a record with a body of `n` bytes. -/
def yilileHeader (type sid seq n : Nat) : Bytes :=
  [0x59, 0x01] ++ be 1 type ++ [0] ++ be 2 n ++ be 2 0 ++ be 8 sid ++ be 8 seq

/-- A record whose body is not encrypted. -/
def yilileRecord (type sid seq : Nat) (body : Bytes) : Bytes := yilileHeader type sid seq body.length ++ body

/-- A record of the session under K_dr: the ciphertext and its tag, with the header as the additional data (R278, R281). -/
def Session.record (x : Session) (type seq : Nat) (plain : Bytes) : Bytes :=
  let header := yilileHeader type x.sid seq (plain.length + 16)
  let iv := x.salt.drop 4 ++ be 8 seq
  let cipher := Config.out .gcmCipher plain.length [] [x.kDr, iv, plain]
  header ++ cipher ++ Config.out .gcmTag 16 [] [x.kDr, iv, header, cipher]

/-! ### ARP (Table 11.14) -/

/-- The cache of eight entries: an address has one, a ninth takes the place of the oldest
(PRESUMED, log entry 96). -/
def arpLearn (ip mac now : Nat) (l : List (Nat × Nat × Nat)) : List (Nat × Nat × Nat) :=
  let l := l.filter fun e => e.1 ≠ ip
  (if 8 ≤ l.length then l.drop 1 else l) ++ [(ip, mac, now)]

def State.spPrefix (s : State) : Nat := s.num 0xA000 4 0 24
def State.spGateway (s : State) : Nat := s.num 0xA000 5 0 0

/-- The address that a datagram goes to: the peer itself on the link's own network or without a gateway, otherwise the
gateway. -/
def State.nextHop (s : State) (ip : Nat) : Nat :=
  let net := 2 ^ (32 - s.spPrefix)
  if s.spGateway = 0 || ip / net = s.spIp / net then ip else s.spGateway

/-- An ARP packet of the port (RFC 826). -/
def State.arpPacket (s : State) (op targetMac targetIp : Nat) : Bytes :=
  be 2 1 ++ be 2 0x0800 ++ [6, 4] ++ be 2 op ++ be 6 s.spMac ++ be 4 s.spIp ++ be 6 targetMac ++ be 4 targetIp

/-- The next hop of a datagram is resolved: where the cache does not hold it, a request goes out. The answer has no row of
its own; the address it gives is a free value (DESIGN CHOICE, log entry 96). -/
def State.resolve (ip : Nat) (s : State) : State :=
  let hop := s.nextHop ip
  if s.sp.arp.any fun e => e.1 = hop then s
  else
    let s := s.emit (.ethernet 0x0806 (s.arpPacket 1 0 hop))
    (s.onSp fun p => { p with arp := arpLearn hop (Config.freeValue 48 s.freeCtr).toNat s.clock p.arp }).takeFree 1

/-- A record goes out to a peer. -/
def State.sendRecord (dst : NetSrc) (type : Nat) (bytes : Bytes) (s : State) : State :=
  (s.resolve dst.ip).emit (.yilile dst type bytes)

/-! ### Session set-up (R278 to R281) -/

/-- A record is discarded (R278). -/
def State.discardRecord (s : State) : State := s.onSp fun p => { p with dropped := p.dropped + 1 }

/-- A source that SpPeerAddress shuts out. -/
def State.foreign (s : State) (src : NetSrc) : Bool := s.spPeer ≠ 0 && s.spPeer ≠ src.ip

/-- REFUSE with a code of R280. -/
def State.refuseHello (src : NetSrc) (code : Nat) (s : State) : State :=
  (s.onSp fun p => { p with refusals := p.refusals + 1 }).sendRecord src 0x20
    (yilileRecord 0x20 0 0 (be 1 code ++ List.replicate 7 0))

/-- A certificate is valid at the Device Time (R280 check 5). -/
def State.inWindow (s : State) (c : Cert) : Bool := decide (c.notBefore ≤ s.tb.deviceTime ∧ s.tb.deviceTime < c.notAfter)

/-- The REFUSE code a HELLO_C gets, if it is refused (R280). -/
def State.helloCode (s : State) (h : HelloCFields) : Option Nat :=
  if s.sessionOpen then some 0x01
  else if !(h.formatOk && h.root.formatOk && h.signer.formatOk) || h.root.role ≠ 1 || h.signer.role ≠ 2
      || Config.sha256 h.root.publicKey ≠ s.rootDigest then some 0x03
  else if !(h.root.sigOk && h.signer.sigOk) || h.signer.issuerDigest ≠ Config.sha256 h.root.publicKey then some 0x05
  else if s.tb.dtValid && !(s.inWindow h.root && s.inWindow h.signer) then some 0x04
  else if !p384Valid h.ephemeral then some 0x03
  else none

/-- The bytes of a certificate. -/
def certBytes (c : Cert) : Bytes :=
  certBody c.role c.serial c.notBefore c.notAfter c.subject c.issuerDigest c.publicKey ++ slice c.signature 0 96

/-- A key of R281 under z, for one of its labels. -/
def sessionKey (z : Bytes) (label n : Nat) (th1 : Bytes) : Bytes :=
  Config.out .hmacSha384 n [] [z, [0x5A, BitVec.ofNat 8 label] ++ th1]

/-- The HELLO_C record (Table 11.19). -/
def helloRecord (h : HelloCFields) : Bytes :=
  yilileRecord 1 0 0 (slice h.nonce 0 32 ++ slice h.ephemeral 0 97 ++ List.replicate 7 0 ++ certBytes h.root
    ++ certBytes h.signer)

/-- An accepted HELLO_C: a half-open session with its keys, in place of any other, and HELLO_D (R280, R281). Nonce and
ephemeral secret come from instance 78; SessionId is the GX8's choice, a free value (DESIGN CHOICE, log entry 11). -/
def State.acceptHello (h : HelloCFields) (s : State) : State :=
  let sid := (Config.freeValue 64 s.freeCtr).toNat
  let r := (s.takeFree 1).generate 78 88 false
  let s := r.2
  let d := p384Scalar (r.1.drop 32)
  let body := r.1.take 32 ++ p384Point d ++ List.replicate 7 0 ++ deviceCert ++ be 8 s.tb.deviceTime
    ++ be 1 s.pwr.mode.code ++ List.replicate 7 0
  let unsigned := (yilileRecord 2 sid 0 (body ++ List.replicate 96 0)).take 472
  let th1 := Config.sha384 (helloRecord h ++ unsigned)
  let sig := deviceSign s.freeCtr (0x59 :: 0x44 :: th1)
  let record := yilileRecord 2 sid 0 (body ++ sig)
  let z := p384Shared d h.ephemeral
  let s := (s.takeFree 1).onSp fun p => { p with
    session := some {
      sid := sid, source := h.src, opened := false, signer := Config.sha256 h.signer.publicKey, last := s.clock
      secret := d, z := z, th2 := Config.sha384 (helloRecord h ++ record)
      kRd := sessionKey z 1 32 th1, kDr := sessionKey z 2 32 th1, salt := sessionKey z 3 8 th1 } }
  s.sendRecord h.src 0x02 record

/-- HELLO_C (R280): nothing is sent while the port is off or instance 78 does not deliver (R40, R205). -/
def execHelloC (h : HelloCFields) (s : State) : Host.Outcome State Fault Refusal :=
  .next (if !s.spUp then s
  else if s.foreign h.src then s.discardRecord
  else if s.coreEntropyBlock.isSome then s
  else match s.helloCode h with
    | some c => s.refuseHello h.src c
    | none => s.acceptHello h)

/-- The session opens, and FINISH_D goes out (R281). -/
def State.openSession (x : Session) (s : State) : State :=
  let s := s.applyNum 0xA000 9 0
  let s := (s.onSp fun p => { p with
    session := some { x with opened := true, last := s.clock, secret := 0, z := [] } }).latch .spLink 1
  s.sendRecord x.source 0x04 (x.record 4 0
    (be 4 s.sessionIdle ++ be 2 1424 ++ be 2 0 ++ be 8 s.tb.deviceTime))

/-- FINISH_C (R281): what does not decrypt or verify ends the half-open session with REFUSE 0x05
(DEDUCED, log entry 95). -/
def execFinishC (src : NetSrc) (sid : Nat) (tagOk sigOk : Bool) (s : State) : Host.Outcome State Fault Refusal :=
  .next (if !s.spUp then s
  else match s.sp.session with
    | none => s.discardRecord
    | some x =>
      if s.foreign src || x.opened || x.sid ≠ sid || x.source ≠ src then s.discardRecord
      else if tagOk && sigOk then s.openSession x
      else (s.onSp fun p => { p with session := none }).sendRecord src 0x20
        (yilileRecord 0x20 sid 0 (be 1 5 ++ List.replicate 7 0)))

/-- HALF_OPEN_TIMEOUT (R280): no valid FINISH_C within 2 s. -/
def execHalfOpenTimeout (s : State) : Host.Outcome State Fault Refusal :=
  .next (match s.sp.session with
    | some x =>
      if !x.opened && decide (x.last + 2000000000 ≤ s.clock) then s.onSp fun p => { p with session := none } else s
    | none => s)

/-- A record belongs to the open session (R278). -/
def Session.owns (x : Session) (src : NetSrc) (sid : Nat) : Bool := x.opened && x.sid = sid && x.source = src

/-- YILILE_CLOSE (R283, R284): a CLOSE of the regulator carries Sequence e + 1. -/
def execYilileClose (src : NetSrc) (sid seq : Nat) (tagOk : Bool) (s : State) : Host.Outcome State Fault Refusal :=
  .next (if !s.spUp then s
  else match s.sp.session with
    | none => s.discardRecord
    | some x =>
      if s.foreign src || !x.owns src sid || !tagOk || seq ≠ x.seqIn + 1 then s.discardRecord else s.dropSession)

/-- SESSION_IDLE_TIMEOUT (R284): the GX8 sends CLOSE. -/
def execSessionIdleTimeout (s : State) : Host.Outcome State Fault Refusal :=
  .next (match s.sp.session with
    | some x =>
      if x.opened && decide (x.last + s.sessionIdle * 1000000000 ≤ s.clock) then
        (s.sendRecord x.source 0x12 (x.record 0x12 (x.seqIn + 1) [])).dropSession
      else s
    | none => s)

/-- SP_LINK_DOWN_TIMEOUT (R284). -/
def execSpLinkDownTimeout (s : State) : Host.Outcome State Fault Refusal :=
  .next (match s.sp.downSince with
    | some c => if c + s.sessionIdle * 1000000000 < s.clock then s.dropSession else s
    | none => s)

/-- YILILE_RECORD_DISCARD (R278). -/
def execYilileRecordDiscard (s : State) : Host.Outcome State Fault Refusal :=
  .next (if s.spUp then s.discardRecord else s)

/-! ### ARP and ICMP (Table 11.14) -/

/-- ARP_REQUEST: the port answers for its own address, and keeps the sender's (RFC 826). -/
def execArpRequest (senderIp senderMac targetIp : Nat) (s : State) : Host.Outcome State Fault Refusal :=
  .next (if !s.spUp || s.spIp ≠ targetIp then s
  else
    let s := s.onSp fun p => { p with arp := arpLearn senderIp senderMac s.clock p.arp }
    s.emit (.ethernet 0x0806 (s.arpPacket 2 senderMac senderIp)))

/-- ARP_CACHE_EXPIRY: an entry lives 300 s. -/
def execArpCacheExpiry (ip : Nat) (s : State) : Host.Outcome State Fault Refusal :=
  .next (s.onSp fun p => { p with arp := p.arp.filter fun e => !(e.1 = ip && decide (e.2.2 + 300000000000 ≤ s.clock)) })

/-- ICMP_ECHO: a reply, 64 each second, to a payload of at most 1,472 bytes. -/
def execIcmpEcho (srcIp dstIp : Nat) (payload : List (BitVec 8)) (s : State) : Host.Outcome State Fault Refusal :=
  .next (
    let sec := s.clock / 1000000000
    let n := if s.sp.icmpSecond = sec then s.sp.icmpCount else 0
    if !s.spUp || s.spIp ≠ dstIp || 1472 < payload.length || 64 ≤ n then s
    else ((s.onSp fun p => { p with icmpSecond := sec, icmpCount := n + 1 }).resolve srcIp).emit
      (.ethernet 0x0800 (be 4 srcIp ++ payload)))

/-! ### Link and MDIO (R276) -/

/-- The link takes a state (0 is down); LINK_CHG where that changes. -/
def State.setLink (speed : Nat) (s : State) : State :=
  let up := decide (speed = 1 ∨ speed = 2)
  let s := if up = s.sp.link then s else s.latch .spLink 2
  s.onSp fun p => { p with
    link := up
    speed := if up then speed else 0
    downSince := if up then none else match p.downSince with
      | some c => some c
      | none => some s.clock }

/-- PHY_POLL: bit 2 of PHY register 1 is the link status; a PHY that does not answer shows no link
(DESIGN CHOICE, log entry 97). -/
def execPhyPoll (reg1 : Option (BitVec 16)) (speed : Nat) (s : State) : Host.Outcome State Fault Refusal :=
  .next (if !(s.powered && s.spEnabled) then s
  else match reg1 with
    | none => (s.latch .spLink 8).setLink 0
    | some r => s.setLink (if r.getLsbD 2 then speed else 0))

/-- An operation of SP_MDIO starts; while BUSY the write is ignored. -/
def State.mdioStart (write : Bool) (phy reg : BitVec 5) (data : BitVec 16) (s : State) : State :=
  if s.sp.mdioBusy || !s.powered then s
  else s.onSp fun p => { p with
    mdioBusy := true
    mdioOp := if write then 1 else 2
    mdioPhy := phy.toNat
    mdioReg := reg.toNat
    mdioData := data.toNat }

/-- A write of SP_MDIO with START, through BAR2 alone. -/
def State.mdioRow (write : Bool) (phy reg : BitVec 5) (data : BitVec 16) (s : State) : State :=
  s.hostWrite (.bar2 0x90008) fun
    | .spMdio => some (s.mdioStart write phy reg data)
    | _ => none

/-- MDIO_READ (R276). -/
def execMdioRead (phyad regad : BitVec 5) (s : State) : Host.Outcome State Fault Refusal :=
  .next (s.mdioRow false phyad regad (BitVec.ofNat 16 s.sp.mdioData))

/-- MDIO_WRITE (R276). -/
def execMdioWrite (phyad regad : BitVec 5) (data : BitVec 16) (s : State) : Host.Outcome State Fault Refusal :=
  .next (s.mdioRow true phyad regad data)

/-- MDIO_OPERATION_DONE (R276): read data, 0xFFFF and PHY_FAULT without an answer, as while EXTEST (0) or CLAMP (3) holds
the pins (R408). -/
def execMdioOperationDone (answer : Option (BitVec 16)) (s : State) : Host.Outcome State Fault Refusal :=
  .next (if !s.sp.mdioBusy then s
  else if s.sp.mdioOp = 1 then s.onSp fun p => { p with mdioBusy := false }
  else match (if s.lc.tapInstr = 0 || s.lc.tapInstr = 3 then none else answer) with
    | some d => s.onSp fun p => { p with mdioBusy := false, mdioData := d.toNat }
    | none => (s.latch .spLink 8).onSp fun p => { p with mdioBusy := false, mdioData := 0xFFFF })

/-- SP_RX_ERROR: a frame with a bad FCS or a code error. -/
def execSpRxError (s : State) : Host.Outcome State Fault Refusal :=
  .next (if s.powered && s.spEnabled then s.latch .spLink 4 else s)

end Sys2Proof.Machine
end

