-- ==== Sys2Proof/Machine/Tamper.lean ====
section
/-! DEFINITION. The Tamper and Environment Guard (R366 to R394): alarms and warnings, the Evidence Log's writes, the fuses of
the Guard, and re-provisioning. -/

namespace Sys2Proof.Machine

/-! ### Alarms (R374 to R382) -/

/-- The source of this monitor acts as ERASE now. -/
def State.monitorErases (s : State) (m : Nat) : Bool :=
  match sourceOf m with
  | some k => s.isErase k
  | none => false

/-- ERASE_ALARM (R375). -/
def execEraseAlarm (m : MonitorReading) (s : State) : Host.Outcome State Fault Refusal :=
  .next (if s.powered && s.outputs m && s.monitorErases m.monitor then s.alarmIfArmed m.monitor else s)

/-- HOLD_ALARM (R374). -/
def execHoldAlarm (m : MonitorReading) (s : State) : Host.Outcome State Fault Refusal :=
  .next (if s.powered && s.outputs m && !s.monitorErases m.monitor then s.alarmIfArmed m.monitor else s)

/-- POST_ERASE_ALARM (R381). -/
def execPostEraseAlarm (m : MonitorReading) (s : State) : Host.Outcome State Fault Refusal :=
  .next (if s.powered && s.outputs m && s.tg.erased then s.alarmIfArmed m.monitor else s)

/-- A warning's record: none while the ERASED flag is set or a window is open, and one a source in 60 s (R370, R381). -/
def State.warningRecord (monitor k : Nat) (s : State) : State :=
  if s.tg.erased || s.tg.window.isSome then s
  else if rateDue s.tg.warnLast k s.clock then
    let n := 1 + mapGet 0 s.tg.warnBack k
    let s := s.evidence 2 0 s.stamp (alarmData (2 ^ k) monitor n) false
    (s.onTg fun t => { t with
      warnBack := mapSet 0 t.warnBack k 0
      warnLast := mapSet none t.warnLast k (some s.clock) }).afterEvidence
  else s.onTg fun t => { t with warnBack := mapSet 0 t.warnBack k (mapGet 0 t.warnBack k + 1) }

/-- MONITOR_WARNING (R370). -/
def execMonitorWarning (m : MonitorReading) (s : State) : Host.Outcome State Fault Refusal :=
  .next (match sourceOf m.monitor with
    | none => s
    | some k =>
      if s.powered && warns m && s.monitorArmed m.monitor then
        (((s.expireWindow.leftRange k).latch .tgWarn (2 ^ k)).latch .warningsSeen (2 ^ k)).warningRecord m.monitor k
      else s)

/-- COALESCING_WINDOW_CLOSE (R379): 1 µs after it opened. -/
def execCoalescingWindowClose (s : State) : Host.Outcome State Fault Refusal :=
  .next (if s.powered then s.expireWindow else s)

/-- HOLD_SOURCE_IN_RANGE (R374): 10 ms after a monitor of the source was last outside its warning threshold. -/
def execHoldSourceInRange (source : Nat) (s : State) : Host.Outcome State Fault Refusal :=
  .next (if s.clock < mapGet 0 s.tg.outside source + 10000000 then s else s.onTg fun t => { t with holdActive := t.holdActive.filter (· ≠ source) })

/-- VAULT_MODE_ALARM (R382). -/
def execVaultModeAlarm (monitors : List MonitorReading) (s : State) : Host.Outcome State Fault Refusal :=
  .next (if s.pwr.mode = .vault then s.batteryAlarm ((monitors.filter s.outputs).map (·.monitor)) else s)

/-- SHIELD_COMPARE (R369): the pattern changes; nets that differ are alarms. -/
def execShieldCompare (differing : List Nat) (s : State) : Host.Outcome State Fault Refusal :=
  .next (
    let nets := differing.filter fun m => m / 4096 = 9 || m / 4096 = 10
    if s.pwr.mode = .dark || s.fusedOff 0 then s
    else
      let s := s.onTg fun t => { t with shieldPattern := t.shieldPattern + 1 }
      if s.pwr.mode = .vault then s.batteryAlarm nets else nets.foldl (fun s m => State.alarmIfArmed m s) s)

/-! ### Gangways (R378, R384) -/

/-- GANGWAY_REKEYED (R378): in Quarantine, unless it was stopped. -/
def execGangwayRekeyed (g : Nat) (s : State) : Host.Outcome State Fault Refusal :=
  .next (if s.powered && decide (g < 13) && decide (6 ≤ s.pwr.wakeStep) && !s.tg.gangwaysStopped.contains g
      && !s.tg.gangwaysKeyed.contains g then
    s.onTg fun t => { t with gangwaysKeyed := t.gangwaysKeyed ++ [g] }
  else s)

/-- GANGWAY_AUTHENTICATION_FAILURE (R384): an alarm, or with group GANGWAY fused off the gangway's stop. -/
def execGangwayAuthenticationFailure (g : Nat) (s : State) : Host.Outcome State Fault Refusal :=
  .next (if !s.powered || !s.tg.gangwaysKeyed.contains g then s
  else if s.fusedOff 3 then
    (s.onTg fun t => { t with
      gangwaysKeyed := t.gangwaysKeyed.filter (· ≠ g)
      gangwaysStopped := t.gangwaysStopped ++ [g] }).raiseCause .integrityStop
  else s.alarmIfArmed (0xB000 + g))

/-! ### The Evidence Log (R385 to R389) -/

/-- EVIDENCE_WRITE_DONE (R387): the record at the head of the queue is durable. -/
def execEvidenceWriteDone (s : State) : Host.Outcome State Fault Refusal :=
  .next (match s.tg.queue with
    | [] => s
    | (seq, b) :: q =>
      if s.pwr.mode = .dark then s
      else s.onTg fun t => { t with log := mapSet [] t.log (seq % 16384) b, queue := q })

/-- Record `seq` is held: written, and not overwritten (R389). -/
def State.evidenceHeld (s : State) (seq : Nat) : Option Bytes :=
  let b := mapGet [] s.tg.log (seq % 16384)
  if b ≠ [] && beAt b 4 4 = seq then some b else none

/-- Up to `n` held records from `seq` on. -/
def State.evidenceFrom (s : State) (seq : Nat) : Nat → Bytes
  | 0 => []
  | n + 1 =>
    match s.evidenceHeld seq with
    | some b => b ++ s.evidenceFrom (seq + 1) n
    | none => []

/-- EvidenceRecords as a viewer reads it. -/
def State.evidenceRecords (s : State) (viewer : Nat) : Bytes := s.evidenceFrom (s.num 0x9100 3 viewer 0) 128

/-- EvidenceHeadSignature (R389); its nonce is deterministic. -/
def State.headSignature (s : State) : Bytes :=
  deviceSign 0 (0x48 :: be 8 unitId ++ be 4 s.tg.nextSeq ++ s.evidenceHead)

/-- A write of EvidenceArchiveMark (R388): with U at most 15,360 the suppressed count is recorded and cleared
(DEDUCED, log entry 100). -/
def evidenceArchiveMark (value : Nat) : Act := fun s =>
  if value < s.tg.mark || s.tg.nextSeq < value then (s, stModeRefused)
  else
    let s := s.onTg fun t => { t with mark := value }
    let n := s.tg.suppressed
    if s.unarchived ≤ 15360 && n ≠ 0 then
      ((s.onTg fun t => { t with suppressed := 0 }).logEvent 0x0009 (be 4 n ++ be 4 0), stOk)
    else (s, stOk)

/-! ### Fuses (R367, R383, R400) -/

/-- Right GROUP_FUSE of a certificate (Table 17.4). -/
def State.groupFuseRight (s : State) : Bool := bitOf s.lc.rights 5

/-- A write of TamperEraseFused (R367): every bit already set, and none outside [11:5]. -/
def tamperEraseFused (value : Nat) (burnt : Bool) : Act := fun s =>
  let old := s.tg.eraseFused
  if value &&& old ≠ old || value &&& 0xFE0 ≠ value then (s, stModeRefused)
  else if value = old then (s, stOk)
  else if !burnt then (s, stInternalFault)
  else ((s.onTg fun t => { t with eraseFused := value }).logEvent 0x0008 (be 4 value ++ be 4 0), stOk)

/-- A write of TamperGroupDisable (R383). -/
def tamperGroupDisable (v : Viewer) (value : Nat) (burnt : Bool) : Act := fun s =>
  if v ≠ .maker || !s.lc.maint || (s.lc.state ≠ 1 && s.lc.state ≠ 2) || !s.groupFuseRight then (s, stAccessDenied)
  else if 255 < value then (s, stModeRefused)
  else if !burnt then (s, stInternalFault)
  else
    let new := s.tg.groupsBurnt ||| value
    ((s.onTg fun t => { t with groupsBurnt := new }).logEvent 0x0007 (be 4 new ++ be 4 0), stOk)

/-! ### Re-provisioning (R391) -/

/-- The first check of R391 that fails. -/
def State.reprovisionCheck (s : State) : Option Nat :=
  if 15360 < s.unarchived then some 0x10
  else if !s.tb.dtValid then some 0x11
  else if !s.en.firstSeed then some 0x12
  else none

/-- A write of Reprovision (R391): only 0x0000_9A1E acts; the checks' outcome is in ReprovisionStatus. -/
def reprovision (value : Nat) : Act := fun s =>
  if value ≠ 0x9A1E || s.pwr.mode ≠ .ceremony || !(s.tg.erased || s.stands .vaultLost) then (s, stModeRefused)
  else if s.tg.reprovisioning then (s, stSlotBusy)
  else match s.reprovisionCheck with
    | some code => (s.onTg fun t => { t with reprovisionStatus := code }, stOk)
    | none => (s.onTg fun t => { t with reprovisioning := true }, stOk)

/-- Step 1 of R391. -/
def State.recordPostErase (s : State) : State :=
  if s.tg.postCount = 0 then s
  else
    let data := be 4 s.tg.postSources ++ be 4 s.tg.postCount
    (s.onTg fun t => { t with postSources := 0, postCount := 0 }).logEvent 0x000A data

/-- REPROVISION_COMPLETE (R391): steps 1 to 4; the new root key is the XOR of a fresh block of source 4 and instance 77. Where
the Ceremony has already ended in Standby, LEDGER_ROOT stands now. -/
def execReprovisionComplete (s : State) : Host.Outcome State Fault Refusal :=
  .next (if !s.tg.reprovisioning then s
  else
    let s := s.recordPostErase
    let vault := s.noiseBlock
    let r := vault.2.generate 77 32 false
    let s := r.2.onTg fun t => { t with
      rootKey := some (List.zipWith (· ^^^ ·) vault.1 r.1)
      erased := false
      reprovisioning := false
      reprovisioned := true
      reprovisionStatus := 1 }
    let s := s.onKrf fun k => { k with handles := [] }
    let s := (s.clearCause .eraseAlarm).clearCause .vaultLost
    let s := s.logEvent 0x000B (be 4 s.pwr.bootCount ++ be 4 0)
    if s.pwr.mode = .standby then
      (s.onTg fun t => { t with reprovisioned := false }).raiseCause .ledgerRoot
    else s)

end Sys2Proof.Machine
end

