-- ==== Sys2Proof/Machine/Resets.lean ====
section
/-! DEFINITION. Power, Wake and the resets (R24, R36 to R39, R50 to R52, R125, R126, R289, R419): what is lost and kept, the
steps of Table 2.6 up to step 7, the power-fail stow, and function-level resets. -/

namespace Sys2Proof.Machine

/-! ### Loss of main power (Table 2.10) -/

/-- A burn that loses power leaves its group with zero to three burnt fuses (R397). -/
def State.cutBurn (s : State) : State :=
  match s.lc.burning with
  | none => s
  | some (dest, _) =>
    (s.takeFree 1).onLc fun l => { l with
      burning := none
      fuses := l.fuses.setIfInBounds (dest - 2) (Config.freeValue 2 s.freeCtr).toNat }

/-- An erase window that is open closes: the Vault completes its record (R377). -/
def State.closeErase (s : State) : State :=
  match s.tg.window with
  | some w => if w.erase then s.closeAlarmWindow else s.onTg fun t => { t with window := none }
  | none => s

/-- MAX_MODE is the VLT object CardMaxMode (R364, Table 2.10): the card host keeps it, and nothing else. -/
def Ch.unpowered (c : Ch) : Ch := { cfg := c.cfg &&& 0x70#32 }

/-- What is left without main power: fuses, the Vault with its store and battery domain, and the values of VLT and FUS
objects (Table 2.10, "Vault mode"). -/
def State.unpowered (s : State) : State :=
  let p := ((s.loseClass .vol none).loseClass .wrm none).pd
  { pending := s.pending
    clock := s.clock
    freeCtr := s.freeCtr
    outbox := s.outbox
    hostMem := s.hostMem
    dmaFail := s.dmaFail
    pwr := { mode := .vault, vbat := s.pwr.vbat, bootCount := s.pwr.bootCount }
    tb := { deviceTime := s.tb.deviceTime, dtValid := s.tb.dtValid, rtc := s.tb.rtc, timeFloor := s.tb.timeFloor,
            cmpTime := s.tb.deviceTime, refPresent := s.tb.refPresent &&& 8,
            locked := s.tb.locked.filter (276 ≤ ·) }
    td := { nextId := s.td.nextId }
    lg := { anchor := s.lg.anchor, journalCount := s.lg.journalCount, checkpointSeq := s.lg.checkpointSeq }
    li := { ucodeMin := s.li.ucodeMin, ucodeSteps := s.li.ucodeSteps }
    en := { latch := s.en.latch, history := s.en.history, lastSource := s.en.lastSource, lastTest := s.en.lastTest,
            lastTime := s.en.lastTime }
    sz := { drawCount := s.sz.drawCount }
    pd := { nums := p.nums, octets := p.octets, staged := p.staged }
    ch := s.ch.unpowered
    sp := { rootDigests := s.sp.rootDigests }
    tg := { erased := s.tg.erased, eraseFused := s.tg.eraseFused, groupsBurnt := s.tg.groupsBurnt,
            groupsFused := s.tg.groupsFused, postSources := s.tg.postSources, postCount := s.tg.postCount
            log := s.tg.log, nextSeq := s.tg.nextSeq, mark := s.tg.mark, head := s.tg.head
            suppressed := s.tg.suppressed, queue := s.tg.queue, shieldPattern := s.tg.shieldPattern, shieldKey := s.tg.shieldKey
            rootKey := s.tg.rootKey }
    lc := { fuses := s.lc.fuses }
    krf := { handles := s.krf.handles, generations := s.krf.generations } }

/-- The KRF loses its keys: what stays is the Vault's allocation table, every handle wrapped. -/
def State.wrapKeys (s : State) : State :=
  s.onKrf fun k => { k with
    handles := k.handles.map fun e => (e.1, e.2.map fun (h : Handle) =>
      { h with state := .wrapped, publicPart := [], privatePart := [] })
    running := none
    importPair := none
    pairDue := false
    journal := none }

/-- Main power is gone. -/
def State.losePower (s : State) : State := s.cutBurn.closeErase.wrapKeys.unpowered

/-- Vault loss (Table 2.10): the root key, the RTC and Device Time, VLT objects, the latch, the anchor; every handle is free
(R443) (DEDUCED, log entry 60). -/
def State.loseVault (s : State) : State :=
  let s := s.loseClass .vlt none
  { s with
    pwr := { s.pwr with mode := .dark, vbat := false }
    tb := { s.tb with deviceTime := 0, dtValid := false, rtc := 0, cmpTime := 0, refPresent := 0, locked := [] }
    ch := {}
    lg := { s.lg with journalCount := 0, checkpointSeq := 0, anchor := { state := .invalid } }
    en := { s.en with latch := false, history := [], lastSource := 0xFF, lastTest := 0, lastTime := 0 }
    sz := { s.sz with drawCount := 0 }
    tg := { s.tg with rootKey := none }
    krf := {} }

/-- VBAT_RISE (R24, Table 2.2): Vault mode begins, with a new shield key (R369). With main power on it changes no mode. -/
def execVbatRise (s : State) : Host.Outcome State Fault Refusal :=
  let t := s.onPwr fun p => { p with vbat := true, mode := if p.mode = .dark then .vault else p.mode }
  .next (if s.pwr.mode = .dark then t.rekeyShield else t)

/-- VAULT_LOSS (R24): with main power off; with main power on the Vault runs from it and loses nothing
(DEDUCED, log entry 58). -/
def execVaultLoss (s : State) : Host.Outcome State Fault Refusal :=
  .next (if s.pwr.mode = .vault then s.loseVault else s.onPwr fun p => { p with vbat := false })


/-! ### Wake (Table 2.6) -/

/-- Step 6 finds the ERASED flag set: Quarantine, with the first seed 1.8 ms later (Table 2.2, R197). -/
def State.wakeErased (s : State) : State :=
  let s := ((s.zeroLedger.loseVol).loseWrm).onPwr fun p => { p with mode := .quarantine, s0 := s.clock, wakeStep := 7 }
  (s.addCause .eraseAlarm).onPwr fun p => { p with vaultLost := !s.tb.dtValid }

/-- Steps 6 and 7: the Vault reports, the gangways are keyed. -/
def State.wakeReport (s : State) : State :=
  let s := s.onPwr fun p => { p with bootCount := p.bootCount + 1, wakeStep := 7 }
  let s := s.onTg fun t => { t with
    loaded := true
    gangwaysKeyed := (List.range 13).filter fun g => !t.gangwaysStopped.contains g }
  let s := s.onTb fun t => { t with cmpTime := t.deviceTime, cmpSlew := 0 }
  let s := if s.tb.dtValid then s else (s.onPwr fun p => { p with vaultLost := true }).raiseCause .vaultLost
  let s := if 16320 ≤ s.unarchived then s.afterEvidence else s
  if s.tg.erased then s.wakeErased else s

/-- Step 5: start-up tests; each entry of `noise` is a failed attempt of that source (R37)
(DESIGN CHOICE, log entry 47). -/
def State.wakeNoise (noise : List Nat) (s : State) : State :=
  let s := noise.foldl (fun s i => if i < 4 then s.latch (.srcStat i) 4 else s) s
  if (List.range 4).any fun i => 3 ≤ (noise.filter (· = i)).length then s.raiseCause .noiseStart
  else
    let s := s.onEn fun e => { e with
      sources := (List.range 5).map fun i => (i, { state := .running, since := s.clock }) }
    s.wakeReport

/-- Steps 4 to 7: fuse sensing, and Retired where it reads Scrapped. -/
def State.wakeOn (noise : List Nat) (s : State) : State :=
  let s := s.onLc fun l => { l with fuses := completeBurns l.fuses, state := fusedState (completeBurns l.fuses) }
  let s := s.onTg fun t => { t with groupsFused := t.groupsBurnt }
  let s := s.onPwr fun p => { p with wakeStep := 4 }
  if s.lc.state = 5 then s.enterRetired.onTg fun t => { t with loaded := true }
  else s.wakeNoise noise

/-- Wake begins at step 3; while PWRFAIL_N is asserted it waits (R419) (DESIGN CHOICE, log entry 13). -/
def State.startWake (kind : ResetKind) (noise : List Nat) (s : State) : State :=
  let s := s.onPwr fun p => { p with
    mode := .wake
    lastReset := kind
    wakeStep := 3
    t0 := s.clock
    s0 := none
    selfTest := 0
    calMonitor := 0xFFFF
    calRatio := 0 }
  if s.pwr.pwrfail then s else s.wakeOn noise

/-- MAIN_RAILS_GOOD (R36); a Wake that begins from Dark rekeys the shield (R369). -/
def execMainRailsGood (noise : List Nat) (s : State) : Host.Outcome State Fault Refusal :=
  .next (if s.pwr.mode = .dark || (s.pwr.mode = .wake && s.pwr.wakeStep = 0) then s.rekeyShield.startWake .powerOn noise
  else if s.pwr.mode = .vault then s.startWake .powerOn noise
  else s)

/-! ### Warm resets -/

/-- The queue pairs: PERST# resets their registers, a device restart only loses what they hold (R58, Table 2.10). -/
def lostQueue (p : QPair) : QPair := { sqBase := p.sqBase, cqBase := p.cqBase, cfg := p.cfg }

/-- The Host Gateway at a warm reset (R289, Table 2.10): a device restart keeps the link, configuration space, the lock
bits, the mailbox registers and the units that a parity mismatch has faulted (R300) (PRESUMED, log entry 5). PERST# took the
link and configuration space at its assertion; what the host has made of them since its release stays (R38). -/
def Hg.warm (kind : ResetKind) (h : Hg) : Hg :=
  if kind = .restart then { h with
    queues := h.queues.map fun e => (e.1, lostQueue e.2)
    mbx := h.mbx.map fun e => (e.1, { e.2 with status := 0 })
    rrNext := 0 }
  else { linkUp := h.linkUp, vfEnable := h.vfEnable, vfMemSpace := h.vfMemSpace, numVfs := h.numVfs, fns := h.fns, ide := h.ide,
         doeRequest := h.doeRequest, doeResponse := h.doeResponse }

/-- Registers, counters and state of the other blocks that no warm reset keeps. -/
def State.warmBlocks (s : State) : State :=
  { s with
    tb := { s.tb with cfgShadow := 0, cfgActive := 0, cfgPend := false, locked := s.tb.locked.filter (276 ≤ ·) }
    td := { nextId := s.td.nextId, gates := s.td.gates }
    lg := { s.lg with sweep := none, checkpointDue := false, recovering := none, waitSince := none, resident := [], nodes := [],
                      dirty := [], dirtyNodes := [] }
    li := { s.li with engines := s.li.engines.map fun e =>
      (e.1, { owner := e.2.owner, epoch := e.2.epoch, retired := e.2.retired, faults := e.2.faults }) }
    lh := { s.lh with units := s.lh.units.map fun e => (e.1, { retired := e.2.retired, faults := e.2.faults }) }
    en := { s.en with stopped := false, sources := [] }
    el := { state := if s.el.state = .cut then .cut else .idle, transmit := s.el.transmit }
    xl := {}
    ch := s.ch.unpowered
    sp := { s.sp with mdioBusy := false, mdioOp := 0, mdioPhy := 0, mdioReg := 0, mdioData := 0 }
    tg := { s.tg with
      armed := s.tg.armed.filter fun m => m / 4096 = 5
      loaded := false
      holdActive := []
      outside := []
      gangwaysKeyed := []
      gangwaysStopped := []
      reprovisioning := false
      reprovisioned := false }
    lc := { s.lc with maint := false, rights := 0, staged := none, challenge := [], certAddr := 0 } }

/-- A warm reset: what PERST# and a device restart lose (Table 2.10), then Wake from step 3
(DEDUCED, log entry 48). -/
def State.warmReset (kind : ResetKind) (noise : List Nat) (s : State) : State :=
  let s := s.dropSession.wrapKeys.wipeCompute
  let s := s.loseVol.warmBlocks.onHg (Hg.warm kind)
  let s := s.onPd fun p => { p with deferred := none, waiting := [] }
  let s := { s with latches := [] }
  let s := s.onPwr fun p => { p with
    causes := []
    entering := none
    heldStandby := false
    ceremonyFrom := none
    drain := none }
  s.startWake kind noise

/-! ### The power-fail stow (R125, R126) -/

/-- The stow list: the In-Flight Table (R125 step 3). -/
def stowList (ts : List Take) : List StowEntry :=
  ts.map fun t =>
    { slot := t.slot, serial := t.serial, tenant := t.tenant, epoch := t.epoch }

/-- The anchor takes a stow: counts, continuity and the list. -/
def State.stowAnchor (l : List StowEntry) (s : State) : State :=
  s.onLg fun g => { g with anchor := { g.anchor with
    state := .stowed
    stowCount := g.journalCount
    stowContinuity := g.continuity
    stow := l } }

/-- Steps 1 to 3 of Table 5.11: the Seal dies halt. A ledger that is not valid has nothing to stow. -/
def State.stowLedger (s : State) : State :=
  let s := s.onPwr fun p => { p with stowed := true }
  let s := if s.lg.valid then s.stowAnchor (stowList s.td.inflight) else s
  let s := s.onLg fun g => { g with sweep := none }
  s.onSz fun z => { z with cores := z.cores.map fun e => (e.1, { e.2 with run := .stopped }) }

/-- A stow, with step 4 of Table 5.11: the Escrow Line's cut (R321). -/
def State.stow (s : State) : State :=
  let s := s.stowLedger.sendCut cutPower 0 0xFFFFFFFF
  if s.noReel then s else s.cutReel

/-- MAIN_RAIL_LOSS (R24): Vault mode, or Dark without a battery. A loss that PWRFAIL_N did not announce attempts the stow:
whether it completes is a free value, and where it does not the anchor stays as it is (R126) (DESIGN CHOICE, log entry 143). The
reel ends with no frame (R321). -/
def execMainRailLoss (s : State) : Host.Outcome State Fault Refusal :=
  .next (if !s.powered then s
  else
    let s := if s.pwr.pwrfail || s.pwr.mode = .wake || s.pwr.mode = .retired then s
      else if Config.freeValue 1 s.freeCtr = 0 then s.takeFree 1
      else (s.takeFree 1).stowLedger
    if s.pwr.vbat then s.losePower.rekeyShield else s.losePower.loseVault)

/-- STOW: PWRFAIL_N is asserted. Before Self-Test Wake waits (R419). -/
def execStow (s : State) : Host.Outcome State Fault Refusal :=
  .next (if !s.powered || s.pwr.pwrfail then s
  else
    let s := s.onPwr fun p => { p with pwrfail := true }
    if s.pwr.mode = .wake || s.pwr.mode = .retired then s else s.stow)

/-- PWRFAIL_RELEASE: a Wake that waits resumes (R419); a stow commits the GX8 to a Wake as after a power-on reset (R126). -/
def execPwrfailRelease (s : State) : Host.Outcome State Fault Refusal :=
  .next (if !s.powered || !s.pwr.pwrfail then s
  else
    let was := s.pwr.stowed
    let perst := s.pwr.perst
    let s := s.onPwr fun p => { p with pwrfail := false, stowed := false }
    if was then
      let s := s.losePower
      let s := (s.onPwr fun p => { p with perst := perst }).onHg fun h => { h with linkUp := !perst }
      s.startWake .powerOn []
    else if s.pwr.mode = .wake && s.pwr.wakeStep = 3 then s.wakeOn []
    else s)

/-! ### Function-level reset (R50, R51, R289) -/

/-- The tenant's Long-Integer Engines: the epoch advances, nothing is reported (R162). -/
def State.flrEngines (t : Nat) (s : State) : State :=
  (List.range 96).foldl (fun s e =>
    if (s.engine e).owner = t then
      (s.endEngine e none).onEngine e fun g =>
        { owner := t, epoch := (g.epoch + 1) % 65536, retired := g.retired, faults := g.faults }
    else s) s

/-- The tenant's slot windows keep what they hold; their owner epochs advance. -/
def State.flrWindows (t : Nat) (s : State) : State :=
  s.onLg fun g => { g with windows := g.windows.map fun e =>
    if e.2.owner = t then (e.1, { e.2 with epoch := (e.2.epoch + 1) % 65536 }) else e }

/-- The tenant's applets are unloaded. -/
def State.flrApplets (t : Nat) (s : State) : State :=
  let s := s.onSz fun z => { z with loads := z.loads.filter fun l => l.tenant ≠ t }
  (List.range 176).foldl (fun s a =>
    if (s.applet a).owner = t && (s.applet a).state ≠ .free then s.unloadSlot a else s) s

/-- The tenant's takes end under STALE_OWNER without a completion: its queues are lost. -/
def State.flrTakes (t : Nat) (s : State) : State :=
  let s := s.abandonManifests (fun m => m.tenant = t) stStaleOwner
  let s := s.failTakes (fun x => x.tenant = t) stStaleOwner
  s.onTd fun d => { d with
    fetched := d.fetched.filter fun x => x.tenant ≠ t
    inflight := d.inflight.map fun x => if x.tenant = t then { x with silent := true } else x
    counts := mapSet {} d.counts t {} }

/-- What EDGE objects apply at tenant `t`'s function-level reset: its pool and its shared regions (R137, R251). Where in
the SRAM a region lies is a free value (DESIGN CHOICE, log entry 74). -/
def State.flrApply (t : Nat) (s : State) : State :=
  let s := (List.range 6).foldl (fun s d =>
    let s := s.applyNum (0x6200 + d) t 0
    let kib := s.num (0x6200 + d) t 0 0
    let base := if kib = 0 then 0 else (Config.freeValue 15 s.freeCtr).toNat % (32769 - kib)
    (s.onRegion d t fun _ => { kib := kib, base := base }).takeFree 1) s
  let s := s.applyNum 0xB100 t 0
  let n := s.num 0xB100 t 0 0
  if n = mapGet 0 s.lg.poolUnits t then s
  else (s.renewPool t).onLg fun g => { g with poolUnits := mapSet 0 g.poolUnits t n }

/-- The tenant's latches, its mailbox and its Directory requests; configuration space returns to its reset values but for Max
Payload Size and AER's registers (PRESUMED, log entry 28), and TenantResets counts. -/
def State.flrGateway (t : Nat) (s : State) : State :=
  let s := { s with latches := s.latches.filter fun e => e.1 % 2048 ≠ t }
  let mine := fun (r : DirReq) => decide (r.sink = .mailbox t)
  let s := s.onPd fun p => { p with
    staging := p.staging.filter fun x => x.viewer ≠ .tenant t
    deferred := match p.deferred with
      | some r => some (if mine r then { r with sink := .dropped, entries := r.entries.take 1 } else r)
      | none => none
    waiting := p.waiting.filter fun r => !mine r }
  s.onHg fun h => { h with
    queues := h.queues.filter fun e => e.1 / 8 ≠ t
    mbx := mapSet {} h.mbx t {}
    ide := if t = 0 then [] else h.ide
    doeRequest := if t = 0 then [] else h.doeRequest
    doeResponse := if t = 0 then [] else h.doeResponse
    fns :=
      let f := mapGet {} h.fns t
      mapSet {} h.fns t
        { memSpace := f.memSpace && t ≠ 0
          d3hot := f.d3hot
          aerStatus := f.aerStatus
          aerMask := f.aerMask
          aerSeverity := f.aerSeverity
          deviceControl := (f.deviceControl &&& 0xE0#32) ||| 0x2810#32
          resetting := true
          resets := f.resets + 1 } }

/-- A function-level reset of tenant `t`: owner epochs advance, then its resources are wiped
(DEDUCED, log entry 55). -/
def State.flr (t : Nat) (s : State) : State :=
  let s := (s.flrEngines t).flrWindows t
  let s := s.flrTakes t
  let s := s.flrApplets t
  let s := s.advanceInstance t
  let s := s.onLi fun l => { l with curves := l.curves.map fun e =>
    (e.1, e.2.bind fun c => if c.tenant = t then none else some c) }
  let s := s.zeroHandles fun h => h.owner = t
  let s := (s.loseClass .wrm (some t)).loseClass .vol (some t)
  (s.flrApply t).flrGateway t

/-- A function-level reset of an enumerated function. -/
def State.flrIf (t : Nat) (s : State) : State := if s.powered && s.fnPresent t then s.flr t else s

/-- FUNCTION_LEVEL_RESET (R51). -/
def execFunctionLevelReset (fn : Nat) (s : State) : Host.Outcome State Fault Refusal := .next (s.flrIf fn)

/-- FLR_KEY_REUNWRAP (R443): within 5 ms of the reset, in Service, Draw or Held, the tenant's handles unwrap again. -/
def execFlrKeyReunwrap (fn : Nat) (env : HostEnv) (s : State) : Host.Outcome State Fault Refusal :=
  let s := s.applyEnv env
  .next (if s.pwr.mode = .service || s.pwr.mode = .draw || s.pwr.mode = .held then
    s.unwrapAll fun h => h.owner = fn && h.state = .wrapped
  else s)

/-- VF Enable falls: every enabled VF is reset (R289). -/
def State.vfOff (s : State) : State :=
  let s := (List.range' 1 s.hg.numVfs).foldl (fun s t => s.flrIf t) s
  s.onHg fun h => { h with vfEnable := false }

/-- VF_ENABLE_CLEAR (R289). -/
def execVfEnableClear (s : State) : Host.Outcome State Fault Refusal :=
  .next (if s.powered && s.hg.linkUp && s.hg.vfEnable then s.vfOff else s)

/-- A function goes from D3hot to D0: a function-level reset (R289). -/
def State.toD0 (t : Nat) (s : State) : State :=
  if (s.fn t).d3hot then (s.flrIf t).onFn t fun f => { f with d3hot := false } else s

/-- D3HOT_TO_D0 (R289). -/
def execD3hotToD0 (fn : Nat) (s : State) : Host.Outcome State Fault Refusal :=
  .next (if s.powered && s.hg.linkUp && s.fnPresent fn then s.toD0 fn else s)

end Sys2Proof.Machine
end

