-- ==== Sys2Proof/Machine/Modes.lean ====
section
/-! DEFINITION. Self-Test, mode requests, Service, Ceremony and Drain (R23 to R48, R127, R132 to R134, R343, R424, R425),
restart and PERST#, and the reference clocks. -/

namespace Sys2Proof.Machine

/-! ### Mode requests (R24, R26, R27, R31, R43) -/

/-- A transition is in progress (R26). -/
def State.inTransition (s : State) : Bool :=
  s.pwr.entering.isSome || s.pwr.mode = .drain || s.xl.claim.isSome

/-- The condition of a cause that stands until a ModeRequest has cleared (Table 2.3 and its additions). -/
def State.causeOver (s : State) : Cause → Bool
  | .holdAlarm | .holdInDrain => s.tg.holdActive = []
  | .gateTimeFault => !s.tb.timeFault
  | .entropyFail => !s.en.stopped
  | .blockParity => s.hg.faulted = []
  | .tapFull => s.tapRoomy
  | .escrowStall => !s.el.stalled
  | .reelEnded => s.el.state = .running
  | .evidenceFull => decide (s.unarchived ≤ 15360)
  | _ => false

/-- ModeRequest = 0x5 removes every such cause first (R27). -/
def State.clearOver (s : State) : State :=
  s.onPwr fun p => { p with causes := p.causes.filter fun c => !s.causeOver c }

/-- R43 but its last two conditions. -/
def State.mayServe (s : State) : Bool :=
  s.causeCode = 0 && s.tb.dtValid && s.en.firstSeed && (s.lc.state = 2 || s.lc.state = 3)

/-- The last two conditions of R43. -/
def State.mayEnter (s : State) : Bool :=
  (!s.lc.maint || s.lc.state ≠ 3) && s.el.state = .running
    && decide (s.clock < s.el.lastStatus + s.statusLimit * 1000000)

/-- ModeRequest = 0x5 from tenant 0. -/
def State.requestService (v : Viewer) (s : State) : State × Status :=
  if v ≠ .tenant 0 || (s.pwr.mode ≠ .standby && s.pwr.mode ≠ .held) then (s, stModeRefused)
  else
    let s := s.clearOver
    if s.stands .calMargin then (s, stCalMargin)
    else if !s.mayServe || (s.pwr.mode = .standby && !s.mayEnter) then (s, stModeRefused)
    else (s.onPwr fun p => { p with entering := some s.clock }, stOk)

/-- The Ceremony is entered; from Standby a Lattice Unit of Seal die 0 makes a fresh import pair (R442). -/
def State.enterCeremony (s : State) : State :=
  let standby := decide (s.pwr.mode = .standby)
  let s := s.onPwr fun p => { p with mode := .ceremony, ceremonyFrom := some p.mode }
  let s := s.onLc fun l => { l with challenge := [], staged := none }
  let s := s.onXl fun x => { x with ceremonyHolder := s.memberId }
  if standby then (s.onKrf fun k => { k with pairDue := true }).assignWork else s

/-- What Table 2.2 asks for Ceremony, but the Fleet's claim. -/
def State.mayHoldCeremony (s : State) : Bool :=
  (s.pwr.mode = .standby || s.pwr.mode = .quarantine) && s.sessionOpen
    && !(s.pwr.mode = .standby && s.lc.maint && s.lc.state = 3)

/-- ModeRequest = 0x8 from the Regulator. -/
def State.requestCeremony (v : Viewer) (s : State) : State × Status :=
  if v ≠ .regulator || !s.mayHoldCeremony then (s, stModeRefused)
  else if s.claimees ≠ [] then (s.startClaim, stWaits)
  else (s.enterCeremony, stOk)

/-- ModeRequest = 0x4 where no transition is in progress. -/
def State.requestStandby (v : Viewer) (s : State) : State × Status :=
  match s.pwr.mode with
  | .service | .draw | .held => (s.enterDrain none false, stOk)
  | .ceremony => if v = .regulator then (s.endCeremony, stOk) else (s, stModeRefused)
  | _ => (s, stModeRefused)

/-- A write of ModeRequest (R24, R26, R31). -/
def modeRequest (v : Viewer) (value : Nat) : Act := fun s =>
  if value ≠ 4 && value ≠ 5 && value ≠ 8 then (s, stModeRefused)
  else if s.inTransition then
    if v = .regulator && value = 4 then (s.onPwr fun p => { p with heldStandby := true }, stOk) else (s, stModeRefused)
  else if value = 4 then s.requestStandby v
  else if value = 5 then s.requestService v
  else s.requestCeremony v

/-- HELD_REQUEST_EXECUTE (R26): a request without a route to Standby is discarded with an Evidence Log record
(DEDUCED, log entry 54). -/
def execHeldRequestExecute (s : State) : Host.Outcome State Fault Refusal :=
  .next (if !s.pwr.heldStandby || s.inTransition then s
  else
    let s := s.onPwr fun p => { p with heldStandby := false }
    if s.pwr.mode = .standby then s
    else
      let r := s.requestStandby .regulator
      if r.2 = stOk then r.1
      else (s.evidence 3 s.causeCode s.stamp (be 1 s.pwr.mode.code ++ be 1 s.pwr.mode.code) false).afterEvidence)

/-- SERVICE_ENTRY_COMPLETE (R43): from Standby every allocated handle is unwrapped; a cause that has arisen meanwhile
makes it Held (DESIGN CHOICE, log entry 81), and the latch then begins a Drain (R206). -/
def execServiceEntryComplete (env : HostEnv) (s : State) : Host.Outcome State Fault Refusal :=
  let s := s.applyEnv env
  .next (match s.pwr.entering with
    | none => s
    | some _ =>
      let s := if s.pwr.mode = .standby then
          (s.unwrapAll fun _ => true).onLc fun l => { l with challenge := [] } else s
      let s := s.onPwr fun p => { p with mode := .service, entering := none }
      if s.causeCode = 0 then s
      else
        let s := s.enterHeld (if s.en.latch then stEntropyFail else stHeld)
        if s.en.latch then s.enterDrain none false else s)

/-! ### Restart and PERST# (R26, R32, R48, R289) -/

/-- A warm reset along the rows of Table 2.2; the answer says whether one leaves this mode. It ends a checkpoint before its
step 5 (R121). -/
def State.warmFrom (kind : ResetKind) (noise : List Nat) (s : State) : State × Bool :=
  let s := s.onLg fun g => { g with sweep := none }
  match s.pwr.mode with
  | .service | .draw | .held | .standby | .ceremony => (s.enterDrain (some kind) (kind = .perst), true)
  | .drain =>
    (s.onPwr fun p => { p with drain := p.drain.map fun d => { d with
      ending := if d.ending = some .perst then d.ending else some kind
      silent := d.silent || kind = .perst } }, true)
  | .wake => if s.wakeStopped || s.pwr.wakeStep = 0 then (s, false) else (s.warmReset kind noise, true)
  | .selfTest | .quarantine => (s.warmReset kind noise, true)
  | _ => (s, false)

/-- A write of RestartRequest (R32). -/
def restartRequest (noise : List Nat) (value : Nat) : Act := fun s =>
  if value ≠ 0xA5C3 then (s, stModeRefused)
  else
    let r := s.warmFrom .restart noise
    (r.1, if r.2 then stOk else stModeRefused)

/-- PERST_ASSERT (R48): the link goes, the monitor of the 100 MHz reference is disarmed (R424)
(DEDUCED, log entry 56). -/
def execPerstAssert (noise : List Nat) (s : State) : Host.Outcome State Fault Refusal :=
  .next (if !s.powered || s.pwr.perst then s
  else
    let s := s.onPwr fun p => { p with perst := true }
    let s := s.onHg fun h => { h with
      linkUp := false
      vfEnable := false
      vfMemSpace := false
      numVfs := 0
      fns := h.fns.map fun e => (e.1, { resets := e.2.resets, busErrors := e.2.busErrors }) }
    let s := s.onTg fun t => { t with armed := t.armed.filter (· ≠ 0x5000) }
    (s.warmFrom .perst noise).1)

/-- PERST_RELEASE (R38): the endpoint leaves reset. -/
def execPerstRelease (s : State) : Host.Outcome State Fault Refusal :=
  .next (if !s.powered || !s.pwr.perst then s
  else (s.onPwr fun p => { p with perst := false }).onHg fun h => { h with linkUp := true })

/-! ### Drain (R46, R47, R132) -/

/-- Every take has landed, and every descriptor that was queued has been fetched. -/
def State.drained (s : State) : Bool := s.td.fetched = [] && s.td.inflight = [] && !(s.fetches && s.owing)

/-- Step 4 is done; step 5 begins. -/
def State.drainStep5 (s : State) : State :=
  (s.onPwr fun p => { p with drain := p.drain.map fun d => { d with handedOver := true } }).stopReel endDrain

/-- Step 4 is still to be done. -/
def State.handsOver (s : State) : Bool :=
  match s.pwr.drain with
  | some d => s.pwr.mode = .drain && !d.handedOver
  | none => false

/-- DRAIN_ROLE_HANDOVER (R342). -/
def execDrainRoleHandover (s : State) : Host.Outcome State Fault Refusal :=
  .next (if s.handsOver && s.drained then
    let s := s.handOverRoles
    if s.rolesHandedOver then s.drainStep5 else s
  else s)

/-- DrainLimit in force, in ms. -/
def State.drainLimit (s : State) : Nat := s.num 0x1100 9 0 3000

/-- DrainLimit less the run-out has elapsed since D0 (R47). -/
def State.drainLate (s : State) : Bool :=
  match s.pwr.drain with
  | some d => decide (d.start + s.drainLimit * 1000000 ≤ s.clock + s.el.runOut * 1000000)
  | none => false

/-- DRAIN_LIMIT_EXPIRY (R47). -/
def execDrainLimitExpiry (s : State) : Host.Outcome State Fault Refusal :=
  .next (if s.handsOver && s.drainLate then s.releaseRoles.drainStep5 else s)

/-- The Drain stow (R132): after cause MEMORY_INTEGRITY no ledger line is written (DEDUCED, log entry 50). -/
def State.drainStow (s : State) : State :=
  if !s.lg.valid then s
  else
    let s := if s.stands .memoryIntegrity || s.lg.writesStopped then s else s.writeBack
    s.stowAnchor []

/-- Step 6 of Table 2.9: running commands of Long-Integer Engines and Lattice Units end with ABORTED (R154, R162), and
the unwrapped keys are zeroed. -/
def State.drainKeys (s : State) : State :=
  let s := s.abortEngines (fun _ _ => true) (some stAborted)
  let s := s.abortUnits (fun _ => true) stAborted
  s.zeroHandles fun _ => true

/-- DRAIN_COMPLETE (R46). -/
def execDrainComplete (noise : List Nat) (s : State) : Host.Outcome State Fault Refusal :=
  .next (match s.pwr.drain with
    | none => s
    | some d =>
      if s.pwr.mode ≠ .drain || !d.handedOver || !s.drained || !s.noReel then s
      else
        let s := s.drainStow.drainKeys
        match d.ending with
        | none => (s.onPwr fun p => { p with mode := .standby, drain := none }).retireIfScrapped
        | some kind => s.warmReset kind noise)

/-! ### Self-Test (Table 2.6 steps 8 to 14) -/

/-- RATE of MG_CHAN_STAT (Table 5.16). -/
def rateCode (rate : Nat) : Nat := if rate = 6400 then 2 else if rate = 5600 then 1 else 0

def chanStatOf (c : Channel) : ChanStat :=
  { capGib := c.capGib, rate := rateCode c.rate, x4 := c.x4, ranks2 := c.ranks2, trained := c.trained
    trainFail := !c.trained }

/-- A population of Table 5.13: four identical supported modules of 16 to 64 GiB, all trained. -/
def populationOk (cs : List Channel) : Bool :=
  cs.length = 4 && cs.all (fun c => c.supported && c.trained && decide (16 ≤ c.capGib ∧ c.capGib ≤ 64)
    && (c.rate = 4800 || c.rate = 5600 || c.rate = 6400) && cs.head? = some c)

/-- PoolUnitsTotal of an installed memory, in units of 64 MiB (R133). -/
def unitsOf (gib : Nat) : Nat := (gib * 2 ^ 30 - 0x58000000) / 576 * 512 / 67108864

/-- Wake is complete but for DDR5 (Table 2.6): all gangways keyed and all Seal-die islands locked, SYSCLK_25M detected (R424),
no PWRFAIL_N (R419). -/
def State.wakeDone (s : State) : Bool :=
  s.pwr.mode = .wake && s.pwr.wakeStep = 7 && !s.wakeStopped && !s.pwr.pwrfail && s.tg.gangwaysKeyed.length = 13
    && bitOf s.tb.refPresent 2 && (List.range' 96 180).all fun i => s.tb.locked.contains i

/-- SELF_TEST_START (R36, R133, R134): step 8, once a certificate presented has been checked (R403), and from S0 the known-answer tests. Bit 3 of `kat` is the DRBG's, whose
failure R198 treats as a failure of a noise source (DEDUCED, log entry 52). -/
def execSelfTestStart (chans : List Channel) (kat : BitVec 7) (s : State) : Host.Outcome State Fault Refusal :=
  .next (if !s.wakeDone || s.certDue then s
  else
    let cs := chans.take 4
    let s := s.onLg fun g => { g with
      chans := (cs.zipIdx).map fun e => (e.2, chanStatOf e.1)
      totalUnits := unitsOf ((cs.map (·.capGib)).sum) }
    if !populationOk chans then s.raiseCause .ddrTraining
    else
      let k := kat.toNat % 32
      let s := s.onPwr fun p => { p with mode := .selfTest, wakeStep := 9, s0 := some s.clock, selfTest := p.selfTest ||| k }
      let s := if s.en.latch then s.raiseCause .entropyLatch else s
      if bitOf k 3 then s.entropyFailure [] 5 else s)

/-- The guard band of a monitor, in µV, ppm or m°C (Table 2.8). -/
def guardBand (m : Nat) : Option Nat :=
  match m / 4096 with
  | 1 | 2 => some 12000
  | 3 => some 20000
  | 4 | 5 => some 15000
  | 6 | 7 => some 4000
  | _ => none

/-- Ratios of the margins of the load step, each with its monitor. -/
def ratios (margins : List (Nat × Nat)) : List (Nat × Nat) :=
  margins.filterMap fun e => (guardBand e.1).bind fun b => if monitorExists e.1 then some (e.1, e.2 * 1000 / b) else none

/-- The smallest ratio, the earliest of equals (DESIGN CHOICE, log entry 53). -/
def smallest : List (Nat × Nat) → Option (Nat × Nat)
  | [] => none
  | e :: es => match smallest es with
    | some f => if f.2 < e.2 then some f else some e
    | none => some e

/-- LOAD_STEP (R41): CalMarginRatio, CalMarginMonitor, and cause CAL_MARGIN below 1,000. -/
def execLoadStep (margins : List (Nat × Nat)) (s : State) : Host.Outcome State Fault Refusal :=
  .next (if s.pwr.mode ≠ .selfTest || 12 ≤ s.pwr.wakeStep then s
  else
    let s := s.onPwr fun p => { p with wakeStep := 12 }
    match smallest (ratios margins) with
    | none => s
    | some (m, r) =>
      let s := s.onPwr fun p => { p with calMonitor := m, calRatio := min r 0xFFFF }
      if r < 1000 then
        (s.onPwr fun p => { p with selfTest := p.selfTest ||| 0x40 }).raiseCause .calMargin
      else s.clearCause .calMargin)

/-- The journal key: derived by the Vault with purpose 0x0002 (R447), where it derives at all (R399)
(DESIGN CHOICE, log entry 57). -/
def State.deriveJournal (s : State) : State :=
  if !s.derives then s.onKrf fun k => { k with journal := none }
  else
    let priv := s.derive 2 []
    s.onKrf fun k => { k with journal := some (priv, ecPublic 1 false priv) }

/-- The recovery is awaited (R127). -/
def State.awaitRecovery (status : Nat) (s : State) : State :=
  s.onLg fun g => { g with recoveryStatus := status, waitSince := some s.clock, valid := false }

/-- A rebuild is required (R127). -/
def State.needRebuild (status : Nat) (s : State) : State :=
  (s.onLg fun g => { g with recoveryStatus := status, valid := false }).raiseCause .ledgerRoot

/-- Table 5.12 after a power-on reset. -/
def State.ledgerCold (s : State) : State :=
  match s.lg.anchor.state with
  | .empty => s.onLg fun g => { g with slots := [], windows := [], valid := true }
  | .stowed => s.awaitRecovery rsWaiting
  | _ => s.needRebuild rsNoStow

/-- Table 5.12 after a warm reset, for a ledger that was valid before it (DEDUCED, log entry 51). -/
def State.ledgerWarm (verified : Bool) (s : State) : State :=
  if verified && !s.lg.writesStopped then s
  else
    let s := s.onPwr fun p => { p with selfTest := p.selfTest ||| 0x20 }
    if s.lg.anchor.state = .stowed then s.awaitRecovery rsVerifyFailed else s.needRebuild rsVerifyFailed

/-- LEDGER_SELF_TEST (R127, R447) (DEDUCED, log entry 49). -/
def execLedgerSelfTest (verified : Bool) (s : State) : Host.Outcome State Fault Refusal :=
  .next (if s.pwr.mode ≠ .selfTest || s.pwr.wakeStep ≠ 12 then s
  else
    let s := (s.onPwr fun p => { p with wakeStep := 13 }).deriveJournal.guardKeys
    if s.pwr.lastReset = .powerOn || !s.lg.valid then s.ledgerCold else s.ledgerWarm verified)

/-- RECOVERY_WAIT_EXPIRY (R127). -/
def execRecoveryWaitExpiry (s : State) : Host.Outcome State Fault Refusal :=
  .next (if s.recoveryExpired then
    (s.onLg fun g => { g with waitSince := none, recoveryStatus := rsWaitExpired }).raiseCause .ledgerRoot
  else s)

/-- The first seed has risen, or will not (R198). -/
def State.seedKnown (s : State) : Bool := s.en.firstSeed || bitOf s.pwr.selfTest 3

/-- SELF_TEST_COMPLETE (R36): a failed known-answer test is cause SELF_TEST_FAILED (bits 5 and 6 have causes of their own). -/
def execSelfTestComplete (s : State) : Host.Outcome State Fault Refusal :=
  .next (if s.pwr.mode ≠ .selfTest || s.pwr.wakeStep ≠ 13 || s.lg.waitSince.isSome || s.lg.recovering.isSome
      || !s.seedKnown then s
  else
    let s := s.onPwr fun p => { p with mode := .standby, wakeStep := 14 }
    if s.pwr.selfTest % 32 = 0 then s else s.raiseCause .selfTestFailed)

/-! ### Clocks and monitors (R371, R424, R425) -/

/-- REFCLK_DETECT_TIMEOUT (R424): SYSCLK_25M has not come by T0 + 1 ms. -/
def execRefclkDetectTimeout (s : State) : Host.Outcome State Fault Refusal :=
  .next (if s.pwr.mode = .wake && 3 ≤ s.pwr.wakeStep && !bitOf s.tb.refPresent 2 && !s.wakeStopped
      && decide (s.pwr.t0 + 1000000 ≤ s.clock) then s.raiseCause .refclkAbsent
  else s)

/-- The block that a reference serves has power: the Vault's islands run in Vault mode and under main power alike (R16). -/
def State.clocked (s : State) (r : Nat) : Bool := s.powered || (s.pwr.mode = .vault && r = 3)

/-- REFERENCE_DETECT (R424). -/
def execReferenceDetect (r : Nat) (s : State) : Host.Outcome State Fault Refusal :=
  .next (if s.clocked r && r < 4 then s.onTb fun t => { t with refPresent := setBit t.refPresent r true } else s)

/-- REFERENCE_STOP (R424, R426): the crystal's is XTAL_STOP (Table 16.3), the other references' CLK_REF; the 100 MHz monitor is armed
only while its reference is detected
(DEDUCED, log entry 59). -/
def execReferenceStop (r : Nat) (s : State) : Host.Outcome State Fault Refusal :=
  .next (if !s.clocked r || !bitOf s.tb.refPresent r || 4 ≤ r then s
  else
    let s := s.onTb fun t => { t with refPresent := setBit t.refPresent r false }
    if s.pwr.mode = .vault then s.batteryAlarm [0xE000]
    else
      let s := (s.latch .tbRef (2 ^ (4 + r))).timeIrq.alarmIfArmed (if r = 3 then 0xE000 else 0x5000 + r)
      if r = 0 then s.onTg fun t => { t with armed := t.armed.filter (· ≠ 0x5000) } else s)

/-- The reference of an island: 0 is the 100 MHz, 1 the 156.25 MHz, 2 the 25 MHz, 3 the crystal (R16, R423, R425). The
Anchor's islands are numbered in the order of Table 1.4, PCIe first, Escrow Line and Crossing Links from 66
(DEDUCED, log entry 113). -/
def islandRef (i : Nat) : Nat := if i < 8 then 0 else if 66 ≤ i ∧ i < 78 then 1 else if i < 276 then 2 else 3

/-- ISLAND_LOCK (R425). -/
def execIslandLock (island : Nat) (s : State) : Host.Outcome State Fault Refusal :=
  .next (if s.clocked (islandRef island) && island < 288 && !s.tb.locked.contains island
      && bitOf s.tb.refPresent (islandRef island) then
    s.onTb fun t => { t with locked := t.locked ++ [island] }
  else s)

/-- What a monitor with an arming delay watches has come: an island's lock or a reference (R371, R424). -/
def State.armable (s : State) (m : Nat) : Bool :=
  match m / 4096 with
  | 4 => s.tb.locked.contains (m % 4096)
  | 5 => bitOf s.tb.refPresent (m % 4096) && (m ≠ 0x5000 || !s.pwr.perst)
  | _ => false

/-- MONITOR_ARM (R371): the 10 µs are over. -/
def execMonitorArm (monitor : Nat) (s : State) : Host.Outcome State Fault Refusal :=
  .next (if s.powered && monitorExists monitor && s.armable monitor && !s.tg.armed.contains monitor then
    s.onTg fun t => { t with armed := t.armed ++ [monitor] }
  else s)

end Sys2Proof.Machine
end

