-- ==== Sys2Proof/Machine/Values.lean ====
section
/-! DEFINITION. The value in force of every object of the Parameter Directory, as a viewer reads it (R262 to R266 and the
object tables of the chapters). -/

namespace Sys2Proof.Machine

/-- A value: a number, or a byte string (R6). -/
inductive Val where
  | num (n : Nat)
  | bytes (b : Bytes)
  deriving DecidableEq, Repr

/-- The ASCII bytes of a text. -/
def ascii (t : String) : Bytes := t.toList.map fun c => BitVec.ofNat 8 c.toNat

/-- The instance of an object: the tenant's, the viewer's own for EvidenceSelect (R389), or 0. -/
def Obj.instFor (o : Obj) (v : Viewer) (inst : Nat) : Nat :=
  if o.tenant then inst else if o.lo = 0x9100 && o.subLo = 3 then viewerCode v else 0

/-- JournalKeyAttestation (R447): empty without a journal key. It names the life-cycle state of the read, also after a transition
that no Self-Test has followed, when the key is still that of the old state (DESIGN CHOICE, log entry 134). -/
def State.journalAttestation (s : State) : Bytes :=
  match s.krf.journal with
  | none => []
  | some j => deviceSign 0 ([0x41] ++ be 8 unitId ++ be 2 0 ++ be 1 1 ++ be 1 0 ++ be 1 0xFF ++ be 4 s.lc.state
      ++ Config.sha384 j.2)

/-- STATE of EN_BANK_STAT (Table 8.9). -/
def State.bankState (s : State) : Nat :=
  if s.en.latch then 3 else if s.en.stopped then 2 else b2n s.en.firstSeed

def SourceState.code : SourceState → Nat
  | .idle => 0
  | .startup => 1
  | .running => 2
  | .isolated => 3

/-- Table 13.9. -/
def ReelState.code : ReelState → Nat
  | .idle => 0
  | .opening => 1
  | .pickup => 2
  | .running => 3
  | .runout => 4
  | .cut => 5

/-- 0x00 idle, 0x01 busy, 0x02 retired (R165, R184). -/
def workState (busy retired : Bool) : Nat := if retired then 2 else b2n busy

/-- 0 none, 1 half-open, 2 open (Table 11.17). -/
def State.sessionState (s : State) : Nat :=
  match s.sp.session with
  | none => 0
  | some x => if x.opened then 2 else 1

/-- A tenant above 0 that is not the one named (R260, R304). -/
def otherThan (v : Viewer) (t : Nat) : Bool :=
  match v with
  | .tenant u => u ≠ 0 && u ≠ t
  | _ => false

/-- Objects whose value is a number that another field of the state holds, or a constant. -/
def State.numVal (s : State) (v : Viewer) (inst index sub : Nat) : Option Nat :=
  match index, sub with
  | 0x1000, 3 => some unitId
  | 0x1000, 5 => some (Config.silicon 16 5).toNat
  | 0x1000, 7 => some s.tg.groupsBurnt
  | 0x1100, 1 => some s.pwr.mode.code
  | 0x1100, 4 => some s.causeCode
  | 0x1100, 5 => some (b2n s.lc.maint)
  | 0x1100, 6 => some s.pwr.selfTest
  | 0x1100, 7 => some s.pwr.calMonitor
  | 0x1100, 8 => some s.pwr.calRatio
  | 0x1100, 0xA => some s.pwr.bootCount
  | 0x1100, 0xB => some (b2n s.pwr.vaultLost)
  | 0x2000, 2 => some (if s.hg.vfEnable then s.hg.numVfs else 0)
  | 0x2010, t => some (if !s.fnPresent t then 0 else if (s.fn t).resetting then 2 else 1)
  | 0x2011, t => some (s.fn t).resets
  | 0x2012, t => some (s.fn t).busErrors
  | 0x2100, 0xF => some s.handlesFree
  | 0x3000, 1 => some (s.counts inst).sealed
  | 0x3000, 2 => some (s.counts inst).void
  | 0x3000, 3 => some (s.counts inst).refused
  | 0x3000, 6 => some s.td.device.sealed
  | 0x3000, 7 => some s.td.device.void
  | 0x3000, 8 => some s.td.device.refused
  | 0x3001, 3 => some (s.counts inst).manifestsSigned
  | 0x3001, 4 => some (s.counts inst).manifestsAbandoned
  | 0x3002, 3 => some (s.counts inst).slateNext
  | 0x3002, 4 => some (s.counts inst).slateFaults
  | 0x4000, 4 => some s.lg.checkpointSeq
  | 0x4000, 7 => some s.lg.tapConsumed
  | 0x4000, 8 => some s.lg.tapWritten
  | 0x4000, 9 => some s.lg.journalCount
  | 0x4000, 0xD => some s.lg.recoveryStatus
  | 0x4000, 0x12 => some s.lg.integrityFaults
  | 0x4800, 2 => some (b2n s.en.firstSeed)
  | 0x4800, 3 => some s.bankState
  | 0x4800, 4 => some s.recentFailures
  | 0x4800, 5 => some s.en.lastSource
  | 0x4800, 6 => some s.en.lastTest
  | 0x4800, 7 => some s.en.lastTime
  | 0x4800, 0xB => some (b2n s.en.latch)
  | 0x4810, i => some (s.source i).state.code
  | 0x4820, i => some (if otherThan v i then 0 else (s.drbg i).epoch)
  | 0x5000, 2 => some romVersion
  | 0x5000, 3 => some s.activeVersion
  | 0x5000, 4 => some s.li.ucodeMin
  | 0x5000, 8 => some s.li.ucodeStatus
  | 0x5000, 9 => some s.li.faultChecks
  | 0x5100, e => some (s.engine e).owner
  | 0x5101, e => some (s.engine e).epoch
  | 0x5102, e => some (workState ((s.engine e).running.isSome || s.sealWork e) (s.engine e).retired)
  | 0x5200, c => some (((mapGet none s.li.curves c).map Curve.tenant).getD 0xFF)
  | 0x5800, 4 => some s.lh.rejectionLimits
  | 0x5800, 5 => some s.lh.faultChecks
  | 0x5800, 6 => some s.lh.tagFailures
  | 0x5810, u => some (workState (s.latticeUnit u).running.isSome (s.latticeUnit u).retired)
  | 0x6000, 4 => some s.sz.drawCount
  | 0x6300, a => some (if otherThan v (s.applet a).owner then 0xFF else (s.applet a).owner)
  | 0x6301, a => some (if otherThan v (s.applet a).owner then 0 else mapGet 0 s.sz.epochs a)
  | 0x6302, a => some (if otherThan v (s.applet a).owner then 0 else (s.applet a).appletId)
  | 0x7000, 1 => some s.el.state.code
  | 0x7000, 2 => some (if s.el.state = .cut then 0 else s.el.reelId)
  | 0x7000, 3 => some s.el.result
  | 0x7000, 6 => some s.el.heldCount
  | 0x7000, 7 => some (if s.lg.reel = [] then 0 else s.bufferFirst)
  | 0x7000, 8 => some s.reelFill
  | 0x7000, 0xC => some s.el.statusDropped
  | 0x7800, 7 => some (s.members.filter s.reachable).length
  | 0x7800, 0xC => some s.xl.ceremonyHolder
  | 0x8000, 1 => some (b2n s.ch.present)
  | 0x8000, 2 => some s.cardMode
  | 0x8000, 3 => some s.cardId
  | 0x8000, 4 => some s.ch.maxMode
  | 0x8010, 5 => some s.ch.opStatus
  | 0x9000, 1 => some s.tg.eraseFused
  | 0x9000, 3 => some (s.latched .alarmsSeen v)
  | 0x9000, 4 => some (s.latched .warningsSeen v)
  | 0x9000, 5 => some (b2n s.tg.erased)
  | 0x9000, 6 => some s.tg.postSources
  | 0x9000, 7 => some s.tg.postCount
  | 0x9100, 1 => some s.tg.nextSeq
  | 0x9100, 2 => some s.tg.mark
  | 0x9100, 7 => some s.tg.suppressed
  | 0x9200, 2 => some s.tg.reprovisionStatus
  | 0x9800, 1 => some s.lc.state
  | 0x9800, 4 => some s.lc.certStatus
  | 0x9800, 5 => some s.lc.certSerial
  | 0x9800, 6 => some s.lc.rights
  | 0x9800, 7 => some jtagIdcode
  | 0x9810, 6 => some s.lc.debugStatus
  | 0xA000, 8 => some s.sp.speed
  | 0xA000, 0xA => some s.sessionState
  | 0xA000, 0xD => some (4 - s.sp.rootDigests.length)
  | 0xA000, 0xE => some s.sp.refusals
  | 0xA000, 0xF => some s.sp.dropped
  | 0xB000, 1 => some ((s.lg.chans.map fun c => c.2.capGib).sum * 2 ^ 30)
  | 0xB000, 2 => some s.lg.totalUnits
  | 0xB000, 3 => some s.lg.eccCorrected
  | 0xB000, 4 => some s.lg.eccUncorrected
  | 0xC000, 1 => some s.tb.deviceTime
  | 0xC000, 4 => some (BitVec.ofInt 64 s.tb.remaining).toNat
  | 0xC000, 5 => some (b2n s.tb.timeFault)
  | 0xC000, 7 => some s.tb.timeFloor
  | _, _ => none

/-- Objects whose value is a byte string that another field holds, or a constant. -/
def State.bytesVal (s : State) (v : Viewer) (index sub : Nat) : Option Bytes :=
  match index, sub with
  | 0x1000, 1 => some (ascii "Termar")
  | 0x1000, 2 => some (ascii "Glelis GX8")
  | 0x1000, 4 => some (ascii "TMR-GX8-4176")
  | 0x1000, 8 => some deviceCert
  | 0x2100, 6 => some ((s.krf.importPair.map (·.1)).getD [])
  | 0x4000, 0x13 => some (if s.derives then (s.krf.journal.map (·.2)).getD [] else [])
  | 0x4000, 0x14 => some (if s.derives then s.journalAttestation else [])
  | 0x5201, c => some (((mapGet none s.li.curves c).map Curve.digest).getD (List.replicate 32 0))
  | 0x7010, 1 => some (be 32 s.recorderDigest)
  | 0x9100, 4 => some (s.evidenceRecords (viewerCode v))
  | 0x9100, 5 => some s.evidenceHead
  | 0x9100, 6 => some s.headSignature
  | 0x9800, 3 => some lcAuthorityDigest
  | 0x9810, 3 => some s.lc.challenge
  | 0xA000, 0xB => some ((s.sp.session.map Session.signer).getD (List.replicate 32 0))
  | 0xA000, 0xC => some s.rootDigest
  | _, _ => none

/-- A gate's close time (R67): gate 0 never closes. -/
def State.gateClose (s : State) (g : Nat) : Nat := if g = 0 then 2 ^ 64 - 1 else (s.gate g).close

/-- Objects that are arrays over several indices. -/
def State.arrayVal (s : State) (index sub : Nat) : Option Nat :=
  if 0x3500 ≤ index ∧ index ≤ 0x35FF then some (s.gateClose ((index - 0x3500) * 256 + sub))
  else if 0x3600 ≤ index ∧ index ≤ 0x36FF then some (s.gate ((index - 0x3600) * 256 + sub)).owner
  else if 0x4100 ≤ index ∧ index ≤ 0x4107 then some (s.window ((index - 0x4100) * 256 + sub)).owner
  else if 0x4200 ≤ index ∧ index ≤ 0x4207 then some (s.window ((index - 0x4200) * 256 + sub)).epoch
  else none

/-- KeyPublic, empty while KeySelect names none, and the other objects that can refuse a read (R109, R445)
(DEDUCED, log entry 41). -/
def State.checkedVal (s : State) (v : Viewer) (inst index sub : Nat) : Option (Except Status Val) :=
  match index, sub with
  | 0x2100, 0xB =>
    some (if s.num 0x2100 1 inst 0 = 0 then .ok (.bytes []) else (s.keyPublic v inst).map .bytes)
  | 0x2100, 0xC => some ((s.keyAttestation v inst).map .bytes)
  | 0x2100, 0xD =>
    let k := s.handle (s.num 0x2100 1 inst 0)
    some (if k = none || reachesHandle v k then .ok (.num (keyInfo k)) else .error stKeyHandleInvalid)
  | 0x4010, 4 =>
    let n := s.slotSelect inst
    some (if 2097152 ≤ n || otherThan v (s.window (n / 1024)).owner then .error stBadSlot else .ok (.num (s.slot n).serial))
  | _, _ => none

/-- The value in force of an object as viewer `v` reads the instance `inst`, or the status of a read that its owner
refuses. -/
def State.objVal (s : State) (v : Viewer) (o : Obj) (inst index sub : Nat) : Except Status Val :=
  match s.checkedVal v inst index sub with
  | some r => r
  | none =>
    if o.type.isBytes then
      .ok (.bytes ((s.bytesVal v index sub).getD (s.octets index sub (o.instFor v inst))))
    else match s.numVal v inst index sub, s.arrayVal index sub with
      | some n, _ => .ok (.num n)
      | none, some n => .ok (.num n)
      | none, none => .ok (.num (s.objNum index sub (o.instFor v inst)))

/-- What a read of a clear-on-read object clears, for its viewer alone (R393). -/
def State.readEffect (v : Viewer) (index sub : Nat) (s : State) : State :=
  match index, sub with
  | 0x9000, 3 => s.clearLatch .alarmsSeen v
  | 0x9000, 4 => s.clearLatch .warningsSeen v
  | _, _ => s

end Sys2Proof.Machine
end

