-- ==== Sys2Proof/Machine/Directory.lean ====
section
/-! DEFINITION. The Parameter Directory engine (R262 to R272, R285, R390, R400, R401): requests and responses, access, the
checks of an entry in order, apply points, staging, and the one request at a time of R271 with a WRITE that waits. -/

namespace Sys2Proof.Machine

/-- What an event of the command table brings to the action of a write: the noise of a Wake that a restart starts, and the
sources that a retest fails, and whether a fuse burns. -/
structure World where
  noise : List Nat := []
  failed : List Nat := []
  /-- Fuses burn as they should (R263) (DESIGN CHOICE, log entry 133). -/
  burnt : Bool := true
  deriving DecidableEq, Repr

/-! ### Byte order (R267) -/

/-- Big-endian over Yilile and the Crossing Links, little-endian elsewhere. -/
def bigEndian : Viewer → Bool
  | .regulator | .peer _ => true
  | _ => false

def putNum (v : Viewer) (n x : Nat) : Bytes := if bigEndian v then be n x else le n x
def getNum (v : Viewer) (b : Bytes) : Nat := if bigEndian v then ofBe b else ofLe b

/-- Padded with zeros to a multiple of 8. -/
def pad8 (b : Bytes) : Bytes := b ++ List.replicate ((8 - b.length % 8) % 8) 0

/-! ### Access (R265, R266, R285, R390, R400, R401) -/

/-- The access of the viewer's role; the objects of gate 0 are CONST for every role (R67). -/
def Obj.accessFor (o : Obj) (v : Viewer) (index sub : Nat) : Access :=
  let a := match v with
    | .tenant _ => o.op
    | .regulator => o.reg
    | .maker => o.maker
    | .peer _ => if o.peer then .ro else .none
  if a ≠ .none ∧ (index = 0x3500 ∨ index = 0x3600) ∧ sub = 0 then .const else a

/-- Objects of DEVICE scope that a chapter lets tenants 1 to 63 reach. -/
def State.granted (s : State) (t index sub op : Nat) : Bool :=
  (0x1000 ≤ index && index < 0x1100)
    || ((index = 0x2010 || index = 0x2011 || index = 0x2012) && sub = t)
    || (index = 0x2100 && sub = 0xF) || (index = 0x4000 && (sub = 0x13 || sub = 0x14)) || index = 0x4820
    || (0x6300 ≤ index && index ≤ 0x6302)
    || (0x3500 ≤ index && index ≤ 0x35FF
        && (op = 2 || index * 256 + sub = 0x350000 || (s.gate ((index - 0x3500) * 256 + sub)).owner = t))

/-- The condition of a role's access holds (R262, R266); the import objects need a Ceremony entered from Standby
(R442). -/
def State.conditionMet (s : State) (v : Viewer) (o : Obj) (index sub op : Nat) : Bool :=
  match v with
  | .tenant t => t = 0 || (!o.t0 && (o.tenant || s.granted t index sub op))
  | .regulator =>
    (!o.ceremony || s.pwr.mode = .ceremony)
      && !(index = 0x2100 && 6 ≤ sub && sub ≤ 8 && s.pwr.ceremonyFrom = some .quarantine)
  | _ => true

/-- Quarantine, or a Ceremony entered from it (Table 16.9). -/
def State.quarantined (s : State) : Bool :=
  s.pwr.mode = .quarantine || (s.pwr.mode = .ceremony && s.pwr.ceremonyFrom = some .quarantine)

/-- Writes that Table 16.9 leaves (DESIGN CHOICE, log entry 43). -/
def State.quarantineWrite (s : State) (v : Viewer) (index sub value : Nat) : Bool :=
  let ceremony := decide (s.pwr.mode = .ceremony)
  (0x9000 ≤ index && index < 0x9800) || (ceremony && (index = 0x8010 || (index = 0xC000 && sub = 6)))
    || (index = 0x1100 && sub = 2 && v = .regulator && (value = 8 || (ceremony && value = 4)))
    || (index = 0x1100 && sub = 3 && (v = .tenant 0 || v = .regulator))

/-- The mode shuts the object out: stopped in Wake only Identity is answered (R37), in Retired also the Evidence Log
(R25, R410); in Quarantine writes are those of Table 16.9. -/
def State.modeShuts (s : State) (v : Viewer) (index sub op value : Nat) : Bool :=
  let identity := decide (0x1000 ≤ index ∧ index < 0x1100)
  let evidence := decide (0x9100 ≤ index ∧ index < 0x9200)
  (s.wakeStopped && !identity)
    || (s.pwr.mode = .retired && !identity && !(evidence && (op ≠ 2 || sub = 3)))
    || (op = 2 && s.quarantined && !s.quarantineWrite v index sub value)

/-- The Maker's right to the Directory (R400): MAKER_DIR, and no write in Fielded. -/
def State.makerMay (s : State) (v : Viewer) (op : Nat) : Bool :=
  v ≠ .maker || (s.hasRight 1 && !(op = 2 && s.lc.state = 3))

/-- An entry is denied. DESCRIBE and NEXT ask only for an access other than "—" (R268). -/
def State.entryDenied (s : State) (v : Viewer) (o : Obj) (index sub op value : Nat) : Bool :=
  let a := o.accessFor v index sub
  a = .none || !s.makerMay v op || s.modeShuts v index sub op value
    || (op = 1 && a = .wo) || (op = 2 && (a = .ro || a = .const))
    || ((op = 1 || op = 2) && !s.conditionMet v o index sub op)

/-! ### Ranges (R263) -/

/-- The sum of an EDGE allocation over its instances, with one of them as written. -/
def State.allocated (s : State) (index sub value : Nat) : Nat :=
  ((List.range 64).map fun t => if t = sub then value else s.numWritten index t 0 0).sum

/-- The values that the owning chapters accept, of objects that a number is written to. -/
def State.numAccepted (s : State) (index sub n : Nat) : Bool :=
  let within := fun (lo hi : Nat) => decide (lo ≤ n ∧ n ≤ hi)
  match index, sub with
  | 0x1100, 9 => within 2100 10000
  | 0x2100, 1 => within 0 0xFFF
  | 0x2100, 2 => keyTypes.contains n
  | 0x2100, 3 => within 1 2
  | 0x2100, 4 => n = 0 || (within 16 128 && n % 2 = 0)
  | 0x2100, 0xE => n % 4096 = 0
  | 0x3001, 1 => within 1 256
  | 0x3001, 2 => within 50000 10000000
  | 0x3002, 1 => n % 4096 = 0
  | 0x3002, 2 => within 0 16
  | 0x4000, 2 => n % 65536 = 0
  | 0x4000, 3 => within 500 60000
  | 0x4000, 6 => n = 0 || within 20 40
  | 0x4000, 0xE => within 10 86400
  | 0x4800, 8 => within 1 16777216
  | 0x4800, 9 => within 100 600000
  | 0x5000, 6 => within 4819 262144
  | 0x6010, 2 => within 9576 796006
  | 0x6010, 3 => within 0 5 || n = 0xFF
  | 0x7010, 2 => within 2624 60160
  | 0x7010, 4 => within 2 100
  | 0x7010, 5 => within 5 1000
  | 0x7800, 3 => within 0 1023
  | 0x7800, 4 => within 64 65536
  | 0x7800, 5 => within 10000 500000
  | 0x7800, 6 => within 1000 1000000
  | 0x8000, 4 => within 1 7
  | 0x8010, 1 => within 0 63
  | 0x9810, 1 => within 0 7
  | 0xA000, 2 => decide (n < 2 ^ 48)
  | 0xA000, 4 => within 1 30
  | 0xA000, 7 => within 0 31
  | 0xA000, 9 => within 5 3600
  | 0xB100, t => decide (s.allocated 0xB100 t n ≤ s.lg.totalUnits)
  | 0xC000, 2 => within 1 500
  | _, _ => if 0x6200 ≤ index ∧ index ≤ 0x6205 then n % 4 = 0 && decide (s.allocated index sub n ≤ 32768) else true

/-- The values accepted of byte strings: a key block or nothing (R260), and the characters of a STRING. -/
def bytesAccepted (o : Obj) (b : Bytes) : Bool :=
  if o.lo = 0x6100 ∨ (o.lo = 0x6000 ∧ o.subLo = 3) then b = [] || b.length = 2688
  else if o.type = .string then b.all fun c => decide (0x20 ≤ c.toNat ∧ c.toNat ≤ 0x7E)
  else true

/-- The value is in range. -/
def State.accepted (s : State) (o : Obj) (index sub : Nat) : Val → Bool
  | .bytes b => bytesAccepted o b
  | .num n => (o.type ≠ .bool || n ≤ 1) && s.numAccepted index sub n

/-- The block of an OFF object is enabled (R263). -/
def State.offEnabled (s : State) (index : Nat) : Bool :=
  (index = 0xA000 && s.spEnabled) || (index = 0x7800 && s.fleetEnable) || (index = 0x8000 && s.ch.enabled)

/-! ### Actions -/

/-- The action of a write to an object whose owner does more than hold the value. -/
def actionOf (w : World) (v : Viewer) (inst index sub n : Nat) (b : Bytes) : Option Act :=
  match index, sub with
  | 0x1100, 2 => some (modeRequest v n)
  | 0x1100, 3 => some (restartRequest w.noise n)
  | 0x2100, 5 => some (keyGenerate v inst n)
  | 0x2100, 8 => some (keyImport v inst n)
  | 0x2100, 9 => some (keyDelete v inst n)
  | 0x4000, 7 => some (tapConsumed n)
  | 0x4000, 0xC => some (recoveryStart n)
  | 0x4010, 5 => some (slotApplyWrite v inst n)
  | 0x4800, 0xA => some (enLatchClear (BitVec.ofNat 32 n) w.failed)
  | 0x5000, 4 => some (liUcodeMin n w.burnt)
  | 0x5000, 7 => some (liUcodeLoad n)
  | 0x5100, e => some (liEngineOwner e n)
  | 0x6010, 4 => some (appletLoad inst n)
  | 0x6010, 8 => some (appletUnload inst n)
  | 0x7000, 4 => some (reelOpen n)
  | 0x7000, 5 => some (reelStop n)
  | 0x7000, 0xB => some (pickupWaive n)
  | 0x7800, 1 => some (fleetEnable n)
  | 0x7820, 4 => some (roleApply n)
  | 0x8000, 4 => some (cardMaxMode n)
  | 0x8010, 2 => some (cardRead n)
  | 0x8010, 3 => some (cardWrite n)
  | 0x8010, 4 => some (cardFormat n)
  | 0x9000, 1 => some (tamperEraseFused n w.burnt)
  | 0x9000, 2 => some (tamperGroupDisable v n w.burnt)
  | 0x9100, 2 => some (evidenceArchiveMark n)
  | 0x9200, 1 => some (reprovision n)
  | 0x9800, 2 => some (lcRequest v n)
  | 0x9810, 2 => some (debugChallengeIssue n)
  | 0x9810, 5 => some (debugResponseSubmit n)
  | 0xA000, 1 => some (spEnable v n)
  | 0xA000, 0xC => some (spRootDigest v b w.burnt)
  | 0xC000, 3 => some (timeCorrection (BitVec.ofNat 64 n).toInt)
  | 0xC000, 6 => some (deviceTimeSet v n)
  | _, _ =>
    if 0x3500 ≤ index ∧ index ≤ 0x35FF then some (gateCloseTime v ((index - 0x3500) * 256 + sub) n)
    else if 0x3600 ≤ index ∧ index ≤ 0x36FF then some (gateOwner ((index - 0x3600) * 256 + sub) n)
    else if 0x4100 ≤ index ∧ index ≤ 0x4107 then some (windowOwner ((index - 0x4100) * 256 + sub) n)
    else if 0x7900 ≤ index ∧ index ≤ 0x7903 then some (memberUnitId ((index - 0x7900) * 256 + sub) n)
    else none

/-- Writes that act at once and are taken before the first seed (Table 2.7): mode and restart requests, the selection of
Evidence Log records, and what Table 16.9 leaves (DEDUCED, log entry 42). -/
def State.beforeSeed (s : State) (index sub : Nat) : Bool :=
  s.quarantined || (index = 0x1100 && (sub = 2 || sub = 3)) || (index = 0x9100 && sub = 3)

/-- An EDGE value is staged, any other set. -/
def State.putVal (o : Obj) (inst index sub : Nat) (x : Val) (s : State) : State :=
  match x with
  | .num n => if o.apply = .edge then s.stageNum index sub inst n else s.setNum index sub inst n
  | .bytes b => if o.apply = .edge then s.stageNum index sub inst (ofBe b) else s.setOctets index sub inst b

/-- A write whose value is in range takes effect by its apply point (R263), or its owner's rule refuses it. -/
def State.applyWrite (w : World) (v : Viewer) (o : Obj) (inst index sub : Nat) (x : Val) (s : State) : State × Status :=
  let n := match x with
    | .num n => n
    | .bytes _ => 0
  let b := match x with
    | .num _ => []
    | .bytes b => b
  if o.apply = .now && !s.en.firstSeed && !s.beforeSeed index sub then (s, stNotReady)
  else match actionOf w v inst index sub n b with
    | some act => act s
    | none => (s.putVal o (o.instFor v inst) index sub x, stOk)

/-! ### Staged parts (R270) -/

/-- The viewer's staging buffer, unless its 10 s are over. -/
def State.stagedBy (s : State) (v : Viewer) : Option Staging :=
  (s.pd.staging.find? fun x => x.viewer = v).bind fun x => if s.clock < x.start + 10000000000 then some x else none

/-- The viewer's staging buffer is discarded. -/
def State.dropStaging (v : Viewer) (s : State) : State :=
  s.onPd fun p => { p with staging := p.staging.filter fun x => x.viewer ≠ v }

/-! ### Entries (Tables 11.6, 11.8 and 11.10) -/

/-- The result of an entry. -/
structure EntryOut where
  index : Nat
  sub : Nat
  op : Nat
  status : Status
  type : Nat := 0
  staged : Bool := false
  value : Bytes := []
  total : Nat := 0
  deriving DecidableEq, Repr

/-- The length of an object's full value (DESIGN CHOICE, log entry 39). -/
def State.fullLength (s : State) (v : Viewer) (o : Obj) (inst index sub : Nat) : Nat :=
  match o.type.size with
  | some n => n
  | none => match s.objVal v o inst index sub with
    | .ok (.bytes b) => b.length
    | _ => 0

/-- The first check of Table 11.10 fails. -/
def DirEntry.malformed (e : DirEntry) : Bool :=
  e.op = 0 || 4 < e.op || e.bad || 1 < e.eflags || (e.eflags = 1 && e.op ≠ 2)
    || (2 < e.op && (e.offset ≠ 0 || e.length ≠ 0))

/-- The first place of an object after one named, in ascending order of index and then subindex. -/
def Obj.after (o : Obj) (index sub : Nat) : Option (Nat × Nat) :=
  if index < o.lo then some (o.lo, o.subLo)
  else if o.hi < index then none
  else if sub < o.subLo then some (index, o.subLo)
  else if sub < o.subHi then some (index, sub + 1)
  else if index < o.hi then some (index + 1, o.subLo)
  else none

/-- The object that NEXT finds (R268) (DEDUCED, log entry 38). -/
def State.nextObj (s : State) (v : Viewer) (index sub : Nat) : Option (Obj × Nat × Nat) :=
  objects.foldl (fun best o =>
    match o.after index sub with
    | none => best
    | some (i, j) =>
      if s.entryDenied v o i j 4 0 then best
      else match best with
        | some (b, k, l) => if k * 256 + l ≤ i * 256 + j then some (b, k, l) else some (o, i, j)
        | none => some (o, i, j)) none

/-- The result of a NEXT. -/
def State.entryNext (s : State) (v : Viewer) (inst : Nat) (e : DirEntry) : EntryOut :=
  match s.nextObj v e.index e.sub with
  | none => { index := e.index, sub := e.sub, op := e.op, status := stNoObject }
  | some (o, i, j) =>
    { index := i, sub := j, op := e.op, status := stOk, type := o.type.code
      total := if s.entryDenied v o i j 1 0 then 0 else s.fullLength v o inst i j }

def Access.code : Access → Nat
  | .none => 0
  | .ro => 1
  | .rw => 2
  | .wo => 3
  | .const => 4

def Persist.code : Persist → Nat
  | .vol => 0
  | .wrm => 1
  | .vlt => 2
  | .fus => 3

def ApplyPoint.code : ApplyPoint → Nat
  | .now => 0
  | .off => 1
  | .edge => 2

/-- The default of a descriptor at its type size; none where the manual gives none. EvidenceHead's is R386's. -/
def Obj.defaultBytes (o : Obj) (v : Viewer) : Bytes :=
  if o.lo = 0x9100 ∧ o.subLo = 5 then evidenceStart
  else match o.type.size, o.dflt with
    | some n, some d => putNum v n d
    | _, _ => []

/-- The most value bytes that an object holds (Table 11.9): of byte strings, the length that its chapter gives, where it
gives one. -/
def Obj.maxLength (o : Obj) : Nat :=
  match o.lo, o.subLo with
  | 0x1000, 1 => 6
  | 0x1000, 2 => 10
  | 0x1000, 4 => 12
  | 0x1000, 8 => 296
  | 0x2100, 6 => 1568
  | 0x2100, 0xB => 2592
  | 0x2100, 0xC | 0x4000, 0x14 | 0x9100, 6 => 96
  | 0x4000, 0x13 => 64
  | 0x6000, 3 | 0x6100, 0 => 2688
  | 0x9800, 3 => 48
  | 0x9810, 3 => 160
  | _, _ => o.type.maxLength

/-- A descriptor (Table 11.9). -/
def Obj.descriptor (o : Obj) (v : Viewer) (index sub : Nat) : Bytes :=
  let gate0 := (index = 0x3500 ∨ index = 0x3600) ∧ sub = 0
  let code := fun (a : Access) => BitVec.ofNat 8 (if gate0 then Access.code .const else a.code)
  [BitVec.ofNat 8 o.type.code, BitVec.ofNat 8 o.pers.code, BitVec.ofNat 8 o.apply.code, code o.op, code o.reg, code o.maker,
    BitVec.ofNat 8 (b2n o.peer + 2 * b2n o.tenant + 4 * b2n o.t0 + 8 * b2n o.ceremony), 0]
    ++ putNum v 2 o.maxLength ++ List.replicate 6 0 ++ padTo 32 (ascii o.name) ++ o.defaultBytes v

/-- A staged value of the object differs from the one in force (R263). -/
def State.stagedDiffers (s : State) (o : Obj) (inst index sub : Nat) : Bool :=
  o.apply = .edge
    && s.numWritten index sub inst ((o.dflt).getD 0) ≠ s.num index sub inst ((o.dflt).getD 0)

/-- The bytes of a value in the viewer's order. -/
def Val.encode (v : Viewer) (n : Nat) : Val → Bytes
  | .num x => putNum v n x
  | .bytes b => b

/-- READ of an object that the viewer may read (DEDUCED, log entry 46). A key-store read that fails sets DMA_RD (R303). -/
def State.entryRead (v : Viewer) (o : Obj) (inst : Nat) (e : DirEntry) (s : State) : State × EntryOut :=
  let out : EntryOut := { index := e.index, sub := e.sub, op := e.op, status := stOk, type := o.type.code
                          staged := s.stagedDiffers o (o.instFor v inst) e.index e.sub
                          total := s.fullLength v o inst e.index e.sub }
  let s := if e.index = 0x2100 && (e.sub = 0xB || e.sub = 0xC) && s.storeReadFails v inst then s.dmaReadFailed 0 else s
  let refused := fun (st : Status) => (s, { out with status := st, staged := false })
  match o.type.size with
  | some n =>
    if e.offset ≠ 0 then refused stTypeMismatch
    else match s.objVal v o inst e.index e.sub with
      | .error st => refused st
      | .ok x => (s.readEffect v e.index e.sub, { out with value := x.encode v n })
  | none =>
    match s.objVal v o inst e.index e.sub with
    | .error st => refused st
    | .ok x =>
      let b := x.encode v 0
      if b.length < e.offset then refused stTypeMismatch
      else (s, { out with value := (b.drop e.offset).take e.length })

/-- The check of R270 of a WRITE to OCTETS or STRING: the bytes staged before it, or none where it is out of sequence. -/
def State.sequence (s : State) (v : Viewer) (inst : Nat) (e : DirEntry) : Option Bytes :=
  match s.stagedBy v with
  | none => if e.offset = 0 then some [] else none
  | some x =>
    if x.index = e.index ∧ x.sub = e.sub ∧ x.inst = inst ∧ e.offset = x.bytes.length then some x.bytes else none

/-- The whole value of a WRITE is there: range, then the owner's rule (Table 11.10). -/
def State.entryValue (w : World) (v : Viewer) (o : Obj) (inst : Nat) (e : DirEntry) (x : Val) (s : State) : State × Status :=
  if s.accepted o e.index e.sub x then s.applyWrite w v o inst e.index e.sub x else (s, stModeRefused)

/-- WRITE of an object of a fixed size. -/
def State.writeFixed (w : World) (v : Viewer) (o : Obj) (inst n : Nat) (e : DirEntry) (s : State) : State × Status :=
  if e.offset ≠ 0 ∨ e.eflags ≠ 0 ∨ e.length ≠ n then (s, stTypeMismatch)
  else if o.apply = .off && s.offEnabled e.index then (s, stWriteIgnoredEnabled)
  else s.entryValue w v o inst e (if o.type.isBytes then .bytes e.value else .num (getNum v e.value))

/-- WRITE of OCTETS or STRING, whole or a part (R270) (DESIGN CHOICE, log entry 40). -/
def State.writeBytes (w : World) (v : Viewer) (o : Obj) (inst : Nat) (e : DirEntry) (s : State) : State × Status :=
  if o.type.maxLength < e.offset + e.length then (s, stTypeMismatch)
  else match s.sequence v inst e with
    | none => (s.dropStaging v, stBadDescriptor)
    | some before =>
      let b := before ++ e.value
      if o.apply = .off && s.offEnabled e.index then (s, stWriteIgnoredEnabled)
      else if e.eflags = 1 then
        let start := ((s.stagedBy v).map Staging.start).getD s.clock
        let x : Staging := { viewer := v, index := e.index, sub := e.sub, inst := inst, bytes := b, start := start }
        ((s.dropStaging v).onPd fun p => { p with staging := p.staging ++ [x] }, stOk)
      else
        let r := s.entryValue w v o inst e (.bytes b)
        (if r.2 = stOk then r.1.dropStaging v else r.1, r.2)

/-- WRITE of an object that the viewer may write. -/
def State.entryWrite (w : World) (v : Viewer) (o : Obj) (inst : Nat) (e : DirEntry) (s : State) : State × EntryOut :=
  let r := match o.type.size with
    | some n => s.writeFixed w v o inst n e
    | none => s.writeBytes w v o inst e
  (r.1, { index := e.index, sub := e.sub, op := e.op, status := r.2, type := o.type.code
          total := r.1.fullLength v o inst e.index e.sub })

/-- The 0xF000 range (R401): the manual names no object of it; without DIAG it is denied. -/
def State.absentStatus (s : State) (v : Viewer) (index : Nat) : Status :=
  if 0xF000 ≤ index && !(v = .maker && s.hasRight 2) then stAccessDenied else stNoObject

/-- One entry, by the checks of Table 11.10 in order. -/
def State.execEntry (w : World) (v : Viewer) (inst : Nat) (e : DirEntry) (s : State) : State × EntryOut :=
  let failed := fun (st : Status) => (s, ({ index := e.index, sub := e.sub, op := e.op, status := st } : EntryOut))
  if e.malformed then failed stBadDescriptor
  else if e.op = 4 then (s, s.entryNext v inst e)
  else match findObj e.index e.sub with
    | none => failed (s.absentStatus v e.index)
    | some o =>
      if s.entryDenied v o e.index e.sub e.op (getNum v e.value) then failed stAccessDenied
      else if e.op = 1 then s.entryRead v o inst e
      else if e.op = 2 then s.entryWrite w v o inst e
      else (s, { index := e.index, sub := e.sub, op := e.op, status := stOk, type := o.type.code
                 value := o.descriptor v e.index e.sub, total := s.fullLength v o inst e.index e.sub })

/-- An entry of the response (Table 11.8). -/
def EntryOut.encode (v : Viewer) (x : EntryOut) : Bytes :=
  putNum v 2 x.index ++ be 1 x.sub ++ be 1 x.op ++ putNum v 2 x.status.toNat ++ be 1 x.type ++ be 1 (b2n x.staged)
    ++ putNum v 4 x.value.length ++ putNum v 4 x.total ++ pad8 x.value

/-! ### Requests (R269, R271, R272) -/

/-- The entries of a request still to run are run in order. A result that does not fit the space ends the request before
its entry (R272); a WRITE that waits for other members leaves the request with that WRITE at its head. -/
def State.runEntries (w : World) : List DirEntry → DirReq → State → State × DirReq × Bool
  | [], r, s => (s, { r with entries := [] }, false)
  | e :: es, r, s =>
    if r.cap < 32 + r.out.length then (s, { r with entries := [], status := stLenTooLong }, false) else
    let x := s.execEntry w r.viewer r.tenant e
    if x.2.op = 2 && x.2.status = stWaits then (x.1, { r with entries := e :: es }, true)
    else
      let b := x.2.encode r.viewer
      if r.cap < 16 + r.out.length + b.length then (s, { r with entries := [], status := stLenTooLong }, false)
      else x.1.runEntries w es { r with count := r.count + 1, out := r.out ++ b }

/-- The response (Table 11.7). -/
def DirReq.response (r : DirReq) : Bytes :=
  [1, 0] ++ putNum r.viewer 2 r.count ++ putNum r.viewer 2 r.status.toNat ++ [0, 0] ++ putNum r.viewer 4 r.tag
    ++ putNum r.viewer 4 (16 + r.out.length) ++ r.out

/-- A mailbox request is over: STATUS, DONE, and the interrupt where IRQ_EN is set (Table 11.13). -/
def State.mailboxDone (t : Nat) (status : Status) (s : State) : State :=
  let m := mapGet {} s.hg.mbx t
  let s := s.onHg fun h => { h with mbx := mapSet {} h.mbx t { m with status := status.toNat } }
  let s := s.latch (.pdMbx t) 0x40000000
  if m.ctrl.getLsbD 0 then s.msix t (bitsOf m.ctrl.toNat 20 16) else s

/-- The response goes to host memory, its header last (R274). -/
def State.toMailbox (t : Nat) (r : DirReq) (s : State) : State :=
  let m := mapGet {} s.hg.mbx t
  let b := r.response
  let w := s.dmaSend t [(m.respAddr + 16, b.drop 16), (m.respAddr, b.take 16)]
  if w.2 then w.1.mailboxDone t r.status else (w.1.latch (.pdMbx t) 0x10000000).mailboxDone t stDmaFault

/-- The response of the session's request, kept for a repetition (R283). -/
def State.toSession (r : DirReq) (s : State) : State :=
  match s.sp.session with
  | none => s
  | some x =>
    let rec' := x.record 0x10 x.seqIn r.response
    let s := s.onSp fun p => { p with session := some { x with kept := rec' } }
    s.sendRecord x.source 0x10 rec'

/-- The response of a row that stands for one entry: its status and its value; for NEXT, which has no value, the index and
subindex that the entry carries (Table 11.8). -/
def DirReq.single (r : DirReq) : Status × Bytes :=
  if r.count = 0 then (r.status, [])
  else (BitVec.ofNat 16 (getNum r.viewer (slice r.out 4 2)),
    if slice r.out 3 1 = [4] then slice r.out 0 3 else slice r.out 16 (getNum r.viewer (slice r.out 8 4)))

/-- The response of a request goes to where it came from. -/
def State.respondReq (r : DirReq) (s : State) : State :=
  match r.sink with
  | .mailbox t => s.toMailbox t r
  | .session => s.toSession r
  | .jtag => s.emit (.jtagBytes r.response)
  | .peer h => s.respond h 0x22 r.response
  | .single => s.emit (.directory r.viewer r.single.1 r.single.2)
  | .dropped => s

/-- The request is over; a session that it has closed ends then (R277). -/
def State.finishReq (r : DirReq) (s : State) : State := (s.respondReq r).spClose

/-- The source of a viewer's requests: 0 to 63 the functions, 64 the Supervisory Port, 65 the Maker path, 66 to 69 the
ports (R271). -/
def originOf (v : Viewer) : Nat :=
  match v with
  | .tenant t => t
  | .regulator => 64
  | .maker => 65
  | .peer p => 66 + p

def DirReq.origin (r : DirReq) : Nat := originOf r.viewer

/-- A request is run, whole unless a WRITE of it waits (R271). -/
def State.runReq (w : World) (r : DirReq) (s : State) : State :=
  let s := s.onPd fun p => { p with turn := r.origin }
  let x := s.runEntries w r.entries r
  if x.2.2 then x.1.onPd fun p => { p with deferred := some x.2.1 } else x.1.finishReq x.2.1

/-- The source of a request has one outstanding already. -/
def State.outstanding (s : State) (origin : Nat) : Bool :=
  s.pd.deferred.any (fun r => r.origin = origin && r.sink ≠ .dropped) || s.pd.waiting.any fun r => r.origin = origin

/-- A request reaches the engine, which runs one at a time, and takes one from a source at a time (R271); a second one of a
source goes unheard (DESIGN CHOICE, log entry 31). -/
def State.submit (w : World) (r : DirReq) (s : State) : State :=
  if s.outstanding r.origin then s
  else if s.pd.deferred.isSome then s.onPd fun p => { p with waiting := p.waiting ++ [r] }
  else s.runReq w r

/-- How far a source is from the one served last, in the round of R271 (DESIGN CHOICE, log entry 31). -/
def State.roundAfter (s : State) (r : DirReq) : Nat := (r.origin + 69 - s.pd.turn) % 70

/-- The request that waits and whose source is next in the round. -/
def State.nextReq (s : State) : Option DirReq :=
  s.pd.waiting.foldl (fun best r => match best with
    | some b => if s.roundAfter r < s.roundAfter b then some r else some b
    | none => some r) none

/-- The requests that wait are served, round robin, until one of them waits in turn. -/
def State.serveWaiting : Nat → State → State
  | 0, s => s
  | n + 1, s =>
    if s.pd.deferred.isSome then s
    else match s.nextReq with
      | none => s
      | some r => ((s.onPd fun p => { p with waiting := p.waiting.filter fun q => q.origin ≠ r.origin }).runReq {} r).serveWaiting n

/-- The WRITE that waits is answered: its request goes on, and after it those that waited for it
(DESIGN CHOICE, log entry 31). -/
def State.completeDeferred (status : Status) (s : State) : State :=
  match s.pd.deferred with
  | none => s
  | some r =>
    let n := s.pd.waiting.length
    let s := s.onPd fun p => { p with deferred := none }
    let s := match r.entries with
      | [] => s.finishReq r
      | e :: es =>
        let size := ((findObj e.index e.sub).bind fun (o : Obj) => o.type.size).getD 0
        let type := ((findObj e.index e.sub).map fun (o : Obj) => o.type.code).getD 0
        let out : EntryOut := { index := e.index, sub := e.sub, op := e.op, status := status, type := type, total := size }
        s.runReq {} { r with entries := es, count := r.count + 1, out := r.out ++ out.encode r.viewer }
    s.serveWaiting n

/-! ### Reading a request (Tables 11.5 and 11.6) -/

/-- The instance a Tenant byte names, or the status of a request that names none or one out of reach (R266, R269). -/
def namedTenant (v : Viewer) (byte : Nat) : Except Status Nat :=
  let own := match v with
    | .tenant t => t
    | _ => 0
  let reaches := match v with
    | .tenant t => t = 0 || t = byte
    | .peer _ => false
    | _ => true
  if byte = 0xFF then .ok own
  else if 64 ≤ byte then .error stBadDescriptor
  else if reaches then .ok byte
  else .error stAccessDenied

/-- `count` entries from the bytes after the header; none where one runs past them. -/
def parseEntries (v : Viewer) : Nat → Bytes → Option (List DirEntry)
  | 0, _ => some []
  | n + 1, b =>
    if b.length < 16 then none
    else
      let op := beAt b 3 1
      let length := getNum v (slice b 12 4)
      let held := if op = 2 then length else 0
      let padded := (held + 7) / 8 * 8
      if b.length < 16 + padded then none
      else
        let e : DirEntry := { index := getNum v (slice b 0 2), sub := beAt b 2 1, op := op, eflags := beAt b 4 1
                              bad := beAt b 5 3 ≠ 0, offset := getNum v (slice b 8 4), length := length
                              value := slice b 16 held }
        (parseEntries v n (b.drop (16 + padded))).map fun es => e :: es

/-- A request as the engine takes it: a header that fails R269 leaves no entry and a request-level status. -/
def parseRequest (v : Viewer) (sink : DirSink) (cap : Nat) (b : Bytes) : DirReq :=
  let tag := getNum v (slice b 8 4)
  let refused := fun (st : Status) =>
    ({ viewer := v, sink := sink, tenant := 0, tag := tag, cap := cap, entries := [], status := st } : DirReq)
  let count := getNum v (slice b 2 2)
  if b.length < 16 || beAt b 0 1 ≠ 1 || beAt b 1 1 ≠ 0 || beAt b 5 3 ≠ 0 || 256 < count
      || getNum v (slice b 12 4) ≠ b.length || 65536 < b.length then refused stBadDescriptor
  else match parseEntries v count (b.drop 16), namedTenant v (beAt b 4 1) with
    | none, _ => refused stBadDescriptor
    | some _, .error st => refused st
    | some es, .ok t => { viewer := v, sink := sink, tenant := t, tag := tag, cap := cap, entries := es }

end Sys2Proof.Machine
end

