-- ==== Sys2Proof/Machine/DirRows.lean ====
section
/-! DEFINITION. The commands that reach the Parameter Directory: single entries, the mailbox (R273, R274), the session's
DATA records (R283), DIR_REQ and DIR_RESP (R345), DBG_DIR (R408), and the answers that end a WRITE which waits (R338,
R343). A row that stands for one entry runs a request of that entry, and puts out its status and value. -/

namespace Sys2Proof.Machine

/-! ### One entry -/

/-- The viewer's way to the engine is open: its function, its session, its port, or the Maker's right MAKER_DIR. -/
def State.viewerActive (s : State) : Viewer → Bool
  | .tenant t => s.powered && s.hg.linkUp && decide (t < 64) && s.fnPresent t
  | .regulator => s.spUp && s.sessionOpen
  | .maker => s.powered && s.hasRight 1
  | .peer p => s.powered && (s.port p).state = .up

/-- A request of one entry (DESIGN CHOICE, log entry 30). -/
def State.single (w : World) (v : Viewer) (tenant : Nat) (e : DirEntry) (s : State) : State :=
  if !s.viewerActive v then s
  else match namedTenant v tenant with
    | .error st => s.emit (.directory v st [])
    | .ok t => State.submit w { viewer := v, sink := .single, tenant := t, cap := 2 ^ 20, entries := [e] } s

/-- A READ, DESCRIBE or NEXT of one object. -/
def State.ask (v : Viewer) (tenant op index sub : Nat) (s : State) : State :=
  s.single {} v tenant { index := index, sub := sub, op := op, length := if op = 1 then 4096 else 0 }

/-- A WRITE of a whole value, as bytes. -/
def State.writeObj (w : World) (v : Viewer) (tenant index sub : Nat) (b : Bytes) (s : State) : State :=
  s.single w v tenant { index := index, sub := sub, op := 2, length := b.length, value := b }

/-- The bytes of a number that a WRITE of an object carries, at the size of its type. -/
def objBytes (v : Viewer) (index sub x : Nat) : Bytes :=
  putNum v (((findObj index sub).bind fun o => o.type.size).getD 4) x

/-- A WRITE of a number. -/
def State.writeNum (v : Viewer) (tenant index sub x : Nat) (s : State) : State :=
  s.writeObj {} v tenant index sub (objBytes v index sub x)

/-- A WRITE of element `n` of an array of objects, 256 to an index; there is no object past the array's `count`. -/
def State.writeCell (v : Viewer) (base count n x : Nat) (s : State) : State :=
  if n < count then s.writeNum v 0xFF (base + n / 256) (n % 256) x else s.writeNum v 0xFF base (256 + n) x

/-- The Tenant byte of a request for the viewer's own instance. -/
def ownTenant : Nat := 0xFF

/-- READ (R268). -/
def execRead (v : Viewer) (tenant : BitVec 8) (index : BitVec 16) (sub : BitVec 8) (offset length : BitVec 32) (s : State) :
    Host.Outcome State Fault Refusal :=
  .next (s.single {} v tenant.toNat
    { index := index.toNat, sub := sub.toNat, op := 1, offset := offset.toNat, length := length.toNat })

/-- WRITE (R268). -/
def execWrite (v : Viewer) (tenant : BitVec 8) (index : BitVec 16) (sub : BitVec 8) (part : Bool) (offset : BitVec 32)
    (value : List (BitVec 8)) (env : HostEnv) (s : State) : Host.Outcome State Fault Refusal :=
  .next ((s.applyEnv env).single {} v tenant.toNat
    { index := index.toNat, sub := sub.toNat, op := 2, eflags := b2n part, offset := offset.toNat
      length := value.length, value := value })

/-- DESCRIBE (R268). -/
def execDescribe (v : Viewer) (tenant : BitVec 8) (index : BitVec 16) (sub : BitVec 8) (s : State) :
    Host.Outcome State Fault Refusal :=
  .next (s.ask v tenant.toNat 3 index.toNat sub.toNat)

/-- NEXT (R268) (DESIGN CHOICE, log entry 17). -/
def execNext (v : Viewer) (tenant : BitVec 8) (index : BitVec 16) (sub : BitVec 8) (s : State) :
    Host.Outcome State Fault Refusal :=
  .next (s.ask v tenant.toNat 4 index.toNat sub.toNat)

/-- STAGING_TIMEOUT (R270): 10 s after the first part. -/
def execStagingTimeout (v : Viewer) (s : State) : Host.Outcome State Fault Refusal :=
  .next (s.onPd fun p => { p with
    staging := p.staging.filter fun x => !(x.viewer = v && decide (x.start + 10000000000 ≤ s.clock)) })

/-! ### Modes and time (02, 03) -/

/-- MODE_REQUEST_STANDBY (R31). -/
def execModeRequestStandby (v : Viewer) (s : State) : Host.Outcome State Fault Refusal :=
  .next (s.writeNum v ownTenant 0x1100 2 0x4)

/-- MODE_REQUEST_SERVICE (R43). -/
def execModeRequestService (v : Viewer) (s : State) : Host.Outcome State Fault Refusal :=
  .next (s.writeNum v ownTenant 0x1100 2 0x5)

/-- MODE_REQUEST_CEREMONY (R24). -/
def execModeRequestCeremony (v : Viewer) (s : State) : Host.Outcome State Fault Refusal :=
  .next (s.writeNum v ownTenant 0x1100 2 0x8)

/-- RESTART_REQUEST (R32). -/
def execRestartRequest (v : Viewer) (value : BitVec 32) (noise : List Nat) (s : State) : Host.Outcome State Fault Refusal :=
  .next (s.writeObj { noise := noise } v ownTenant 0x1100 3 (objBytes v 0x1100 3 value.toNat))

/-- TIME_CORRECTION (R63). -/
def execTimeCorrection (v : Viewer) (c : BitVec 64) (s : State) : Host.Outcome State Fault Refusal :=
  .next (s.writeNum v ownTenant 0xC000 3 c.toNat)

/-- DEVICE_TIME_SET (R65). -/
def execDeviceTimeSet (v : Viewer) (t : BitVec 64) (s : State) : Host.Outcome State Fault Refusal :=
  .next (s.writeNum v ownTenant 0xC000 6 t.toNat)

/-- GATE_CLOSE_TIME_WRITE (R68). -/
def execGateCloseTimeWrite (v : Viewer) (gate : Nat) (time : BitVec 64) (s : State) : Host.Outcome State Fault Refusal :=
  .next (s.writeCell v 0x3500 65536 gate time.toNat)

/-- GATE_OWNER_WRITE (R68). -/
def execGateOwnerWrite (v : Viewer) (gate : Nat) (owner : BitVec 8) (s : State) : Host.Outcome State Fault Refusal :=
  .next (s.writeCell v 0x3600 65536 gate owner.toNat)

/-! ### The ledger (05) -/

/-- WINDOW_OWNER_WRITE (R108). -/
def execWindowOwnerWrite (v : Viewer) (w : Nat) (owner : BitVec 8) (s : State) : Host.Outcome State Fault Refusal :=
  .next (s.writeCell v 0x4100 2048 w owner.toNat)

/-- SLOT_APPLY (R109). -/
def execSlotApply (v : Viewer) (tenant : Nat) (s : State) : Host.Outcome State Fault Refusal :=
  .next (s.writeNum v tenant 0x4010 5 1)

/-- SLOT_REOPEN (R131): the Regulator's SlotApply on a Closed slot. -/
def execSlotReopen (tenant : Nat) (s : State) : Host.Outcome State Fault Refusal :=
  .next (s.writeNum .regulator tenant 0x4010 5 1)

/-- TAP_CONSUMED_WRITE (R123). -/
def execTapConsumedWrite (v : Viewer) (value : BitVec 64) (s : State) : Host.Outcome State Fault Refusal :=
  .next (s.writeNum v ownTenant 0x4000 7 value.toNat)

/-- RECOVERY_START (R128). -/
def execRecoveryStart (v : Viewer) (env : HostEnv) (s : State) : Host.Outcome State Fault Refusal :=
  .next ((s.applyEnv env).writeNum v ownTenant 0x4000 0xC 0xC35A)

/-- REBUILD_START (R130): RecoveryStart, after the Regulator has written the rebuild values. -/
def execRebuildStart (env : HostEnv) (s : State) : Host.Outcome State Fault Refusal :=
  .next ((s.applyEnv env).writeNum .regulator ownTenant 0x4000 0xC 0xC35A)

/-! ### Engines, entropy and applets (06, 08, 10) -/

/-- LI_ENGINE_OWNER_WRITE (R140). -/
def execLiEngineOwnerWrite (v : Viewer) (e : Nat) (owner : BitVec 8) (s : State) : Host.Outcome State Fault Refusal :=
  .next (s.writeNum v ownTenant 0x5100 e owner.toNat)

/-- LI_UCODE_LOAD (R147). -/
def execLiUcodeLoad (v : Viewer) (value : BitVec 32) (env : HostEnv) (s : State) : Host.Outcome State Fault Refusal :=
  .next ((s.applyEnv env).writeNum v ownTenant 0x5000 7 value.toNat)

/-- A WRITE of a number that burns fuses (R263). -/
def State.writeFuse (v : Viewer) (index sub x : Nat) (burnt : Bool) (s : State) : State :=
  s.writeObj { burnt := burnt } v ownTenant index sub (objBytes v index sub x)

/-- LI_UCODE_MIN_VERSION_WRITE (R147). -/
def execLiUcodeMinVersionWrite (v : Viewer) (value : Burn (BitVec 32)) (s : State) :
    Host.Outcome State Fault Refusal :=
  .next (s.writeFuse v 0x5000 4 value.value.toNat value.burnt)

/-- EN_LATCH_CLEAR (R207). -/
def execEnLatchClear (v : Viewer) (value : BitVec 32) (failed : List Nat) (s : State) : Host.Outcome State Fault Refusal :=
  .next (s.writeObj { failed := failed } v ownTenant 0x4800 0xA (objBytes v 0x4800 0xA value.toNat))

/-- APPLET_LOAD (R247). -/
def execAppletLoad (v : Viewer) (value : BitVec 32) (env : HostEnv) (s : State) : Host.Outcome State Fault Refusal :=
  .next ((s.applyEnv env).writeNum v ownTenant 0x6010 4 value.toNat)

/-- APPLET_UNLOAD (R249). -/
def execAppletUnload (v : Viewer) (slot : BitVec 8) (s : State) : Host.Outcome State Fault Refusal :=
  .next (s.writeNum v ownTenant 0x6010 8 slot.toNat)

/-! ### The Supervisory Port (11) -/

/-- SP_ENABLE_WRITE (R277). -/
def execSpEnableWrite (v : Viewer) (value : BitVec 8) (s : State) : Host.Outcome State Fault Refusal :=
  .next (s.writeNum v ownTenant 0xA000 1 value.toNat)

/-- SP_ROOT_DIGEST_WRITE (R277). -/
def execSpRootDigestWrite (v : Viewer) (digest : Burn (List (BitVec 8))) (s : State) :
    Host.Outcome State Fault Refusal :=
  .next (s.writeObj { burnt := digest.burnt } v ownTenant 0xA000 0xC digest.value)

/-! ### Key handles (12) -/

/-- KEY_GENERATE (R441). -/
def execKeyGenerate (v : Viewer) (tenant : BitVec 8) (value : BitVec 32) (s : State) : Host.Outcome State Fault Refusal :=
  .next (s.writeNum v tenant.toNat 0x2100 5 value.toNat)

/-- KEY_IMPORT (R442). -/
def execKeyImport (v : Viewer) (tenant : BitVec 8) (value : BitVec 32) (s : State) : Host.Outcome State Fault Refusal :=
  .next (s.writeNum v tenant.toNat 0x2100 8 value.toNat)

/-- KEY_DELETE (R444). -/
def execKeyDelete (v : Viewer) (tenant : BitVec 8) (value : BitVec 32) (s : State) : Host.Outcome State Fault Refusal :=
  .next (s.writeNum v tenant.toNat 0x2100 9 value.toNat)

/-- KEY_PUBLIC_READ (R445). -/
def execKeyPublicRead (v : Viewer) (tenant : BitVec 8) (s : State) : Host.Outcome State Fault Refusal :=
  .next (s.ask v tenant.toNat 1 0x2100 0xB)

/-- KEY_ATTESTATION_READ (R445). -/
def execKeyAttestationRead (v : Viewer) (tenant : BitVec 8) (s : State) : Host.Outcome State Fault Refusal :=
  .next (s.ask v tenant.toNat 1 0x2100 0xC)

/-- JOURNAL_KEY_ATTESTATION_READ (R447). -/
def execJournalKeyAttestationRead (v : Viewer) (s : State) : Host.Outcome State Fault Refusal :=
  .next (s.ask v ownTenant 1 0x4000 0x14)

/-! ### The Escrow Line (13) -/

/-- REEL_OPEN (R311). -/
def execReelOpen (v : Viewer) (value : BitVec 32) (env : HostEnv) (s : State) : Host.Outcome State Fault Refusal :=
  .next ((s.applyEnv env).writeNum v ownTenant 0x7000 4 value.toNat)

/-- PICKUP_WAIVE (R315). -/
def execPickupWaive (v : Viewer) (value : BitVec 32) (s : State) : Host.Outcome State Fault Refusal :=
  .next (s.writeNum v ownTenant 0x7000 0xB value.toNat)

/-- REEL_STOP (R319). -/
def execReelStop (v : Viewer) (value : BitVec 32) (s : State) : Host.Outcome State Fault Refusal :=
  .next (s.writeNum v ownTenant 0x7000 5 value.toNat)

/-! ### The Fleet (14) -/

/-- MEMBER_UNIT_ID_WRITE (R347). -/
def execMemberUnitIdWrite (v : Viewer) (m : Nat) (unitId : BitVec 64) (s : State) : Host.Outcome State Fault Refusal :=
  .next (s.writeCell v 0x7900 1024 m unitId.toNat)

/-- FLEET_ENABLE_WRITE (R347). -/
def execFleetEnableWrite (v : Viewer) (value : BitVec 8) (s : State) : Host.Outcome State Fault Refusal :=
  .next (s.writeNum v ownTenant 0x7800 1 value.toNat)

/-- ROLE_APPLY (R338). -/
def execRoleApply (v : Viewer) (value : BitVec 8) (s : State) : Host.Outcome State Fault Refusal :=
  .next (s.writeNum v ownTenant 0x7820 4 value.toNat)

/-- DIR_REQ (R345): each port is one source (DESIGN CHOICE, log entry 34). -/
def execDirReq (h : LinkHdr) (request : List (BitVec 8)) (s : State) : Host.Outcome State Fault Refusal :=
  .next (s.receive h 0x12 (be 8 h.reqId ++ request) fun s => s.asRequest h fun s =>
    State.submit {} (parseRequest (.peer h.port) (.peer h) 4088 request) s)

/-- DIR_RESP (R345): the answer to this member's request. -/
def execDirResp (h : LinkHdr) (response : List (BitVec 8)) (s : State) : Host.Outcome State Fault Refusal :=
  .next (s.receive h 0x22 (be 8 h.reqId ++ response) fun s =>
    match s.takeRequest h 0x12 with
    | some (_, s) => s.emit (.directory (.peer h.port) stOk response)
    | none => s)

/-- The WRITE that waits is of this object. -/
def State.waitsOn (s : State) (index sub : Nat) : Bool :=
  match s.pd.deferred with
  | some r => match r.entries with
    | e :: _ => e.index = index && e.sub = sub
    | [] => false
  | none => false

/-- The RoleApply that waits is answered. -/
def State.roleDecided (x : State × Option Status) : State :=
  match x.2 with
  | some st => if x.1.waitsOn 0x7820 4 then x.1.completeDeferred st else x.1
  | none => x.1

/-- ROLE_ANSWER (R338). -/
def execRoleAnswer (h : LinkHdr) (answer : RoleAnswer) (s : State) : Host.Outcome State Fault Refusal :=
  .next (s.receive h 0x21 (be 8 h.reqId ++ be 1 (answerByte answer)) fun s => State.roleDecided (s.roleAnswered h answer))

/-- ROLE_OFFER_TIMEOUT (R338); an offer that the loss of the links has taken away has no answer either. -/
def execRoleOfferTimeout (s : State) : Host.Outcome State Fault Refusal :=
  .next (if s.xl.offer.isNone then State.roleDecided (s, some stMirrorTimeout) else State.roleDecided s.roleOfferLate)

/-- The ModeRequest that waits for the Fleet is answered: what Table 2.2 asks must still hold
(DESIGN CHOICE, log entry 35). -/
def State.claimDecided (x : State × Option Bool) : State :=
  match x.2 with
  | none => x.1
  | some granted =>
    let s := x.1
    let enter := granted && s.mayHoldCeremony && s.waitsOn 0x1100 2
    let s := if enter then s.enterCeremony else if granted then s.dropClaim true else s
    if s.waitsOn 0x1100 2 then s.completeDeferred (if enter then stOk else stModeRefused) else s

/-- CLAIM_ANSWER (R343). -/
def execClaimAnswer (h : LinkHdr) (granted : Bool) (s : State) : Host.Outcome State Fault Refusal :=
  .next (s.receive h 0x23 (be 8 h.reqId ++ be 1 (b2n granted)) fun s => State.claimDecided (s.claimAnswered h granted))

/-- CEREMONY_CLAIM_TIMEOUT (R343); a claim that the loss of the links has taken away has failed. -/
def execCeremonyClaimTimeout (s : State) : Host.Outcome State Fault Refusal :=
  .next (if s.xl.claim.isNone then State.claimDecided (s, some false) else State.claimDecided s.claimLate)

/-! ### Cards, tamper, life cycle (15 to 17) -/

/-- CARD_READ (R358). -/
def execCardRead (v : Viewer) (value : BitVec 32) (s : State) : Host.Outcome State Fault Refusal :=
  .next (s.writeNum v ownTenant 0x8010 2 value.toNat)

/-- CARD_WRITE (R359). -/
def execCardWrite (v : Viewer) (value : BitVec 32) (s : State) : Host.Outcome State Fault Refusal :=
  .next (s.writeNum v ownTenant 0x8010 3 value.toNat)

/-- CARD_FORMAT (R360). -/
def execCardFormat (v : Viewer) (value : BitVec 32) (s : State) : Host.Outcome State Fault Refusal :=
  .next (s.writeNum v ownTenant 0x8010 4 value.toNat)

/-- TAMPER_ERASE_FUSED_WRITE (R367). -/
def execTamperEraseFusedWrite (v : Viewer) (value : Burn (BitVec 32)) (s : State) :
    Host.Outcome State Fault Refusal :=
  .next (s.writeFuse v 0x9000 1 value.value.toNat value.burnt)

/-- TAMPER_GROUP_DISABLE_WRITE (R383). -/
def execTamperGroupDisableWrite (v : Viewer) (value : Burn (BitVec 32)) (s : State) :
    Host.Outcome State Fault Refusal :=
  .next (s.writeFuse v 0x9000 2 value.value.toNat value.burnt)

/-- EVIDENCE_ARCHIVE_MARK_WRITE (R388). -/
def execEvidenceArchiveMarkWrite (v : Viewer) (value : BitVec 32) (s : State) : Host.Outcome State Fault Refusal :=
  .next (s.writeNum v ownTenant 0x9100 2 value.toNat)

/-- EVIDENCE_HEAD_SIGNATURE_READ (R389). -/
def execEvidenceHeadSignatureRead (v : Viewer) (s : State) : Host.Outcome State Fault Refusal :=
  .next (s.ask v ownTenant 1 0x9100 6)

/-- REPROVISION (R391). -/
def execReprovision (v : Viewer) (value : BitVec 32) (s : State) : Host.Outcome State Fault Refusal :=
  .next (s.writeNum v ownTenant 0x9200 1 value.toNat)

/-- LC_REQUEST (R396). -/
def execLcRequest (v : Viewer) (value : BitVec 8) (s : State) : Host.Outcome State Fault Refusal :=
  .next (s.writeNum v ownTenant 0x9800 2 value.toNat)

/-- DEBUG_CHALLENGE_ISSUE (R405). -/
def execDebugChallengeIssue (v : Viewer) (value : BitVec 32) (s : State) : Host.Outcome State Fault Refusal :=
  .next (s.writeNum v ownTenant 0x9810 2 value.toNat)

/-- DEBUG_RESPONSE_SUBMIT (R406). -/
def execDebugResponseSubmit (v : Viewer) (value : BitVec 32) (env : HostEnv) (s : State) : Host.Outcome State Fault Refusal :=
  .next ((s.applyEnv env).writeNum v ownTenant 0x9810 5 value.toNat)

/-! ### The other ways in -/

/-- BUSY of a mailbox: its request is in execution or waits its turn (Table 11.13). -/
def State.mbxBusy (s : State) (t : Nat) : Bool :=
  let mine := fun (r : DirReq) => decide (r.sink = .mailbox t)
  (match s.pd.deferred with
    | some r => mine r
    | none => false) || s.pd.waiting.any mine

/-- GO (R274) (DEDUCED, log entry 32). -/
def State.mbxGo (t : Nat) (s : State) : State :=
  let m := mapGet {} s.hg.mbx t
  let len := bitsOf m.size.toNat 15 0
  let cap := bitsOf m.size.toNat 31 16
  if s.mbxBusy t then s.latch (.pdMbx t) 0x20000000
  else if len < 2 || 8192 < len || cap < 2 || 8192 < cap then s.mailboxDone t stBadDescriptor
  else if !s.dmaOk t m.reqAddr (8 * len) then
    ((s.dmaReadFailed t).latch (.pdMbx t) 0x10000000).mailboxDone t stDmaFault
  else State.submit {} (parseRequest (.tenant t) (.mailbox t) (8 * cap) (s.dmaBytes m.reqAddr (8 * len))) s

/-- MBX_GO (R274), with the request where PD_MBX_REQ_ADDR points. -/
def execMbxGo (loc : Loc) (env : HostEnv) (s : State) : Host.Outcome State Fault Refusal :=
  let s := s.applyEnv env
  .next (s.hostWrite loc fun
    | .mbx t 0x14 => some (s.mbxGo t)
    | _ => none)

/-- YILILE_DATA (R278, R283): each request executes at most once (DESIGN CHOICE, log entry 33). -/
def execYilileData (src : NetSrc) (sid seq : Nat) (tagOk : Bool) (plain : List (BitVec 8)) (s : State) :
    Host.Outcome State Fault Refusal :=
  .next (if !s.spUp then s
  else match s.sp.session with
    | none => s.discardRecord
    | some x =>
      if s.foreign src || !x.owns src sid || !tagOk then s.discardRecord
      else if seq = x.seqIn + 1 && !s.outstanding 64 then
        let x := { x with seqIn := seq, last := s.clock, kept := [] }
        State.submit {} (parseRequest .regulator .session 1424 plain) (s.onSp fun p => { p with session := some x })
      else if seq = x.seqIn && x.kept ≠ [] then
        (s.onSp fun p => { p with session := some { x with last := s.clock } }).sendRecord x.source 0x10 x.kept
      else s.discardRecord)

/-- DBG_DIR (R408): right MAKER_DIR; the Maker path is one source. -/
def execDbgDir (request : List (BitVec 8)) (s : State) : Host.Outcome State Fault Refusal :=
  .next (if !s.powered then s
  else if !s.hasRight 1 then s.tapDenied
  else State.submit {} (parseRequest .maker .jtag 4096 (request.take 4096)) (s.tapLoad 0x21))

end Sys2Proof.Machine
end

