-- ==== Sys2Proof/Machine/Registers.lean ====
section
/-! DEFINITION. Every register by its offset (R290 to R301 and each block's register rule): what a read returns and clears,
what a write does, the lock and the parity of configuration registers, MSI-X masking, configuration space, and DBG_REG. -/

namespace Sys2Proof.Machine

/-! ### Reads -/

/-- The half of a 64-bit register that a word holds. -/
def half (upper : Bool) (x : Nat) : Nat := if upper then x / 2 ^ 32 else x % 2 ^ 32

/-- The half of a 64-bit register at an offset. -/
def halfAt (off x : Nat) : Nat := half (off % 8 = 4) x

/-- Table 14.4. -/
def PortState.code : PortState → Nat
  | .down => 0
  | .training => 1
  | .keying => 2
  | .up => 3

/-- Table 10.9. -/
def SlotState.code : SlotState → Nat
  | .free => 0
  | .loading => 1
  | .running => 2
  | .halted => 3
  | .faulted => 4
  | .unloading => 5

/-- The latch that a register's RC fields show (R301). -/
def rcOf : Reg → Option RcReg
  | .fnStat t => some (.fnStat t)
  | .wrIgn => some .wrIgn
  | .parErr => some .parErr
  | .queue t q 0x14 => some (.qStat t q)
  | .mbx t 0x18 => some (.pdMbx t)
  | .lgStat => some .lgStat
  | .chanStat n => some (.chanStat n)
  | .frame e 0x48 => some (.liStat e)
  | .unitStat u => some (.unitStat u)
  | .laneStat d => some (.laneStat d)
  | .srcStat i => some (.srcStat i)
  | .rngStat t => some (.rngStat t)
  | .bankStat => some .bankStat
  | .slotFrame a 0x14 => some (.mbStat a)
  | .spLink => some .spLink
  | .elReel => some .elReel
  | .elLane => some (.elLane 0)
  | .portStat p => some (.xlPort p)
  | .chStat => some .chStat
  | .tgAlarm => some .tgAlarm
  | .tgWarn => some .tgWarn
  | .lcStat => some .lcStat
  | .tbRef => some .tbRef
  | _ => none

/-- Words of a queue pair (Tables 3.1 to 3.4); doorbells read as zero. -/
def State.queueVal (s : State) (t q off : Nat) : Nat :=
  let p := s.qpair t q
  match off with
  | 0x00 | 0x04 => halfAt off p.sqBase
  | 0x08 | 0x0C => halfAt off p.cqBase
  | 0x10 => p.cfg.toNat + b2n (decide (p.outstanding ≠ 0)) * 2 ^ 30
  | 0x20 => p.sqHead
  | _ => 0

/-- Words of an engine frame (Tables 6.3 to 6.6), as tenant `t` reads them: the command block of an engine it does not own
is zero (R148), and tenant 0 sees STALE_OWNER after its engine has changed hands (R162). -/
def State.frameVal (s : State) (e t off : Nat) : Nat :=
  let g := s.engine e
  if off < 0x40 then if s.commands e t then halfAt off (mapGet 0 g.cmd (off / 8)) else 0
  else match off with
    | 0x48 =>
      b2n (g.running.isSome || s.sealWork e) * 2 ^ 31 + g.detail * 2 ^ 16 + (if g.stale && t = 0 then stStaleOwner.toNat else g.status)
    | 0x50 => g.epoch * 2 ^ 16 + g.owner * 256 + e
    | 0x58 => g.nominal
    | _ => 0

/-- Words of a slot frame (Tables 10.6 to 10.9). -/
def State.slotVal (s : State) (a off : Nat) : Nat :=
  let x := s.applet a
  match off with
  | 0x00 | 0x04 => halfAt off x.inBase
  | 0x08 | 0x0C => halfAt off x.outBase
  | 0x10 => x.cfg.toNat
  | 0x20 =>
    let draw := match s.sz.draw with
      | some d => if d.slot = a then 2 + b2n d.uncommitted else 0
      | none => 0
    (if x.state = .halted then x.exit % 256 else 0) * 2 ^ 24 + x.faultCause * 2 ^ 16 + x.faultCore * 2 ^ 11
      + b2n x.faultDs * 2 ^ 10 + draw * 2 ^ 8 + x.state.code
  | 0x24 => x.fpc.toNat
  | 0x28 => x.faddr.toNat
  | 0x2C => x.hostInHead
  | _ => 0

/-- Words of a mailbox (Table 11.13). -/
def State.mbxVal (s : State) (t off : Nat) : Nat :=
  let m := mapGet {} s.hg.mbx t
  match off with
  | 0x00 | 0x04 => halfAt off m.reqAddr
  | 0x08 | 0x0C => halfAt off m.respAddr
  | 0x10 => m.size.toNat
  | 0x14 => m.ctrl.toNat
  | 0x18 => b2n (s.mbxBusy t) * 2 ^ 31 + m.status
  | _ => 0

/-- LH_LU_STAT (Table 7.5). -/
def State.unitVal (s : State) (u : Nat) : Nat :=
  let l := s.latticeUnit u
  b2n l.running.isSome * 2 ^ 31 + b2n l.retired * 2 ^ 30 + l.lastRounds % 32 * 2 ^ 16 + l.lastParam * 256

/-- BUSY_LANES of LH_LANE_STAT (Table 7.6): a take hashes on one of the 32 lanes of its die
(DESIGN CHOICE, log entry 23). -/
def State.laneVal (s : State) (d : Nat) : Nat :=
  min 32 (s.td.inflight.countP fun t => t.die = d && t.phase = .hashing) * 256

/-- EN_SRC_STAT (Table 8.8). -/
def State.srcVal (s : State) (i : Nat) : Nat :=
  let x := s.source i
  b2n (decide (x.state = .running)) * 2 ^ 31 + b2n (decide (x.state = .isolated)) * 2 ^ 30
    + x.health.countPeak % 2048 * 2 ^ 19 + min x.health.runPeak 255 * 2 ^ 11

/-- EN_BANK_STAT (Table 8.9). -/
def State.bankVal (s : State) : Nat :=
  s.recentFailures % 256 * 2 ^ 16 + s.en.reserve.length * 256 + s.bankState * 4 + b2n s.en.vaultBlock.isSome * 2

/-- MG_CHAN_STAT (Table 5.16). -/
def State.chanVal (s : State) (n : Nat) : Nat :=
  let c : ChanStat := mapGet {} s.lg.chans n
  c.capGib * 2 ^ 16 + c.rate * 2 ^ 10 + b2n c.x4 * 2 ^ 9 + b2n c.ranks2 * 2 ^ 8 + b2n c.trainFail * 2 + b2n c.trained

/-- SP_LINK_STAT and SP_MDIO (Tables 11.15, 11.16). -/
def State.spLinkVal (s : State) : Nat := b2n s.sp.link * 2 ^ 7 + s.sp.speed * 2 ^ 5
def State.spMdioVal (s : State) : Nat :=
  b2n s.sp.mdioBusy * 2 ^ 31 + s.sp.mdioOp * 2 ^ 28 + s.sp.mdioPhy * 2 ^ 21 + s.sp.mdioReg * 2 ^ 16 + s.sp.mdioData

/-- XL_PORT_STAT (Table 14.10). -/
def State.portVal (s : State) (p : Nat) : Nat :=
  let x := s.port p
  x.state.code * 2 ^ 29 + (if x.state = .up then x.partner * 2 ^ 16 else 0)

/-- CH_CARD_STAT (Table 15.7). -/
def State.cardVal (s : State) : Nat :=
  b2n s.ch.present * 2 ^ 31 + b2n s.cardLabelOk * 2 ^ 30 + b2n s.cardProtected * 2 ^ 29 + b2n s.ch.v18 * 2 ^ 28
    + b2n s.ch.op.isSome * 2 ^ 27 + s.cardMode * 2 ^ 24 + s.ch.tap * 256

/-- TG_STATE (Table 16.11), before Wake step 6 all zero (DESIGN CHOICE, log entry 25). -/
def State.tgVal (s : State) : Nat :=
  if !s.tg.loaded then 0
  else b2n s.tg.erased * 2 ^ 31 + b2n s.tg.window.isSome * 2 ^ 30
    + b2n (decide (16320 ≤ s.unarchived) && s.stands .evidenceFull) * 2 ^ 29 + b2n (decide (15360 ≤ s.unarchived)) * 2 ^ 28
    + s.tg.queue.length * 2 ^ 16 + s.tg.groupsBurnt % 256

/-- What a word shows, but its RC fields; write-only registers read as zero. -/
def State.regField (s : State) (v : Viewer) (t : Nat) (r : Reg) (upper : Bool) : Nat :=
  match r with
  | .fnInfo n => 0x200000 + n
  | .modeStat => s.modeStat
  | .rngStat n => s.rngStat n v - s.latched (.rngStat n) v
  | .mbx n off => s.mbxVal n off
  | .queue n q off => s.queueVal n q off
  | .frame e off => s.frameVal e t off
  | .slotFrame a off => s.slotVal a off
  | .blockLock => s.hg.blockLock
  | .shadowPend => b2n s.tb.cfgPend * 2 + b2n s.el.cfgPend
  | .parAddr => s.hg.parAddr
  | .rootCtr n => half upper (mapGet 0 s.lg.rootCtr n)
  | .chanStat n => s.chanVal n
  | .unitStat u => s.unitVal u
  | .laneStat d => s.laneVal d
  | .srcStat i => s.srcVal i
  | .bankStat => s.bankVal
  | .spLink => s.spLinkVal
  | .spMdio => s.spMdioVal
  | .elReel => s.el.result * 2 ^ 24 + s.el.state.code * 2 ^ 16
  | .elLane => s.el.rxLock
  | .elBacklog => s.reelFill / 1024
  | .elCfg => s.el.cfgShadow.toNat
  | .portCfg p => (s.port p).cfg.toNat
  | .portStat p => s.portVal p
  | .route p m => mapGet 0 s.xl.routes (p * 1024 + m)
  | .chStat => s.cardVal
  | .chCfg => s.ch.cfg.toNat
  | .tgState => s.tgVal
  | .tgNext => if s.tg.loaded then s.tg.nextSeq else 0
  | .tgUnarch => if s.tg.loaded then s.unarchived else 0
  | .lcStat => s.lcStat v - s.latched .lcStat v % 16
  | .lcCertAddr => half upper s.lc.certAddr
  | .tbRef => s.tb.refPresent
  | .tbCfg => s.tb.cfgShadow.toNat
  | .fnStat _ | .rngData _ | .wrIgn | .parErr | .lgStat | .tgAlarm | .tgWarn | .lcXfer | .lcCertCtrl => 0

/-- A word as a viewer reads it: its fields, and the viewer's latch. -/
def State.regWord (s : State) (v : Viewer) (t : Nat) (r : Reg) (upper : Bool) : Nat :=
  s.regField v t r upper + ((rcOf r).map fun c => s.latched c v).getD 0

/-- What reading a word does: the viewer's latch falls (R301). -/
def State.regRead (v : Viewer) (r : Reg) (s : State) : State :=
  match rcOf r with
  | some c => s.clearLatch c v
  | none => s

/-- Configuration registers of a function that the model holds. -/
def State.configVal (s : State) (t : Nat) : ConfigReg → Nat
  | .command => b2n (if t = 0 then (s.fn t).memSpace else false) * 2 + b2n (s.fn t).busMaster * 4
  | .msixControl => b2n (s.fn t).msixEnable * 2 ^ 15 + b2n (s.fn t).msixMaskAll * 2 ^ 14 + 31
  | .numVfs => if t = 0 then s.hg.numVfs else 0
  | .vfControl => if t = 0 then b2n s.hg.vfEnable + b2n s.hg.vfMemSpace * 8 else 0
  | .powerState => if (s.fn t).d3hot then 3 else 0
  | .deviceControl => (s.fn t).deviceControl.toNat
  | .deviceControl2 => (s.fn t).deviceControl2.toNat
  | .aerStatus => (s.fn t).aerStatus
  | .aerMask => (s.fn t).aerMask
  | .aerSeverity => (s.fn t).aerSeverity
  | .sriovVfs => if t = 0 then 63 * 65536 + 63 else 0
  | .sriovOffsets => if t = 0 then 65536 + 1 else 0
  | .ideControl k => if t = 0 then (s.ideStream k).control.toNat else 0
  | .ideStatus k => if t = 0 && (s.ideStream k).secure then 2 else 0
  | .doeControl | .doeWrite => 0
  | .doeStatus => if t = 0 then b2n (decide (s.hg.doeResponse ≠ [])) * 2 ^ 31 else 0
  | .doeRead => if t = 0 then (s.hg.doeResponse.headD 0).toNat else 0

/-! ### The MSI-X table and PBA (R288, R295, Table 12.2) -/

/-- A word of BAR4: 16 bytes a vector, the pending bits at 0x1000; the rest reads as zero (PRESUMED, log entry 28). -/
def State.msixWord (s : State) (t off : Nat) : Nat :=
  let f := s.fn t
  let e := mapGet (0, 0) f.vectors (off / 16)
  if off < 0x200 then
    match off % 16 with
    | 0 => e.1 % 2 ^ 32
    | 4 => e.1 / 2 ^ 32
    | 8 => e.2
    | _ => b2n (!f.unmasked.contains (off / 16))
  else if off = 0x1000 then ofBits ((List.range 32).map f.pba.contains)
  else 0

/-- The mode shuts BAR4 as it shuts the registers (R25, R37). -/
def State.bar4Open (s : State) : Bool := s.pwr.mode ≠ .retired && !s.wakeStopped

/-- A read of BAR4. -/
def State.bar4Read (t off size : Nat) (s : State) : State :=
  let v := Viewer.tenant t
  let loc := Loc.bar4 t off
  if size = 0 then s.emit (.readData v loc 0)
  else if (size ≠ 4 && size ≠ 8) || off % size ≠ 0 then (s.badSize loc).emit (.completerAbort v loc)
  else if !s.bar4Open then s.emit (.completerAbort v loc)
  else s.emit (.readData v loc (s.msixWord t off + if size = 8 then s.msixWord t (off + 4) * 2 ^ 32 else 0))

/-- Configuration space answers in every mode with main power, and in D3hot (R25, R37, R410). -/
def State.configOpen (s : State) (v : Viewer) (t : Nat) : Bool :=
  v = .tenant t && s.powered && s.hg.linkUp && s.fnPresent t

/-- The Maker's register accesses need DEBUG_TAP (R408). -/
def State.mayAccess (s : State) (v : Viewer) (loc : Loc) : Bool :=
  s.reaches v loc && (v ≠ .maker || s.hasRight 0)

/-- A read of 4 or 8 aligned bytes: the words, or none on a bus error (R292, R293). -/
def State.wordsAt (s : State) (loc : Loc) (size : Nat) : Option (List (Reg × Bool)) :=
  match s.openWord loc 0 with
  | none => none
  | some a => if size = 4 then some [a] else (s.openWord loc 4).map fun b => [a, b]

/-- A register read (R292 to R294, R301, R200). -/
def State.readReg (v : Viewer) (loc : Loc) (size : Nat) (s : State) : State :=
  match loc with
  | .config t r =>
    if s.configOpen v t then s.emit (.readData v loc (if size = 0 then 0 else s.configVal t r)) else s
  | .bar4 t o =>
    if s.unsupported v loc then (s.unreached v loc).emit (.unsupportedRequest v loc)
    else if s.reaches v loc then s.bar4Read t o size
    else s
  | _ =>
    if s.unsupported v loc then (s.unreached v loc).emit (.unsupportedRequest v loc)
    else if !s.mayAccess v loc then s
    else if size = 0 then s.emit (.readData v loc 0)
    else if (size ≠ 4 && size ≠ 8) || loc.offset % size ≠ 0 then (s.badSize loc).emit (.completerAbort v loc)
    else match s.wordsAt loc size with
      | none => (s.busError loc).emit (.completerAbort v loc)
      | some ((.rngData t, _) :: _) => s.rngRead v loc t size
      | some ws =>
        let x := ofBe ((ws.map fun w => be 4 (s.regWord v loc.fn w.1 w.2)).reverse.flatten)
        (ws.foldl (fun s w => s.regRead v w.1) s).emit (.readData v loc x)

/-! ### MSI-X (R295) and configuration space (R289) -/

/-- Pending vectors that are not masked any more send one message each (DESIGN CHOICE, log entry 27). -/
def State.firePending (t : Nat) (s : State) : State :=
  let f := s.fn t
  if !f.msixEnable || f.msixMaskAll then s
  else
    let due := f.pba.filter f.unmasked.contains
    due.foldl (fun s k => s.message t k) (s.onFn t fun f => { f with pba := f.pba.filter fun k => !f.unmasked.contains k })

/-- A vector's mask bit is cleared. -/
def State.unmask (t k : Nat) (s : State) : State :=
  if 32 ≤ k then s
  else (s.onFn t fun f => { f with unmasked := if f.unmasked.contains k then f.unmasked else f.unmasked ++ [k] }).firePending t

/-- A word of the MSI-X table is written; the PBA is read-only. -/
def State.msixWrite (t off x : Nat) (s : State) : State :=
  let k := off / 16
  let put := fun (f : Nat × Nat → Nat × Nat) => s.onFn t fun p => { p with
    vectors := mapSet (0, 0) p.vectors k (f (mapGet (0, 0) p.vectors k)) }
  if 0x200 ≤ off then s
  else match off % 16 with
    | 0 => put fun e => (e.1 / 2 ^ 32 * 2 ^ 32 + x / 4 * 4, e.2)
    | 4 => put fun e => (x * 2 ^ 32 + e.1 % 2 ^ 32, e.2)
    | 8 => put fun e => (e.1, x)
    | _ => if bitOf x 0 then s.onFn t fun f => { f with unmasked := f.unmasked.filter (· ≠ k) } else s.unmask t k

/-- A write of BAR4. -/
def State.bar4Write (t off size x : Nat) (s : State) : State :=
  if size = 0 then s
  else if (size ≠ 4 && size ≠ 8) || off % size ≠ 0 then s.badSize (.bar4 t off)
  else if !s.bar4Open then s.aerLog t aerCompleterAbort
  else
    let s := s.msixWrite t off (x % 2 ^ 32)
    if size = 8 then s.msixWrite t (off + 4) (x / 2 ^ 32) else s

/-- Device Control (Table 12.1): payload and request sizes that are not supported keep the value; a VF has PF0's sizes. Bit 15
starts a function-level reset (PRESUMED, log entry 28). -/
def State.deviceControlWrite (t x : Nat) (s : State) : State :=
  let old := (s.fn t).deviceControl.toNat
  let field := fun (hi lo top : Nat) =>
    (if t = 0 && bitsOf x hi lo ≤ top then bitsOf x hi lo else bitsOf old hi lo) * 2 ^ lo
  let s := s.onFn t fun f => { f with
    deviceControl := BitVec.ofNat 32 ((x &&& 0x0F1F) + field 7 5 2 + field 14 12 5) }
  if bitOf x 15 then s.flrIf t else s

/-- Completion Timeout Value: ranges A and B, and the default (Table 12.1). -/
def timeoutCodes : List Nat := [0, 1, 2, 5, 6]

/-- DOE (Table 12.1). Abort empties the mailboxes; Go hands the object over: what the response says, and which enabled streams
IDE_KM has keyed, are free values (DESIGN CHOICE, log entry 28). -/
def State.doeGo (x : Nat) (s : State) : State :=
  if bitOf x 0 then s.onHg fun h => { h with doeRequest := [], doeResponse := [] }
  else if !bitOf x 31 || s.hg.doeRequest = [] then s
  else
    let n := 2 + (Config.freeValue 8 s.freeCtr).toNat
    let k := s.freeCtr + 1
    let s := (s.takeFree (n + 5)).onHg fun h => { h with
      doeRequest := []
      doeResponse := (List.range n).map fun i => Config.freeValue 32 (k + i) }
    let keyed := fun (i : Nat) (e : IdeStream) =>
      ({ e with secure := e.control.getLsbD 0 && decide (Config.freeValue 1 (k + n + i) = 1) } : IdeStream)
    (List.range 4).foldl (fun s i => s.onHg fun h =>
      { h with ide := mapSet {} h.ide i (keyed i (mapGet {} h.ide i)) }) s

/-- A write of configuration space (DESIGN CHOICE, log entry 28). -/
def State.configWrite (t : Nat) (r : ConfigReg) (x : Nat) (s : State) : State :=
  match r with
  | .command => s.onFn t fun f => { f with memSpace := bitOf x 1, busMaster := bitOf x 2 }
  | .msixControl => (s.onFn t fun f => { f with msixEnable := bitOf x 15, msixMaskAll := bitOf x 14 }).firePending t
  | .numVfs => if t = 0 && !s.hg.vfEnable && x ≤ 63 then s.onHg fun h => { h with numVfs := x } else s
  | .vfControl =>
    if t ≠ 0 then s
    else
      let s := s.onHg fun h => { h with vfMemSpace := bitOf x 3 }
      if bitOf x 0 then s.onHg fun h => { h with vfEnable := true }
      else if s.hg.vfEnable then s.vfOff
      else s
  | .powerState =>
    if x % 4 = 3 then s.onFn t fun f => { f with d3hot := true } else if x % 4 = 0 then s.toD0 t else s
  | .deviceControl => s.deviceControlWrite t x
  | .deviceControl2 =>
    if timeoutCodes.contains (x % 16) then s.onFn t fun f => { f with deviceControl2 := BitVec.ofNat 32 (x % 16) } else s
  | .aerStatus => s.onFn t fun f => { f with aerStatus := f.aerStatus - (f.aerStatus &&& x) }
  | .aerMask => s.onFn t fun f => { f with aerMask := x % 2 ^ 32 }
  | .aerSeverity => s.onFn t fun f => { f with aerSeverity := x % 2 ^ 32 }
  | .ideControl k =>
    if t ≠ 0 || 4 ≤ k then s
    else
      let e : IdeStream :=
        { control := BitVec.ofNat 32 (x &&& 0xFF000001), secure := (s.ideStream k).secure && bitOf x 0 }
      s.onHg fun h => { h with ide := mapSet {} h.ide k e }
  | .doeControl => if t = 0 then s.doeGo x else s
  | .doeWrite => if t = 0 then s.onHg fun h => { h with doeRequest := h.doeRequest ++ [BitVec.ofNat 32 x] } else s
  | .doeRead => if t = 0 then s.onHg fun h => { h with doeResponse := h.doeResponse.drop 1 } else s
  | .sriovVfs | .sriovOffsets | .ideStatus _ | .doeStatus => s

/-- MSIX_UNMASK (R295). -/
def execMsixUnmask (fn vector : Nat) (s : State) : Host.Outcome State Fault Refusal :=
  .next (if s.fnReached fn then s.unmask fn vector else s)

/-! ### Writes -/

/-- A register of a mailbox (R273): GO acts, and while BUSY the others are ignored. -/
def State.mbxWrite (t off x : Nat) (s : State) : State :=
  let busy := s.mbxBusy t
  let put := fun (f : Mbx → Mbx) =>
    if busy then s.latch (.pdMbx t) 0x08000000
    else s.onHg fun h => { h with mbx := mapSet {} h.mbx t (f (mapGet {} h.mbx t)) }
  let halves := fun (old : Nat) =>
    if off % 8 = 0 then old / 2 ^ 32 * 2 ^ 32 + x / 8 * 8 else x * 2 ^ 32 + old % 2 ^ 32
  match off with
  | 0x00 | 0x04 => put fun m => { m with reqAddr := halves m.reqAddr }
  | 0x08 | 0x0C => put fun m => { m with respAddr := halves m.respAddr }
  | 0x10 => put fun m => { m with size := BitVec.ofNat 32 x }
  | 0x14 =>
    let s := s.onHg fun h => { h with
      mbx := mapSet {} h.mbx t { mapGet {} h.mbx t with ctrl := BitVec.ofNat 32 (x &&& 0x001F0001) } }
    if bitOf x 31 then s.mbxGo t else s
  | _ => s

/-- A register of a queue pair. -/
def State.queueWrite (t q off x : Nat) (s : State) : State :=
  match off with
  | 0x00 | 0x04 | 0x08 | 0x0C => s.qBase t q off (BitVec.ofNat 32 x)
  | 0x10 => s.qCfg t q (BitVec.ofNat 32 x)
  | 0x18 => s.sqTail t q (x % 65536)
  | 0x1C => s.cqHead t q (x % 65536)
  | _ => s

/-- A register of a slot frame. -/
def State.slotWrite (a off x : Nat) (s : State) : State :=
  match off with
  | 0x00 | 0x04 | 0x08 | 0x0C => s.mbBase a off (BitVec.ofNat 32 x)
  | 0x10 => s.mbCfg a (BitVec.ofNat 32 x)
  | 0x18 => s.mbInTail a (x % 65536)
  | 0x1C => s.mbOutHead a (x % 65536)
  | _ => s

/-- SP_MDIO (R276): OP 1 and 2 start an operation; while BUSY the write is ignored. -/
def State.mdioWrite (x : Nat) (s : State) : State :=
  if s.sp.mdioBusy then s
  else
    let op := bitsOf x 29 28
    let s := s.onSp fun p => { p with
      mdioOp := op
      mdioPhy := bitsOf x 25 21
      mdioReg := bitsOf x 20 16
      mdioData := x % 65536 }
    if bitOf x 30 && (op = 1 || op = 2) then
      s.mdioStart (op = 1) (BitVec.ofNat 5 (bitsOf x 25 21)) (BitVec.ofNat 5 (bitsOf x 20 16)) (BitVec.ofNat 16 x)
    else s

/-- HG_BLOCK_LOCK (R298): a 1 locks. -/
def State.lockBlocks (x : Nat) (s : State) : State :=
  (s.onHg fun h => { h with blockLock := h.blockLock ||| x % 65536 }).unitWritten 0x2100 0x808

/-- The units of R300 for a port with its routes, and for LC_CERT_ADDR. -/
def portUnit (p : Nat) : Nat := 0x3000 + p
def certUnit : Nat := 0x2101

/-- XL_PORT_CFG (R296, R298, Table 14.9). -/
def State.portCfgWrite (p x : Nat) (s : State) : State :=
  let old := (s.port p).cfg.toNat
  let differs := decide (x % 256 ≠ old % 256)
  if (s.port p).enabled then
    let s := if differs || bitOf s.hg.blockLock 11 then s.ignoredWrite 11 else s
    if bitOf x 31 then s
    else (s.onPort p fun q => { q with cfg := BitVec.ofNat 32 (old % 256) }).portDown p
  else
    let s := s.unitWritten (portUnit p) (0x40 * p)
    let locked := bitOf s.hg.blockLock 11
    let s := if locked then s.ignoredWrite 11 else s
    let fields := if locked then old % 256 else x % 256
    let faulted := s.unitFaulted (portUnit p)
    let s := if bitOf x 31 && faulted then s.ignoredWrite 11 else s
    (s.onPort p fun q => { q with cfg := BitVec.ofNat 32 (b2n (bitOf x 31 && !faulted) * 2 ^ 31 + fields) }).startPort p

/-- XL_ROUTE (Table 14.5): the port's ENABLE governs it. -/
def State.routeWrite (p m x : Nat) (s : State) : State :=
  if (s.port p).enabled then s.ignoredWrite 11
  else (s.unitWritten (portUnit p) (0x1000 + 0x1000 * p + 4 * m)).onXl fun l =>
    { l with routes := mapSet 0 l.routes (p * 1024 + m) (x &&& 0xC0000007) }

/-- EL_CFG (R297, R298): a write sets the shadow. -/
def State.elCfgWrite (x : Nat) (s : State) : State :=
  if bitOf s.hg.blockLock 10 then s.ignoredWrite 10
  else (s.unitWritten elUnit 0x20).onEl fun e => { e with cfgShadow := BitVec.ofNat 32 (x % 256), cfgPend := true }

/-- TB_CFG (R297, R426). -/
def State.tbCfgWrite (x : Nat) (s : State) : State :=
  (s.unitWritten tbUnit 8).onTb fun t => { t with cfgShadow := BitVec.ofNat 32 (x &&& 0x801F0000), cfgPend := true }

/-- LC_CERT_ADDR (Table 17.12). -/
def State.certAddrWrite (upper : Bool) (x : Nat) (s : State) : State :=
  (s.unitWritten certUnit 0x10).onLc fun l => { l with
    certAddr := if upper then x * 2 ^ 32 + l.certAddr % 2 ^ 32 else l.certAddr / 2 ^ 32 * 2 ^ 32 + x / 8 * 8 }

/-- A write of a word; what is read-only keeps its value. LC_XFER is tenant 0's (R396): the Maker is denied. -/
def State.regWrite (v : Viewer) (t : Nat) (r : Reg) (upper : Bool) (x : Nat) (s : State) : State :=
  match r with
  | .mbx n off => s.mbxWrite n off x
  | .queue n q off => s.queueWrite n q off x
  | .frame e off => if off < 0x40 then s.liCmd e t off x else if off = 0x40 then s.liCtrl e t x else s
  | .slotFrame a off => s.slotWrite a off x
  | .blockLock => s.lockBlocks x
  | .spMdio => s.mdioWrite x
  | .elCfg => s.elCfgWrite x
  | .portCfg p => s.portCfgWrite p x
  | .route p m => s.routeWrite p m x
  | .chCfg => s.chCfg (BitVec.ofNat 32 x)
  | .lcXfer => if v = .maker then s.denied else s.lcXferWrite (BitVec.ofNat 32 x)
  | .lcCertAddr => s.certAddrWrite upper x
  | .lcCertCtrl => s.certGo (BitVec.ofNat 32 x)
  | .tbCfg => s.tbCfgWrite x
  | .fnInfo _ | .fnStat _ | .modeStat | .rngData _ | .rngStat _ | .wrIgn | .parErr | .shadowPend | .parAddr | .lgStat
  | .rootCtr _ | .chanStat _ | .unitStat _ | .laneStat _ | .srcStat _ | .bankStat | .spLink | .elReel | .elLane
  | .elBacklog | .portStat _ | .chStat | .tgAlarm | .tgWarn | .tgState | .tgNext | .tgUnarch | .lcStat | .tbRef => s

/-- A register write (R292 to R294): 8 bytes act as two words, the lower first. -/
def State.writeReg (v : Viewer) (loc : Loc) (size x : Nat) (s : State) : State :=
  match loc with
  | .config t r => if s.configOpen v t && size ≠ 0 then s.configWrite t r x else s
  | .bar4 t o => if s.reaches v loc then s.bar4Write t o size x else s.unreached v loc
  | _ =>
    if !s.mayAccess v loc then s.unreached v loc
    else if size = 0 then s
    else if (size ≠ 4 && size ≠ 8) || loc.offset % size ≠ 0 then s.badSize loc
    else match s.wordsAt loc size with
      | none => s.discardWrite v loc
      | some [a] => s.regWrite v loc.fn a.1 a.2 (x % 2 ^ 32)
      | some (a :: b :: _) => (s.regWrite v loc.fn a.1 a.2 (x % 2 ^ 32)).regWrite v loc.fn b.1 b.2 (x / 2 ^ 32)
      | some [] => s

/-- REGISTER_WRITE (R296). A poisoned TLP is discarded and logged (R303). -/
def execRegisterWrite (v : Viewer) (loc : Loc) (size : Nat) (value : BitVec 64) (env : HostEnv) (s : State) :
    Host.Outcome State Fault Refusal :=
  let s := s.applyEnv env
  .next (if env.poisoned && v = loc.viewer then
    if s.configOpen v loc.fn then s.aerLog loc.fn aerPoisoned else s
  else s.writeReg v loc size value.toNat)

/-- RC_READ (R301): a read of any register. -/
def execRcRead (v : Viewer) (loc : Loc) (size : Nat) (s : State) : Host.Outcome State Fault Refusal :=
  .next (s.readReg v loc size)

/-- BLOCK_LOCK_WRITE (R298). -/
def execBlockLockWrite (v : Viewer) (value : BitVec 32) (s : State) : Host.Outcome State Fault Refusal :=
  .next (s.writeReg v (.bar2 0x808) 4 value.toNat)

/-- The TAP register of DBG_REG: the Maker viewer's next access to BAR2, at the width of the register there; ERROR where it
met a bus error or a refused size (R408) (DESIGN CHOICE, log entry 21). -/
def State.dbgReg (write : Bool) (off x : Nat) (s : State) : State :=
  let loc : Loc := .bar2 off
  let wide := match s.openWord loc 0, s.openWord loc 4 with
    | some (.rngData _, false), some _ => true
    | some (.queue _ _ o, _), some _ => o % 8 = 0 && o < 0x10
    | some (.slotFrame _ o, _), some _ => o % 8 = 0 && o < 0x10
    | some (.mbx _ o, _), some _ => o % 8 = 0 && o < 0x10
    | some (.frame _ o, _), some _ => o % 8 = 0 && o < 0x40
    | some (.rootCtr _, false), some _ => true
    | some (.lcCertAddr, false), some _ => true
    | _, _ => false
  let size := if wide then 8 else 4
  let error := loc.offset % size ≠ 0 || (s.wordsAt loc size).isNone || 0x100000 ≤ off
  let before := s.outbox.length
  let s := if write then s.writeReg .maker loc size x else s.readReg .maker loc size
  let data := match s.outbox.drop before with
    | .readData _ _ d :: _ => d
    | _ => x
  let keep := if write then s.outbox else s.outbox.take before
  { s with outbox := keep ++ [.jtag 97 (b2n error * 2 ^ 96 + off * 2 ^ 64 + (if write then x else data))] }

/-- DBG_REG (R408): right DEBUG_TAP. -/
def execDbgReg (shift : BitVec 97) (s : State) : Host.Outcome State Fault Refusal :=
  let x := shift.toNat
  .next (if !s.powered then s
  else if !s.hasRight 0 then s.tapDenied
  else (s.tapLoad 0x20).dbgReg (bitOf x 96) (bitsOf x 95 64) (x % 2 ^ 64))

/-! ### Parity (R299, R300, Table 12.6) -/

/-- A unit of R300: its block, its number, HG_PAR_ADDR without VALID for one of its registers, and the offsets of all its
configuration registers. -/
structure ParityUnit where
  block : Nat
  unit : Nat
  addr : Nat
  regs : List Nat
  deriving DecidableEq, Repr

/-- The unit of a configuration register; other registers carry no parity (R299). -/
def parityUnit : Reg → Option ParityUnit
  | .queue t q off =>
    let o := 0x1000 + 0x40 * q + (if off < 0x10 then off / 8 * 8 else off)
    if off ≤ 0x10 then some ⟨0, queueUnit t q, if t = 0 then o else 2 ^ 30 + t * 2 ^ 20 + o, [0, 8, 0x10]⟩ else none
  | .slotFrame a off =>
    if off ≤ 0x10 then some ⟨6, slotUnit a, 0x60000 + 0x40 * a + (if off < 0x10 then off / 8 * 8 else off), [0, 8, 0x10]⟩
    else none
  | .blockLock => some ⟨0, 0x2100, 0x808, [0x808]⟩
  | .lcCertAddr => some ⟨14, certUnit, 0xE0010, [0x10]⟩
  | .elCfg => some ⟨10, elUnit, 0xA0020, [0x20]⟩
  | .tbCfg => some ⟨15, tbUnit, 0xF0008, [8]⟩
  | .chCfg => some ⟨12, chUnit, 0xC0008, [8]⟩
  | .portCfg p => some ⟨11, portUnit p, 0xB0000 + 0x40 * p, (0x40 * p) :: (List.range 1024).map (0x1000 + 0x1000 * p + 4 * ·)⟩
  | .route p m =>
    some ⟨11, portUnit p, 0xB1000 + 0x1000 * p + 4 * m, (0x40 * p) :: (List.range 1024).map (0x1000 + 0x1000 * p + 4 * ·)⟩
  | _ => none

/-- The unit of a location. A location in the windows of LG_, MG_, EN_, TG_ and LC_ stands for their block's own
configuration, which has no offset to write. -/
def State.unitAt (s : State) (loc : Loc) : Option ParityUnit :=
  match loc with
  | .bar4 _ _ | .config _ _ => none
  | .window t o => if t < 64 then (s.windowWord t o).bind fun x => parityUnit x.1 else none
  | .bar2 o =>
    match (bar2Word o).bind fun x => parityUnit x.1 with
    | some u => some u
    | none =>
      let b := o / 0x10000
      if [2, 3, 7, 13, 14].contains b then some ⟨b, 0x2200 + b, o % 2 ^ 20, []⟩ else none

/-- The unit's enable is cleared, and its work ends as for a disable. -/
def State.disableUnit (u : Nat) (s : State) : State :=
  if u < 512 then s.onQ (u / 8) (u % 8) fun p => { p with cfg := p.cfg &&& 0x7FFFFFFF#32 }
  else if 0x1000 ≤ u ∧ u < 0x2000 then s.onApplet (u - 0x1000) fun a => { a with cfg := a.cfg &&& 0x7FFFFFFF#32 }
  else if u = chUnit then
    (if s.ch.enabled then s.cardOpRemoved.cardOff else s).onCh fun c => { c with cfg := c.cfg &&& 0x7FFFFFFF#32 }
  else if 0x3000 ≤ u then (s.onPort (u - 0x3000) fun q => { q with cfg := q.cfg &&& 0x7FFFFFFF#32 }).portDown (u - 0x3000)
  else s

/-- The last row of Table 12.6, and that of a shadow, which has no enable: the unit is faulted. -/
def State.faultUnit (x : ParityUnit) (s : State) : State :=
  let s := (s.disableUnit x.unit).onHg fun h => { h with
    faulted := if x.regs = [] then h.faulted else h.faulted.filter (·.1 ≠ x.unit) ++ [(x.unit, x.regs)]
    parAddr := if x.regs = [] then h.parAddr else 2 ^ 31 + x.addr }
  (s.logEvent 0x0001 (be 4 s.hg.parAddr ++ be 1 x.block ++ be 3 0)).raiseCause .blockParity

/-- A mismatch (R299, R384, Table 12.6) (DESIGN CHOICE, log entry 26). -/
def State.parityMismatch (x : ParityUnit) (copy : ParityCopy) (s : State) : State :=
  let s := s.latch .parErr (2 ^ x.block)
  let security := [2, 3, 7, 13, 14].contains x.block || x.unit = 0x2100
  let shadow := decide (x.unit = elUnit ∨ x.unit = tbUnit)
  if security && !s.fusedOff 4 then
    (s.logEvent 0x0001 (be 4 s.hg.parAddr ++ be 1 x.block ++ be 3 0)).alarmIfArmed (0xC000 + x.block)
  else if shadow && copy = .active then s.logEvent 0x0001 (be 4 s.hg.parAddr ++ be 1 x.block ++ be 3 0)
  else s.faultUnit x

/-- PARITY_SCAN (R299), armed once Wake step 4 has loaded the configuration (R371): what the scan finds, if anything. -/
def execParityScan (found : Option (Loc × ParityCopy)) (s : State) : Host.Outcome State Fault Refusal :=
  .next (match found with
    | none => s
    | some (loc, copy) =>
      if !s.powered || s.pwr.wakeStep < 4 then s
      else match s.unitAt loc with
        | some x => s.parityMismatch x copy
        | none => s)

end Sys2Proof.Machine
end

