-- ==== Sys2Proof/Machine/Services.lean ====
section
/-! DEFINITION. The services of SVC (R256, Table 10.10): randomness, digests, LIE and Lattice commands, draws, takes of an
applet, and statistics. A service is called by an SVC instruction: the arms below are that instruction with its number. -/

namespace Sys2Proof.Machine

/-- What a service call does: the state after the call and its status; without a status it ends later. -/
abbrev Call := State → State × Option Status

/-- The call returns at once and does nothing. -/
def returns (st : Status) : Call := fun s => (s, some st)

/-- SVC `num` on core `n` (R227, R256): the instruction is fetched; a service that the image does not grant faults; the
call reads its inputs; the instruction ends when the service ends, with the status in w0. -/
def State.service (n num : Nat) (call : Call) (s : State) : State :=
  let c := (s.core n).settle
  if n < 192 ∧ c.active = true then
    match fetchBad c.pc 2 with
    | some a => s.coreFault n ⟨causeFetchBus, a⟩
    | none =>
      if !(s.applet c.slot).granted num then s.coreFault n ⟨causeSvcInvalid, 0⟩
      else
        let s' := s.onCore n fun _ => { c.retire 2 .seq with run := .service }
        match call s' with
        | (s', some st) => s'.serviceEnd n st
        | (s', none) => s'
  else s

/-- Argument `wi` of a call. -/
def State.arg (s : State) (n : Nat) (i : Fin 16) : Nat := (s.core n).w[i].toNat

/-- The slot of a core holds the claim, and whether its phase is uncommitted (R258). -/
def State.claimOf (s : State) (n : Nat) : Option DrawClaim :=
  s.sz.draw.bind fun d => if d.slot = (s.core n).slot then some d else none

/-- A service that UNCOMMITTED bars (R258). -/
def State.barred (s : State) (n : Nat) : Bool :=
  match s.claimOf n with
  | some d => d.uncommitted
  | none => false

/-! ### RANDOM -/

/-- The first RANDOM of a phase sets UNCOMMITTED: what the slot posts from now on is held (R258). -/
def State.uncommit (a : Nat) (s : State) : State :=
  let s := s.onSz fun z => { z with draw := z.draw.map fun (d : DrawClaim) => { d with uncommitted := true } }
  let s := s.onApplet a fun ap => { ap with holdFrom := some ap.outTail }
  s.wakeSlot a

/-- The buffer lies in the core's own data memory. -/
def State.inDataMemory (s : State) (n addr len : Nat) : Bool :=
  match s.bufferPlace n addr len with
  | some (.data _) => true
  | _ => false

/-- RANDOM (R256, R258): from the slot's instance, or from the draw instance while the slot holds the claim. A call made
while the slot's instance is being re-instantiated waits for it (R193). -/
def randomCall (n : Nat) : Call := fun s =>
  let addr := s.arg n 1
  let len := s.arg n 2
  let a := (s.core n).slot
  let claim := s.claimOf n
  if len = 0 then returns stLenZero s
  else if 4096 < len then returns stLenTooLong s
  else if !s.bufferOk n addr len || (claim.isSome && !s.inDataMemory n addr len) then returns stBadDescriptor s
  else match s.entropyBlock with
    | some st => returns st s
    | none =>
      match claim with
      | some d =>
        let s := if d.uncommitted then s else s.uncommit a
        let r := s.generate 76 len false
        (r.2.bufferWrite n addr r.1, some stOk)
      | none => if (s.drbg (80 + a)).live then s.randomFrom n addr len else (s.awaits n (.randomWait addr len), none)

/-- RANDOM. -/
def execRandom (core : Nat) (s : State) : Host.Outcome State Fault Refusal := .next (s.service core 0x01 (randomCall core))

/-! ### HASH -/

/-- The digest of an algorithm of service 0x02. -/
def digestOf (alg : Nat) (m : Bytes) : Bytes :=
  match alg with
  | 1 => Config.sha256 m
  | 2 => Config.sha384 m
  | 3 => Config.sha512 m
  | 4 => Config.out .sha3x256 32 [] [m]
  | _ => Config.out .sha3x512 64 [] [m]

def digestBytes (alg : Nat) : Nat :=
  match alg with
  | 1 | 4 => 32
  | 2 => 48
  | _ => 64

/-- HASH (R168, Table 7.4): a length above 2^24 sets LEN_ERR. Before the first seed the lanes serve Self-Test alone
(Table 2.7). One invocation hashes the whole message: no service goes on with a context (R179, R181)
(DESIGN CHOICE, log entry 138). -/
def hashCall (n : Nat) : Call := fun s =>
  let alg := s.arg n 1
  let len := s.arg n 3
  if alg = 0 || 5 < alg then returns stBadDescriptor s
  else if 2 ^ 24 < len then returns stLenTooLong (s.latch (.laneStat (s.applet (s.core n).slot).die) 1)
  else if !s.bufferOk n (s.arg n 4) (digestBytes alg) then returns stBadDescriptor s
  else if !s.en.firstSeed then returns stNotReady s
  else match s.bufferRead n (s.arg n 2) len with
    | none => returns stBadDescriptor s
    | some m => (s.bufferWrite n (s.arg n 4) (digestOf alg m), some stOk)

/-- HASH. -/
def execHash (core : Nat) (s : State) : Host.Outcome State Fault Refusal := .next (s.service core 0x02 (hashCall core))

/-! ### LIE -/

/-- LIE (R256): the block runs on the lowest idle engine of the slot's die that the tenant owns; while all are busy the
call, whose inputs have been read, waits. -/
def lieCall (n : Nat) : Call := fun s =>
  let ap := s.applet (s.core n).slot
  if s.barred n then returns stDrawOrder s
  else match s.bufferRead n (s.arg n 1) 64 with
    | none => returns stBadDescriptor s
    | some b =>
      let own := s.directEngines ap.die ap.owner
      if own = [] then returns stNotReady s
      else
        let blk : LieBlock := ⟨(List.range 8).map fun i => leAt b (8 * i) 8⟩
        match own.find? fun e => (s.engine e).running.isNone with
        | some e =>
          (match s.lieStart e blk (.service n) ap.owner with
          | (s, some (st, _)) => (s, some st)
          | (s, none) => (s.awaits n (.lie e), none))
        | none =>
          match s.lieChecks blk (.service n) ap.owner (s.engine (own.headD 0)).epoch, s.lieInputs blk (.service n) ap.owner with
          | some (st, _), _ => returns st s
          | none, .error (st, _) => returns st s
          | none, .ok (operand, key) => (s.awaits n (.lieWait blk.words operand key), none)

/-- LIE. -/
def execLie (core : Nat) (s : State) : Host.Outcome State Fault Refusal := .next (s.service core 0x03 (lieCall core))

/-! ### LATTICE -/

/-- The ten words of service 0x04. -/
structure LatticeBlock where
  op : Nat
  param : Nat
  handle : Nat
  keyAddr : Nat
  inAddr : Nat
  inLen : Nat
  ctxAddr : Nat
  ctxLen : Nat
  outAddr : Nat
  sigAddr : Nat
  deriving DecidableEq, Repr

def latticeBlock (b : Bytes) : LatticeBlock :=
  let w := fun i => leAt b (4 * i) 4
  { op := w 0, param := w 1, handle := w 2, keyAddr := w 3, inAddr := w 4, inLen := w 5, ctxAddr := w 6, ctxLen := w 7,
    outAddr := w 8, sigAddr := w 9 }

/-- The operation and the parameter set go together (Table 7.1). -/
def LatticeBlock.valid (b : LatticeBlock) : Bool :=
  match b.op with
  | 1 => (isDsa b.param || isKem b.param) && b.handle = 0
  | 2 | 3 => isDsa b.param
  | 4 => isKem b.param
  | 5 => isKem b.param && b.inLen = latticeOutput b.param
  | _ => false

/-- The bytes of a key at KeyAddr. -/
def LatticeBlock.keyBytes (b : LatticeBlock) : Nat :=
  match b.op with
  | 2 | 5 => latticePrivate b.param
  | 3 | 4 => latticePublic b.param
  | _ => 0

/-- Every buffer of a block lies in the core's reach, and a private key in its data memory (R170). -/
def State.latticeBuffers (s : State) (n : Nat) (b : LatticeBlock) : Bool :=
  (b.handle ≠ 0 || (if b.op = 2 || b.op = 5 then s.inDataMemory n b.keyAddr b.keyBytes
    else s.bufferOk n b.keyAddr (if b.op = 1 then latticePrivate b.param else b.keyBytes)))
  && (match b.op with
    | 1 => s.bufferOk n b.outAddr (latticePublic b.param)
    | 2 | 3 => s.bufferOk n b.inAddr b.inLen && s.bufferOk n b.ctxAddr b.ctxLen
        && s.bufferOk n b.sigAddr (latticeOutput b.param)
    | 4 => s.bufferOk n b.sigAddr (latticeOutput b.param) && s.bufferOk n b.outAddr 32
    | _ => s.bufferOk n b.inAddr b.inLen && s.bufferOk n b.outAddr 32)

/-- The handle of a block serves: the tenant's own, of usage DIRECT and of the set's type, unwrapped (R440). -/
def State.latticeHandle (s : State) (b : LatticeBlock) (t : Nat) : Option Handle :=
  (s.handle b.handle).bind fun h =>
    if h.owner = t && h.usage = 2 && h.type = latticeType b.param && h.state = .unwrapped then some h else none

/-- The key of a block; the KRF's seed expands to the private key of FIPS 203 or FIPS 204. -/
def State.latticeKey (s : State) (n : Nat) (b : LatticeBlock) (h : Option Handle) : Bytes :=
  match h with
  | some h =>
    if b.op = 2 then Config.out .mldsaPrivate (latticePrivate b.param) [b.param] [h.privatePart]
    else if b.op = 5 then Config.out .mlkemPrivate (latticePrivate b.param) [b.param] [h.privatePart]
    else h.publicPart
  | none => (s.bufferRead n b.keyAddr b.keyBytes).getD []

/-- The ten words ask for deterministic signing (R177): Table 10.10 gives the request no place in them, so which of them
carry it is a free predicate (DESIGN CHOICE, log entry 137). -/
def LatticeBlock.fixedRnd (b : LatticeBlock) (raw : Bytes) : Bool := b.op = 2 && Config.passes .deterministic [] [raw]

/-- The operation that a block asks for, with its inputs as the call reads them (R256). -/
def State.latticeInputs (s : State) (n : Nat) (b : LatticeBlock) (h : Option Handle) (fixed : Bool) : UnitOp :=
  { op := b.op
    param := b.param
    user := .service n
    key := s.latticeKey n b h
    message := if b.op = 2 || b.op = 3 || b.op = 5 then (s.bufferRead n b.inAddr b.inLen).getD [] else []
    context := if b.op = 2 || b.op = 3 then (s.bufferRead n b.ctxAddr b.ctxLen).getD [] else []
    fixed := fixed
    result := if b.op = 3 then s.bufferRead n b.sigAddr (latticeOutput b.param) else none
    outAddr := b.outAddr
    sigAddr := if b.op = 1 then b.keyAddr else b.sigAddr
    handle := b.handle }

/-- LATTICE: the checks before execution (R170, R173, R177, Table 7.4), then one operation on a unit of the slot's die, once
one is free for it (R168). -/
def latticeCall (n : Nat) : Call := fun s =>
  let ap := s.applet (s.core n).slot
  if s.barred n then returns stDrawOrder s
  else match s.bufferRead n (s.arg n 1) 40 with
    | none => returns stBadDescriptor s
    | some raw =>
      let b := latticeBlock raw
      let h := s.latticeHandle b ap.owner
      let o := s.latticeInputs n b h (b.fixedRnd raw)
      if !b.valid || (o.fixed && !s.lc.maint) then returns stBadDescriptor s
      else if (b.op = 2 || b.op = 3) && (16384 < b.inLen || 255 < b.ctxLen) then returns stLenTooLong s
      else if !s.latticeBuffers n b then returns stBadDescriptor s
      else if b.handle ≠ 0 && h.isNone then returns stKeyHandleInvalid s
      else match s.unitBlock o with
        | some st => returns st s
        | none => match s.clientUnit (n / 32) with
          | some u => (s.beginService n u o, none)
          | none => (s.awaits n (.latticeWait o), none)

/-- Service 0x04 whose block names operation `op`; a call that names another is another command. -/
def State.latticeRow (n op : Nat) (s : State) : State :=
  let c := (s.core n).settle
  match (s.onCore n fun _ => c).bufferRead n c.w[1].toNat 40 with
  | some b => if (latticeBlock b).op = op then s.service n 0x04 (latticeCall n) else s
  | none => s

/-- LATTICE_KEYGEN. -/
def execLatticeKeygen (core : Nat) (s : State) : Host.Outcome State Fault Refusal := .next (s.latticeRow core 1)
/-- LATTICE_SIGN. -/
def execLatticeSign (core : Nat) (s : State) : Host.Outcome State Fault Refusal := .next (s.latticeRow core 2)
/-- LATTICE_VERIFY. -/
def execLatticeVerify (core : Nat) (s : State) : Host.Outcome State Fault Refusal := .next (s.latticeRow core 3)
/-- LATTICE_ENCAPS. -/
def execLatticeEncaps (core : Nat) (s : State) : Host.Outcome State Fault Refusal := .next (s.latticeRow core 4)
/-- LATTICE_DECAPS. -/
def execLatticeDecaps (core : Nat) (s : State) : Host.Outcome State Fault Refusal := .next (s.latticeRow core 5)

/-! ### Draws (R258) -/

/-- DRAW_CLAIM: the claim waits for its seed (R202); DRAW_SEED_READY ends it. -/
def drawClaimCall (n : Nat) : Call := fun s =>
  let a := (s.core n).slot
  let other := (match s.sz.draw with
      | some d => d.slot ≠ a
      | none => false)
    || s.en.drawWait.isSome
  if s.barred n then returns stDrawOrder s
  else if other then returns stDrawBusy s
  else if s.pwr.mode = .held then returns stHeld s
  else if s.pwr.mode ≠ .service then returns stNotReady s
  else match s.entropyBlock with
    | some st => returns st s
    | none => ((s.onEn fun e => { e with drawWait := some n }).awaits n .claim, none)

/-- DRAW_CLAIM. -/
def execDrawClaim (core : Nat) (s : State) : Host.Outcome State Fault Refusal :=
  .next (s.service core 0x10 (drawClaimCall core))

/-- DRAW_COMMIT: the record enters the journal; the call waits for the recorder. One commit waits at a time. -/
def drawCommitCall (n : Nat) : Call := fun s =>
  let len := s.arg n 2
  match s.claimOf n with
  | none => returns stDrawOrder s
  | some d =>
    if d.waiting.isSome then returns stDrawOrder s
    else if len = 0 then returns stLenZero s
    else if 4096 < len then returns stLenTooLong s
    else match s.bufferRead n (s.arg n 1) len with
      | none => returns stBadDescriptor s
      | some body =>
        let k := d.commits + 1
        let s := s.onSz fun z => { z with
          draw := some { d with commits := k, waiting := some (n, s.lg.journalCount + 1) } }
        let s := s.awaits n .commit
        (s.append (s.appletRecord 0x40 0 d.slot k d.seq body) [], none)

/-- DRAW_COMMIT. -/
def execDrawCommit (core : Nat) (s : State) : Host.Outcome State Fault Refusal :=
  .next (s.service core 0x11 (drawCommitCall core))

/-- The recorder holds the record of the waiting commit: UNCOMMITTED falls, which the slot's DRAW word shows, and the held
messages may go out. -/
def State.commitAcked (d : DrawClaim) (core : Nat) (s : State) : State :=
  let s := s.onSz fun z => { z with draw := some { d with uncommitted := false, waiting := none } }
  let s := s.onApplet d.slot fun ap => { ap with holdFrom := none }
  (if d.uncommitted then s.wakeSlot d.slot else s).serviceEnd core stOk

/-- DRAW_COMMIT_ACK (R258): a status frame has acknowledged the reel frame that carries the record. -/
def execDrawCommitAck (s : State) : Host.Outcome State Fault Refusal :=
  .next (match s.sz.draw with
    | some d => (match d.waiting with
      | some (c, k) => if s.lg.journalCount - s.lg.reel.length < k then s else s.commitAcked d c
      | none => s)
    | none => s)

/-- DRAW_RELEASE: RELEASED, or ABANDONED while UNCOMMITTED (Table 10.12). -/
def drawReleaseCall (n : Nat) : Call := fun s =>
  match s.claimOf n with
  | none => returns stDrawOrder s
  | some d =>
    if d.waiting.isSome then returns stDrawOrder s
    else
      let s := s.drawEnd (some (if d.uncommitted then 2 else 1)) none
      (s.leaveDraw.afterJournal, some stOk)

/-- DRAW_RELEASE. -/
def execDrawRelease (core : Nat) (s : State) : Host.Outcome State Fault Refusal :=
  .next (s.service core 0x12 (drawReleaseCall core))

/-! ### SEAL_RECORD and STATS_PUBLISH -/

/-- The space and offset of a buffer. -/
def State.bufferSpace (s : State) (n addr len : Nat) : Option (Nat × Nat) :=
  match s.bufferPlace n addr len with
  | some (.data x) => some (0, x)
  | some (.shared d t x) => some (1 + d * 64 + t, x)
  | _ => none

/-- SEAL_RECORD: the payload becomes a take without a receipt, which the Dispatcher handles as it does a fetched one
(R70); the call waits while the In-Flight Table is full. -/
def sealRecordCall (n : Nat) : Call := fun s =>
  let ap := s.applet (s.core n).slot
  if s.barred n then returns stDrawOrder s
  else match s.bufferRead n (s.arg n 1) 24, s.bufferSpace n (s.arg n 2) 32 with
    | some b, some (space, off) =>
      let len := leAt b 4 4
      let slot := leAt b 8 4
      let gate := leAt b 12 4
      let payload := if len ≤ 16384 then s.bufferRead n (leAt b 0 4) len else some []
      match payload with
      | none => returns stBadDescriptor s
      | some payload =>
        let id := s.td.nextId
        let t : Take := {
          id := id, source := .applet n, tenant := ap.owner, slot := slot % 2097152, gate := gate % 65536, length := len
          payload := payload, hasPayload := true, clientTag := leAt b 16 8 }
        let s := s.onTd fun d => { d with nextId := id + 1 }
        let early := (s.reserveEarly t).getD (if 2097152 ≤ slot then stBadSlot else stBadGate)
        if 2097152 ≤ slot || 65536 ≤ gate then ((s.awaits n (.seal id space off)).completeTake t early 0, none)
        else ((s.awaits n (.sealWait t space off)).admitSeals, none)
    | _, _ => returns stBadDescriptor s

/-- SEAL_RECORD. -/
def execSealRecord (core : Nat) (s : State) : Host.Outcome State Fault Refusal :=
  .next (s.service core 0x20 (sealRecordCall core))

/-- STATS_PUBLISH. -/
def statsPublishCall (n : Nat) : Call := fun s =>
  let len := s.arg n 2
  if s.barred n then returns stDrawOrder s
  else if len = 0 then returns stLenZero s
  else if 4096 < len then returns stLenTooLong s
  else match s.bufferRead n (s.arg n 1) len with
    | none => returns stBadDescriptor s
    | some body => (s.append (s.appletRecord 0x42 0 (s.core n).slot 0 0 body) [], some stOk)

/-- STATS_PUBLISH. -/
def execStatsPublish (core : Nat) (s : State) : Host.Outcome State Fault Refusal :=
  .next (s.service core 0x30 (statsPublishCall core))

/-! ### SVC -/

/-- The call of each service number; every other number is granted to no image. -/
def callOf (n num : Nat) : Call :=
  match num with
  | 0x01 => randomCall n
  | 0x02 => hashCall n
  | 0x03 => lieCall n
  | 0x04 => latticeCall n
  | 0x10 => drawClaimCall n
  | 0x11 => drawCommitCall n
  | 0x12 => drawReleaseCall n
  | 0x20 => sealRecordCall n
  | 0x30 => statsPublishCall n
  | _ => returns stBadDescriptor

/-- A service number of Table 10.10. -/
def serviceNumbers : List Nat := [0x01, 0x02, 0x03, 0x04, 0x10, 0x11, 0x12, 0x20, 0x30]

/-- SVC n (R227, R256): a number that no service has faults like one that is not granted. -/
def State.svc (n num : Nat) (s : State) : State :=
  let c := (s.core n).settle
  if serviceNumbers.contains num then s.service n num (callOf n num)
  else if n < 192 ∧ c.active = true then
    match fetchBad c.pc 2 with
    | some a => s.coreFault n ⟨causeFetchBus, a⟩
    | none => s.coreFault n ⟨causeSvcInvalid, 0⟩
  else s

/-- SVC. -/
def execSvc (core : Nat) (n : BitVec 8) (s : State) : Host.Outcome State Fault Refusal := .next (s.svc core n.toNat)

end Sys2Proof.Machine
end

