-- ==== Sys2Proof/Machine/SezelAlu.lean ====
section
/-! DEFINITION. The arithmetic and move instructions of the Sezel cores (R225, R226, R229, Tables 9.8, 9.9 and 9.12). -/

namespace Sys2Proof.Machine

end Sys2Proof.Machine

namespace Sys2Proof

open Machine

/-- Operands of an ALU instruction that exists as C.RR and as L.ALU: its size, destination and two sources (R225, R229). -/
def AluForm.size : AluForm → Nat
  | .rr _ _ => 2
  | .r3 _ _ _ => 4
def AluForm.rd : AluForm → Fin 16
  | .rr rd _ => rd
  | .r3 rd _ _ => rd
def AluForm.a (c : SCore) : AluForm → Word
  | .rr rd _ => c.w[rd]
  | .r3 _ ra _ => c.w[ra]
def AluForm.b (c : SCore) : AluForm → Word
  | .rr _ rs => c.w[rs]
  | .r3 _ _ rb => c.w[rb]

end Sys2Proof

namespace Sys2Proof.Machine

/-- rd := op a b with its flags, both visible at distance `lat` (R225, Table 9.16). -/
def aluBody (f : AluForm) (lat : Nat) (op : SCore → Word → Word → Word × FlagSet) : Body := pureBody fun c =>
  let r := op c (f.a c) (f.b c)
  (c.putW f.rd lat r.1).putFlags lat r.2

/-- A result whose only flags are Z and N. -/
def withZN (r : Word) : Word × FlagSet := (r, flagsZN r)

/-- A result without flags. -/
def noFlags (r : Word) : Word × FlagSet := (r, {})

/-- The halfword a fractional 16-bit operand is (R212). -/
def frac16 (w : Word) : Int := (w.setWidth 16).toInt

/-- rd := op of one source with its flags. -/
def unaryBody (rd rs : Fin 16) (lat : Nat) (op : SCore → Word → Word × FlagSet) : Body := pureBody fun c =>
  let r := op c c.w[rs]
  (c.putW rd lat r.1).putFlags lat r.2

/-- Flags only. -/
def flagsBody (op : SCore → FlagSet) : Body := pureBody fun c => c.putFlags 1 (op c)

/-- rd := op of a register and an immediate with its flags. -/
def immBody (rd ra : Fin 16) (lat : Nat) (op : Word → Word × FlagSet) : Body := pureBody fun c =>
  let r := op c.w[ra]
  (c.putW rd lat r.1).putFlags lat r.2

/-- ADD: rd := a + b mod 2^32; Z N C V (R225). -/
def execAdd (core : Nat) (f : AluForm) (s : State) : Host.Outcome State Fault Refusal :=
  .next (s.sezel core f.size (aluBody f 1 fun _ a b => addFlags a b))

/-- SUB: rd := a − b mod 2^32; Z N C V (R225). -/
def execSub (core : Nat) (f : AluForm) (s : State) : Host.Outcome State Fault Refusal :=
  .next (s.sezel core f.size (aluBody f 1 fun _ a b => subFlags a b))

/-- AND; Z N (R225). -/
def execAnd (core : Nat) (f : AluForm) (s : State) : Host.Outcome State Fault Refusal :=
  .next (s.sezel core f.size (aluBody f 1 fun _ a b => withZN (a &&& b)))

/-- OR; Z N (R225). -/
def execOr (core : Nat) (f : AluForm) (s : State) : Host.Outcome State Fault Refusal :=
  .next (s.sezel core f.size (aluBody f 1 fun _ a b => withZN (a ||| b)))

/-- XOR; Z N (R225). -/
def execXor (core : Nat) (f : AluForm) (s : State) : Host.Outcome State Fault Refusal :=
  .next (s.sezel core f.size (aluBody f 1 fun _ a b => withZN (a ^^^ b)))

/-- SHL by rs[4:0]; Z N (R225). -/
def execShl (core : Nat) (f : AluForm) (s : State) : Host.Outcome State Fault Refusal :=
  .next (s.sezel core f.size (aluBody f 1 fun _ a b => withZN (a <<< (b.toNat % 32))))

/-- SHR, logical, by rs[4:0]; Z N (R225). -/
def execShr (core : Nat) (f : AluForm) (s : State) : Host.Outcome State Fault Refusal :=
  .next (s.sezel core f.size (aluBody f 1 fun _ a b => withZN (a >>> (b.toNat % 32))))

/-- SRA, arithmetic, by rs[4:0]; Z N (R225). -/
def execSra (core : Nat) (f : AluForm) (s : State) : Host.Outcome State Fault Refusal :=
  .next (s.sezel core f.size (aluBody f 1 fun _ a b => withZN (a.sshiftRight (b.toNat % 32))))

/-- MUL: rd := a × b mod 2^32, visible at distance 2 (R225, R232). -/
def execMul (core : Nat) (f : AluForm) (s : State) : Host.Outcome State Fault Refusal :=
  .next (s.sezel core f.size (aluBody f 2 fun _ a b => noFlags (a * b)))

/-- FADD: fit_32(a + b); Z N V SATF (R225). -/
def execFadd (core : Nat) (f : AluForm) (s : State) : Host.Outcome State Fault Refusal :=
  .next (s.sezel core f.size (aluBody f 1 fun c a b => fitFlags 32 c.sat (a.toInt + b.toInt)))

/-- FSUB: fit_32(a − b); Z N V SATF (R225). -/
def execFsub (core : Nat) (f : AluForm) (s : State) : Host.Outcome State Fault Refusal :=
  .next (s.sezel core f.size (aluBody f 1 fun c a b => fitFlags 32 c.sat (a.toInt - b.toInt)))

/-- FMUL: fit_32(rnd(a × b ÷ 2^31)), visible at distance 2 (R225, R232). -/
def execFmul (core : Nat) (f : AluForm) (s : State) : Host.Outcome State Fault Refusal :=
  .next (s.sezel core f.size (aluBody f 2 fun c a b => fitFlags 32 c.sat (rnd c.rnd (a.toInt * b.toInt) (2 ^ 31))))

/-- FMUL16: sext(fit_16(rnd(a[15:0] × b[15:0] ÷ 2^15))), visible at distance 2 (R225, R232). -/
def execFmul16 (core : Nat) (f : AluForm) (s : State) : Host.Outcome State Fault Refusal :=
  .next (s.sezel core f.size (aluBody f 2 fun c a b => fitFlags 16 c.sat (rnd c.rnd (frac16 a * frac16 b) (2 ^ 15))))

/-- MIN, signed; Z N (R225). -/
def execMin (core : Nat) (f : AluForm) (s : State) : Host.Outcome State Fault Refusal :=
  .next (s.sezel core f.size (aluBody f 1 fun _ a b => withZN (if a.toInt ≤ b.toInt then a else b)))

/-- MAX, signed; Z N (R225). -/
def execMax (core : Nat) (f : AluForm) (s : State) : Host.Outcome State Fault Refusal :=
  .next (s.sezel core f.size (aluBody f 1 fun _ a b => withZN (if a.toInt ≤ b.toInt then b else a)))

/-- MOV: rd := rs (R225). -/
def execMov (core : Nat) (rd rs : Fin 16) (s : State) : Host.Outcome State Fault Refusal :=
  .next (s.sezel core 2 (unaryBody rd rs 1 fun _ a => noFlags a))

/-- NEG: rd := 0 − rs; Z N C V (R225). -/
def execNeg (core : Nat) (rd rs : Fin 16) (s : State) : Host.Outcome State Fault Refusal :=
  .next (s.sezel core 2 (unaryBody rd rs 1 fun _ a => subFlags 0 a))

/-- NOT: rd := ~rs; Z N (R225). -/
def execNot (core : Nat) (rd rs : Fin 16) (s : State) : Host.Outcome State Fault Refusal :=
  .next (s.sezel core 2 (unaryBody rd rs 1 fun _ a => withZN (~~~a)))

/-- ABS: fit_32(|rs|); Z N V SATF (R225). -/
def execAbs (core : Nat) (rd rs : Fin 16) (s : State) : Host.Outcome State Fault Refusal :=
  .next (s.sezel core 2 (unaryBody rd rs 1 fun c a => fitFlags 32 c.sat a.toInt.natAbs))

/-- SXTH; Z N (R225). -/
def execSxth (core : Nat) (rd rs : Fin 16) (s : State) : Host.Outcome State Fault Refusal :=
  .next (s.sezel core 2 (unaryBody rd rs 1 fun _ a => withZN ((a.setWidth 16).signExtend 32)))

/-- ZXTH; Z N (R225). -/
def execZxth (core : Nat) (rd rs : Fin 16) (s : State) : Host.Outcome State Fault Refusal :=
  .next (s.sezel core 2 (unaryBody rd rs 1 fun _ a => withZN ((a.setWidth 16).setWidth 32)))

/-- CMP: flags of rd − rs; Z N C V (R225). -/
def execCmp (core : Nat) (rd rs : Fin 16) (s : State) : Host.Outcome State Fault Refusal :=
  .next (s.sezel core 2 (flagsBody fun c => (subFlags c.w[rd] c.w[rs]).2))

/-- MOVP: p := rs (R225). -/
def execMovp (core : Nat) (pd : Fin 8) (rs : Fin 16) (s : State) : Host.Outcome State Fault Refusal :=
  .next (s.sezel core 2 (pureBody fun c => { c with p := c.p.set pd c.w[rs] }))

/-- MOVW: rd := p (R225). -/
def execMovw (core : Nat) (rd : Fin 16) (ps : Fin 8) (s : State) : Host.Outcome State Fault Refusal :=
  .next (s.sezel core 2 (pureBody fun c => c.putW rd 1 c.p[ps]))

/-- MOVI: rd := sext7 (R226). -/
def execMovi (core : Nat) (rd : Fin 16) (imm : BitVec 7) (s : State) : Host.Outcome State Fault Refusal :=
  .next (s.sezel core 2 (pureBody fun c => c.putW rd 1 (imm.signExtend 32)))

/-- ADDI: rd := rd + sext7; Z N C V (R226). -/
def execAddi (core : Nat) (rd : Fin 16) (imm : BitVec 7) (s : State) : Host.Outcome State Fault Refusal :=
  .next (s.sezel core 2 (immBody rd rd 1 fun a => addFlags a (imm.signExtend 32)))

/-- CMPI: flags of rd − sext7; Z N C V (R226). -/
def execCmpi (core : Nat) (rd : Fin 16) (imm : BitVec 7) (s : State) : Host.Outcome State Fault Refusal :=
  .next (s.sezel core 2 (flagsBody fun c => (subFlags c.w[rd] (imm.signExtend 32)).2))

/-- SHLI; Z N (R226). -/
def execShli (core : Nat) (rd : Fin 16) (imm : BitVec 5) (s : State) : Host.Outcome State Fault Refusal :=
  .next (s.sezel core 2 (immBody rd rd 1 fun a => withZN (a <<< imm.toNat)))

/-- SHRI; Z N (R226). -/
def execShri (core : Nat) (rd : Fin 16) (imm : BitVec 5) (s : State) : Host.Outcome State Fault Refusal :=
  .next (s.sezel core 2 (immBody rd rd 1 fun a => withZN (a >>> imm.toNat)))

/-- SRAI; Z N (R226). -/
def execSrai (core : Nat) (rd : Fin 16) (imm : BitVec 5) (s : State) : Host.Outcome State Fault Refusal :=
  .next (s.sezel core 2 (immBody rd rd 1 fun a => withZN (a.sshiftRight imm.toNat)))

/-- ANDI: rd := rd AND zext7; Z N (R226). -/
def execAndi (core : Nat) (rd : Fin 16) (imm : BitVec 7) (s : State) : Host.Outcome State Fault Refusal :=
  .next (s.sezel core 2 (immBody rd rd 1 fun a => withZN (a &&& imm.setWidth 32)))

/-- ADDP: p := p + 4 × sext7 (R226). -/
def execAddp (core : Nat) (pd : Fin 8) (imm : BitVec 7) (s : State) : Host.Outcome State Fault Refusal :=
  .next (s.sezel core 2 (pureBody fun c => { c with p := c.p.set pd (c.p[pd] + 4 * imm.signExtend 32) }))

/-- ADDI32: rd := ra + sext16; Z N C V (R229). -/
def execAddi32 (core : Nat) (rd ra : Fin 16) (imm : BitVec 16) (s : State) : Host.Outcome State Fault Refusal :=
  .next (s.sezel core 4 (immBody rd ra 1 fun a => addFlags a (imm.signExtend 32)))

/-- ANDI32: rd := ra AND zext16; Z N (R229). -/
def execAndi32 (core : Nat) (rd ra : Fin 16) (imm : BitVec 16) (s : State) : Host.Outcome State Fault Refusal :=
  .next (s.sezel core 4 (immBody rd ra 1 fun a => withZN (a &&& imm.setWidth 32)))

/-- ORI; Z N (R229). -/
def execOri (core : Nat) (rd ra : Fin 16) (imm : BitVec 16) (s : State) : Host.Outcome State Fault Refusal :=
  .next (s.sezel core 4 (immBody rd ra 1 fun a => withZN (a ||| imm.setWidth 32)))

/-- XORI; Z N (R229). -/
def execXori (core : Nat) (rd ra : Fin 16) (imm : BitVec 16) (s : State) : Host.Outcome State Fault Refusal :=
  .next (s.sezel core 4 (immBody rd ra 1 fun a => withZN (a ^^^ imm.setWidth 32)))

/-- LUI: rd := imm16 × 2^16 (R229). -/
def execLui (core : Nat) (rd : Fin 16) (imm : BitVec 16) (s : State) : Host.Outcome State Fault Refusal :=
  .next (s.sezel core 4 (pureBody fun c => c.putW rd 1 (imm.setWidth 32 <<< 16)))

/-- CMPI32: flags of ra − sext16; Z N C V (R229). -/
def execCmpi32 (core : Nat) (ra : Fin 16) (imm : BitVec 16) (s : State) : Host.Outcome State Fault Refusal :=
  .next (s.sezel core 4 (flagsBody fun c => (subFlags c.w[ra] (imm.signExtend 32)).2))

/-- MULI: rd := ra × sext16 mod 2^32, visible at distance 2 (R229, R232). -/
def execMuli (core : Nat) (rd ra : Fin 16) (imm : BitVec 16) (s : State) : Host.Outcome State Fault Refusal :=
  .next (s.sezel core 4 (immBody rd ra 2 fun a => noFlags (a * imm.signExtend 32)))

/-- ADR: rd := address of ADR + 2 × offset (R229). -/
def execAdr (core : Nat) (rd : Fin 16) (offset : BitVec 20) (s : State) : Host.Outcome State Fault Refusal :=
  .next (s.sezel core 4 (pureBody fun c => c.putW rd 1 (c.pc + 2 * offset.signExtend 32)))

end Sys2Proof.Machine
end

