-- ==== Sys2Proof/Machine/SezelAcc.lean ====
section
/-! DEFINITION. The accumulator instructions of the Sezel cores: multiply-accumulate, EXT, L.ACC and L.AW (R227, R230, R231). -/

namespace Sys2Proof.Machine

/-- acc := fit_72(x), visible at distance 3 with V and SATF, and further flags of the result where `zn` (R231). -/
def accResult (d : Fin 4) (x : Int) (zn mac : Bool) (c : SCore) : SCore :=
  let r := fit 72 c.sat x
  let v := BitVec.ofInt 72 r.value
  let c := c.put (.acc d) 3 v mac
  c.putFlags 3 { z := if zn then some (v = 0) else none, n := if zn then some v.msb else none,
                 v := some r.v, satf := r.satf }

/-- A multiply-accumulate (R213, R231): the accumulator, forwarded from an earlier MAC-class instruction that wrote it
(Table 9.16), plus or minus a product. -/
def macBody (f : MacForm) (op : Int → Word → Word → Int) : Body := pureBody fun c =>
  accResult f.acc (op (c.accForward f.acc).toInt c.w[f.wa] c.w[f.wb]) false true c

end Sys2Proof.Machine

namespace Sys2Proof

open Machine

/-- The 16-bit form is C.MAC, the 32-bit form L.MAC. -/
def MacForm.size (f : MacForm) : Nat := if f.wide then 4 else 2

end Sys2Proof

namespace Sys2Proof.Machine
/-- MAC.F: acc + 2·wa·wb (R227). -/
def execMacF (core : Nat) (f : MacForm) (s : State) : Host.Outcome State Fault Refusal :=
  .next (s.sezel core f.size (macBody f fun a x y => a + 2 * x.toInt * y.toInt))

/-- MSU.F: acc − 2·wa·wb (R227). -/
def execMsuF (core : Nat) (f : MacForm) (s : State) : Host.Outcome State Fault Refusal :=
  .next (s.sezel core f.size (macBody f fun a x y => a - 2 * x.toInt * y.toInt))

/-- MPY.F: 2·wa·wb, which always fits; V := 0 (R227). -/
def execMpyF (core : Nat) (f : MacForm) (s : State) : Host.Outcome State Fault Refusal :=
  .next (s.sezel core f.size (macBody f fun _ x y => 2 * x.toInt * y.toInt))

/-- MAC.I: acc + wa·wb (R227). -/
def execMacI (core : Nat) (f : MacForm) (s : State) : Host.Outcome State Fault Refusal :=
  .next (s.sezel core f.size (macBody f fun a x y => a + x.toInt * y.toInt))

/-- MSU.I: acc − wa·wb (R231). -/
def execMsuI (core : Nat) (f : MacForm) (s : State) : Host.Outcome State Fault Refusal :=
  .next (s.sezel core 4 (unlessReserved f.wide (macBody f fun a x y => a - x.toInt * y.toInt)))

/-- MPY.I: wa·wb; V := 0 (R231). -/
def execMpyI (core : Nat) (f : MacForm) (s : State) : Host.Outcome State Fault Refusal :=
  .next (s.sezel core 4 (unlessReserved f.wide (macBody f fun _ x y => x.toInt * y.toInt)))

/-- MAC.H: acc + wa[15:0]·wb[15:0]·2^33 (R231). -/
def execMacH (core : Nat) (f : MacForm) (s : State) : Host.Outcome State Fault Refusal :=
  .next (s.sezel core 4 (unlessReserved f.wide (macBody f fun a x y => a + frac16 x * frac16 y * 2 ^ 33)))

/-- MSU.H: acc − wa[15:0]·wb[15:0]·2^33 (R231). -/
def execMsuH (core : Nat) (f : MacForm) (s : State) : Host.Outcome State Fault Refusal :=
  .next (s.sezel core 4 (unlessReserved f.wide (macBody f fun a x y => a - frac16 x * frac16 y * 2 ^ 33)))

/-- MPY.H: wa[15:0]·wb[15:0]·2^33; V := 0 (R231). -/
def execMpyH (core : Nat) (f : MacForm) (s : State) : Host.Outcome State Fault Refusal :=
  .next (s.sezel core 4 (unlessReserved f.wide (macBody f fun _ x y => frac16 x * frac16 y * 2 ^ 33)))

/-- MAC.U: acc + zext(wa)·zext(wb) (R231). -/
def execMacU (core : Nat) (f : MacForm) (s : State) : Host.Outcome State Fault Refusal :=
  .next (s.sezel core 4 (unlessReserved f.wide (macBody f fun a x y => a + (x.toNat * y.toNat : Nat))))

/-- CLRA: acc := 0 (R227). -/
def execClra (core : Nat) (acc : Fin 4) (s : State) : Host.Outcome State Fault Refusal :=
  .next (s.sezel core 2 (pureBody fun c => c.put (.acc acc) 3 0 false))

/-- MOVA: accd := accs (R227). -/
def execMova (core : Nat) (accd accs : Fin 4) (s : State) : Host.Outcome State Fault Refusal :=
  .next (s.sezel core 2 (pureBody fun c => c.put (.acc accd) 3 c.acc[accs] false))

/-- NEGA: fit_72(−accs); V, SATF (R227). -/
def execNega (core : Nat) (accd accs : Fin 4) (s : State) : Host.Outcome State Fault Refusal :=
  .next (s.sezel core 2 (pureBody fun c => accResult accd (-c.acc[accs].toInt) false false c))

end Sys2Proof.Machine

namespace Sys2Proof

open Machine

/-- The rounding mode of an EXT: RM where OVR is set (R230). -/
def ExtForm.mode (f : ExtForm) (c : SCore) : Nat := if f.ovr then f.rm.toNat else c.rnd

end Sys2Proof

namespace Sys2Proof.Machine

/-- EXT (R230): a rounded, fitted field of the accumulator, with Z N V SATF. -/
def extBody (f : ExtForm) (bits shift : Nat) : Body := pureBody fun c =>
  let r := fitFlags bits c.sat (rnd (f.mode c) c.acc[f.acc].toInt (2 ^ shift))
  (c.putW f.rd 1 r.1).putFlags 1 r.2

/-- EXT.F: fit_32(rnd(acc ÷ 2^32)) (R230). -/
def execExtF (core : Nat) (f : ExtForm) (s : State) : Host.Outcome State Fault Refusal :=
  .next (s.sezel core 4 (unlessReserved (f.sh == 0) (extBody f 32 32)))

/-- EXT.H: sext(fit_16(rnd(acc ÷ 2^48))) (R230). -/
def execExtH (core : Nat) (f : ExtForm) (s : State) : Host.Outcome State Fault Refusal :=
  .next (s.sezel core 4 (unlessReserved (f.sh == 0) (extBody f 16 48)))

/-- EXT.I: fit_32(rnd(acc ÷ 2^sh)) (R230). -/
def execExtI (core : Nat) (f : ExtForm) (s : State) : Host.Outcome State Fault Refusal :=
  .next (s.sezel core 4 (extBody f 32 f.sh.toNat))

/-- EXT.RAW: acc[sh + 31 : sh], for sh of 0, 32 or 40 (R230). -/
def execExtRaw (core : Nat) (rd : Fin 16) (acc : Fin 4) (sh : BitVec 6) (s : State) : Host.Outcome State Fault Refusal :=
  .next (s.sezel core 4 (unlessReserved (sh == 0 || sh == 32 || sh == 40)
    (pureBody fun c => c.putW rd 1 ((c.acc[acc] >>> sh.toNat).setWidth 32))))

/-- An L.ACC operation (R231, Table 9.14). -/
def accBody (f : AccForm) (zn : Bool) (op : SCore → Int → Int → Int) : Body := pureBody fun c =>
  accResult f.accd (op c c.acc[f.acca].toInt c.acc[f.accb].toInt) zn false c

/-- An L.ACC operation that divides: DIV_ZERO where accb is zero, and nothing is written (R231). -/
def accDivBody (f : AccForm) (zn : Bool) (op : SCore → Int → Int → Int) : Body := fun s c =>
  if c.acc[f.accb] = 0 then .error ⟨causeDivZero, 0⟩ else accBody f zn op s c

/-- The flags of acca − accb at 72 bits: Z N V (Table 9.14). -/
def cmpaBody (f : AccForm) : Body := pureBody fun c =>
  let a := c.acc[f.acca]
  let b := c.acc[f.accb]
  let r := a - b
  c.putFlags 3 { z := some (r = 0), n := some r.msb, v := some (decide (r.toInt ≠ a.toInt - b.toInt)) }

/-- ADDA: acca + accb; Z N V SATF (R231). -/
def execAdda (core : Nat) (f : AccForm) (s : State) : Host.Outcome State Fault Refusal :=
  .next (s.sezel core 4 (unlessReserved (f.sh == 0) (accBody f true fun _ a b => a + b)))

/-- SUBA: acca − accb; Z N V SATF (R231). -/
def execSuba (core : Nat) (f : AccForm) (s : State) : Host.Outcome State Fault Refusal :=
  .next (s.sezel core 4 (unlessReserved (f.sh == 0) (accBody f true fun _ a b => a - b)))

/-- DIVA: rnd(acca ÷ accb); Z N V SATF (R231). -/
def execDiva (core : Nat) (f : AccForm) (s : State) : Host.Outcome State Fault Refusal :=
  .next (s.sezel core 4 (unlessReserved (f.sh == 0) (accDivBody f true fun c a b => rnd c.rnd a b)))

/-- REMA: acca − trunc(acca ÷ accb) × accb (R231). -/
def execRema (core : Nat) (f : AccForm) (s : State) : Host.Outcome State Fault Refusal :=
  .next (s.sezel core 4 (unlessReserved (f.sh == 0) (accDivBody f false fun _ a b => a - rnd 0 a b * b)))

/-- RNDM: rnd(acca ÷ accb) × accb (R231). -/
def execRndm (core : Nat) (f : AccForm) (s : State) : Host.Outcome State Fault Refusal :=
  .next (s.sezel core 4 (unlessReserved (f.sh == 0) (accDivBody f false fun c a b => rnd c.rnd a b * b)))

/-- SHLA: acca × 2^sh (R231). -/
def execShla (core : Nat) (f : AccForm) (s : State) : Host.Outcome State Fault Refusal :=
  .next (s.sezel core 4 (unlessReserved (f.accb == 0) (accBody f false fun _ a _ => a * 2 ^ f.sh.toNat)))

/-- SRAA: rnd(acca ÷ 2^sh) (R231). -/
def execSraa (core : Nat) (f : AccForm) (s : State) : Host.Outcome State Fault Refusal :=
  .next (s.sezel core 4 (unlessReserved (f.accb == 0) (accBody f false fun c a _ => rnd c.rnd a (2 ^ f.sh.toNat))))

/-- CMPA: flags of acca − accb at 72 bits; Z N V (R231). -/
def execCmpa (core : Nat) (f : AccForm) (s : State) : Host.Outcome State Fault Refusal :=
  .next (s.sezel core 4 (unlessReserved (f.sh == 0 && f.accd == 0) (cmpaBody f)))

/-- An L.AW operation through fit_72 (R231, Table 9.15). -/
def awBody (f : AwForm) (op : Int → Word → Int) : Body := pureBody fun c =>
  accResult f.accd (op c.acc[f.acca].toInt c.w[f.w]) false false c

/-- An L.AW operation that reads no accumulator: it writes accd, or the part of it that `loc` names, and V := 0. -/
def insBody (f : AwForm) (loc : Fin 4 → SLoc) (op : Word → Acc) : Body := pureBody fun c =>
  (c.put (loc f.accd) 3 (op c.w[f.w]) false).putFlags 3 { v := some false }

/-- MULM: acca × sext(w) (R231). -/
def execMulm (core : Nat) (f : AwForm) (s : State) : Host.Outcome State Fault Refusal :=
  .next (s.sezel core 4 (unlessReserved (f.sh == 0) (awBody f fun a w => a * w.toInt)))

/-- ADDW: acca + sext(w) × 2^sh (R231). -/
def execAddw (core : Nat) (f : AwForm) (s : State) : Host.Outcome State Fault Refusal :=
  .next (s.sezel core 4 (awBody f fun a w => a + w.toInt * 2 ^ f.sh.toNat))

/-- MOVWA: sext72(w); V := 0 (R231). -/
def execMovwa (core : Nat) (f : AwForm) (s : State) : Host.Outcome State Fault Refusal :=
  .next (s.sezel core 4 (unlessReserved (f.sh == 0 && f.acca == 0) (insBody f .acc fun w => w.signExtend 72)))

/-- INSH: accd[71:32] := sext40(w); V := 0 (R231). -/
def execInsh (core : Nat) (f : AwForm) (s : State) : Host.Outcome State Fault Refusal :=
  .next (s.sezel core 4 (unlessReserved (f.sh == 0 && f.acca == 0)
    (insBody f .accHigh fun w => w.signExtend 72)))

/-- INSL: accd[31:0] := w; V := 0 (R231). -/
def execInsl (core : Nat) (f : AwForm) (s : State) : Host.Outcome State Fault Refusal :=
  .next (s.sezel core 4 (unlessReserved (f.sh == 0 && f.acca == 0)
    (insBody f .accLow fun w => w.setWidth 72)))

end Sys2Proof.Machine
end

