-- ==== Sys2Proof/Machine/SezelMem.lean ====
section
/-! DEFINITION. Loads and stores of the Sezel cores, LR.W and SC.W, CALL and RET frames (R227, R229, R239 to R241). -/

namespace Sys2Proof.Machine

end Sys2Proof.Machine

namespace Sys2Proof

open Machine

/-- Size, address and update of a word access (R227, R229): the post-modified register and its step in accesses. -/
def WordForm.size : WordForm → Nat
  | .cls _ _ _ => 2
  | _ => 4
def WordForm.reg : WordForm → Fin 16
  | .cls _ w _ => w
  | .lri rd _ _ => rd
  | .memp rd _ _ => rd
def WordForm.addr (c : SCore) : WordForm → Word
  | .cls pn _ _ => c.p[pn]
  | .lri _ ra imm => c.w[ra] + imm.signExtend 32
  | .memp _ pn _ => c.p[pn]
def WordForm.update (size : Nat) (c : SCore) : WordForm → SCore
  | .cls pn _ step => if step = 0 then c else c.postModify pn (step.toInt * size)
  | .lri _ _ _ => c
  | .memp _ pn step => c.postModify pn (step.toInt * size)

/-- The halfword and byte forms, as word forms (R229). -/
def MemForm.toWord : MemForm → WordForm
  | .lri rd ra imm => .lri rd ra imm
  | .memp rd pn step => .memp rd pn step

def AccMemForm.acc : AccMemForm → Fin 4
  | .lri a _ _ => a
  | .memp a _ _ => a
def AccMemForm.addr (c : SCore) : AccMemForm → Word
  | .lri _ ra imm => c.w[ra] + imm.signExtend 32
  | .memp _ pn _ => c.p[pn]
def AccMemForm.update (c : SCore) : AccMemForm → SCore
  | .lri _ _ _ => c
  | .memp _ pn step => c.postModify pn (step.toInt * 8)

end Sys2Proof

namespace Sys2Proof.Machine

/-- A load of `n` bytes into a w register, visible at distance 2 (R227, R229, R232). -/
def loadBody (f : WordForm) (n : Nat) (upset : Bool) (ext : Nat → Word) : Body := fun s c =>
  match s.load c (f.addr c) n upset with
  | .error e => .error e
  | .ok b => .ok (s, f.update n (c.putW f.reg 2 (ext (ofLe b))), .seq)

/-- A store of the low `n` bytes of a w register. -/
def storeBody (f : WordForm) (n : Nat) : Body := fun s c =>
  match s.store c (f.addr c) (le n c.w[f.reg].toNat) with
  | .error e => .error e
  | .ok (s', c') => .ok (s', f.update n c', .seq)

/-- LDW: w := mem32 (R227, R229). -/
def execLdw (core : Nat) (f : WordForm) (upset : Bool) (s : State) : Host.Outcome State Fault Refusal :=
  .next (s.sezel core f.size (loadBody f 4 upset fun v => BitVec.ofNat 32 v))

/-- STW: mem32 := w (R227, R229). -/
def execStw (core : Nat) (f : WordForm) (s : State) : Host.Outcome State Fault Refusal :=
  .next (s.sezel core f.size (storeBody f 4))

/-- LDH: a sign-extended halfword (R229). -/
def execLdh (core : Nat) (f : MemForm) (upset : Bool) (s : State) : Host.Outcome State Fault Refusal :=
  .next (s.sezel core 4 (loadBody f.toWord 2 upset fun v => (BitVec.ofNat 16 v).signExtend 32))

/-- LDHU: a zero-extended halfword (R229). -/
def execLdhu (core : Nat) (f : MemForm) (upset : Bool) (s : State) : Host.Outcome State Fault Refusal :=
  .next (s.sezel core 4 (loadBody f.toWord 2 upset fun v => BitVec.ofNat 32 v))

/-- LDB: a sign-extended byte (R229). -/
def execLdb (core : Nat) (f : MemForm) (upset : Bool) (s : State) : Host.Outcome State Fault Refusal :=
  .next (s.sezel core 4 (loadBody f.toWord 1 upset fun v => (BitVec.ofNat 8 v).signExtend 32))

/-- LDBU: a zero-extended byte (R229). -/
def execLdbu (core : Nat) (f : MemForm) (upset : Bool) (s : State) : Host.Outcome State Fault Refusal :=
  .next (s.sezel core 4 (loadBody f.toWord 1 upset fun v => BitVec.ofNat 32 v))

/-- STH: the low halfword (R229). -/
def execSth (core : Nat) (f : MemForm) (s : State) : Host.Outcome State Fault Refusal :=
  .next (s.sezel core 4 (storeBody f.toWord 2))

/-- STB: the low byte (R229). -/
def execStb (core : Nat) (f : MemForm) (s : State) : Host.Outcome State Fault Refusal :=
  .next (s.sezel core 4 (storeBody f.toWord 1))

/-- LDA: acc := sext72(mem64), visible at distance 2 (R229). -/
def ldaBody (f : AccMemForm) (upset : Bool) : Body := fun s c =>
  match s.load c (f.addr c) 8 upset with
  | .error e => .error e
  | .ok b => .ok (s, f.update (c.put (.acc f.acc) 2 ((BitVec.ofNat 64 (ofLe b)).signExtend 72) false), .seq)

/-- STA: mem64 := fit_64(acc); V, SATF (R229). -/
def staBody (f : AccMemForm) : Body := fun s c =>
  let r := fit 64 c.sat c.acc[f.acc].toInt
  match s.store c (f.addr c) (le 8 (BitVec.ofInt 64 r.value).toNat) with
  | .error e => .error e
  | .ok (s', c') => .ok (s', (f.update c').putFlags 1 { v := some r.v, satf := r.satf }, .seq)

/-- LDA (R229). -/
def execLda (core : Nat) (f : AccMemForm) (upset : Bool) (s : State) : Host.Outcome State Fault Refusal :=
  .next (s.sezel core 4 (ldaBody f upset))

/-- STA (R229). -/
def execSta (core : Nat) (f : AccMemForm) (s : State) : Host.Outcome State Fault Refusal :=
  .next (s.sezel core 4 (staBody f))

/-- Whether LR.W and SC.W are valid at a place (R239): data memory and the own die's shared SRAM. -/
def State.lrscFault (s : State) (c : SCore) (addr : Word) : Option CoreFault :=
  if addr.toNat % 4 ≠ 0 then some ⟨causeMisaligned, addr⟩
  else if 0x20000000 ≤ addr.toNat ∧ addr.toNat ≤ 0x21FFFFFF then
    match s.place c.slot addr.toNat with
    | .shared _ _ _ => none
    | _ => some ⟨causeGrant, addr⟩
  else match s.place c.slot addr.toNat with
    | .data _ => none
    | _ => some ⟨causeLrscRegion, addr⟩

/-- LR.W: rd := mem32[pn], visible at distance 2, and the reservation moves to its granule (R239). -/
def lrBody (rd : Fin 16) (pn : Fin 8) (upset : Bool) : Body := fun s c =>
  match s.lrscFault c c.p[pn] with
  | some f => .error f
  | none =>
    match s.load c c.p[pn] 4 upset with
    | .error e => .error e
    | .ok b => .ok (s, { c.putW rd 2 (BitVec.ofNat 32 (ofLe b)) with
        reservation := (s.place c.slot c.p[pn].toNat).granule }, .seq)

/-- SC.W: stores and writes 0 where the reservation is set on the granule, else writes 1; the reservation goes (R239). -/
def scBody (rd : Fin 16) (pn : Fin 8) (ws : Fin 16) : Body := fun s c =>
  match s.lrscFault c c.p[pn] with
  | some f => .error f
  | none =>
    if c.reservation.isSome && c.reservation = (s.place c.slot c.p[pn].toNat).granule then
      match s.store c c.p[pn] (le 4 c.w[ws].toNat) with
      | .error e => .error e
      | .ok (s', c') => .ok (s', { c'.putW rd 2 0 with reservation := none }, .seq)
    else .ok (s, { c.putW rd 2 1 with reservation := none }, .seq)

/-- LR.W (R239). -/
def execLrW (core : Nat) (rd : Fin 16) (pn : Fin 8) (upset : Bool) (s : State) : Host.Outcome State Fault Refusal :=
  .next (s.sezel core 4 (lrBody rd pn upset))

/-- SC.W (R239). -/
def execScW (core : Nat) (rd : Fin 16) (pn : Fin 8) (ws : Fin 16) (s : State) : Host.Outcome State Fault Refusal :=
  .next (s.sezel core 4 (scBody rd pn ws))

/-- The registers a CALL mask names, in ascending order (Table 9.18). -/
def maskRegs (mask : Nat) : List (Fin 16) := (List.finRange 16).filter fun i => mask.testBit i.val

/-- Store a list of words from an address up: all of them, or the first fault. -/
def State.storeWords (s : State) (c : SCore) (addr : Word) : List Word → Except CoreFault (State × SCore)
  | [] => .ok (s, c)
  | v :: vs =>
    match s.store c addr (le 4 v.toNat) with
    | .error e => .error e
    | .ok (s', c') => s'.storeWords c' (addr + 4) vs

/-- Load `n` words from an address up. -/
def State.loadWords (s : State) (c : SCore) (addr : Word) (upset : Bool) : Nat → Except CoreFault (List Word)
  | 0 => .ok []
  | n + 1 =>
    match s.load c addr 4 upset with
    | .error e => .error e
    | .ok b =>
      match s.loadWords c (addr + 4) upset n with
      | .error e => .error e
      | .ok vs => .ok (BitVec.ofNat 32 (ofLe b) :: vs)

/-- The size of the instruction at an address: its first halfword's bits [15:14] (R223). -/
def SCore.sizeAt (c : SCore) (pc : Word) : Nat :=
  if 0xC0 ≤ (c.imem.read (pc.toNat + 1)).toNat then 4 else 2

/-- CALL rt, mask (R240): the frame goes to p7 − 4 × (n + 2), its return address is past the delay slot. -/
def callBody (rt : Fin 16) (mask : BitVec 16) : Body := fun s c =>
  let regs := maskRegs mask.toNat
  let p7 := c.p[7] - BitVec.ofNat 32 (4 * (regs.length + 2))
  let slot := c.pc + 4
  let frame := (slot + BitVec.ofNat 32 (c.sizeAt slot)) :: mask.setWidth 32 :: regs.map fun i => c.w[i]
  match s.storeWords c p7 frame with
  | .error e => .error e
  | .ok (s', c') => .ok (s', { c' with p := c'.p.set 7 p7 }, .transfer (some c.w[rt]))

/-- RET (R241): the return address and mask at p7, the saved registers, p7 past the frame; BAD_FRAME where bits [31:16]
of the mask word are not zero. -/
def retBody (upset : Bool) : Body := fun s c =>
  match s.loadWords c c.p[7] upset 2 with
  | .error e => .error e
  | .ok hd =>
    let mask := (hd.getD 1 0).toNat
    if 0xFFFF < mask then .error ⟨causeBadFrame, c.p[7]⟩
    else
      let regs := maskRegs mask
      match s.loadWords c (c.p[7] + 8) upset regs.length with
      | .error e => .error e
      | .ok vs =>
        let c' := (regs.zip vs).foldl (fun c rv => c.putW rv.1 1 rv.2) c
        .ok (s, { c' with p := c'.p.set 7 (c.p[7] + BitVec.ofNat 32 (4 * (regs.length + 2))) },
          .transfer (some (hd.getD 0 0)))

/-- CALL (R240). -/
def execCall (core : Nat) (rt : Fin 16) (mask : BitVec 16) (s : State) : Host.Outcome State Fault Refusal :=
  .next (s.sezel core 4 (callBody rt mask))

/-- RET (R241). -/
def execRet (core : Nat) (upset : Bool) (s : State) : Host.Outcome State Fault Refusal :=
  .next (s.sezel core 2 (retBody upset))

end Sys2Proof.Machine
end

