-- ==== Sys2Proof/Machine/Dispatch.lean ====
section
/-! DEFINITION. One arm per command of spec/opcode_table.json, each a direct call of its meaning. An event whose conditions do not
hold does not come about and leaves the state as it is (DESIGN CHOICE, log entry 12). -/

namespace Sys2Proof.Machine

def exec (i : Instr) (s : State) : Host.Outcome State Fault Refusal :=
  match i with
  | .vbatRise => Sys2Proof.Machine.execVbatRise s
  | .vaultLoss => Sys2Proof.Machine.execVaultLoss s
  | .mainRailsGood noise => Sys2Proof.Machine.execMainRailsGood noise s
  | .mainRailLoss => Sys2Proof.Machine.execMainRailLoss s
  | .refclkDetectTimeout => Sys2Proof.Machine.execRefclkDetectTimeout s
  | .islandLock island => Sys2Proof.Machine.execIslandLock island s
  | .monitorArm monitor => Sys2Proof.Machine.execMonitorArm monitor s
  | .selfTestStart chans kat => Sys2Proof.Machine.execSelfTestStart chans kat s
  | .firstSeed => Sys2Proof.Machine.execFirstSeed s
  | .loadStep margins => Sys2Proof.Machine.execLoadStep margins s
  | .ledgerSelfTest verified => Sys2Proof.Machine.execLedgerSelfTest verified s
  | .selfTestComplete => Sys2Proof.Machine.execSelfTestComplete s
  | .modeRequestStandby v => Sys2Proof.Machine.execModeRequestStandby v s
  | .modeRequestService v => Sys2Proof.Machine.execModeRequestService v s
  | .serviceEntryComplete env => Sys2Proof.Machine.execServiceEntryComplete env s
  | .modeRequestCeremony v => Sys2Proof.Machine.execModeRequestCeremony v s
  | .heldRequestExecute => Sys2Proof.Machine.execHeldRequestExecute s
  | .restartRequest v value noise => Sys2Proof.Machine.execRestartRequest v value noise s
  | .perstAssert noise => Sys2Proof.Machine.execPerstAssert noise s
  | .perstRelease => Sys2Proof.Machine.execPerstRelease s
  | .functionLevelReset fn => Sys2Proof.Machine.execFunctionLevelReset fn s
  | .flrKeyReunwrap fn env => Sys2Proof.Machine.execFlrKeyReunwrap fn env s
  | .vfEnableClear => Sys2Proof.Machine.execVfEnableClear s
  | .d3hotToD0 fn => Sys2Proof.Machine.execD3hotToD0 fn s
  | .drainRoleHandover => Sys2Proof.Machine.execDrainRoleHandover s
  | .drainLimitExpiry => Sys2Proof.Machine.execDrainLimitExpiry s
  | .drainComplete noise => Sys2Proof.Machine.execDrainComplete noise s
  | .vaultModeAlarm monitors => Sys2Proof.Machine.execVaultModeAlarm monitors s
  | .shieldCompare differing => Sys2Proof.Machine.execShieldCompare differing s
  | .sqTailDb loc index env => Sys2Proof.Machine.execSqTailDb loc index env s
  | .cqHeadDb loc index => Sys2Proof.Machine.execCqHeadDb loc index s
  | .qCfgWrite loc value => Sys2Proof.Machine.execQCfgWrite loc value s
  | .cqStallTimeout fn q => Sys2Proof.Machine.execCqStallTimeout fn q s
  | .descriptorFetch => Sys2Proof.Machine.execDescriptorFetch s
  | .takeReserve id => Sys2Proof.Machine.execTakeReserve id s
  | .sealTakeArrival id => Sys2Proof.Machine.execSealTakeArrival id s
  | .takeDigestComplete id => Sys2Proof.Machine.execTakeDigestComplete id s
  | .manifestDeadline mid => Sys2Proof.Machine.execManifestDeadline mid s
  | .manifestRootComplete mid => Sys2Proof.Machine.execManifestRootComplete mid s
  | .manifestSigningComplete mid ecEnd mlEnd => Sys2Proof.Machine.execManifestSigningComplete mid ecEnd mlEnd s
  | .individualSignComplete id fin => Sys2Proof.Machine.execIndividualSignComplete id fin s
  | .individualVerifyComplete id fin => Sys2Proof.Machine.execIndividualVerifyComplete id fin s
  | .resultTimeout id => Sys2Proof.Machine.execResultTimeout id s
  | .takeLanding id compareEqual => Sys2Proof.Machine.execTakeLanding id compareEqual s
  | .journalSignComplete id => Sys2Proof.Machine.execJournalSignComplete id s
  | .timeCorrection v c => Sys2Proof.Machine.execTimeCorrection v c s
  | .slewAbsorbed => Sys2Proof.Machine.execSlewAbsorbed s
  | .timebaseCompare rtcAdvance => Sys2Proof.Machine.execTimebaseCompare rtcAdvance s
  | .deviceTimeSet v t => Sys2Proof.Machine.execDeviceTimeSet v t s
  | .timeFloorAdvance => Sys2Proof.Machine.execTimeFloorAdvance s
  | .timebaseTick ns => Sys2Proof.Machine.execTimebaseTick ns s
  | .gateCloseTimeWrite v gate time => Sys2Proof.Machine.execGateCloseTimeWrite v gate time s
  | .gateOwnerWrite v gate owner => Sys2Proof.Machine.execGateOwnerWrite v gate owner s
  | .windowOwnerWrite v w owner => Sys2Proof.Machine.execWindowOwnerWrite v w owner s
  | .windowReassignComplete w => Sys2Proof.Machine.execWindowReassignComplete w s
  | .slotApply v tenant => Sys2Proof.Machine.execSlotApply v tenant s
  | .slotReopen tenant => Sys2Proof.Machine.execSlotReopen tenant s
  | .checkpointStart => Sys2Proof.Machine.execCheckpointStart s
  | .checkpointCommit => Sys2Proof.Machine.execCheckpointCommit s
  | .tapConsumedWrite v value => Sys2Proof.Machine.execTapConsumedWrite v value s
  | .tapWriteFault => Sys2Proof.Machine.execTapWriteFault s
  | .tapRingApply => Sys2Proof.Machine.execTapRingApply s
  | .stow => Sys2Proof.Machine.execStow s
  | .pwrfailRelease => Sys2Proof.Machine.execPwrfailRelease s
  | .recoveryStart v env => Sys2Proof.Machine.execRecoveryStart v env s
  | .rebuildStart env => Sys2Proof.Machine.execRebuildStart env s
  | .recoveryComplete => Sys2Proof.Machine.execRecoveryComplete s
  | .recoveryWaitExpiry => Sys2Proof.Machine.execRecoveryWaitExpiry s
  | .memoryScrub bad => Sys2Proof.Machine.execMemoryScrub bad s
  | .liEngineOwnerWrite v e owner => Sys2Proof.Machine.execLiEngineOwnerWrite v e owner s
  | .ecdsaSign loc env => Sys2Proof.Machine.execEcdsaSign loc env s
  | .ecdsaVerify loc env => Sys2Proof.Machine.execEcdsaVerify loc env s
  | .eddsaSign loc env => Sys2Proof.Machine.execEddsaSign loc env s
  | .eddsaVerify loc env => Sys2Proof.Machine.execEddsaVerify loc env s
  | .ecdh loc env => Sys2Proof.Machine.execEcdh loc env s
  | .ecKeygen loc env => Sys2Proof.Machine.execEcKeygen loc env s
  | .ecPointCheck loc env => Sys2Proof.Machine.execEcPointCheck loc env s
  | .rsaPrivate loc env => Sys2Proof.Machine.execRsaPrivate loc env s
  | .rsaPublic loc env => Sys2Proof.Machine.execRsaPublic loc env s
  | .curveLoad loc env => Sys2Proof.Machine.execCurveLoad loc env s
  | .curveUnload loc env => Sys2Proof.Machine.execCurveUnload loc env s
  | .abort loc => Sys2Proof.Machine.execAbort loc s
  | .lieCommandComplete e faultCheck => Sys2Proof.Machine.execLieCommandComplete e faultCheck s
  | .liUcodeLoad v value env => Sys2Proof.Machine.execLiUcodeLoad v value env s
  | .ucodeLoadDone katOk => Sys2Proof.Machine.execUcodeLoadDone katOk s
  | .liUcodeMinVersionWrite v value => Sys2Proof.Machine.execLiUcodeMinVersionWrite v value s
  | .latticeSignRound u => Sys2Proof.Machine.execLatticeSignRound u s
  | .latticeOpComplete u checkFailed => Sys2Proof.Machine.execLatticeOpComplete u checkFailed s
  | .entropyHealthFail sources test => Sys2Proof.Machine.execEntropyHealthFail sources test s
  | .sourceRestart failed => Sys2Proof.Machine.execSourceRestart failed s
  | .entropyDeliveryResume => Sys2Proof.Machine.execEntropyDeliveryResume s
  | .enLatchClear v value failed => Sys2Proof.Machine.execEnLatchClear v value failed s
  | .conditioningBlock block => Sys2Proof.Machine.execConditioningBlock block s
  | .drbgReseedCount n => Sys2Proof.Machine.execDrbgReseedCount n s
  | .drbgReseedInterval n => Sys2Proof.Machine.execDrbgReseedInterval n s
  | .drbgReinstantiate n => Sys2Proof.Machine.execDrbgReinstantiate n s
  | .rngDataRead loc size => Sys2Proof.Machine.execRngDataRead loc size s
  | .rngFifoRefill fn => Sys2Proof.Machine.execRngFifoRefill fn s
  | .drawSeedReady => Sys2Proof.Machine.execDrawSeedReady s
  | .mov core rd rs => Sys2Proof.Machine.execMov core rd rs s
  | .add core f => Sys2Proof.Machine.execAdd core f s
  | .sub core f => Sys2Proof.Machine.execSub core f s
  | .and core f => Sys2Proof.Machine.execAnd core f s
  | .or core f => Sys2Proof.Machine.execOr core f s
  | .xor core f => Sys2Proof.Machine.execXor core f s
  | .shl core f => Sys2Proof.Machine.execShl core f s
  | .shr core f => Sys2Proof.Machine.execShr core f s
  | .sra core f => Sys2Proof.Machine.execSra core f s
  | .cmp core rd rs => Sys2Proof.Machine.execCmp core rd rs s
  | .neg core rd rs => Sys2Proof.Machine.execNeg core rd rs s
  | .not core rd rs => Sys2Proof.Machine.execNot core rd rs s
  | .mul core f => Sys2Proof.Machine.execMul core f s
  | .fadd core f => Sys2Proof.Machine.execFadd core f s
  | .fsub core f => Sys2Proof.Machine.execFsub core f s
  | .fmul core f => Sys2Proof.Machine.execFmul core f s
  | .fmul16 core f => Sys2Proof.Machine.execFmul16 core f s
  | .abs core rd rs => Sys2Proof.Machine.execAbs core rd rs s
  | .min core f => Sys2Proof.Machine.execMin core f s
  | .max core f => Sys2Proof.Machine.execMax core f s
  | .movp core pd rs => Sys2Proof.Machine.execMovp core pd rs s
  | .movw core rd ps => Sys2Proof.Machine.execMovw core rd ps s
  | .jr core rs => Sys2Proof.Machine.execJr core rs s
  | .sxth core rd rs => Sys2Proof.Machine.execSxth core rd rs s
  | .zxth core rd rs => Sys2Proof.Machine.execZxth core rd rs s
  | .movi core rd imm => Sys2Proof.Machine.execMovi core rd imm s
  | .addi core rd imm => Sys2Proof.Machine.execAddi core rd imm s
  | .cmpi core rd imm => Sys2Proof.Machine.execCmpi core rd imm s
  | .shli core rd imm => Sys2Proof.Machine.execShli core rd imm s
  | .shri core rd imm => Sys2Proof.Machine.execShri core rd imm s
  | .srai core rd imm => Sys2Proof.Machine.execSrai core rd imm s
  | .andi core rd imm => Sys2Proof.Machine.execAndi core rd imm s
  | .addp core pd imm => Sys2Proof.Machine.execAddp core pd imm s
  | .ldw core f upset => Sys2Proof.Machine.execLdw core f upset s
  | .stw core f => Sys2Proof.Machine.execStw core f s
  | .macF core f => Sys2Proof.Machine.execMacF core f s
  | .msuF core f => Sys2Proof.Machine.execMsuF core f s
  | .mpyF core f => Sys2Proof.Machine.execMpyF core f s
  | .macI core f => Sys2Proof.Machine.execMacI core f s
  | .nop core => Sys2Proof.Machine.execNop core s
  | .ret core upset => Sys2Proof.Machine.execRet core upset s
  | .wait core => Sys2Proof.Machine.execWait core s
  | .waitResume core => Sys2Proof.Machine.execWaitResume core s
  | .clra core acc => Sys2Proof.Machine.execClra core acc s
  | .mova core accd accs => Sys2Proof.Machine.execMova core accd accs s
  | .nega core accd accs => Sys2Proof.Machine.execNega core accd accs s
  | .lpclr core level => Sys2Proof.Machine.execLpclr core level s
  | .fence core => Sys2Proof.Machine.execFence core s
  | .halt core code => Sys2Proof.Machine.execHalt core code s
  | .bkpt core => Sys2Proof.Machine.execBkpt core s
  | .cB core cond offset => Sys2Proof.Machine.execCB core cond offset s
  | .bL core cond offset => Sys2Proof.Machine.execBL core cond offset s
  | .addi32 core rd ra imm => Sys2Proof.Machine.execAddi32 core rd ra imm s
  | .andi32 core rd ra imm => Sys2Proof.Machine.execAndi32 core rd ra imm s
  | .ori core rd ra imm => Sys2Proof.Machine.execOri core rd ra imm s
  | .xori core rd ra imm => Sys2Proof.Machine.execXori core rd ra imm s
  | .lui core rd imm => Sys2Proof.Machine.execLui core rd imm s
  | .cmpi32 core ra imm => Sys2Proof.Machine.execCmpi32 core ra imm s
  | .muli core rd ra imm => Sys2Proof.Machine.execMuli core rd ra imm s
  | .ldh core f upset => Sys2Proof.Machine.execLdh core f upset s
  | .ldhu core f upset => Sys2Proof.Machine.execLdhu core f upset s
  | .sth core f => Sys2Proof.Machine.execSth core f s
  | .ldb core f upset => Sys2Proof.Machine.execLdb core f upset s
  | .ldbu core f upset => Sys2Proof.Machine.execLdbu core f upset s
  | .stb core f => Sys2Proof.Machine.execStb core f s
  | .lda core f upset => Sys2Proof.Machine.execLda core f upset s
  | .sta core f => Sys2Proof.Machine.execSta core f s
  | .lrW core rd pn upset => Sys2Proof.Machine.execLrW core rd pn upset s
  | .scW core rd pn ws => Sys2Proof.Machine.execScW core rd pn ws s
  | .adr core rd offset => Sys2Proof.Machine.execAdr core rd offset s
  | .call core rt mask => Sys2Proof.Machine.execCall core rt mask s
  | .loop core level count e => Sys2Proof.Machine.execLoop core level count e s
  | .csrr core rd csr => Sys2Proof.Machine.execCsrr core rd csr s
  | .csrw core rs csr => Sys2Proof.Machine.execCsrw core rs csr s
  | .extF core f => Sys2Proof.Machine.execExtF core f s
  | .extH core f => Sys2Proof.Machine.execExtH core f s
  | .extI core f => Sys2Proof.Machine.execExtI core f s
  | .extRaw core rd acc sh => Sys2Proof.Machine.execExtRaw core rd acc sh s
  | .adda core f => Sys2Proof.Machine.execAdda core f s
  | .suba core f => Sys2Proof.Machine.execSuba core f s
  | .diva core f => Sys2Proof.Machine.execDiva core f s
  | .rema core f => Sys2Proof.Machine.execRema core f s
  | .rndm core f => Sys2Proof.Machine.execRndm core f s
  | .shla core f => Sys2Proof.Machine.execShla core f s
  | .sraa core f => Sys2Proof.Machine.execSraa core f s
  | .cmpa core f => Sys2Proof.Machine.execCmpa core f s
  | .mulm core f => Sys2Proof.Machine.execMulm core f s
  | .addw core f => Sys2Proof.Machine.execAddw core f s
  | .movwa core f => Sys2Proof.Machine.execMovwa core f s
  | .insh core f => Sys2Proof.Machine.execInsh core f s
  | .insl core f => Sys2Proof.Machine.execInsl core f s
  | .msuI core f => Sys2Proof.Machine.execMsuI core f s
  | .mpyI core f => Sys2Proof.Machine.execMpyI core f s
  | .macH core f => Sys2Proof.Machine.execMacH core f s
  | .msuH core f => Sys2Proof.Machine.execMsuH core f s
  | .mpyH core f => Sys2Proof.Machine.execMpyH core f s
  | .macU core f => Sys2Proof.Machine.execMacU core f s
  | .appletLoad v value env => Sys2Proof.Machine.execAppletLoad v value env s
  | .appletInstall t => Sys2Proof.Machine.execAppletInstall t s
  | .appletUnload v slot => Sys2Proof.Machine.execAppletUnload v slot s
  | .mbInTailDb loc index env => Sys2Proof.Machine.execMbInTailDb loc index env s
  | .mbOutHeadDb loc index => Sys2Proof.Machine.execMbOutHeadDb loc index s
  | .mbCfgWrite loc value => Sys2Proof.Machine.execMbCfgWrite loc value s
  | .mbInboundCopy slot => Sys2Proof.Machine.execMbInboundCopy slot s
  | .mbOutboundCopy slot => Sys2Proof.Machine.execMbOutboundCopy slot s
  | .random core => Sys2Proof.Machine.execRandom core s
  | .hash core => Sys2Proof.Machine.execHash core s
  | .lie core => Sys2Proof.Machine.execLie core s
  | .latticeKeygen core => Sys2Proof.Machine.execLatticeKeygen core s
  | .latticeSign core => Sys2Proof.Machine.execLatticeSign core s
  | .latticeVerify core => Sys2Proof.Machine.execLatticeVerify core s
  | .latticeEncaps core => Sys2Proof.Machine.execLatticeEncaps core s
  | .latticeDecaps core => Sys2Proof.Machine.execLatticeDecaps core s
  | .drawClaim core => Sys2Proof.Machine.execDrawClaim core s
  | .drawCommit core => Sys2Proof.Machine.execDrawCommit core s
  | .drawCommitAck => Sys2Proof.Machine.execDrawCommitAck s
  | .drawRelease core => Sys2Proof.Machine.execDrawRelease core s
  | .sealRecord core => Sys2Proof.Machine.execSealRecord core s
  | .statsPublish core => Sys2Proof.Machine.execStatsPublish core s
  | .mbxGo loc env => Sys2Proof.Machine.execMbxGo loc env s
  | .read v tenant index sub offset length => Sys2Proof.Machine.execRead v tenant index sub offset length s
  | .write v tenant index sub part offset value env => Sys2Proof.Machine.execWrite v tenant index sub part offset value env s
  | .describe v tenant index sub => Sys2Proof.Machine.execDescribe v tenant index sub s
  | .next v tenant index sub => Sys2Proof.Machine.execNext v tenant index sub s
  | .stagingTimeout v => Sys2Proof.Machine.execStagingTimeout v s
  | .helloC h => Sys2Proof.Machine.execHelloC h s
  | .finishC src sid tagOk sigOk => Sys2Proof.Machine.execFinishC src sid tagOk sigOk s
  | .halfOpenTimeout => Sys2Proof.Machine.execHalfOpenTimeout s
  | .yilileData src sid seq tagOk plain => Sys2Proof.Machine.execYilileData src sid seq tagOk plain s
  | .yilileClose src sid seq tagOk => Sys2Proof.Machine.execYilileClose src sid seq tagOk s
  | .sessionIdleTimeout => Sys2Proof.Machine.execSessionIdleTimeout s
  | .spLinkDownTimeout => Sys2Proof.Machine.execSpLinkDownTimeout s
  | .arpRequest senderIp senderMac targetIp => Sys2Proof.Machine.execArpRequest senderIp senderMac targetIp s
  | .arpCacheExpiry ip => Sys2Proof.Machine.execArpCacheExpiry ip s
  | .icmpEcho srcIp dstIp payload => Sys2Proof.Machine.execIcmpEcho srcIp dstIp payload s
  | .phyPoll reg1 speed => Sys2Proof.Machine.execPhyPoll reg1 speed s
  | .mdioRead phyad regad => Sys2Proof.Machine.execMdioRead phyad regad s
  | .mdioWrite phyad regad data => Sys2Proof.Machine.execMdioWrite phyad regad data s
  | .spEnableWrite v value => Sys2Proof.Machine.execSpEnableWrite v value s
  | .spRootDigestWrite v digest => Sys2Proof.Machine.execSpRootDigestWrite v digest s
  | .registerWrite v loc size value env => Sys2Proof.Machine.execRegisterWrite v loc size value env s
  | .rcRead v loc size => Sys2Proof.Machine.execRcRead v loc size s
  | .blockLockWrite v value => Sys2Proof.Machine.execBlockLockWrite v value s
  | .parityScan found => Sys2Proof.Machine.execParityScan found s
  | .msixUnmask fn vector => Sys2Proof.Machine.execMsixUnmask fn vector s
  | .keyGenerate v tenant value => Sys2Proof.Machine.execKeyGenerate v tenant value s
  | .keyImport v tenant value => Sys2Proof.Machine.execKeyImport v tenant value s
  | .keyOpComplete checkFailed => Sys2Proof.Machine.execKeyOpComplete checkFailed s
  | .keyDelete v tenant value => Sys2Proof.Machine.execKeyDelete v tenant value s
  | .keyPublicRead v tenant => Sys2Proof.Machine.execKeyPublicRead v tenant s
  | .keyAttestationRead v tenant => Sys2Proof.Machine.execKeyAttestationRead v tenant s
  | .journalKeyAttestationRead v => Sys2Proof.Machine.execJournalKeyAttestationRead v s
  | .reelOpen v value env => Sys2Proof.Machine.execReelOpen v value env s
  | .openAck f => Sys2Proof.Machine.execOpenAck f s
  | .recorderRefuse reelId => Sys2Proof.Machine.execRecorderRefuse reelId s
  | .openTimeout => Sys2Proof.Machine.execOpenTimeout s
  | .pickupVerified => Sys2Proof.Machine.execPickupVerified s
  | .pickupWaive v value => Sys2Proof.Machine.execPickupWaive v value s
  | .reelFrameTick => Sys2Proof.Machine.execReelFrameTick s
  | .statusFrame f => Sys2Proof.Machine.execStatusFrame f s
  | .statusLimitExpiry => Sys2Proof.Machine.execStatusLimitExpiry s
  | .ackLimitExpiry => Sys2Proof.Machine.execAckLimitExpiry s
  | .stallRecovery => Sys2Proof.Machine.execStallRecovery s
  | .reelBufferResume => Sys2Proof.Machine.execReelBufferResume s
  | .reelStop v value => Sys2Proof.Machine.execReelStop v value s
  | .reelEndAppend => Sys2Proof.Machine.execReelEndAppend s
  | .portLanesLocked p => Sys2Proof.Machine.execPortLanesLocked p s
  | .trainingTimeout p => Sys2Proof.Machine.execTrainingTimeout p s
  | .keyingTimeout p => Sys2Proof.Machine.execKeyingTimeout p s
  | .keyingRetry p => Sys2Proof.Machine.execKeyingRetry p s
  | .hello p h => Sys2Proof.Machine.execHello p h s
  | .linkIdleTimeout p => Sys2Proof.Machine.execLinkIdleTimeout p s
  | .creditTick p => Sys2Proof.Machine.execCreditTick p s
  | .credit h => Sys2Proof.Machine.execCredit h s
  | .creditStallTimer p vc => Sys2Proof.Machine.execCreditStallTimer p vc s
  | .linkRequestResend reqId => Sys2Proof.Machine.execLinkRequestResend reqId s
  | .linkFrameForward h type payload => Sys2Proof.Machine.execLinkFrameForward h type payload s
  | .leaseReq h slot => Sys2Proof.Machine.execLeaseReq h slot s
  | .leaseGrant h slot range => Sys2Proof.Machine.execLeaseGrant h slot range s
  | .roleOffer h r tenant => Sys2Proof.Machine.execRoleOffer h r tenant s
  | .roleAnswer h answer => Sys2Proof.Machine.execRoleAnswer h answer s
  | .roleOfferTimeout => Sys2Proof.Machine.execRoleOfferTimeout s
  | .roleApply v value => Sys2Proof.Machine.execRoleApply v value s
  | .mirrorRec h m => Sys2Proof.Machine.execMirrorRec h m s
  | .mirrorAck h slot roleEpoch serial => Sys2Proof.Machine.execMirrorAck h slot roleEpoch serial s
  | .mirrorRefuse h slot roleEpoch serial => Sys2Proof.Machine.execMirrorRefuse h slot roleEpoch serial s
  | .mirrorTimeoutExpiry id => Sys2Proof.Machine.execMirrorTimeoutExpiry id s
  | .syncReqTick slot => Sys2Proof.Machine.execSyncReqTick slot s
  | .syncReq h r => Sys2Proof.Machine.execSyncReq h r s
  | .syncImage h r => Sys2Proof.Machine.execSyncImage h r s
  | .roleNotice h slot roleEpoch => Sys2Proof.Machine.execRoleNotice h slot roleEpoch s
  | .handover h r => Sys2Proof.Machine.execHandover h r s
  | .release h slots => Sys2Proof.Machine.execRelease h slots s
  | .leaseReturn h slot range => Sys2Proof.Machine.execLeaseReturn h slot range s
  | .heartbeatTick => Sys2Proof.Machine.execHeartbeatTick s
  | .heartbeat h => Sys2Proof.Machine.execHeartbeat h s
  | .memberLoss m => Sys2Proof.Machine.execMemberLoss m s
  | .takeoverComplete slot => Sys2Proof.Machine.execTakeoverComplete slot s
  | .dirReq h request => Sys2Proof.Machine.execDirReq h request s
  | .dirResp h response => Sys2Proof.Machine.execDirResp h response s
  | .ceremonyClaim h unitId => Sys2Proof.Machine.execCeremonyClaim h unitId s
  | .claimAnswer h granted => Sys2Proof.Machine.execClaimAnswer h granted s
  | .ceremonyClaimTimeout => Sys2Proof.Machine.execCeremonyClaimTimeout s
  | .ceremonyEnd h => Sys2Proof.Machine.execCeremonyEnd h s
  | .memberUnitIdWrite v m unitId => Sys2Proof.Machine.execMemberUnitIdWrite v m unitId s
  | .fleetEnableWrite v value => Sys2Proof.Machine.execFleetEnableWrite v value s
  | .cardInsertion facts => Sys2Proof.Machine.execCardInsertion facts s
  | .cardCommandComplete reply => Sys2Proof.Machine.execCardCommandComplete reply s
  | .cardRemoval => Sys2Proof.Machine.execCardRemoval s
  | .cardTimeout => Sys2Proof.Machine.execCardTimeout s
  | .cardRetuneTimer low high => Sys2Proof.Machine.execCardRetuneTimer low high s
  | .cardTempPoll temperature low high => Sys2Proof.Machine.execCardTempPoll temperature low high s
  | .cardRead v value => Sys2Proof.Machine.execCardRead v value s
  | .cardWrite v value => Sys2Proof.Machine.execCardWrite v value s
  | .cardFormat v value => Sys2Proof.Machine.execCardFormat v value s
  | .chCfgWrite value => Sys2Proof.Machine.execChCfgWrite value s
  | .eraseAlarm monitor => Sys2Proof.Machine.execEraseAlarm monitor s
  | .holdAlarm monitor => Sys2Proof.Machine.execHoldAlarm monitor s
  | .monitorWarning monitor => Sys2Proof.Machine.execMonitorWarning monitor s
  | .coalescingWindowClose => Sys2Proof.Machine.execCoalescingWindowClose s
  | .holdSourceInRange source => Sys2Proof.Machine.execHoldSourceInRange source s
  | .postEraseAlarm monitor => Sys2Proof.Machine.execPostEraseAlarm monitor s
  | .gangwayRekeyed g => Sys2Proof.Machine.execGangwayRekeyed g s
  | .evidenceWriteDone => Sys2Proof.Machine.execEvidenceWriteDone s
  | .tamperEraseFusedWrite v value => Sys2Proof.Machine.execTamperEraseFusedWrite v value s
  | .tamperGroupDisableWrite v value => Sys2Proof.Machine.execTamperGroupDisableWrite v value s
  | .evidenceArchiveMarkWrite v value => Sys2Proof.Machine.execEvidenceArchiveMarkWrite v value s
  | .evidenceHeadSignatureRead v => Sys2Proof.Machine.execEvidenceHeadSignatureRead v s
  | .reprovision v value => Sys2Proof.Machine.execReprovision v value s
  | .reprovisionComplete => Sys2Proof.Machine.execReprovisionComplete s
  | .lcRequest v value => Sys2Proof.Machine.execLcRequest v value s
  | .lcXfer value => Sys2Proof.Machine.execLcXfer value s
  | .lcBurnComplete => Sys2Proof.Machine.execLcBurnComplete s
  | .lcCertGo value env => Sys2Proof.Machine.execLcCertGo value env s
  | .certCheck => Sys2Proof.Machine.execCertCheck s
  | .debugChallengeIssue v value => Sys2Proof.Machine.execDebugChallengeIssue v value s
  | .debugResponseSubmit v value env => Sys2Proof.Machine.execDebugResponseSubmit v value env s
  | .tapReset => Sys2Proof.Machine.execTapReset s
  | .extest drive => Sys2Proof.Machine.execExtest drive s
  | .samplePreload pins preload => Sys2Proof.Machine.execSamplePreload pins preload s
  | .idcode => Sys2Proof.Machine.execIdcode s
  | .clamp => Sys2Proof.Machine.execClamp s
  | .lcStatus => Sys2Proof.Machine.execLcStatus s
  | .lcAuth cert => Sys2Proof.Machine.execLcAuth cert s
  | .dbgReg shift => Sys2Proof.Machine.execDbgReg shift s
  | .dbgDir request => Sys2Proof.Machine.execDbgDir request s
  | .dbgCore core op => Sys2Proof.Machine.execDbgCore core op s
  | .dbgScan => Sys2Proof.Machine.execDbgScan s
  | .bypass => Sys2Proof.Machine.execBypass s
  | .svc core n => Sys2Proof.Machine.execSvc core n s
  | .reservedEncoding core wide => Sys2Proof.Machine.execReservedEncoding core wide s
  | .escrowLaneBlockLock lane locked => Sys2Proof.Machine.execEscrowLaneBlockLock lane locked s
  | .uncorrectableCodeword escrow lane => Sys2Proof.Machine.execUncorrectableCodeword escrow lane s
  | .spRxError => Sys2Proof.Machine.execSpRxError s
  | .yilileRecordDiscard => Sys2Proof.Machine.execYilileRecordDiscard s
  | .linkFrameDiscard h type => Sys2Proof.Machine.execLinkFrameDiscard h type s
  | .mdioOperationDone answer => Sys2Proof.Machine.execMdioOperationDone answer s
  | .referenceDetect r => Sys2Proof.Machine.execReferenceDetect r s
  | .referenceStop r => Sys2Proof.Machine.execReferenceStop r s
  | .gangwayAuthenticationFailure g => Sys2Proof.Machine.execGangwayAuthenticationFailure g s

end Sys2Proof.Machine
end

