-- ==== Sys2Proof/WellFormed.lean ====
section
/-! DEFINITION. Well-formed commands: each operand lies in the range of what it names. `exec` is defined on every command;
a command whose operands name nothing that exists changes nothing or is refused as its rule says. -/

namespace Sys2Proof

/-- A tenant has one of 64 numbers, a peer one of four ports (Table 1.5, R266). -/
def Viewer.wf : Viewer → Bool
  | .tenant t => decide (t < 64)
  | .regulator | .maker => true
  | .peer p => decide (p < 4)

def ConfigReg.wf : ConfigReg → Bool
  | .ideControl k | .ideStatus k => decide (k < 4)
  | .command | .msixControl | .numVfs | .vfControl | .powerState | .deviceControl | .deviceControl2 | .aerStatus | .aerMask
  | .aerSeverity | .sriovVfs | .sriovOffsets | .doeControl | .doeStatus | .doeWrite | .doeRead => true

/-- Inside the 64 KiB function window, the 1 MiB of BAR2 or the 8 KiB of BAR4 (Table 12.2). -/
def Loc.wf : Loc → Bool
  | .window t o => decide (t < 64) && decide (o < 65536)
  | .bar2 o => decide (o < 2 ^ 20)
  | .bar4 t o => decide (t < 64) && decide (o < 8192)
  | .config t r => decide (t < 64) && r.wf

/-- What the host places lies in the 64-bit address space. -/
def HostEnv.wf (e : HostEnv) : Bool :=
  e.blocks.all (fun b => decide (b.1 + b.2.length ≤ 2 ^ 64))
    && (match e.failing with
      | none => true
      | some r => r.all fun x => decide (x.1 ≤ x.2 ∧ x.2 < 2 ^ 64))

/-- A link frame's header fields (Table 14.2). -/
def LinkHdr.wf (h : LinkHdr) : Bool :=
  decide (h.port < 4) && decide (h.vc < 4) && decide (h.creditVc < 4) && decide (h.dest < 65536) && decide (h.src < 65536)
    && decide (h.length ≤ 4096) && decide (h.seq < 2 ^ 64) && decide (h.reqId < 2 ^ 64)

def HelloFields.wf (h : HelloFields) : Bool :=
  decide (h.unitId < 2 ^ 64) && decide (h.fleetId < 2 ^ 64) && decide (h.memberId < 65536)

def LeaseRange.wf (r : LeaseRange) : Bool := decide (r.first < 2 ^ 64) && decide (r.last < 2 ^ 64)

def GrantFields.wf (g : GrantFields) : Bool :=
  decide (g.holder < 65536) && decide (g.first < 2 ^ 64) && decide (g.last < 2 ^ 64) && decide (g.acked < 2 ^ 64)

/-- A role names one of 2,097,152 slots (R102) and two members. -/
def RoleFields.wf (r : RoleFields) : Bool :=
  decide (r.slot < 2097152) && decide (r.roleEpoch < 65536) && decide (r.home < 65536) && decide (r.mirror < 65536)
    && decide (r.serial < 2 ^ 64) && decide (r.handle < 65536) && decide (r.official < 2 ^ 64) && decide (r.landing < 2 ^ 64)
    && r.leases.all GrantFields.wf

def MirrorFields.wf (m : MirrorFields) : Bool :=
  decide (m.slot < 2097152) && decide (m.roleEpoch < 65536) && decide (m.ownerEpoch < 65536)
    && decide (m.serial < 2 ^ 64) && decide (m.continuity.length = 32)

/-- OPEN_ACK (Table 13.5). -/
def OpenAckFields.wf (f : OpenAckFields) : Bool :=
  decide (f.reelId < 2 ^ 64) && decide (f.heldCount < 2 ^ 64) && decide (f.heldContinuity.length = 32)
    && decide (f.recorderKey.length = 97) && decide (f.runOut < 65536)

/-- A status frame (Table 13.3). -/
def StatusFields.wf (f : StatusFields) : Bool :=
  decide (f.reelId < 2 ^ 64) && decide (f.statusSeq < 2 ^ 64) && decide (f.ackSeq < 2 ^ 64)
    && decide (f.heldCount < 2 ^ 64) && decide (f.freeMib < 2 ^ 32)

def NetSrc.wf (n : NetSrc) : Bool := decide (n.ip < 2 ^ 32) && decide (n.udp < 65536)

/-- A certificate (Table 11.20). -/
def Cert.wf (c : Cert) : Bool :=
  decide (c.role < 256) && decide (c.serial < 2 ^ 64) && decide (c.notBefore < 2 ^ 64) && decide (c.notAfter < 2 ^ 64)
    && decide (c.subject.length = 32) && decide (c.issuerDigest.length = 32) && decide (c.publicKey.length = 97)

def HelloCFields.wf (h : HelloCFields) : Bool :=
  h.src.wf && decide (h.nonce.length = 32) && decide (h.ephemeral.length = 97) && h.root.wf && h.signer.wf

/-- A card names modes 1 to 7 and delay taps of R353. -/
def CardFacts.wf (f : CardFacts) : Bool :=
  f.modes.all (fun m => decide (1 ≤ m ∧ m ≤ 7)) && decide (f.taps < 2 ^ 64)
    && decide (f.label.length = 512)

/-- What a parity scan finds lies somewhere. -/
def foundOk : Option (Loc × ParityCopy) → Bool
  | none => true
  | some x => x.1.wf

/-- A command's operands are in range. -/
def Instr.wf : Instr → Bool
  | .mainRailsGood noise | .perstAssert noise | .drainComplete noise => noise.all (decide <| · < 5)
  | .islandLock island => decide (island < 288)
  | .monitorArm monitor => decide (monitor < 65536)
  | .eraseAlarm m | .holdAlarm m | .monitorWarning m | .postEraseAlarm m => decide (m.monitor < 65536)
  | .modeRequestStandby v | .modeRequestService v | .modeRequestCeremony v | .timeCorrection v _
  | .deviceTimeSet v _ | .tapConsumedWrite v _ | .liUcodeMinVersionWrite v _ | .appletUnload v _
  | .read v _ _ _ _ _ | .describe v _ _ _ | .next v _ _ _ | .stagingTimeout v | .spEnableWrite v _
  | .blockLockWrite v _ | .keyGenerate v _ _ | .keyImport v _ _ | .keyDelete v _ _ | .keyPublicRead v _
  | .keyAttestationRead v _ | .journalKeyAttestationRead v | .pickupWaive v _ | .reelStop v _ | .roleApply v _
  | .fleetEnableWrite v _ | .cardRead v _ | .cardWrite v _ | .cardFormat v _ | .tamperEraseFusedWrite v _
  | .tamperGroupDisableWrite v _ | .evidenceArchiveMarkWrite v _ | .evidenceHeadSignatureRead v | .reprovision v _
  | .lcRequest v _ | .debugChallengeIssue v _ => v.wf
  | .serviceEntryComplete env | .rebuildStart env | .lcCertGo _ env => env.wf
  | .restartRequest v _ noise => v.wf && noise.all (decide <| · < 5)
  | .functionLevelReset fn | .d3hotToD0 fn | .rngFifoRefill fn => decide (fn < 64)
  | .flrKeyReunwrap fn env => decide (fn < 64) && env.wf
  | .vaultModeAlarm monitors => monitors.all (decide <| ·.monitor < 65536)
  | .shieldCompare differing => differing.all (decide <| · < 65536)
  | .sqTailDb loc _ env | .ecdsaSign loc env | .ecdsaVerify loc env | .eddsaSign loc env | .eddsaVerify loc env
  | .ecdh loc env | .ecKeygen loc env | .ecPointCheck loc env | .rsaPrivate loc env | .rsaPublic loc env
  | .curveLoad loc env | .curveUnload loc env | .mbInTailDb loc _ env | .mbxGo loc env => loc.wf && env.wf
  | .cqHeadDb loc _ | .qCfgWrite loc _ | .abort loc | .rngDataRead loc _ | .mbOutHeadDb loc _ | .mbCfgWrite loc _ =>
    loc.wf
  | .cqStallTimeout fn q => decide (fn < 64) && decide (q < 8)
  | .gateCloseTimeWrite v gate _ | .gateOwnerWrite v gate _ => v.wf && decide (gate < 65536)
  | .windowOwnerWrite v w _ => v.wf && decide (w < 2048)
  | .windowReassignComplete w => decide (w < 2048)
  | .slotApply v tenant => v.wf && decide (tenant < 64)
  | .slotReopen tenant => decide (tenant < 64)
  | .recoveryStart v env | .liUcodeLoad v _ env | .appletLoad v _ env | .reelOpen v _ env
  | .debugResponseSubmit v _ env => v.wf && env.wf
  | .liEngineOwnerWrite v e _ => v.wf && decide (e < 96)
  | .lieCommandComplete e _ => decide (e < 96)
  | .latticeSignRound u | .latticeOpComplete u _ => decide (u < 24)
  | .entropyHealthFail sources _ => sources.all (decide <| · < 5)
  | .sourceRestart failed => failed.all (decide <| · < 5)
  | .enLatchClear v _ failed => v.wf && failed.all (decide <| · < 5)
  | .conditioningBlock b => decide (b.source < 5) && decide (b.packed.length = 144)
  | .drbgReseedCount n | .drbgReseedInterval n | .drbgReinstantiate n => decide (n < 256)
  | .mov core _ _ | .add core _ | .sub core _ | .and core _ | .or core _ | .xor core _ | .shl core _ | .shr core _
  | .sra core _ | .cmp core _ _ | .neg core _ _ | .not core _ _ | .mul core _ | .fadd core _ | .fsub core _
  | .fmul core _ | .fmul16 core _ | .abs core _ _ | .min core _ | .max core _ | .movp core _ _ | .movw core _ _
  | .jr core _ | .sxth core _ _ | .zxth core _ _ | .movi core _ _ | .addi core _ _ | .cmpi core _ _
  | .shli core _ _ | .shri core _ _ | .srai core _ _ | .andi core _ _ | .addp core _ _ | .ldw core _ _
  | .stw core _ | .macF core _ | .msuF core _ | .mpyF core _ | .macI core _ | .nop core | .ret core _ | .wait core
  | .waitResume core | .clra core _ | .mova core _ _ | .nega core _ _ | .lpclr core _ | .fence core | .halt core _
  | .bkpt core | .cB core _ _ | .bL core _ _ | .addi32 core _ _ _ | .andi32 core _ _ _ | .ori core _ _ _
  | .xori core _ _ _ | .lui core _ _ | .cmpi32 core _ _ | .muli core _ _ _ | .ldh core _ _ | .ldhu core _ _
  | .sth core _ | .ldb core _ _ | .ldbu core _ _ | .stb core _ | .lda core _ _ | .sta core _ | .lrW core _ _ _
  | .scW core _ _ _ | .adr core _ _ | .call core _ _ | .loop core _ _ _ | .csrr core _ _ | .csrw core _ _
  | .extF core _ | .extH core _ | .extI core _ | .extRaw core _ _ _ | .adda core _ | .suba core _ | .diva core _
  | .rema core _ | .rndm core _ | .shla core _ | .sraa core _ | .cmpa core _ | .mulm core _ | .addw core _
  | .movwa core _ | .insh core _ | .insl core _ | .msuI core _ | .mpyI core _ | .macH core _ | .msuH core _
  | .mpyH core _ | .macU core _ | .random core | .hash core | .lie core | .latticeKeygen core | .latticeSign core
  | .latticeVerify core | .latticeEncaps core | .latticeDecaps core | .drawClaim core | .drawCommit core
  | .drawRelease core | .sealRecord core | .statsPublish core | .dbgCore core _ | .svc core _
  | .reservedEncoding core _ => decide (core < 192)
  | .appletInstall t => decide (t < 64)
  | .mbInboundCopy slot | .mbOutboundCopy slot => decide (slot < 176)
  | .write v _ _ _ _ _ value env => v.wf && decide (value.length ≤ 4096) && env.wf
  | .helloC h | .credit h | .roleAnswer h _ | .heartbeat h | .claimAnswer h _ | .ceremonyEnd h => h.wf
  | .finishC src sid _ _ => src.wf && decide (sid < 2 ^ 64)
  | .yilileData src sid seq _ plain =>
    src.wf && decide (sid < 2 ^ 64) && decide (seq < 2 ^ 64) && decide (plain.length ≤ 1424)
  | .yilileClose src sid seq _ => src.wf && decide (sid < 2 ^ 64) && decide (seq < 2 ^ 64)
  | .arpRequest senderIp senderMac targetIp =>
    decide (senderIp < 2 ^ 32) && decide (senderMac < 2 ^ 48) && decide (targetIp < 2 ^ 32)
  | .arpCacheExpiry ip => decide (ip < 2 ^ 32)
  | .icmpEcho srcIp dstIp _ => decide (srcIp < 2 ^ 32) && decide (dstIp < 2 ^ 32)
  | .phyPoll _ speed => decide (speed < 3)
  | .spRootDigestWrite v digest => v.wf && decide (digest.value.length = 32)
  | .registerWrite v loc _ _ env => v.wf && loc.wf && env.wf
  | .rcRead v loc _ => v.wf && loc.wf
  | .parityScan found => foundOk found
  | .msixUnmask fn vector => decide (fn < 64) && decide (vector < 32)
  | .openAck f | .statusFrame f => f.wf
  | .recorderRefuse reelId => decide (reelId < 2 ^ 64)
  | .portLanesLocked p | .trainingTimeout p | .keyingTimeout p | .keyingRetry p | .linkIdleTimeout p
  | .creditTick p => decide (p < 4)
  | .hello p h => decide (p < 4) && h.wf
  | .creditStallTimer p vc => decide (p < 4) && decide (vc < 4)
  | .linkFrameForward h type _ | .linkFrameDiscard h type => h.wf && decide (type < 256)
  | .leaseReq h slot => h.wf && decide (slot < 2097152)
  | .leaseGrant h slot range | .leaseReturn h slot range => h.wf && decide (slot < 2097152) && range.wf
  | .roleOffer h r tenant => h.wf && r.wf && decide (tenant < 64)
  | .mirrorRec h m => h.wf && m.wf
  | .mirrorAck h slot roleEpoch serial | .mirrorRefuse h slot roleEpoch serial =>
    h.wf && decide (slot < 2097152) && decide (roleEpoch < 65536) && decide (serial < 2 ^ 64)
  | .syncReqTick slot | .takeoverComplete slot => decide (slot < 2097152)
  | .syncReq h r | .syncImage h r | .handover h r => h.wf && r.wf
  | .roleNotice h slot roleEpoch => h.wf && decide (slot < 2097152) && decide (roleEpoch < 65536)
  | .release h slots => h.wf && slots.all (decide <| · < 2097152)
  | .memberLoss m => decide (m < 1024)
  | .dirReq h request => h.wf && decide (request.length ≤ 4088)
  | .dirResp h response => h.wf && decide (response.length ≤ 4088)
  | .ceremonyClaim h unitId => h.wf && decide (unitId < 2 ^ 64)
  | .memberUnitIdWrite v m _ => v.wf && decide (m < 1024)
  | .cardInsertion facts => facts.wf
  | .cardRetuneTimer low high => decide (low < 2 ^ 32) && decide (high < 2 ^ 32)
  | .cardTempPoll temperature low high =>
    decide (-128 ≤ temperature ∧ temperature ≤ 127) && decide (low < 2 ^ 32) && decide (high < 2 ^ 32)
  | .holdSourceInRange source => decide (source < 14)
  | .gangwayRekeyed g | .gangwayAuthenticationFailure g => decide (g < 13)
  | .lcAuth cert => decide (cert.length = 4851)
  | .dbgDir request => decide (request.length ≤ 4096)
  | .escrowLaneBlockLock lane _ => decide (lane < 4)
  | .uncorrectableCodeword escrow lane => decide (lane < if escrow then 4 else 16)
  | .referenceDetect r | .referenceStop r => decide (r < 4)
  | .selfTestStart chans _ => decide (chans.length = 4)
  | .vbatRise | .vaultLoss | .mainRailLoss | .refclkDetectTimeout | .firstSeed | .loadStep _
  | .ledgerSelfTest _ | .selfTestComplete | .heldRequestExecute | .perstRelease | .vfEnableClear
  | .drainRoleHandover | .drainLimitExpiry | .descriptorFetch | .takeReserve _ | .sealTakeArrival _
  | .takeDigestComplete _ | .manifestDeadline _ | .manifestRootComplete _ | .manifestSigningComplete _ _ _
  | .individualSignComplete _ _ | .individualVerifyComplete _ _ | .resultTimeout _ | .takeLanding _ _
  | .journalSignComplete _ | .slewAbsorbed | .timebaseCompare _ | .timeFloorAdvance | .timebaseTick _
  | .checkpointStart | .checkpointCommit | .tapWriteFault | .tapRingApply | .stow | .pwrfailRelease
  | .recoveryComplete | .recoveryWaitExpiry | .memoryScrub _ | .ucodeLoadDone _ | .entropyDeliveryResume
  | .drawSeedReady | .drawCommitAck | .halfOpenTimeout | .sessionIdleTimeout | .spLinkDownTimeout | .mdioRead _ _
  | .mdioWrite _ _ _ | .keyOpComplete _ | .openTimeout | .pickupVerified | .reelFrameTick | .statusLimitExpiry
  | .ackLimitExpiry | .stallRecovery | .reelBufferResume | .reelEndAppend | .linkRequestResend _
  | .roleOfferTimeout | .mirrorTimeoutExpiry _ | .heartbeatTick | .ceremonyClaimTimeout | .cardCommandComplete _
  | .cardRemoval | .cardTimeout | .chCfgWrite _ | .coalescingWindowClose | .evidenceWriteDone
  | .reprovisionComplete | .lcXfer _ | .lcBurnComplete | .certCheck | .tapReset | .extest _ | .samplePreload _ _
  | .idcode | .clamp | .lcStatus | .dbgReg _ | .dbgScan | .bypass | .spRxError | .yilileRecordDiscard
  | .mdioOperationDone _ => true

end Sys2Proof
end

