-- ==== Sys2Proof/Safety.lean ====
section
/-! DEFINITION. What the claims about runs use: a step that goes on, what holds of every state that a well-formed state
leads to, and what a command leaves of the facts that no command may undo. -/

namespace Sys2Proof.Machine

/-- The command answers a next state, of which `P` holds. -/
def Gives (i : Instr) (s : State) (P : State → Prop) : Prop := ∃ t, exec i s = .next t ∧ P t

/-- The step goes on. -/
def Safe (s : State) : Prop := ∃ t, step s = .next t

/-- What every step keeps: the waiting commands are well-formed, host memory is in its canonical form, at most four
regulator roots are burnt (R277), and no group of life-cycle fuses has more than its three (R395). -/
structure Inv (s : State) : Prop where
  queue : ∀ c ∈ s.pending, c.wf = true
  hostMem : s.hostMem.wf = true
  roots : s.sp.rootDigests.length ≤ 4
  fuses : ∀ i : Fin 4, s.lc.fuses[i] ≤ 3

/-! ### What the statements about the Parameter Directory say -/

/-- The engine takes a request at once: none is under way or waits, and no session has its end still to come (R271, R277). -/
abbrev State.dirFree (s : State) : Prop := s.pd.deferred = none ∧ s.pd.waiting = [] ∧ s.sp.closing = false

/-- The round of R271 after a request of the viewer. -/
def State.served (v : Viewer) (s : State) : State := s.onPd fun p => { p with turn := originOf v }

/-- A viewer's WRITE of a number to an object reaches the object's owner: the viewer's way to the engine is open and no
other request is under way, the object exists, the role may write it in this mode (Table 11.10), the value is in range, an
object that acts at once has its first seed (Table 2.7), and an OFF object's block is not enabled. -/
def Writable (s : State) (v : Viewer) (index sub n : Nat) : Prop :=
  s.viewerActive v = true ∧ s.dirFree ∧ ∃ o, findObj index sub = some o
    ∧ s.entryDenied v o index sub 2 n = false ∧ s.accepted o index sub (.num n) = true
    ∧ (o.apply = .now → s.en.firstSeed = true ∨ s.beforeSeed index sub = true)
    ∧ (o.apply = .off → s.offEnabled index = false)

/-- The same for a byte string. -/
def WritableBytes (s : State) (v : Viewer) (index sub : Nat) (b : Bytes) : Prop :=
  s.viewerActive v = true ∧ s.dirFree ∧ ∃ o, findObj index sub = some o
    ∧ s.entryDenied v o index sub 2 (getNum v b) = false ∧ s.accepted o index sub (.bytes b) = true
    ∧ (o.apply = .now → s.en.firstSeed = true ∨ s.beforeSeed index sub = true)
    ∧ (o.apply = .off → s.offEnabled index = false)

/-- A viewer's READ of an object reaches its value: the way is open, the object exists and the role may read it now. -/
def Readable (s : State) (v : Viewer) (index sub : Nat) : Prop :=
  s.viewerActive v = true ∧ s.dirFree
    ∧ ∃ o, findObj index sub = some o ∧ s.entryDenied v o index sub 1 0 = false

/-- The command is answered through the Directory with a status and no value, and leaves state `t` but for the engine's
round. -/
def Wrote (i : Instr) (s : State) (v : Viewer) (status : Status) (t : State) : Prop :=
  exec i s = .next ((t.served v).emit (.directory v status []))

/-! ### What the statements about registers, manifests and memory say -/

/-- A four-byte access of the host reaches this register. -/
def Reaches (s : State) (loc : Loc) (r : Reg) : Prop :=
  s.reaches loc.viewer loc = true ∧ loc.offset % 4 = 0 ∧ ∃ upper, s.openWord loc 0 = some (r, upper)

/-- A frame of this type for this member arrives: its port is UP, its tag and LinkSeq are good, it is on its type's virtual
channel and goes no further (R327, R331, R332). -/
def Arrives (s : State) (h : LinkHdr) (type : Nat) : Prop :=
  (s.port h.port).state = .up ∧ h.tagOk = true ∧ h.seq = (s.port h.port).rxSeq + 1 ∧ vcOf type = some h.vc
    ∧ (h.dest = 0xFFFF ∨ (s.route h.port h.dest).valid = true ∧ (s.route h.port h.dest).isLocal = true)

/-- Port `p` after it has gone DOWN: its keys and its frames are gone, and it trains again where it may (R329, R331). -/
def State.fallen (s : State) (p : Nat) : Port :=
  if s.portMay p then { cfg := (s.port p).cfg, state := .training, since := s.clock } else { cfg := (s.port p).cfg }

/-- A frame of `n` payload bytes on this virtual channel for member `m` leaves at once on port `p`, by an entry of table 0
that goes up or not: the port is UP, no frame waits there and it holds the credits (R328, R332). -/
def State.sends (s : State) (m vc n p : Nat) (up : Bool) : Prop :=
  s.route 0 m = { valid := true, isLocal := false, up := up, out := p } ∧ (s.port p).state = .up ∧ (s.port p).queue = []
    ∧ frameUnits n ≤ (s.port p).credit vc

/-- The frame as port `p` sends it: with the port's next LinkSeq and the credits it returns, sealed with the port's key. -/
def State.outFrame (s : State) (p vc type dest src : Nat) (down : Bool) (payload : Bytes) : Out :=
  let q := s.port p
  let r := q.returning
  let f : QFrame := { vc := vc, type := type, dest := dest, src := src, down := down, payload := payload }
  .linkFrame p vc type dest src down (q.txSeq + 1) r.1 r.2 payload
    (q.seal (q.txSeq + 1) (linkHeader f (q.txSeq + 1) r.1 r.2) payload)

/-- No answer to this request has been given yet. -/
def State.fresh (s : State) (h : LinkHdr) : Prop := ∀ a ∈ s.xl.answered, a.src = h.src → a.reqId ≠ h.reqId

/-- This member's request of the type that the response answers. -/
def State.asked (s : State) (h : LinkHdr) (type : Nat) (r : LinkReq) : Prop :=
  s.xl.requests.find? (fun r => r.reqId = h.reqId && r.dest = h.src && r.type = type) = some r

/-- The journal takes records without a further event: the tap is off, and the reel buffer has room. -/
abbrev State.roomy (s : State) : Prop := s.lg.tapLog2 = 0 ∧ s.reelFill + 65536 + 2 ^ 20 ≤ 2 ^ 30

/-- The WRITE of this object by viewer `v` waits for other members, nothing waits behind it, and no session has its end still
to come. -/
def State.waitsAlone (s : State) (v : Viewer) (index sub : Nat) : Prop :=
  s.pd.waiting = [] ∧ s.sp.closing = false ∧ ∃ r e, s.pd.deferred = some r ∧ r.entries = [e] ∧ e.index = index ∧ e.sub = sub ∧ e.op = 2
    ∧ r.sink = .single ∧ r.viewer = v ∧ r.count = 0 ∧ r.out = [] ∧ r.cap = 2 ^ 20

/-- What a checker of an audit path computes (R94): from the hash of leaf `i` up, each entry of the path stands on the
side the bit of `i` names. -/
def climb : Nat → Bytes → List Bytes → Bytes
  | _, h, [] => h
  | i, h, x :: xs => climb (i / 2) (if i % 2 = 0 then Config.sha256 (0x01 :: h ++ x) else Config.sha256 (0x01 :: x ++ h)) xs

/-- Memory `m'` is memory `m` with the bytes `b` at address `a`: those read back, and every byte outside them is as it
was. -/
def Stored (m m' : Memory) (a : Nat) (b : Bytes) : Prop :=
  m'.readBytes a b.length = b ∧ ∀ x, x < a ∨ a + b.length ≤ x → m'.read x = m.read x

/-! ### What the statements about the Sezel cores say -/

/-- Core `n` executes an instruction of `size` bytes next: it runs, and the instruction can be fetched. -/
def Turn (s : State) (n size : Nat) : Prop :=
  n < 192 ∧ (s.core n).settle.active = true ∧ fetchBad (s.core n).settle.pc size = none

/-- A core's registers, without the writes that nobody sees yet. -/
def SCore.regs (c : SCore) : SCore := { c with pend := [] }

/-- The core after `k` instructions more that do nothing, as the instruction after them sees it (R232). -/
def SCore.later : Nat → SCore → SCore
  | 0, c => c.settle
  | k + 1, c => SCore.later k (c.settle.retire 2 .seq)

/-- Core `n` after an instruction of `size` bytes that does nothing. -/
def State.idle (s : State) (n size : Nat) : SCore := (s.core n).settle.retire size .seq

/-- Flag `n` of a FLAGS value. -/
def putBit (n : Nat) (b : Bool) (w : Word) : Word :=
  if b then w ||| BitVec.ofNat 32 (2 ^ n) else w &&& ~~~(BitVec.ofNat 32 (2 ^ n))

/-- FLAGS after an instruction that writes these flags; the others stay (Table 9.2). -/
def FlagSet.onto (f : FlagSet) (w : Word) : Word :=
  let w := match f.z with | some b => putBit 0 b w | none => w
  let w := match f.n with | some b => putBit 1 b w | none => w
  let w := match f.c with | some b => putBit 2 b w | none => w
  let w := match f.v with | some b => putBit 3 b w | none => w
  if f.satf then putBit 4 true w else w

/-- The instruction completes with state `t` but for core `n`. Against an instruction of its size that does nothing, the
next instruction of the core sees `now` done, and those at distance `lat` or more (R232) see `late` done as well; nothing
else of the core differs. -/
def WritesIn (t : State) (lat : Nat) (i : Instr) (s : State) (n size : Nat) (now late : SCore → SCore) : Prop :=
  ∃ c, exec i s = .next (t.onCore n fun _ => c)
    ∧ (∀ k, k + 1 < lat → (c.later k).regs = (now ((s.idle n size).later k)).regs)
    ∧ (c.later (lat - 1)).regs = (late (now ((s.idle n size).later (lat - 1)))).regs

/-- The instruction completes and changes core `n` alone, as `WritesIn` says. -/
def Writes (lat : Nat) (i : Instr) (s : State) (n size : Nat) (now late : SCore → SCore) : Prop :=
  WritesIn s lat i s n size now late

/-- The instruction completes and passes control: a transfer's target is taken after its delay slot, and the loops are
compared as R235 and R237 say. It changes core `n` alone, to `c` before it retires. -/
def Passes (i : Instr) (s : State) (n size : Nat) (c : SCore) (ctl : Control) : Prop :=
  exec i s = .next (s.onCore n fun _ => c.retire size ctl)

/-- The instruction writes a w register and these flags at distance `lat`. -/
def Result (lat : Nat) (i : Instr) (s : State) (n size : Nat) (rd : Fin 16) (v : Word) (f : FlagSet) : Prop :=
  Writes lat i s n size id fun c => { c with w := c.w.set rd v, flags := f.onto c.flags }

/-- The instruction writes an accumulator and these flags at distance 3. -/
def AccResult (i : Instr) (s : State) (n size : Nat) (d : Fin 4) (v : Acc) (f : FlagSet) : Prop :=
  Writes 3 i s n size id fun c => { c with acc := c.acc.set d v, flags := f.onto c.flags }

/-- The instruction writes these flags alone at distance `lat`. -/
def FlagResult (lat : Nat) (i : Instr) (s : State) (n size : Nat) (f : FlagSet) : Prop :=
  Writes lat i s n size id fun c => { c with flags := f.onto c.flags }

/-- The instruction writes address register `p` at distance 1. -/
def AddressResult (i : Instr) (s : State) (n size : Nat) (p : Fin 8) (v : Word) : Prop :=
  Writes 1 i s n size (fun c => { c with p := c.p.set p v }) id

/-- What the next instruction of core `n` sees of it now. -/
def State.seen (s : State) (n : Nat) : SCore := (s.core n).settle

/-- Z and N of a result. -/
def zn (r : Word) : FlagSet := { z := some (r = 0), n := some r.msb }

/-- Z, N, C and V of a + b: C is the carry out, V that the sum of the signed values does not fit. -/
def sumFlags (a b : Word) : FlagSet :=
  { z := some (a + b = 0), n := some (a + b).msb, c := some (BitVec.carry 32 a b false), v := some (a.saddOverflow b) }

/-- Z, N, C and V of a − b: C means that no borrow occurred (R215). -/
def differenceFlags (a b : Word) : FlagSet :=
  { z := some (a = b), n := some (a - b).msb, c := some (decide (b ≤ a)), v := some (a.ssubOverflow b) }

/-- Z, N, V and SATF of an exact value placed in `bits` bits and held in a word (R217). -/
def placedFlags (bits : Nat) (sat : Bool) (x : Int) : FlagSet :=
  let r := BitVec.ofInt 32 (fit bits sat x).value
  { z := some (r = 0), n := some r.msb, v := some (fit bits sat x).v, satf := (fit bits sat x).satf }

/-- V and SATF of an exact value placed in an accumulator. -/
def accFlags (sat : Bool) (x : Int) : FlagSet := { v := some (fit 72 sat x).v, satf := (fit 72 sat x).satf }

/-- The accumulator that holds an exact value (R217). -/
def accValue (sat : Bool) (x : Int) : Acc := BitVec.ofInt 72 (fit 72 sat x).value

end Sys2Proof.Machine
end

