-- ==== Sys2Proof/Certificates/Slice0/Obligations.lean ====
section
/-! DEFINITION. The statements for the provers. Each is about one step; what its command does not name stays as it is. -/

namespace Sys2Proof

open Machine

end Sys2Proof

open Sys2Proof Sys2Proof.Machine

/-! ### The Sezel cores (09) -/

/-- rnd under each rounding mode (R216): an integer stays; toward zero; half away from zero; half to even; toward
minus infinity. fit_n (R217): the value itself where it fits, with V = 0; else V = 1, and the nearer limit with SATF,
or x mod 2^n read as two's complement. -/
def Obligations.RoundingAndFit : Prop :=
  (∀ num den : Int, 0 < den →
    (∀ mode, num % den = 0 → rnd mode num den * den = num)
    ∧ rnd 0 num den = num.tdiv den
    ∧ rnd 3 num den = num.fdiv den
    ∧ (∀ mode, mode = 1 ∨ mode = 2 → 2 * (rnd mode num den * den - num).natAbs ≤ den)
    ∧ (2 * (num % den) = den → (0 ≤ num → rnd 1 num den = num / den + 1) ∧ (num < 0 → rnd 1 num den = num / den)
        ∧ rnd 2 num den % 2 = 0))
  ∧ (∀ (n : Nat) (sat : Bool) (x : Int), 0 < n →
    (-(2 ^ (n - 1)) ≤ x ∧ x < 2 ^ (n - 1) → fit n sat x = { value := x, v := false, satf := false })
    ∧ (x < -(2 ^ (n - 1)) → fit n true x = { value := -(2 ^ (n - 1)), v := true, satf := true })
    ∧ (2 ^ (n - 1) ≤ x → fit n true x = { value := 2 ^ (n - 1) - 1, v := true, satf := true })
    ∧ (x < -(2 ^ (n - 1)) ∨ 2 ^ (n - 1) ≤ x → fit n false x = { value := x.bmod (2 ^ n), v := true, satf := false }))

/-- ADD, SUB, ADDI, ADDI32, NEG, CMP, CMPI and CMPI32: the sum or difference mod 2^32 with its Z, N, C and V, or the
flags alone; nothing else changes. -/
def Obligations.SezelAddSub : Prop := ∀ (s : State) (n : Nat) (rd ra : Fin 16),
  (∀ f : AluForm, Turn s n f.size →
    Result 1 (.add n f) s n f.size f.rd (f.a (s.seen n) + f.b (s.seen n)) (sumFlags (f.a (s.seen n)) (f.b (s.seen n)))
    ∧ Result 1 (.sub n f) s n f.size f.rd (f.a (s.seen n) - f.b (s.seen n))
        (differenceFlags (f.a (s.seen n)) (f.b (s.seen n))))
  ∧ (Turn s n 2 →
    (∀ i : BitVec 7, Result 1 (.addi n rd i) s n 2 rd ((s.seen n).w[rd] + i.signExtend 32)
        (sumFlags (s.seen n).w[rd] (i.signExtend 32))
      ∧ FlagResult 1 (.cmpi n rd i) s n 2 (differenceFlags (s.seen n).w[rd] (i.signExtend 32)))
    ∧ Result 1 (.neg n rd ra) s n 2 rd (-(s.seen n).w[ra]) (differenceFlags 0 (s.seen n).w[ra])
    ∧ FlagResult 1 (.cmp n rd ra) s n 2 (differenceFlags (s.seen n).w[rd] (s.seen n).w[ra]))
  ∧ (Turn s n 4 → ∀ i : BitVec 16,
    Result 1 (.addi32 n rd ra i) s n 4 rd ((s.seen n).w[ra] + i.signExtend 32) (sumFlags (s.seen n).w[ra] (i.signExtend 32))
    ∧ FlagResult 1 (.cmpi32 n ra i) s n 4 (differenceFlags (s.seen n).w[ra] (i.signExtend 32)))

/-- AND, OR, XOR, the shifts by bits [4:0], MIN, MAX, NOT, SXTH and ZXTH, and their immediate forms: the result with Z
and N alone. -/
def Obligations.SezelLogic : Prop := ∀ (s : State) (n : Nat) (rd ra : Fin 16),
  (∀ f : AluForm, Turn s n f.size →
    let a := f.a (s.seen n)
    let b := f.b (s.seen n)
    let gives := fun (i : Instr) (v : Word) => Result 1 i s n f.size f.rd v (zn v)
    gives (.and n f) (a &&& b) ∧ gives (.or n f) (a ||| b) ∧ gives (.xor n f) (a ^^^ b)
    ∧ gives (.shl n f) (a <<< (b.toNat % 32)) ∧ gives (.shr n f) (a >>> (b.toNat % 32))
    ∧ gives (.sra n f) (a.sshiftRight (b.toNat % 32))
    ∧ gives (.min n f) (if a.slt b then a else b) ∧ gives (.max n f) (if a.slt b then b else a))
  ∧ (Turn s n 2 →
    let a := (s.seen n).w[rd]
    let b := (s.seen n).w[ra]
    let gives := fun (i : Instr) (v : Word) => Result 1 i s n 2 rd v (zn v)
    (∀ i : BitVec 5, gives (.shli n rd i) (a <<< i.toNat) ∧ gives (.shri n rd i) (a >>> i.toNat)
      ∧ gives (.srai n rd i) (a.sshiftRight i.toNat))
    ∧ (∀ i : BitVec 7, gives (.andi n rd i) (a &&& i.setWidth 32))
    ∧ gives (.not n rd ra) (~~~b) ∧ gives (.sxth n rd ra) ((b.setWidth 16).signExtend 32)
    ∧ gives (.zxth n rd ra) (b &&& 0xFFFF))
  ∧ (Turn s n 4 → ∀ i : BitVec 16,
    let b := (s.seen n).w[ra]
    let gives := fun (i : Instr) (v : Word) => Result 1 i s n 4 rd v (zn v)
    gives (.andi32 n rd ra i) (b &&& i.setWidth 32) ∧ gives (.ori n rd ra i) (b ||| i.setWidth 32)
    ∧ gives (.xori n rd ra i) (b ^^^ i.setWidth 32))

/-- MOV, MOVI, MOVW, LUI and ADR write a w register without flags; MOVP and ADDP write an address register, linearly.
-/
def Obligations.SezelMoves : Prop := ∀ (s : State) (n : Nat) (rd ra : Fin 16) (p : Fin 8),
  (Turn s n 2 →
    Result 1 (.mov n rd ra) s n 2 rd (s.seen n).w[ra] {}
    ∧ Result 1 (.movw n rd p) s n 2 rd (s.seen n).p[p] {}
    ∧ AddressResult (.movp n p ra) s n 2 p (s.seen n).w[ra]
    ∧ ∀ i : BitVec 7, Result 1 (.movi n rd i) s n 2 rd (i.signExtend 32) {}
      ∧ AddressResult (.addp n p i) s n 2 p ((s.seen n).p[p] + 4 * i.signExtend 32))
  ∧ (Turn s n 4 →
    (∀ i : BitVec 16, Result 1 (.lui n rd i) s n 4 rd (i ++ (0 : BitVec 16)) {})
    ∧ ∀ off : BitVec 20, Result 1 (.adr n rd off) s n 4 rd ((s.seen n).pc + 2 * off.signExtend 32) {})

/-- FADD, FSUB and ABS at distance 1, FMUL, FMUL16, MUL and MULI at distance 2: the exact value, rounded under
MODE.RND and placed under MODE.SAT, with Z, N, V and SATF; MUL and MULI wrap and write no flag. The multiply-
accumulates: an exact product of 32-bit or 16-bit operands, signed or (MAC.U) not, added to the accumulator that the
latest multiply-accumulate left, taken from it, or alone, is placed in the accumulator at distance 3 with V and SATF.
-/
def Obligations.SezelMultiply : Prop :=
  (∀ (s : State) (n : Nat) (rd ra : Fin 16),
    let mode := (s.seen n).mode
    let placed := fun (lat : Nat) (i : Instr) (size : Nat) (rd : Fin 16) (bits : Nat) (x : Int) =>
      Result lat i s n size rd (BitVec.ofInt 32 (fit bits (modeSat mode) x).value) (placedFlags bits (modeSat mode) x)
    (∀ f : AluForm, Turn s n f.size →
      let a := f.a (s.seen n)
      let b := f.b (s.seen n)
      placed 1 (.fadd n f) f.size f.rd 32 (a.toInt + b.toInt) ∧ placed 1 (.fsub n f) f.size f.rd 32 (a.toInt - b.toInt)
      ∧ placed 2 (.fmul n f) f.size f.rd 32 (rnd (modeRnd mode) (a.toInt * b.toInt) (2 ^ 31))
      ∧ placed 2 (.fmul16 n f) f.size f.rd 16 (rnd (modeRnd mode) ((a.setWidth 16).toInt * (b.setWidth 16).toInt) (2 ^ 15))
      ∧ Result 2 (.mul n f) s n f.size f.rd (a * b) {})
    ∧ (Turn s n 2 → placed 1 (.abs n rd ra) 2 rd 32 (s.seen n).w[ra].toInt.natAbs)
    ∧ (Turn s n 4 → ∀ i : BitVec 16, Result 2 (.muli n rd ra i) s n 4 rd ((s.seen n).w[ra] * i.signExtend 32) {}))
  ∧ (∀ (s : State) (n : Nat) (f : MacForm),
    let acc := ((s.seen n).accForward f.acc).toInt
    let x := (s.seen n).w[f.wa]
    let y := (s.seen n).w[f.wb]
    let p := x.toInt * y.toInt
    let h := (x.setWidth 16).toInt * (y.setWidth 16).toInt * 2 ^ 33
    let gives := fun (i : Instr) (v : Int) =>
      AccResult i s n f.size f.acc (accValue (modeSat (s.seen n).mode) v) (accFlags (modeSat (s.seen n).mode) v)
    Turn s n f.size →
      gives (.macF n f) (acc + 2 * p) ∧ gives (.msuF n f) (acc - 2 * p) ∧ gives (.mpyF n f) (2 * p)
      ∧ gives (.macI n f) (acc + p)
      ∧ (f.wide = true → gives (.msuI n f) (acc - p) ∧ gives (.mpyI n f) p ∧ gives (.macH n f) (acc + h)
        ∧ gives (.msuH n f) (acc - h) ∧ gives (.mpyH n f) h ∧ gives (.macU n f) (acc + (x.toNat * y.toNat : Nat))))

/-- The accumulator instructions: the exact value of Tables 9.14 and 9.15, placed in the destination at distance 3
with the flags the table names; INSH and INSL leave the other bits as they are then. The divisions need a divisor that
is not zero. EXT.F, EXT.H and EXT.I: the accumulator over 2^32, 2^48 or 2^sh, rounded under RM where OVR is set,
placed in 32, 16 or 32 bits; EXT.RAW: 32 of its bits, without flags. -/
def Obligations.SezelAccumulators : Prop :=
  (∀ (s : State) (n : Nat),
    let sat := modeSat (s.seen n).mode
    let r := modeRnd (s.seen n).mode
    (Turn s n 2 → ∀ d a : Fin 4,
      AccResult (.clra n d) s n 2 d 0 {} ∧ AccResult (.mova n d a) s n 2 d (s.seen n).acc[a] {}
      ∧ AccResult (.nega n d a) s n 2 d (accValue sat (-(s.seen n).acc[a].toInt)) (accFlags sat (-(s.seen n).acc[a].toInt)))
    ∧ (Turn s n 4 → ∀ f : AccForm,
      let a := (s.seen n).acc[f.acca].toInt
      let b := (s.seen n).acc[f.accb].toInt
      let vs := fun (i : Instr) (v : Int) => AccResult i s n 4 f.accd (accValue sat v) (accFlags sat v)
      let znvs := fun (i : Instr) (v : Int) => AccResult i s n 4 f.accd (accValue sat v)
        { accFlags sat v with z := some (accValue sat v = 0), n := some (accValue sat v).msb }
      (f.sh = 0 → znvs (.adda n f) (a + b) ∧ znvs (.suba n f) (a - b)
        ∧ (b ≠ 0 → znvs (.diva n f) (rnd r a b) ∧ vs (.rema n f) (a - a.tdiv b * b) ∧ vs (.rndm n f) (rnd r a b * b)))
      ∧ (f.accb = 0 → vs (.shla n f) (a * 2 ^ f.sh.toNat) ∧ vs (.sraa n f) (rnd r a (2 ^ f.sh.toNat)))
      ∧ (f.sh = 0 → f.accd = 0 → FlagResult 3 (.cmpa n f) s n 4
          { z := some (a = b), n := some (BitVec.ofInt 72 (a - b)).msb
            v := some ((s.seen n).acc[f.acca].ssubOverflow (s.seen n).acc[f.accb]) }))
    ∧ (Turn s n 4 → ∀ f : AwForm,
      let a := (s.seen n).acc[f.acca].toInt
      let w := (s.seen n).w[f.w]
      let vs := fun (i : Instr) (v : Int) => AccResult i s n 4 f.accd (accValue sat v) (accFlags sat v)
      let puts := fun (i : Instr) (v : Acc) => AccResult i s n 4 f.accd v { v := some false }
      let part := fun (i : Instr) (v : Acc → Acc) => Writes 3 i s n 4 id fun c => { c with
        acc := c.acc.set f.accd (v c.acc[f.accd]), flags := ({ v := some false } : FlagSet).onto c.flags }
      (f.sh = 0 → vs (.mulm n f) (a * w.toInt)) ∧ vs (.addw n f) (a + w.toInt * 2 ^ f.sh.toNat)
      ∧ (f.sh = 0 → f.acca = 0 → puts (.movwa n f) (w.signExtend 72)
        ∧ part (.insh n f) (fun d => w.signExtend 40 ++ d.extractLsb' 0 32) ∧ part (.insl n f) fun d => d.extractLsb' 32 40 ++ w)))
  ∧ (∀ (s : State) (n : Nat), Turn s n 4 →
    (∀ f : ExtForm,
      let sat := modeSat (s.seen n).mode
      let v := fun (k : Nat) => rnd (if f.ovr then f.rm.toNat else modeRnd (s.seen n).mode) (s.seen n).acc[f.acc].toInt (2 ^ k)
      let placed := fun (i : Instr) (bits k : Nat) =>
        Result 1 i s n 4 f.rd (BitVec.ofInt 32 (fit bits sat (v k)).value) (placedFlags bits sat (v k))
      (f.sh = 0 → placed (.extF n f) 32 32 ∧ placed (.extH n f) 16 48) ∧ placed (.extI n f) 32 f.sh.toNat)
    ∧ ∀ (rd : Fin 16) (a : Fin 4) (sh : BitVec 6), sh = 0 ∨ sh = 32 ∨ sh = 40 →
      Result 1 (.extRaw n rd a sh) s n 4 rd ((s.seen n).acc[a].extractLsb' sh.toNat 32) {})

/-- LDW, LDH, LDHU, LDB, LDBU, LDA and LR.W, where the access finds its bytes: the register sees them, extended, at
distance 2; the address register is updated at once, and LR.W reserves the granule. STW, STH, STB, STA and SC.W, where
the access takes its bytes: the low bytes of the register are stored, the address register is updated at once; STA
stores the accumulator placed in 64 bits, with V and SATF; SC.W writes 0 where it stored and 1, without a store, where
its core holds no reservation of the granule, and the reservation goes. -/
def Obligations.SezelLoadsStores : Prop :=
  (∀ (s : State) (n : Nat) (upset : Bool) (b : Bytes),
    let c := s.seen n
    let loads := fun (i : Instr) (size : Nat) (f : WordForm) (bytes : Nat) (v : Word) =>
      s.load c (f.addr c) bytes upset = .ok b → Writes 2 i s n size (fun x => { x with p := (f.update bytes c).p })
        fun x => { x with w := x.w.set f.reg v }
    (∀ f : WordForm, Turn s n f.size → loads (.ldw n f upset) f.size f 4 (BitVec.ofNat 32 (ofLe b)))
    ∧ (Turn s n 4 →
      (∀ f : MemForm, loads (.ldh n f upset) 4 f.toWord 2 ((BitVec.ofNat 16 (ofLe b)).signExtend 32)
        ∧ loads (.ldhu n f upset) 4 f.toWord 2 ((BitVec.ofNat 16 (ofLe b)).setWidth 32)
        ∧ loads (.ldb n f upset) 4 f.toWord 1 ((BitVec.ofNat 8 (ofLe b)).signExtend 32)
        ∧ loads (.ldbu n f upset) 4 f.toWord 1 ((BitVec.ofNat 8 (ofLe b)).setWidth 32))
      ∧ (∀ f : AccMemForm, s.load c (f.addr c) 8 upset = .ok b →
        Writes 2 (.lda n f upset) s n 4 (fun x => { x with p := (f.update c).p })
          fun x => { x with acc := x.acc.set f.acc ((BitVec.ofNat 64 (ofLe b)).signExtend 72) })
      ∧ ∀ (rd : Fin 16) (p : Fin 8), s.lrscFault c c.p[p] = none → s.load c c.p[p] 4 upset = .ok b →
        Writes 2 (.lrW n rd p upset) s n 4 (fun x => { x with reservation := (s.place c.slot c.p[p].toNat).granule })
          fun x => { x with w := x.w.set rd (BitVec.ofNat 32 (ofLe b)) }))
  ∧ (∀ (s t : State) (n : Nat) (c' : SCore),
    let c := s.seen n
    let stores := fun (i : Instr) (size : Nat) (f : WordForm) (bytes : Nat) =>
      s.store c (f.addr c) (le bytes c.w[f.reg].toNat) = .ok (t, c') → WritesIn t 1 i s n size
        (fun x => { x with p := (f.update bytes c).p, dmem := c'.dmem, reservation := c'.reservation }) id
    (∀ f : WordForm, Turn s n f.size → stores (.stw n f) f.size f 4)
    ∧ (Turn s n 4 →
      (∀ f : MemForm, stores (.sth n f) 4 f.toWord 2 ∧ stores (.stb n f) 4 f.toWord 1)
      ∧ (∀ f : AccMemForm,
        let x := fit 64 (modeSat c.mode) c.acc[f.acc].toInt
        s.store c (f.addr c) (le 8 (BitVec.ofInt 64 x.value).toNat) = .ok (t, c') →
          WritesIn t 1 (.sta n f) s n 4
            (fun x => { x with p := (f.update c).p, dmem := c'.dmem, reservation := c'.reservation })
            fun y => { y with flags := FlagSet.onto { v := some x.v, satf := x.satf } y.flags })
      ∧ ∀ (rd ws : Fin 16) (p : Fin 8), s.lrscFault c c.p[p] = none →
        let g := (s.place c.slot c.p[p].toNat).granule
        (c.reservation.isSome ∧ c.reservation = g → s.store c c.p[p] (le 4 c.w[ws].toNat) = .ok (t, c') →
          WritesIn t 2 (.scW n rd p ws) s n 4 (fun x => { x with dmem := c'.dmem, reservation := none })
            fun x => { x with w := x.w.set rd 0 })
        ∧ (c.reservation = none ∨ c.reservation ≠ g →
          Writes 2 (.scW n rd p ws) s n 4 (fun x => { x with reservation := none }) fun x => { x with w := x.w.set rd 1 })))

/-- What a data access finds at each place of a core's map (Table 9.6): a misaligned one faults; data memory and a
shared region in force answer; a shared address outside the grant, the inbound ring for a store, and the rest fault.
-/
def Obligations.SezelMemory : Prop := ∀ (s : State) (c : SCore) (a : Word) (b : Bytes),
  let n := b.length
  let ap := s.applet c.slot
  let dies := [(0x20000000, ap.die), (0x22000000, (ap.die + 1) % 6), (0x24000000, (ap.die + 5) % 6)]
  0 < n → (a.toNat % n ≠ 0 → (∀ u, s.load c a n u = .error ⟨0x04, a⟩) ∧ s.store c a b = .error ⟨0x04, a⟩)
  ∧ (a.toNat % n = 0 →
    (0x10000000 ≤ a.toNat ∧ a.toNat < 0x10080000 →
      s.load c a n false = .ok (c.dmem.readBytes (a.toNat - 0x10000000) n) ∧ s.load c a n true = .error ⟨0x06, a⟩
      ∧ s.store c a b = .ok (s, { c with
          dmem := c.dmem.writeBytes (a.toNat - 0x10000000) b
          reservation := if c.reservation = some (0, (a.toNat - 0x10000000) / 8) then none else c.reservation }))
    ∧ (∀ e ∈ dies, e.1 ≤ a.toNat ∧ a.toNat < e.1 + 0x2000000 →
      let r := s.region e.2 ap.owner
      let off := a.toNat - e.1 - r.base * 1024
      (ap.kind ≠ 1 ∧ r.base * 1024 ≤ a.toNat - e.1 ∧ a.toNat - e.1 < r.base * 1024 + r.kib * 1024 →
        s.load c a n false = .ok (r.mem.readBytes off n) ∧ s.load c a n true = .error ⟨0x06, a⟩
        ∧ ∃ c', s.store c a b = .ok ((s.onRegion e.2 ap.owner fun r => { r with mem := r.mem.writeBytes off b }).clearReservations
            (1 + e.2 * 64 + ap.owner, off / 8), c'))
      ∧ (ap.kind = 1 ∨ a.toNat - e.1 < r.base * 1024 ∨ r.base * 1024 + r.kib * 1024 ≤ a.toNat - e.1 →
        (∀ u, s.load c a n u = .error ⟨0x05, a⟩) ∧ s.store c a b = .error ⟨0x05, a⟩))
    ∧ (0x30000000 ≤ a.toNat ∧ a.toNat < 0x30008000 → n ≤ 8 →
      s.load c a n false = .ok (ap.inRing.readBytes (a.toNat - 0x30000000) n) ∧ s.store c a b = .error ⟨0x03, a⟩)
    ∧ (a.toNat < 0x10000000 ∨ 0x10080000 ≤ a.toNat ∧ a.toNat < 0x20000000 ∨ 0x26000000 ≤ a.toNat ∧ a.toNat < 0x30000000
        ∨ 0x30010000 ≤ a.toNat →
      (∀ u, s.load c a n u = .error ⟨0x02, a⟩) ∧ s.store c a b = .error ⟨0x03, a⟩))

/-- The update of an address register: linear where m = 0; modulo m inside its aligned block (R219); with the carry
reversed in the low k bits where BREV is set and m = 2^k (R220). -/
def Obligations.AddressUpdate : Prop := ∀ (c : SCore) (n : Fin 8) (step : Int),
  let p := c.p[n]
  let m := c.m[n].toNat
  let q := c.stepped n step
  (m = 0 → q = p + BitVec.ofInt 32 step)
  ∧ ∀ k, m ≤ 2 ^ k → (∀ j < k, 2 ^ j < m) → m ≠ 0 →
    let base : Int := p.toNat / 2 ^ k * 2 ^ k
    (c.brev.getLsbD n = false → (q.toNat : Int) = base + ((p.toNat - base) + step) % m)
    ∧ (c.brev.getLsbD n = true → m = 2 ^ k → 1 ≤ k → k ≤ 23 →
      (q.setWidth k).reverse = (p.setWidth k).reverse + (BitVec.ofInt k step).reverse ∧ q >>> k = p >>> k)

/-- What retiring an instruction does to control: the instruction after a taken transfer hands over to its target
(R235); else the loops whose end is reached are compared from level 0 up: the first with a count above 1 goes on at
its start with the count one less, those below it that were at 1 end (R237). -/
def Obligations.SezelRetire : Prop := ∀ (c : SCore) (size : Nat),
  let succ := c.pc + BitVec.ofNat 32 size
  let ends := fun k : Fin 3 => c.lc[k] ≠ 0 ∧ c.le[k] = succ
  (∀ ctl, let r := c.retire size ctl
    r = { c with
      pc := r.pc, lc := r.lc, delay := r.delay, run := r.run, instret := c.instret + 1
      pend := c.pend.map fun p => { p with dist := p.dist - 1 } }
    ∧ r.run = (if c.run = .stepping then .debug else c.run)
    ∧ (r.delay = match ctl with | .transfer t => some t | _ => none)
    ∧ (∀ t, c.delay = some (some t) → r.pc = t ∧ r.lc = c.lc))
  ∧ ((∀ t, c.delay ≠ some (some t)) →
    (∀ t, (c.retire size (.transfer t)).pc = succ ∧ (c.retire size (.transfer t)).lc = c.lc)
    ∧ (∀ t, (c.retire size (.goto t)).pc = t ∧ (c.retire size (.goto t)).lc = c.lc)
    ∧ let r := c.retire size .seq
      ((∀ k, ends k → c.lc[k] = 1) → r.pc = succ ∧ ∀ k : Fin 3, r.lc[k] = if ends k then 0 else c.lc[k])
      ∧ ∀ k, ends k → c.lc[k] ≠ 1 → (∀ j, j < k → ends j → c.lc[j] = 1) →
        r.pc = c.ls[k] ∧ ∀ j : Fin 3, r.lc[j] =
          if j = k then c.lc[k] - 1 else if j < k ∧ ends j then 0 else c.lc[j])

/-- C.B, B.L and JR pass control to their target after one delay slot; LOOP sets its level and, with a count of 0,
goes on past the body; LPCLR clears a level's count; CALL stores its frame and passes to the routine; RET takes it
back. -/
def Obligations.SezelControl : Prop := ∀ (s : State) (n : Nat),
  let c := s.seen n
  (Turn s n 2 →
    (∀ (cond : BitVec 4) (off : BitVec 8), cond ≠ 15 →
      Passes (.cB n cond off) s n 2 c
        (.transfer (if condHolds c.flags cond then some (c.pc + 2 * off.signExtend 32) else none)))
    ∧ (∀ rs : Fin 16, Passes (.jr n rs) s n 2 c (.transfer (some c.w[rs])))
    ∧ (∀ k : Fin 3, Passes (.lpclr n k) s n 2 { c with lc := c.lc.set k 0 } .seq)
    ∧ ∀ (upset : Bool) (back mask : Word) (vs : List Word), mask.toNat < 2 ^ 16 →
      s.loadWords c c.p[7] upset 2 = .ok [back, mask] →
      let regs := maskRegs mask.toNat
      s.loadWords c (c.p[7] + 8) upset regs.length = .ok vs →
      let c' := (regs.zip vs).foldl (fun c rv => c.putW rv.1 1 rv.2) c
      Passes (.ret n upset) s n 2 { c' with p := c.p.set 7 (c.p[7] + BitVec.ofNat 32 (4 * (regs.length + 2))) }
        (.transfer (some back)))
  ∧ (Turn s n 4 →
    (∀ (cond : BitVec 4) (off : BitVec 20), cond ≠ 15 →
      Passes (.bL n cond off) s n 4 c
        (.transfer (if condHolds c.flags cond then some (c.pc + 2 * off.signExtend 32) else none)))
    ∧ (∀ (k : Fin 3) (e : BitVec 10) (count : LoopCount), e ≠ 0 →
      let v : Word := match count with | .imm i => i.setWidth 32 | .reg w => c.w[w]
      let le := c.pc + 4 + 2 * e.setWidth 32
      Passes (.loop n k count e) s n 4
        { c with ls := c.ls.set k (c.pc + 4), le := c.le.set k le, lc := c.lc.set k v } (if v = 0 then .goto le else .seq))
    ∧ ∀ (rt : Fin 16) (mask : BitVec 16) (t : State) (c' : SCore),
      let regs := maskRegs mask.toNat
      let p7 := c.p[7] - BitVec.ofNat 32 (4 * (regs.length + 2))
      let back := c.pc + 4 + BitVec.ofNat 32 (c.sizeAt (c.pc + 4))
      s.storeWords c p7 ([back, mask.setWidth 32] ++ regs.map fun i => c.w[i]) = .ok (t, c') →
        exec (.call n rt mask) s = .next (t.onCore n fun _ =>
          SCore.retire 4 (.transfer (some c.w[rt])) { c' with p := c'.p.set 7 p7 }))

/-- NOP and FENCE do nothing more; CSRR and CSRW over the registers of Table 9.5; WAIT, WAIT_RESUME, HALT and BKPT. -/
def Obligations.SezelSystem : Prop := ∀ (s : State) (n : Nat) (r : Fin 16),
  let c := s.seen n
  let v := c.w[r]
  (Turn s n 2 → Writes 1 (.nop n) s n 2 id id ∧ Writes 1 (.fence n) s n 2 id id
    ∧ Passes (.wait n) s n 2 (if c.wake then { c with reservation := none, wake := false }
        else { c with reservation := none, run := .waiting }) .seq
    ∧ (s.lc.maint = true → Passes (.bkpt n) s n 2 { c with run := .debug } .seq)
    ∧ (∀ code k, (s.core n).run ≠ .halted → k ∈ (s.applet c.slot).cores → k ≠ n → (s.core k).run ≠ .halted →
      Passes (.halt n code) s n 2 { c with run := .halted } .seq)
    ∧ (∀ code : BitVec 8, (s.core n).run ≠ .halted → (∀ k ∈ (s.applet c.slot).cores, k = n ∨ (s.core k).run = .halted) →
      (s.applet c.slot).state = .running →
      exec (.halt n code) s = .next (((s.onCore n fun _ => SCore.retire 2 .seq { c with run := .halted }).onApplet c.slot
        fun ap => { ap with exit := code.toNat }).slotState c.slot .halted)))
  ∧ (n < 192 → (s.core n).run = .waiting → (s.core n).wake = true →
    exec (.waitResume n) s = .next (s.onCore n fun c => { c with run := .running, wake := false }))
  ∧ (Turn s n 4 →
    (∀ e ∈ [(0x00, c.mode), (0x01, c.flags), (0x02, BitVec.ofNat 32 n), (0x03, c.instret.extractLsb' 0 32),
        (0x04, c.instret.extractLsb' 32 32), (0x08, c.ls[0]), (0x09, c.ls[1]), (0x0A, c.ls[2]), (0x0B, c.le[0]),
        (0x0C, c.le[1]), (0x0D, c.le[2]), (0x0E, c.lc[0]), (0x0F, c.lc[1]), (0x10, c.lc[2]),
        (0x18, c.brev.setWidth 32), (0x28, 0)],
      Result 1 (.csrr n r (BitVec.ofNat 8 e.1)) s n 4 r e.2 {})
    ∧ (∀ k : Fin 8, Result 1 (.csrr n r (BitVec.ofNat 8 (0x20 + k))) s n 4 r (c.m[k].setWidth 32) {}
      ∧ Passes (.csrw n r (BitVec.ofNat 8 (0x20 + k))) s n 4 { c with m := c.m.set k (v.setWidth 24) } .seq)
    ∧ (∀ k : Fin 3, Passes (.csrw n r (BitVec.ofNat 8 (0x08 + k))) s n 4 { c with ls := c.ls.set k v } .seq
      ∧ Passes (.csrw n r (BitVec.ofNat 8 (0x0B + k))) s n 4 { c with le := c.le.set k v } .seq
      ∧ Passes (.csrw n r (BitVec.ofNat 8 (0x0E + k))) s n 4 { c with lc := c.lc.set k v } .seq)
    ∧ Passes (.csrw n r 0x00) s n 4 { c with mode := v &&& 7 } .seq
    ∧ Passes (.csrw n r 0x18) s n 4 { c with brev := v.setWidth 8 } .seq
    ∧ (∀ k : BitVec 8, k = 0x02 ∨ k = 0x03 ∨ k = 0x04 ∨ 0x28 ≤ k → Passes (.csrw n r k) s n 4 c .seq)
    ∧ Writes 1 (.csrw n r 0x01) s n 4 id fun x =>
        let w := putBit 1 (v.getLsbD 1) (putBit 0 (v.getLsbD 0) x.flags)
        { x with flags := putBit 4 (v.getLsbD 4) (putBit 3 (v.getLsbD 3) (putBit 2 (v.getLsbD 2) w)) })

/-- Where an instruction faults, with the cause of Table 9.19, it has no effect of its own: the slot's first fault is
recorded and every core of it stops (R242, R250). A reserved encoding leaves free values in the w registers, the
accumulators and the flags (R243); an encoding with a reserved field is one. -/
def Obligations.SezelStops : Prop := ∀ (s : State) (n : Nat),
  let c := s.seen n
  let faults := fun (i : Instr) (cause : Nat) (a : Word) => exec i s = .next (s.coreFault n ⟨cause, a⟩)
  (n < 192 → (s.core n).run = .running → c.run = .running ∧
    (c.pc.toNat % 2 = 1 ∨ 0x40000 ≤ c.pc.toNat → faults (.nop n) 0x01 c.pc ∧ faults (.fence n) 0x01 c.pc))
  ∧ (Turn s n 2 → (s.lc.maint = false → faults (.bkpt n) 0x0A 0)
    ∧ ∀ (back mask : Word) u, s.loadWords c c.p[7] u 2 = .ok [back, mask] → 2 ^ 16 ≤ mask.toNat →
      faults (.ret n u) 0x08 c.p[7])
  ∧ (∀ (f : WordForm) e, Turn s n f.size → (∀ u, s.load c (f.addr c) 4 u = .error e → faults (.ldw n f u) e.cause e.addr)
      ∧ (s.store c (f.addr c) (le 4 c.w[f.reg].toNat) = .error e → faults (.stw n f) e.cause e.addr))
  ∧ (∀ wide, Turn s n (if wide then 4 else 2) → ∃ c' : SCore, c' = { c with w := c'.w, acc := c'.acc, flags := c'.flags, pend := [] }
      ∧ (∀ i : Fin 16, c'.w[i] = Config.freeValue 32 (s.freeCtr + i))
      ∧ (∀ i : Fin 4, c'.acc[i] = Config.freeValue 72 (s.freeCtr + 16 + i))
      ∧ c'.flags = (Config.freeValue 5 (s.freeCtr + 20)).setWidth 32
      ∧ exec (.reservedEncoding n wide) s = .next ({ s with freeCtr := s.freeCtr + 21 }.onCore n fun _ =>
          c'.retire (if wide then 4 else 2) .seq))
  ∧ (Turn s n 4 → ∀ f : AccForm, f.sh = 0 →
      (s.seen n).acc[f.accb].toInt = 0 → faults (.diva n f) 0x07 0 ∧ faults (.rema n f) 0x07 0 ∧ faults (.rndm n f) 0x07 0)
  ∧ (∀ off, exec (.cB n 15 off) s = exec (.reservedEncoding n false) s)
  ∧ (∀ off, exec (.bL n 15 off) s = exec (.reservedEncoding n true) s)
  ∧ (∀ k count, exec (.loop n k count 0) s = exec (.reservedEncoding n true) s)
  ∧ (∀ f : AccForm, f.sh ≠ 0 → exec (.adda n f) s = exec (.reservedEncoding n true) s)
  ∧ ∀ f : ExtForm, f.sh ≠ 0 → exec (.extF n f) s = exec (.reservedEncoding n true) s

/-- SLOT_FAULT_STOP (R250): the slot is FAULTED with the cause, the core, the addresses and the delay-slot flag of its
first fault. -/
def Obligations.FaultStop : Prop := ∀ (s : State) (n : Nat) (f : CoreFault),
  let c := s.core n
  let ap := s.applet c.slot
  s.sz.draw = none → ap.state = .running →
    (s.coreFault n f).applet c.slot = { ap with
      state := .faulted
      faultCause := f.cause
      faultCore := c.index
      faultDs := c.delay.isSome
      fpc := c.pc
      faddr := f.addr }

/-! ### Modes, power and resets (02) -/

/-- What a cause does (R27): outside Service and Draw, or with an effect below Held, it stands behind those that
stand, its MODE record with the mode before and after enters the Evidence Log, and nothing else changes. What entry to
Held does (R28): every reserved take without a failure of its own gets the code, one that waits for the mirror stays
there, what is fetched or queued is owed HELD, manifests before their slate go, the draw instance is wiped, and the
keys stay; without a draw nothing else changes but the mode, the counts and the units that signed. -/
def Obligations.CausesAndHeld : Prop :=
  (∀ (s : State) (c : Cause) (code : Status),
    s.stands c = false → (s.sealing = false ∨ c.rank ≠ 2) → c ≠ .entropyLatch → c ≠ .holdAlarm → c ≠ .eraseAlarm →
    s.unarchived + 1 < 16320 → s.tg.queue.length < 8 →
    let m := s.pwr.mode.code
    let body := s.evidenceBody 3 c.code s.stamp (be 1 m ++ be 1 m)
    let h := Config.sha256 (0x56 :: s.evidenceHead ++ body)
    s.raiseCauseWith c code = { s with
      pwr := { s.pwr with causes := s.pwr.causes ++ [c] }
      tg := { s.tg with queue := s.tg.queue ++ [(s.tg.nextSeq, body ++ h.take 8)], nextSeq := s.tg.nextSeq + 1, head := h } })
  ∧ (∀ (s : State) (code : Status), s.sz.draw = none → s.en.drawWait = none → s.roomy →
    let t := s.enterHeld code
    t = { s with
      td := t.td
      hg := { s.hg with queues := s.hg.queues.map fun e => (e.1, e.2.owe stHeld) }
      lh := { s.lh with units := t.lh.units }
      en := { s.en with instances := t.en.instances }
      pwr := { s.pwr with mode := .held } }
    ∧ t.drbg 76 = { epoch := ((s.drbg 76).epoch + 1) % 65536 } ∧ (∀ i, i ≠ 76 → t.drbg i = s.drbg i)
    ∧ t.td.fetched = (s.td.fetched.map fun x => { x with failure := some (x.failure.getD stHeld) })
    ∧ t.td.inflight.length = s.td.inflight.length
    ∧ (∀ x ∈ t.td.inflight, ∃ y ∈ s.td.inflight, x = { y with failure := x.failure, phase := x.phase, rnd := x.rnd }
        ∧ x.failure = some (y.failure.getD code)
        ∧ (y.failure = none → x.phase = if y.phase = .mirror then .mirror else .returned))
    ∧ (∀ m, m ∈ t.td.manifests ↔ m ∈ s.td.manifests ∧ m.phase = .slated))

/-- The rails and the battery (R24, R369, Table 2.10): VBAT_RISE, which in Dark begins Vault mode with a new shield
key; VAULT_LOSS on main power and in Vault; MAIN_RAIL_LOSS with a battery keeps the Vault, the fuses and the Evidence
Log, wraps every key, and leaves the anchor as it is or stowed; MAIN_RAILS_GOOD runs Wake to the end of its step 7. -/
def Obligations.PowerRails : Prop := ∀ s : State,
  let key := (Config.sha512 (s.freeBytes 144)).take 32
  (s.pwr.mode ≠ .dark → exec .vbatRise s = .next { s with pwr := { s.pwr with vbat := true } })
  ∧ (s.pwr.mode = .dark → exec .vbatRise s = .next { s with
    pwr := { s.pwr with vbat := true, mode := .vault }
    tg := { s.tg with shieldKey := key }
    freeCtr := s.freeCtr + 144 })
  ∧ (s.pwr.mode ≠ .vault → exec .vaultLoss s = .next { s with pwr := { s.pwr with vbat := false } })
  ∧ (s.pwr.mode = .vault → ∃ t, exec .vaultLoss s = .next t ∧ t = { s with
      pwr := { s.pwr with mode := .dark, vbat := false }
      tb := { s.tb with deviceTime := 0, dtValid := false, rtc := 0, cmpTime := 0, refPresent := 0, locked := [] }
      ch := {}
      lg := { s.lg with journalCount := 0, checkpointSeq := 0, anchor := { state := .invalid } }
      en := { s.en with latch := false, history := [], lastSource := 0xFF, lastTest := 0, lastTime := 0 }
      sz := { s.sz with drawCount := 0 }
      tg := { s.tg with rootKey := none }
      krf := {}
      pd := t.pd }
    ∧ ∀ k, mapGet none t.pd.nums k = if keyPersist k = some .vlt then none else mapGet none s.pd.nums k)
  ∧ (s.powered = true → s.pwr.vbat = true → s.lc.burning = none → s.tg.window = none →
    ∃ t, exec .mainRailLoss s = .next t
    ∧ t.pwr = { mode := .vault, vbat := true, bootCount := s.pwr.bootCount }
    ∧ t.lc = { fuses := s.lc.fuses }
    ∧ t.lg = { anchor := t.lg.anchor, journalCount := s.lg.journalCount, checkpointSeq := s.lg.checkpointSeq }
    ∧ (s.pwr.pwrfail = true ∨ s.lg.valid = false → t.lg.anchor = s.lg.anchor)
    ∧ (t.lg.anchor = s.lg.anchor ∨ t.lg.anchor = { s.lg.anchor with
        state := .stowed
        stowCount := s.lg.journalCount
        stowContinuity := s.lg.continuity
        stow := s.td.inflight.map fun x => { slot := x.slot, serial := x.serial, tenant := x.tenant, epoch := x.epoch } })
    ∧ t.tg.rootKey = s.tg.rootKey ∧ t.tg.log = s.tg.log ∧ t.tg.queue = s.tg.queue ∧ t.tg.nextSeq = s.tg.nextSeq
    ∧ t.tg.head = s.tg.head ∧ t.tg.erased = s.tg.erased ∧ t.sp.rootDigests = s.sp.rootDigests
    ∧ t.en.latch = s.en.latch ∧ t.en.firstSeed = false ∧ t.hg = {} ∧ t.td = { nextId := s.td.nextId } ∧ t.el = {} ∧ t.xl = {}
    ∧ t.hostMem = s.hostMem ∧ t.pending = s.pending ∧ t.clock = s.clock ∧ t.outbox = s.outbox
    ∧ t.krf.running = none ∧ t.krf.journal = none
    ∧ ∀ e ∈ t.krf.handles, ∀ h, e.2 = some h → h.state = .wrapped ∧ h.privatePart = [])
  ∧ (s.pwr.mode = .dark ∨ s.pwr.mode = .vault ∨ s.pwr.mode = .wake ∧ s.pwr.wakeStep = 0 →
    s.pwr.pwrfail = false → fusedState (completeBurns s.lc.fuses) ≠ 5 → s.tb.dtValid = true → s.unarchived < 16320 →
    s.tg.erased = false → ∃ t, exec (.mainRailsGood []) s = .next t
    ∧ (s.pwr.mode = .vault → t.tg.shieldKey = s.tg.shieldKey ∧ t.freeCtr = s.freeCtr)
    ∧ (s.pwr.mode ≠ .vault → t.tg.shieldKey = key ∧ t.freeCtr = s.freeCtr + 144)
    ∧ t = { s with
      freeCtr := t.freeCtr
      pwr := { s.pwr with
        mode := .wake, lastReset := .powerOn, wakeStep := 7, t0 := s.clock, s0 := none, bootCount := s.pwr.bootCount + 1
        selfTest := 0, calMonitor := 0xFFFF, calRatio := 0 }
      lc := { s.lc with fuses := completeBurns s.lc.fuses, state := fusedState (completeBurns s.lc.fuses) }
      tg := { s.tg with
        shieldKey := t.tg.shieldKey
        groupsFused := s.tg.groupsBurnt
        loaded := true
        gangwaysKeyed := (List.range 13).filter fun g => !s.tg.gangwaysStopped.contains g }
      tb := { s.tb with cmpTime := s.tb.deviceTime, cmpSlew := 0 }
      en := { s.en with sources := (List.range 5).map fun i => (i, { state := .running, since := s.clock }) } })

/-- The reference clocks and their monitors (R371, R424, R425): SYSCLK_25M absent 1 ms after T0 is cause
REFCLK_ABSENT; a reference found is present, one lost is not and sets its STOPPED bit; an island locks once its own
reference is present; a monitor arms when what it watches has come. -/
def Obligations.Clocks : Prop := ∀ s : State,
  (s.pwr.mode = .wake → 3 ≤ s.pwr.wakeStep → bitOf s.tb.refPresent 2 = false → s.wakeStopped = false →
    s.pwr.t0 + 1000000 ≤ s.clock → exec .refclkDetectTimeout s = .next (s.raiseCause .refclkAbsent))
  ∧ (∀ r < 4, s.powered = true →
    exec (.referenceDetect r) s = .next { s with tb := { s.tb with refPresent := setBit s.tb.refPresent r true } }
    ∧ (bitOf s.tb.refPresent r = true → s.monitorArmed (if r = 3 then 0xE000 else 0x5000 + r) = false →
      s.tb.cfgActive.getLsbD 31 = false → ∃ t, exec (.referenceStop r) s = .next t
        ∧ t = { s with
          latches := t.latches
          tb := { s.tb with refPresent := setBit s.tb.refPresent r false }
          tg := { s.tg with armed := if r = 0 then s.tg.armed.filter (· ≠ 0x5000) else s.tg.armed } }
        ∧ (t.latched .tbRef .maker).testBit (4 + r) = true))
  ∧ (∀ n < 288, s.powered = true → n ∉ s.tb.locked →
    bitOf s.tb.refPresent (if n < 8 then 0 else if 66 ≤ n ∧ n < 78 then 1 else if n < 276 then 2 else 3) = true →
    exec (.islandLock n) s = .next { s with tb := { s.tb with locked := s.tb.locked ++ [n] } })
  ∧ (∀ n, s.powered = true → n ∉ s.tg.armed →
    (∃ k < 288, n = 0x4000 + k ∧ k ∈ s.tb.locked)
      ∨ (∃ r < 4, n = 0x5000 + r ∧ bitOf s.tb.refPresent r = true ∧ (r = 0 → s.pwr.perst = false)) →
    exec (.monitorArm n) s = .next { s with tg := { s.tg with armed := s.tg.armed ++ [n] } })

/-- Self-Test (R36, R41, R127, R134, R197): from a complete Wake with a population of Table 5.13 and passing tests;
the first seed; the load step with its smallest ratio; the ledger of a unit without an anchor; and Standby at its end.
-/
def Obligations.SelfTest : Prop := ∀ s : State,
  let rateOf := fun ch : Channel => ({ rate := if ch.rate = 4800 then 0 else if ch.rate = 5600 then 1 else 2 } : ChanStat)
  (∀ (ch : Channel) (kat : BitVec 7), s.wakeDone = true → s.certDue = false → s.en.latch = false → kat.getLsbD 3 = false →
    ch.supported = true → ch.trained = true → 16 ≤ ch.capGib → ch.capGib ≤ 64 →
    ch.rate = 4800 ∨ ch.rate = 5600 ∨ ch.rate = 6400 →
    ∃ t, exec (.selfTestStart [ch, ch, ch, ch] kat) s = .next t ∧ t = { s with
      lg := { s.lg with chans := t.lg.chans, totalUnits := t.lg.totalUnits }
      pwr := { s.pwr with
        mode := .selfTest, wakeStep := 9, s0 := some s.clock, selfTest := s.pwr.selfTest ||| kat.toNat % 32 } }
    ∧ ∀ n < 4, mapGet {} t.lg.chans n = { rateOf ch with capGib := ch.capGib, x4 := ch.x4, ranks2 := ch.ranks2, trained := true })
  ∧ (∀ x, s.powered = true → s.en.firstSeed = false → s.en.stopped = false → s.anchorSource = true →
    s.pwr.s0 = some x → x + 1800000 ≤ s.clock → ∃ t, exec .firstSeed s = .next t ∧ t.en.firstSeed = true
      ∧ (∀ i ∈ [77, 78, 79], (t.drbg i).live = true)
      ∧ t = { s with en := t.en, xl := t.xl, freeCtr := t.freeCtr, pd := t.pd, latches := t.latches
                     lg := { s.lg with keys := t.lg.keys } })
  ∧ (∀ m r, s.pwr.mode = .selfTest → s.pwr.wakeStep < 12 → smallest (ratios m) = some r → 1000 ≤ r.2 →
    exec (.loadStep m) s = .next { s with pwr := { s.pwr with
      wakeStep := 12
      calMonitor := r.1
      calRatio := min r.2 0xFFFF
      causes := s.pwr.causes.filter (· ≠ .calMargin) } })
  ∧ (∀ ok, s.pwr.mode = .selfTest → s.pwr.wakeStep = 12 → s.pwr.lastReset = .powerOn → s.lg.anchor.state = .empty →
    ∃ t, exec (.ledgerSelfTest ok) s = .next t ∧ t = { s with
      pwr := { s.pwr with wakeStep := 13 }
      krf := { s.krf with journal := t.krf.journal }
      en := t.en
      freeCtr := t.freeCtr
      pd := t.pd
      lg := { s.lg with slots := [], windows := [], valid := true, keys := t.lg.keys } })
  ∧ (s.pwr.mode = .selfTest → s.pwr.wakeStep = 13 → s.lg.waitSince = none → s.lg.recovering = none →
    s.en.firstSeed = true → s.pwr.selfTest % 32 = 0 →
    exec .selfTestComplete s = .next { s with pwr := { s.pwr with mode := .standby, wakeStep := 14 } })

/-- The mode requests and the restart (R26, R31, R32, R43, Table 2.2). -/
def Obligations.ModeRequests : Prop := ∀ (s : State) (v : Viewer),
  (Writable s v 0x1100 2 4 → s.inTransition = false → s.pwr.mode = .service ∨ s.pwr.mode = .draw ∨ s.pwr.mode = .held →
    Wrote (.modeRequestStandby v) s v stOk (s.enterDrain none false))
  ∧ (Writable s .regulator 0x1100 2 4 → s.inTransition = true →
    Wrote (.modeRequestStandby .regulator) s .regulator stOk { s with pwr := { s.pwr with heldStandby := true } })
  ∧ (Writable s (.tenant 0) 0x1100 2 5 → s.inTransition = false → s.pwr.mode = .standby ∨ s.pwr.mode = .held →
    (∀ c ∈ s.pwr.causes, s.causeOver c = true) → s.tb.dtValid = true → s.en.firstSeed = true →
    s.lc.state = 2 ∨ s.lc.state = 3 →
    (s.pwr.mode = .standby → (s.lc.maint = true → s.lc.state ≠ 3) ∧ s.el.state = .running
      ∧ s.clock < s.el.lastStatus + s.statusLimit * 1000000) →
    Wrote (.modeRequestService (.tenant 0)) s (.tenant 0) stOk
      { s with pwr := { s.pwr with causes := [], entering := some s.clock } })
  ∧ (Writable s .regulator 0x1100 2 8 → s.inTransition = false → s.mayHoldCeremony = true → s.claimees = [] →
    Wrote (.modeRequestCeremony .regulator) s .regulator stOk s.enterCeremony)
  ∧ (s.pwr.heldStandby = true → s.inTransition = false →
    s.pwr.mode = .service ∨ s.pwr.mode = .draw ∨ s.pwr.mode = .held →
    exec .heldRequestExecute s = .next
      (State.enterDrain none false { s with pwr := { s.pwr with heldStandby := false } }))
  ∧ (∀ noise, Writable s v 0x1100 3 0xA5C3 →
    s.pwr.mode = .service ∨ s.pwr.mode = .draw ∨ s.pwr.mode = .held ∨ s.pwr.mode = .standby ∨ s.pwr.mode = .ceremony →
    Wrote (.restartRequest v 0xA5C3 noise) s v stOk
      (State.enterDrain (some .restart) false { s with lg := { s.lg with sweep := none } }))
  ∧ (∀ env x, (s.applyEnv env).pwr.entering = some x → s.pwr.mode = .held → s.pwr.causes = [] →
    exec (.serviceEntryComplete env) s = .next { s.applyEnv env with pwr := { s.pwr with mode := .service, entering := none } })
  ∧ (∀ env x, s.pwr.entering = some x → s.pwr.mode = .standby → s.pwr.causes = [] → (∀ e ∈ s.krf.handles, e.2 = none) →
    exec (.serviceEntryComplete env) s = .next { s.applyEnv env with
      pwr := { s.pwr with mode := .service, entering := none }
      lc := { s.lc with challenge := [] } })

/-- Drain, PERST# and the recovery wait (R46 to R48, R127, R132): entry to Drain; step 4 done where no role has a
mirror; the limit; Standby at its end with the anchor stowed and the keys zeroed; the link at PERST#'s edges. -/
def Obligations.Drains : Prop := ∀ s : State,
  (∀ ending silent, s.sz.draw = none → s.en.drawWait = none → s.pwr.mode ≠ .ceremony → s.td.manifests = [] → s.roomy →
    let t := s.enterDrain ending silent
    t = { s with
      pd := t.pd
      hg := { s.hg with queues := s.hg.queues.map fun e => (e.1, e.2.owe stNotReady) }
      td := { s.td with fetched := s.td.fetched.map fun x => { x with failure := some (x.failure.getD stNotReady) } }
      lc := { s.lc with challenge := [] }
      pwr := { s.pwr with
        mode := .drain
        entering := none
        drain := some { ending := ending, silent := silent, start := s.clock, handedOver := false } } })
  ∧ (s.handsOver = true → s.drained = true → (s.handOverRoles).rolesHandedOver = true →
    exec .drainRoleHandover s = .next s.handOverRoles.drainStep5)
  ∧ (s.handsOver = true → s.drainLate = true → exec .drainLimitExpiry s = .next s.releaseRoles.drainStep5)
  ∧ (∀ noise d, s.pwr.drain = some d → s.pwr.mode = .drain → d.handedOver = true → d.ending = none → s.drained = true →
    s.el.state = .idle → s.lg.valid = true → s.lg.writesStopped = false → s.stands .memoryIntegrity = false →
    s.lc.state ≠ 5 → (∀ e, (s.engine e).running = none) → (∀ u, (s.latticeUnit u).running = none) → s.lh.toVerify = [] →
    ∃ t, exec (.drainComplete noise) s = .next t ∧ t = { s with
      pwr := { s.pwr with mode := .standby, drain := none }
      lg := t.lg
      krf := { s.krf with handles := t.krf.handles } }
    ∧ t.lg.dirty = [] ∧ t.lg.slots = s.lg.slots ∧ t.lg.pinnedCtr = (s.lg.pinnedCtr + 1) % 2 ^ 56
    ∧ t.lg.anchor = { s.lg.anchor with
        state := .stowed
        stowCount := s.lg.journalCount
        stowContinuity := s.lg.continuity
        stow := [] }
    ∧ ∀ e ∈ t.krf.handles, ∀ h, e.2 = some h → h.state ≠ .unwrapped)
  ∧ (s.powered = true → s.pwr.perst = true → exec .perstRelease s = .next { s with
      pwr := { s.pwr with perst := false }
      hg := { s.hg with linkUp := true } })
  ∧ (∀ noise, s.pwr.perst = false → s.pwr.mode = .standby ∨ s.pwr.mode = .service ∨ s.pwr.mode = .held →
    ∃ u : State, exec (.perstAssert noise) s = .next (u.enterDrain (some .perst) true) ∧ u = { s with
      pwr := { s.pwr with perst := true }
      hg := { s.hg with linkUp := false, vfEnable := false, vfMemSpace := false, numVfs := 0, fns := u.hg.fns }
      tg := { s.tg with armed := s.tg.armed.filter (· ≠ 0x5000) }
      lg := { s.lg with sweep := none } }
    ∧ ∀ e ∈ u.hg.fns, e.2.memSpace = false ∧ e.2.busMaster = false ∧ e.2.msixEnable = false)
  ∧ (s.recoveryExpired = true → exec .recoveryWaitExpiry s = .next (State.raiseCause .ledgerRoot { s with
      lg := { s.lg with waitSince := none, recoveryStatus := rsWaitExpired } }))

/-- A function-level reset (R50, R51): the tenant's queue pairs, latches and staged parts are gone, its reset is
counted and it may no longer issue requests; the other tenants' queue pairs stand. VF Enable falling and D3hot to D0
reset the functions they reach; the tenant's keys are unwrapped again afterwards. -/
def Obligations.FunctionResets : Prop := ∀ s : State,
  (∀ n < 64, s.powered = true → s.fnPresent n = true → ∃ t, exec (.functionLevelReset n) s = .next t
    ∧ (∀ q < 8, t.qpair n q = {}) ∧ (∀ m q, m ≠ n → q < 8 → t.qpair m q = { s.qpair m q with owed := (t.qpair m q).owed })
    ∧ (∀ r, t.latched r (.tenant n) = 0) ∧ (t.fn n).busMaster = false ∧ (t.fn n).msixEnable = false
    ∧ 0 < (t.fn n).resets ∧ ∀ x ∈ t.pd.staging, x.viewer ≠ .tenant n)
  ∧ (∀ n, s.powered = true → s.fnPresent n = true → s.hg.linkUp = true → (s.fn n).d3hot = true →
    exec (.d3hotToD0 n) s = .next ((s.flr n).onFn n fun f => { f with d3hot := false }))
  ∧ (s.powered = true → s.hg.linkUp = true → s.hg.vfEnable = true → ∃ u : State, exec .vfEnableClear s = .next
      { u with hg := { u.hg with vfEnable := false } } ∧ u = (List.range' 1 s.hg.numVfs).foldl (fun s n => s.flrIf n) s)
  ∧ (∀ n env h k, s.pwr.mode = .service ∨ s.pwr.mode = .draw ∨ s.pwr.mode = .held →
    s.krf.handles = [(h, some k)] → k.owner = n → k.state = .wrapped →
    exec (.flrKeyReunwrap n env) s = .next ((s.applyEnv env).unwrapHandle h))

/-! ### Queues, takes and landing (03, 04) -/

/-- The queue pair registers (R54, R57, R58): a tail inside the queue is taken, one outside sets its error; a head
returns the entries up to it; HG_Q_CFG enables a pair that is disabled, idle and repaired, with valid sizes, with SQ
head, CQ tail and phase at their start and the doorbells' indices as they are (DEDUCED, log entry 64), and disables
one; a completion queue full for more than 1 s stalls. -/
def Obligations.QueueRegisters : Prop := ∀ (s : State) (loc : Loc) (n q : Nat),
  let p := s.qpair n q
  (∀ (i : BitVec 16) env, Reaches s loc (.queue n q 0x18) →
    (i.toNat < p.sqSize → exec (.sqTailDb loc i env) s = .next ((s.applyEnv env).onQ n q fun p => { p with sqTail := i.toNat }))
    ∧ (p.sqSize ≤ i.toNat → exec (.sqTailDb loc i env) s = .next ((s.applyEnv env).latch (.qStat n q) 4)))
  ∧ (∀ i : BitVec 16, Reaches s loc (.queue n q 0x1C) →
    (i.toNat < p.cqSize →
      let used := p.cqUsed - (i.toNat + p.cqSize - p.cqHead) % p.cqSize
      exec (.cqHeadDb loc i) s = .next (s.onQ n q fun p => { p with
        cqHead := i.toNat
        cqUsed := used
        fullSince := if used < p.cqSize then none else p.fullSince
        stalled := if used < p.cqSize then false else p.stalled }))
    ∧ (p.cqSize ≤ i.toNat → exec (.cqHeadDb loc i) s = .next (s.latch (.qStat n q) 4)))
  ∧ (∀ v : BitVec 32, Reaches s loc (.queue n q 0x10) →
    (p.enabled = false → p.outstanding = 0 → v.getLsbD 31 = true → qSizesOk v.toNat = true → s.hg.faulted = [] → q < 8 →
      ∃ t, exec (.qCfgWrite loc v) s = .next t ∧ t = { s with hg := t.hg }
        ∧ t.qpair n q = { p with
            cfg := (v &&& 0x001F1F1F#32) ||| 0x80000000#32
            sqHead := 0
            cqTail := 0
            phase := true
            cqUsed := (2 ^ bitsOf v.toNat 12 8 - p.cqHead % 2 ^ bitsOf v.toNat 12 8) % 2 ^ bitsOf v.toNat 12 8
            owed := []
            fullSince := none
            stalled := false }
        ∧ ∀ m r, r < 8 → (m ≠ n ∨ r ≠ q) → t.qpair m r = s.qpair m r)
    ∧ (p.enabled = true → v.getLsbD 31 = false → v &&& 0x001F1F1F#32 = p.cfg &&& 0x001F1F1F#32 →
      exec (.qCfgWrite loc v) s = .next (s.onQ n q fun p => { p with cfg := p.cfg &&& 0x7FFFFFFF#32 })))
  ∧ ∀ c, p.fullSince = some c → c + 1000000000 < s.clock →
    exec (.cqStallTimeout n q) s = .next ((s.latch (.qStat n q) 1).onQ n q fun p => { p with stalled := true })

/-- DESCRIPTOR_FETCH (R54, R55, Table 3.5): the pair whose turn it is gives up its oldest descriptor, which becomes a
fetched take with the fields of its bytes and the code that a mode has left it; its payload is not read yet. The
pair's head advances and one of its completion entries is set aside. Room in the In-Flight Table is counted as log
entry 122 says. -/
def Obligations.DescriptorFetch : Prop := ∀ (s : State) (k : Nat),
  let n := k / 8
  let q := k % 8
  let p := s.qpair n q
  let b := s.hostMem.readBytes (p.sqBase + 64 * p.sqHead) 64
  s.fetches = true → s.inflightRoom = true → s.nextPair = some k → s.dmaOk n (p.sqBase + 64 * p.sqHead) 64 = true →
  ∃ t d, exec .descriptorFetch s = .next t ∧ t = { s with hg := t.hg, td := { s.td with
      nextId := s.td.nextId + 1
      fetched := s.td.fetched ++ [d] } }
    ∧ t.qpair n q = { p with
        sqHead := if p.sqHead + 1 = p.sqSize then 0 else p.sqHead + 1
        outstanding := p.outstanding + 1
        owed := payOwed p.owed }
    ∧ (∀ m r, r < 8 → (m ≠ n ∨ r ≠ q) → t.qpair m r = s.qpair m r)
    ∧ d.id = s.td.nextId ∧ d.source = .queue q ∧ d.tenant = n ∧ d.commandId = leAt b 6 2 ∧ d.length = leAt b 8 2
    ∧ d.gate = leAt b 10 2 ∧ d.slot = leAt b 12 4 % 2 ^ 21 ∧ d.receipt = leAt b 24 8 ∧ d.clientTag = leAt b 32 8
    ∧ d.payloadAddr = leAt b 16 8 ∧ d.hasPayload = false ∧ d.failure = p.owes
    ∧ (d.malformed = true ↔ leAt b 0 1 ≠ 1 ∨ leAt b 1 1 ≠ 1 ∨ leAt b 2 2 ≠ 0 ∨ 4 ≤ leAt b 4 1 ∨ leAt b 5 1 ≠ 0
      ∨ 2 ^ 21 ≤ leAt b 12 4 ∨ leAt b 40 24 ≠ 0
      ∨ (leAt b 4 1).testBit 1 = false ∧ (leAt b 24 8 = 0 ∨ leAt b 24 8 % 64 ≠ 0))

/-- TAKE_RESERVE (R70, R71, R118): a take that passes the checks gets the slot's next serial, Device Time and the
epochs in force, and enters the In-Flight Table last, with its payload read and its slot's line resident; one that a
mode has left a code, a malformed, empty or oversized one, one whose payload cannot be read, one of a wrong window,
and one past its gate's close time, completes without a serial under the code of its check. -/
def Obligations.TakeReserve : Prop := ∀ (s : State) (t : Take) (ty : Nat),
  let x := s.slot t.slot
  let w := s.window (t.slot / 1024)
  let p : Take := if t.hasPayload then t else
    { t with payload := s.hostMem.readBytes t.payloadAddr t.length, hasPayload := true }
  let ready := s.td.fetched.find? (fun u => u.id = t.id) = some t ∧ s.pwr.stowed = false
    ∧ (s.pwr.mode = .service ∨ s.pwr.mode = .draw)
  let formed := t.failure = none ∧ t.malformed = false ∧ 0 < t.length ∧ t.length ≤ 16384
  let sound := formed ∧ (t.hasPayload = true ∨ s.dmaOk t.tenant t.payloadAddr t.length = true) ∧ s.tb.dtValid = true
    ∧ s.tb.timeFault = false ∧ s.failedLine t.slot = none
  let seals := w.owner = t.tenant ∧ w.reassigning = false ∧ x.state = 1 ∧ s.unwrappedType x.handle = some ty
    ∧ t.slot ∉ s.lg.suspended
  (ready → sound → seals → (t.gate ≠ 0 → (s.gate t.gate).owner = t.tenant ∧ s.tb.deviceTime < (s.gate t.gate).close) →
    s.td.manifestSeq < 2 ^ 44 - 1 → x.fleet = false → s.reservationCounter t.slot < 2 ^ 64 - 1 →
    ∃ u, exec (.takeReserve t.id) s = .next u
      ∧ u = { s with lg := u.lg, freeCtr := u.freeCtr, td := { s.td with
        fetched := s.td.fetched.filter (·.id ≠ t.id)
        inflight := s.td.inflight ++ [{ p with
      phase := .dispatched
      serial := s.reservationCounter t.slot + 1
      officialTime := s.tb.deviceTime
      epoch := w.epoch
      roleEpoch := x.roleEpoch
      handle := x.handle
      sealMode := if ty = 0x40 then 1 else 0
      die := sealDie t.slot
      dispatched := s.clock }] } }
      ∧ u.lg.slots = s.lg.slots ∧ u.lg.reel = s.lg.reel ∧ t.slot ∈ u.lg.resident)
  ∧ (∀ st, ready → t.failure = some st → exec (.takeReserve t.id) s = .next (s.refuseTake t st))
  ∧ (ready → t.failure = none → t.malformed = true → exec (.takeReserve t.id) s = .next (s.refuseTake t stBadDescriptor))
  ∧ (ready → t.failure = none → t.malformed = false → t.length = 0 →
    exec (.takeReserve t.id) s = .next (s.refuseTake t stLenZero))
  ∧ (ready → t.failure = none → t.malformed = false → 16384 < t.length →
    exec (.takeReserve t.id) s = .next (s.refuseTake t stLenTooLong))
  ∧ (ready → formed → t.hasPayload = false → s.dmaOk t.tenant t.payloadAddr t.length = false →
    exec (.takeReserve t.id) s = .next ((s.latch (.fnStat t.tenant) 2).refuseTake t stDmaFault))
  ∧ (ready → sound → w.owner ≠ t.tenant →
    exec (.takeReserve t.id) s = .next ((s.makeResident t.slot).refuseTake p stBadSlot))
  ∧ (ready → sound → seals → t.gate ≠ 0 → (s.gate t.gate).owner = t.tenant → (s.gate t.gate).close ≤ s.tb.deviceTime →
    exec (.takeReserve t.id) s = .next
      ((s.makeResident t.slot).refuseTake { p with officialTime := s.tb.deviceTime } stGateClosed))

/-- COMPLETION_POST (R56, Table 3.6): the 32-byte entry goes to the pair's completion tail, every other byte of host
memory stays, the tail advances with the phase turning at the end of the queue, and the take's outcome is counted. -/
def Obligations.CompletionPost : Prop := ∀ (s : State) (t : Take) (q outcome : Nat) (status : Status),
  let p := s.qpair t.tenant q
  let a := p.cqBase + 32 * p.cqTail
  let u := s.completeTake t status outcome
  let entry := le 8 (t.commandId * 2 ^ 48 + status.toNat * 2 ^ 32 + t.sqHead * 2 ^ 16 + outcome * 16 + q * 2 + b2n p.phase)
    ++ le 8 t.serial ++ le 8 t.officialTime ++ le 8 t.manifest
  t.source = .queue q → q < 8 → t.silent = false → s.pwr.drain = none → s.dmaLands t.tenant a 32 = true → t.irq = false →
  s.hostMem.wf = true →
    Stored s.hostMem u.hostMem a entry ∧ u.hostMem.wf = true ∧ u = { s with hostMem := u.hostMem, hg := u.hg, td := u.td }
    ∧ u.qpair t.tenant q = { p with
        cqTail := if p.cqTail + 1 = p.cqSize then 0 else p.cqTail + 1
        phase := if p.cqTail + 1 = p.cqSize ∨ p.cqTail + 1 = 0 then !p.phase else p.phase
        cqUsed := p.cqUsed + 1
        outstanding := p.outstanding - 1
        fullSince := if p.cqUsed + 1 = p.cqSize ∧ p.fullSince = none then some s.clock else p.fullSince }
    ∧ (∀ m r, r < 8 → (m ≠ t.tenant ∨ r ≠ q) → u.qpair m r = s.qpair m r)
    ∧ u.td.inflight = s.td.inflight ∧ u.td.device = s.td.device.count outcome

/-- A take on its Seal die (R72 to R74, R84 to R86, R142, R196): arrival under the owner epoch in force; its digest;
an idle engine of its die, which draws for it; its signature, which waits for another engine to verify it; its return
to the Landing Unit; a result that is late is a failure and SEAL_DIE_LOST. What has waited for an engine is then
served (log entry 18). A sealing engine is of the take's die, unowned, in service, idle and not the engine that signed
(R142). -/
def Obligations.SealTakes : Prop :=
  (∀ (s : State) (id : Nat) (t : Take), s.takeById id = some t →
    (t.phase = .dispatched → (s.window (t.slot / 1024)).epoch = t.epoch →
      exec (.sealTakeArrival id) s = .next (s.onTake id fun t => { t with phase := .hashing }))
    ∧ (t.phase = .dispatched → (s.window (t.slot / 1024)).epoch ≠ t.epoch →
      exec (.sealTakeArrival id) s = .next (s.onTake id fun t => { t with
        failure := some stStaleOwner
        phase := .returned
        rnd := [] }))
    ∧ (t.phase = .hashing → t.sealMode = 0 → exec (.takeDigestComplete id) s = .next (s.onTake id fun u => { u with
        digest := some (Config.sha256 (u.header ++ u.payload))
        phase := .signing }).assignWork)
    ∧ (∀ e, (t.phase = .signing ∨ t.phase = .verifying) → t.engine = none → s.sealEngine t.die t.signer = some e →
      (∀ st, s.entropyBlock = some st → s.assignTake t = s.onTake id fun t => { t with
        failure := some st
        phase := .returned
        rnd := [] })
      ∧ (s.entropyBlock = none → ∃ w rnd, s.assignTake t = w ∧ w.takeById id = some { t with engine := some e, rnd := rnd }
        ∧ w = { s with td := w.td, li := w.li, en := w.en, pd := w.pd, freeCtr := w.freeCtr }))
    ∧ (∀ e, t.phase = .signing → t.engine = some e → ∃ sig, exec (.individualSignComplete id 0) s = .next
        ((s.onTake id fun u => { u with
          signature := sig
          phase := .verifying
          signer := u.engine
          engine := none
          rnd := [] }).sealRefill (some e)).assignWork
      ∧ (s.unwrappedType t.handle = some 0x04 → sig = edSignature 4 (s.privateOf t.handle) (0x49 :: t.digest.getD []))
      ∧ (s.unwrappedType t.handle = some 0x01 →
          sig = p256Sign (s.privateOf t.handle) (0x49 :: t.digest.getD []) (t.rnd.take 32)))
    ∧ (∀ e, t.phase = .verifying → t.engine = some e →
      exec (.individualVerifyComplete id 0) s = .next ((s.onTake id fun t => { t with
        failure := none
        phase := .returned
        rnd := [] }).sealRefill (some e)).assignWork)
    ∧ (∀ e, t.phase = .verifying → t.engine = some e → exec (.individualVerifyComplete id stSignatureCheckFailed) s =
        .next ((s.onTake id fun t => { t with
          signature := []
          failure := some stSignatureCheckFailed
          phase := .returned
          rnd := [] }).sealRefill (some e)).assignWork)
    ∧ ((t.phase = .dispatched ∨ t.phase = .hashing ∨ t.phase = .signing ∨ t.phase = .verifying) → t.sealMode = 0 →
      t.dispatched + 50000 ≤ s.clock → exec (.resultTimeout id) s = .next
        ((s.onTake id fun t => { t with
          failure := some stInternalFault
          phase := .returned
          rnd := [] }).raiseCause .sealDieLost).assignWork))
  ∧ (∀ (s : State) (die : Nat) (signer : Option Nat) (e : Nat),
    s.sealEngine die signer = some e → e / 16 = die ∧ (s.engine e).owner = 0xFF ∧ (s.engine e).retired = false
      ∧ signer ≠ some e ∧ s.sealWork e = false ∧ ∀ f, die * 16 ≤ f → f < e →
        (s.engine f).owner ≠ 0xFF ∨ (s.engine f).retired = true ∨ signer = some f ∨ s.sealWork f = true)

/-- Manifests (R87 to R99): a digested take of manifest mode joins the open manifest of its die and handle as its next
leaf, once no lower serial of its slot is still to be digested; the deadline closes one; a closed one is signed with
its root in place, by an engine and a unit that others then verify; with both halves made and verified it is slated,
and its takes may land; a half that fails abandons it. -/
def Obligations.Manifests : Prop := ∀ s : State,
  (∀ id t m, s.takeById id = some t → t.phase = .hashing → t.sealMode = 1 → s.pwr.mode = .service → s.leafWaits t = false →
    s.td.manifests.find? (fun m => m.phase = .opened && m.die = t.die && m.handle = t.handle) = some m →
    s.manifest m.id = some m → m.leaves.length + 1 < m.maxLeaves →
    ((m.leaves ++ [(t.slot, t.officialTime, t.digestOf)]).filter (fun l => l.1 % 4 = t.slot % 4)).length < 96 →
    exec (.takeDigestComplete id) s = .next { s with td := { s.td with
      manifests := s.td.manifests.map fun n =>
        if n.id = m.id then { m with leaves := m.leaves ++ [(t.slot, t.officialTime, t.digestOf)] } else n
      inflight := s.td.inflight.map fun u =>
        if u.id = t.id then { u with
          phase := .inManifest
          digest := some t.digestOf
          manifest := m.id
          leaf := m.leaves.length }
        else u } })
  ∧ (∀ id m, s.manifest id = some m → m.phase = .opened → m.openClock + m.deadline ≤ s.clock →
    exec (.manifestDeadline id) s = .next (s.onManifest id fun m => { m with
      phase := .closed
      closeReason := 3
      closeTime := s.tb.deviceTime
      closeClock := s.clock }))
  ∧ (∀ id m, s.manifest id = some m → m.phase = .closed → exec (.manifestRootComplete id) s = .next
      (s.onManifest id fun n => { n with phase := .signing, root := n.rootValue }).assignWork)
  ∧ (∀ m e v u, s.manifest m.id = some m → m.phase = .signing → m.engine = none → m.mlUnit = none → m.mlVerified = false →
    s.unitWorks m.id = false → s.entropyBlock = none → s.sealEngine m.die none = some e →
    s.sealEngine m.die (some e) = some v → s.idleUnit m.die none = some u → e ≠ v ∧ ∃ w rnd o, s.assignManifest m = w
      ∧ w.manifest m.id = some { m with
          engine := some e
          verifier := some v
          ecSig := p256Sign (slice (s.privateOf m.handle) 0 32) m.head rnd
          mlUnit := some u }
      ∧ (w.latticeUnit u).running = some o ∧ o.op = 2 ∧ o.param = 2 ∧ o.user = .manifestSign m.id ∧ o.message = m.head
      ∧ o.key = s.manifestKey m.handle
      ∧ w = { s with td := w.td, li := w.li, lh := w.lh, en := w.en, pd := w.pd, freeCtr := w.freeCtr })
  ∧ (∀ id m, s.manifest id = some m → m.phase = .signing → m.engine.isSome = true → m.mlVerified = true →
    ∃ t, exec (.manifestSigningComplete id 0 0) s = .next t
      ∧ t = (((s.slateManifest m).sealRefill m.engine).sealRefill m.verifier).assignWork
      ∧ (∀ x ∈ t.td.inflight, x.manifest = m.id → x.phase ≠ .inManifest)
      ∧ (s.lg.tapLog2 = 0 → s.reelFill + 4096 + 2 ^ 20 ≤ 2 ^ 30 → t.lg.journalCount = s.lg.journalCount + 1
        ∧ t.lg.slots = s.lg.slots))
  ∧ (∀ id m, s.manifest id = some m → m.phase = .signing → m.engine.isSome = true →
    exec (.manifestSigningComplete id stSignatureCheckFailed 0) s =
      .next (s.abandonManifests (fun n => n.id = id) stSignatureCheckFailed).assignWork)

/-- The audit path of every leaf leads to the root (R93, R94): for each leaf of a manifest of 1 to 256 leaves, a
checker that climbs from the leaf's hash along its path arrives at the manifest's root. -/
def Obligations.AuditPathReachesRoot : Prop := ∀ (m : Manifest) (i : Nat) (leaf : Nat × Nat × Bytes),
  m.leaves.length ≤ 256 → m.leaves[i]? = some leaf → climb i (leafHash i leaf.2.2) (m.path i) = m.rootValue

/-- TAKE_LANDING and JOURNAL_SIGN_COMPLETE complete (R21, R75, R78, R80, R119): in every mode but Dark, Vault,
Quarantine and Retired, with no stow, a returned take that is its slot's lowest in flight, with equal compares, lands
SEALED where it has not failed, its epoch is in force and its slot is no Fleet slot; one that has failed, or whose
epoch is stale, goes to the journal signer with its code, and lands VOID from there. The record joins the journal and
the take leaves the In-Flight Table. What a commit leaves (R75 step 7, R78, R119), with the tap off and room in the
reel buffer. -/
def Obligations.LandingAndCommit : Prop :=
  (∀ (s : State) (id : Nat) (t : Take), s.takeById id = some t → s.pwr.stowed = false →
    s.pwr.mode ∉ [.dark, .vault, .quarantine, .retired] →
    (∀ u ∈ s.td.inflight, u.slot = t.slot → t.serial ≤ u.serial) → (s.slot t.slot).fleet = false →
    (t.phase = .returned → t.failure = none → (s.window (t.slot / 1024)).epoch = t.epoch → t.slot ∉ s.lg.suspended →
      ∃ u, exec (.takeLanding id true) s = .next u ∧ u = s.commitTake t ∧ s.lg.journalCount < u.lg.journalCount
        ∧ u.takeById id = none)
    ∧ (∀ code, t.phase = .returned → (t.failure = some code
        ∨ t.failure = none ∧ (s.window (t.slot / 1024)).epoch ≠ t.epoch ∧ code = stStaleOwner) →
      exec (.takeLanding id true) s = .next (s.onTake t.id fun _ => { t with
        failure := some code
        signature := []
        phase := .journalSign }))
    ∧ (t.phase = .journalSign → ∃ u, exec (.journalSignComplete id) s = .next u ∧ u = s.commitTake t
        ∧ s.lg.journalCount < u.lg.journalCount ∧ u.takeById id = none))
  ∧ (∀ (s : State) (t : Take) (q : Nat),
    let body := t.record s.tb.deviceTime
    let cont := Config.sha256 (0x43 :: s.lg.continuity ++ body)
    let u := s.commitTake t
    t.source = .queue q → t.noReceipt = true → s.lg.tapLog2 = 0 → 0 < t.serial → s.hostMem.wf = true →
    s.reelFill + 4096 + 2 ^ 20 ≤ 2 ^ 30 →
      u.lg.journalCount = s.lg.journalCount + 1 ∧ u.lg.continuity = cont
      ∧ (∃ tail, u.lg.reel = s.lg.reel ++ [{ bytes := body ++ cont ++ tail, last := s.lg.journalCount + 1 }]
        ∧ (t.failure = none → t.sealMode = 1 → tail = []) ∧ (t.failure = none → t.sealMode = 0 → tail = slice t.signature 0 64)
        ∧ (t.failure ≠ none → tail = (s.journalSignature (body ++ cont)).1))
      ∧ u.slot t.slot = { s.slot t.slot with
          serial := t.serial
          official := t.officialTime
          landing := s.tb.deviceTime
          digest := cont.take 16 }
      ∧ (∀ n, n ≠ t.slot → u.slot n = s.slot n) ∧ t.slot ∈ u.lg.dirty
      ∧ u.td.inflight = s.td.inflight.filter (·.id ≠ t.id)
      ∧ u = { s with lg := u.lg, td := u.td, hg := u.hg, hostMem := u.hostMem, freeCtr := u.freeCtr, latches := u.latches,
                     outbox := u.outbox, en := u.en, pd := u.pd, sz := { s.sz with outstanding := u.sz.outstanding } }
      ∧ (t.failure = none → u.en = s.en ∧ u.pd = s.pd))

/-! ### Device Time, gates, slots, checkpoints and recovery (03, 05) -/

/-- Device Time (R63 to R65): a tick of the reference adds its nanoseconds and the slew that SlewLimit allows, at most
what remains, ends the function-level resets in progress (log entry 55) and, with a second of the clock, turns the
peaks of the noise sources over; a correction replaces what remains; a comparison within 200 ppm of the RTC counts as
good, one outside it is cause GATE_TIME_FAULT; DeviceTimeSet in Ceremony sets the time and the RTC, never below the
floor; the floor goes one hour ahead. -/
def Obligations.DeviceTime : Prop := ∀ s : State,
  (∀ ns, s.pwr.mode ≠ .dark → ∃ t, exec (.timebaseTick ns) s = .next t
    ∧ t = { s with
        clock := s.clock + ns
        tb := t.tb
        hg := { s.hg with fns := t.hg.fns }
        en := { s.en with sources := t.en.sources }
        freeCtr := t.freeCtr
        el := { s.el with cfgActive := t.el.cfgActive, cfgPend := t.el.cfgPend } }
    ∧ (∀ f, t.fn f = { s.fn f with resetting := false })
    ∧ (∀ i, (t.source i).state = (s.source i).state ∧ (t.source i).since = (s.source i).since)
    ∧ (s.clock / 1000000000 = (s.clock + ns) / 1000000000 → t.en = s.en ∧ t.freeCtr = s.freeCtr)
    ∧ (s.tb.remaining = 0 → t.tb.deviceTime = s.tb.deviceTime + ns ∧ t.tb.remaining = 0)
    ∧ (0 ≤ s.tb.remaining → (t.tb.deviceTime : Int) + t.tb.remaining = s.tb.deviceTime + ns + s.tb.remaining
      ∧ 0 ≤ t.tb.remaining ∧ t.tb.remaining ≤ s.tb.remaining)
    ∧ t.tb.deviceTime ≤ s.tb.deviceTime + ns + (ns * s.slewLimit + s.tb.slewFrac) / 1000000
    ∧ t.tb.rtc = (if s.pwr.mode = .vault then s.tb.rtc + ns else s.tb.rtc) ∧ t.tb.timeFloor = s.tb.timeFloor)
  ∧ (∀ v (c : BitVec 64), Writable s v 0xC000 3 c.toNat →
    Wrote (.timeCorrection v c) s v stOk { s with tb := { s.tb with remaining := c.toInt, slewFrac := 0 } })
  ∧ (s.tb.remaining = 0 → exec .slewAbsorbed s = .next { s with tb := { s.tb with slewFrac := 0 } })
  ∧ (∀ r : Nat, s.powered = true → s.tb.cmpTime + 1000000000 ≤ s.tb.deviceTime →
    let off := ((s.tb.deviceTime : Int) - s.tb.cmpTime - s.tb.cmpSlew - r).natAbs
    let base : Tb := { s.tb with rtc := s.tb.rtc + r, cmpTime := s.tb.deviceTime, cmpSlew := 0 }
    (off * 1000000 ≤ 200 * r → s.tb.timeFault = false → exec (.timebaseCompare r) s =
      .next { s with tb := { base with goodCompares := s.tb.goodCompares + 1 } })
    ∧ (200 * r < off * 1000000 → s.tb.timeFault = false → s.tb.cfgActive.getLsbD 31 = false → exec (.timebaseCompare r) s =
      .next (State.raiseCause .gateTimeFault { s with tb := { base with goodCompares := 0, timeFault := true } })))
  ∧ (∀ x : BitVec 64, Writable s .regulator 0xC000 6 x.toNat → s.pwr.mode = .ceremony →
    (if s.tb.dtValid then s.tb.deviceTime else s.tb.timeFloor) ≤ x.toNat →
    Wrote (.deviceTimeSet .regulator x) s .regulator stOk { s with
      tb := { s.tb with
        deviceTime := x.toNat
        rtc := x.toNat
        dtValid := true
        remaining := 0
        slewFrac := 0
        cmpTime := x.toNat
        cmpSlew := 0 }
      pwr := { s.pwr with vaultLost := false } })
  ∧ (s.powered = true → s.tb.dtValid = true → s.tb.timeFloor ≤ s.tb.deviceTime + 60000000000 →
    exec .timeFloorAdvance s = .next { s with tb := { s.tb with timeFloor := s.tb.deviceTime + 3600000000000 } })

/-- Gates, windows and slots (R68, R69, R108, R109, R131): a gate that is open closes earlier or later at its owner's
word, one that has closed opens no more for the Operator; a gate's or window's change of owner; the 1,024 slots of a
reassigned window; SlotApply and the reopening of a Closed slot. -/
def Obligations.SlotAdministration : Prop := ∀ (s : State) (v : Viewer),
  (∀ g < 65536, ∀ x : BitVec 64, Writable s v (0x3500 + g / 256) (g % 256) x.toNat →
    (∀ n, v = .tenant n → (n ≠ 0 → (s.gate g).owner = n) ∧ (s.tb.deviceTime < (s.gate g).close ∨ x.toNat ≤ (s.gate g).close)) →
    Wrote (.gateCloseTimeWrite v g x) s v stOk (s.onGate g fun y => { y with close := x.toNat }))
  ∧ (∀ g < 65536, ∀ x : BitVec 64, ∀ n, Writable s (.tenant n) (0x3500 + g / 256) (g % 256) x.toNat →
    (n = 0 ∨ (s.gate g).owner = n) → (s.gate g).close ≤ s.tb.deviceTime → (s.gate g).close < x.toNat →
    Wrote (.gateCloseTimeWrite (.tenant n) g x) s (.tenant n) stGateClosed s)
  ∧ (∀ g < 65536, ∀ o : BitVec 8, Writable s v (0x3600 + g / 256) (g % 256) o.toNat → o.toNat ≤ 63 →
    (s.gate g).owner ≠ o.toNat →
    Wrote (.gateOwnerWrite v g o) s v stOk (s.onGate g fun _ => { owner := o.toNat, close := 0 }))
  ∧ (∀ w < 2048, ∀ o : BitVec 8, Writable s v (0x4100 + w / 256) (w % 256) o.toNat → o.toNat ≤ 63 ∨ o = 0xFF →
    (s.window w).reassigning = false → (s.window w).owner ≠ o.toNat →
    Wrote (.windowOwnerWrite v w o) s v stOk
      ((s.onWindow w fun x => { owner := o.toNat, epoch := (x.epoch + 1) % 65536, reassigning := true }).failTakes
        (fun t => t.slot / 1024 = w && t.phase ≠ .inManifest) stStaleOwner))
  ∧ (∀ w, (s.window w).reassigning = true → s.pwr.stowed = false → (∀ t ∈ s.td.inflight, t.slot / 1024 ≠ w) → s.lg.tapLog2 = 0 →
    s.reelFill + 4096 + 2 ^ 20 ≤ 2 ^ 30 → (s.window w).owner ≠ 0xFF →
    ∃ t, exec (.windowReassignComplete w) s = .next t ∧ t = { s with lg := t.lg, freeCtr := t.freeCtr }
      ∧ t.window w = { s.window w with reassigning := false }
      ∧ (∀ n, n / 1024 = w → t.slot n = { s.slot n with
          state := 0
          handle := 0
          tenant := (s.window w).owner
          epoch := (s.window w).epoch })
      ∧ (∀ n, n / 1024 ≠ w → t.slot n = s.slot n) ∧ t.lg.journalCount = s.lg.journalCount + 1)
  ∧ (∀ n inst, Writable s v 0x4010 5 1 → s.pwr.stowed = false → namedTenant v inst = .ok n → s.applyCheck (v = .regulator) n = none →
    (v = .regulator → (s.slot (s.slotSelect n)).state ≠ 3) →
    s.slotNewHandle n ≠ (s.slot (s.slotSelect n)).handle ∨ s.slotNewState n ≠ (s.slot (s.slotSelect n)).state →
    Wrote (.slotApply v inst) s v stOk
      ((s.onSlot (s.slotSelect n) fun x => { x with handle := s.slotNewHandle n, state := s.slotNewState n }).adminSlot
        (s.slotSelect n) (if s.slotNewHandle n = (s.slot (s.slotSelect n)).handle then 3 else 2) 0 0))
  ∧ (∀ n < 64, let k := s.slotSelect n
    Writable s .regulator 0x4010 5 1 → s.pwr.stowed = false → k < 2097152 → (s.slot k).state = 3 → s.slotNewState n = 1 →
    (s.window (k / 1024)).reassigning = false → s.slotInFlight k = false → (s.slot k).handle ≠ 0 →
    (s.slot k).serial + (if (s.slot k).rebuilt then 16777216 else 2049) ≤ s.num 0x4010 6 n 0 → ∃ u : State, Wrote (.slotReopen n) s .regulator stOk
        (u.onSlot k fun x => { x with serial := s.num 0x4010 6 n 0 - 1 })
      ∧ u = (s.onSlot k fun x => { x with state := 1, flags := setBit x.flags 2 false }).adminSlot k 5
          ((s.slot k).serial + 1) (s.num 0x4010 6 n 0 - 1))

/-- Checkpoints and the tap (R121 to R123, R135): a sweep begins at its interval; its commit writes the area by DMA
and moves the anchor; TapConsumed inside what is written is taken; a failed tap write asks for a checkpoint; a new
ring starts empty; a corrected error is counted, and a line of the reel buffer that fails raises MEMORY_INTEGRITY. -/
def Obligations.Checkpoints : Prop := ∀ s : State,
  (s.canCheckpoint = true → s.lg.lastCheckpoint + 1000000 * s.numWritten 0x4000 3 0 2000 ≤ s.clock →
    ∃ t, exec .checkpointStart s = .next t ∧ t = { s with pd := t.pd, lg := { s.lg with
      sweep := some { startCount := s.lg.journalCount, startContinuity := s.lg.continuity, startTime := s.tb.deviceTime }
      lastCheckpoint := s.clock
      checkpointDue := false } })
  ∧ (∀ w, s.lg.sweep = some w → s.lg.tapLog2 = 0 → s.reelFill + 4096 + 2 ^ 20 ≤ 2 ^ 30 →
    let seq := s.lg.checkpointSeq + 1
    let base := areaAddress s.checkpointAddress seq
    s.dmaLands 0 base 0x08020000 = true →
    ∃ t, exec .checkpointCommit s = .next t ∧ t = { s with hostMem := t.hostMem, latches := t.latches, lg := t.lg }
      ∧ t.lg.checkpointSeq = seq ∧ t.lg.sweep = none ∧ t.lg.journalCount = s.lg.journalCount + 1
      ∧ t.lg.anchor = { s.lg.anchor with
          state := .checkpointed
          seq := seq
          headerDigest := Config.sha256 (s.checkpointHeader seq w)
          startCount := w.startCount
          startContinuity := w.startContinuity }
      ∧ ∀ a, a < base ∨ base + 0x08020000 ≤ a → t.hostMem.read a = s.hostMem.read a)
  ∧ (∀ v (x : BitVec 64), Writable s v 0x4000 7 x.toNat → s.lg.tapConsumed ≤ x.toNat → x.toNat ≤ s.lg.tapWritten →
    Wrote (.tapConsumedWrite v x) s v stOk { s with lg := { s.lg with tapConsumed := x.toNat } })
  ∧ (s.lg.tapFailed = true → s.canCheckpoint = false → exec .tapWriteFault s =
    .next (State.latch .lgStat 8 { s with lg := { s.lg with tapFailed := false, checkpointDue := true } }))
  ∧ (∀ a n, mapGet none s.pd.staged (objKey 0x4000 5 0) = some a → mapGet none s.pd.staged (objKey 0x4000 6 0) = some n →
    ∃ t, exec .tapRingApply s = .next t ∧ t = { s with pd := t.pd, lg := { s.lg with
      tapAddress := a
      tapLog2 := n
      tapWritten := 0
      tapConsumed := 0 } })
  ∧ (∀ a, s.powered = true → regionOf (a / 64 * 64) ≠ .reserved → exec (.memoryScrub [{ address := a, fault := .corrected }]) s =
    .next (State.latch (.chanStat (a / 64 % 4)) 4 { s with lg := { s.lg with eccCorrected := s.lg.eccCorrected + 1 } }))
  ∧ (∀ a, s.powered = true → 0x10000000 ≤ a → a < 0x50000000 →
    exec (.memoryScrub [{ address := a, fault := .uncorrectable }]) s =
      .next (State.raiseCause .memoryIntegrity (State.latch .lgStat 1 (State.latch (.chanStat (a / 64 % 4)) 8 { s with lg := { s.lg with
        eccUncorrected := s.lg.eccUncorrected + 1
        failed := if s.lg.failed.contains (a / 64 * 64) then s.lg.failed else a / 64 * 64 :: s.lg.failed
        integrityFaults := s.lg.integrityFaults + 1
        writesStopped := true } }))))

/-- The power-fail stow and the recoveries (R125 to R130): the anchor takes slot, serial, tenant and epoch of every
take in flight and the counts, the Sezel cores stop, and the Escrow Line goes silent; after PWRFAIL_N is released a
stowed GX8 wakes as from power-on; a recovery or a rebuild restores the area that the anchor, or the Regulator, names,
and its end makes the ledger valid and asks the Fleet for mirrored slots. -/
def Obligations.StowAndRecovery : Prop := ∀ s : State,
  (s.powered = true → s.pwr.pwrfail = false → s.pwr.mode ≠ .wake → s.pwr.mode ≠ .retired → s.lg.valid = true →
    s.noReel = true → ∃ t, exec .stow s = .next t ∧ t = { s with
      pwr := { s.pwr with pwrfail := true, stowed := true }
      lg := { s.lg with sweep := none, anchor := t.lg.anchor }
      el := { s.el with transmit := false }
      sz := { s.sz with cores := s.sz.cores.map fun e => (e.1, { e.2 with run := .stopped }) }
      outbox := t.outbox }
    ∧ t.lg.anchor = { s.lg.anchor with
        state := .stowed
        stowCount := s.lg.journalCount
        stowContinuity := s.lg.continuity
        stow := t.lg.anchor.stow }
    ∧ t.lg.anchor.stow.map (fun e => (e.slot, e.serial, e.tenant, e.epoch)) =
        s.td.inflight.map fun x => (x.slot, x.serial, x.tenant, x.epoch))
  ∧ (s.powered = true → s.pwr.pwrfail = true → s.pwr.stowed = false → s.pwr.mode ≠ .wake →
    exec .pwrfailRelease s = .next { s with pwr := { s.pwr with pwrfail := false } })
  ∧ (s.powered = true → s.pwr.pwrfail = true → s.pwr.stowed = true → ∃ u : State, exec .pwrfailRelease s =
      .next (u.startWake .powerOn []) ∧ u.pwr.mode = .vault ∧ u.pwr.perst = s.pwr.perst ∧ u.hostMem = s.hostMem ∧ u.td.inflight = [])
  ∧ (∀ v env t, Writable (s.applyEnv env) v 0x4000 0xC 0xC35A → s.recoveryAllowed = true → s.pwr.mode ≠ .standby →
    s.lg.anchor.state = .stowed → (s.applyEnv env).restoreLedger s.lg.anchor.headerDigest s.lg.anchor.stowContinuity
      s.lg.anchor.stowCount (some s.lg.anchor.seq) = .ok t →
    let u := (stowSort s.lg.anchor.stow).foldl (fun t e => t.landPowerLoss e) t
    Wrote (.recoveryStart v env) s v stOk { u with lg := { u.lg with
      recovering := some false
      recoveryStatus := rsRunning
      waitSince := none
      anchor := s.lg.anchor } })
  ∧ (∀ env, Writable (s.applyEnv env) .regulator 0x4000 0xC 0xC35A → s.recoveryAllowed = true → s.pwr.mode = .standby →
    s.octets 0x4000 0xF 0 ≠ [] → ∃ t : State, Wrote (.rebuildStart env) s .regulator stOk t ∧ t = (s.applyEnv env).rebuild
      ∧ ((s.applyEnv env).restoreLedger (s.octets 0x4000 0xF 0) (s.octets 0x4000 0x11 0) (s.num 0x4000 0x10 0 0) none =
          .error rsChunkMismatch →
        t = { s.applyEnv env with lg := { s.lg with recoveryStatus := rsChunkMismatch } })
      ∧ (t.lg.recovering = some true → t.lg.recoveryStatus = rsRunning ∨ s.lg.recovering = some true))
  ∧ (∀ r, s.lg.recovering = some r → s.pwr.mode = .selfTest → exec .recoveryComplete s = .next (State.restoreMirrored r
      (State.latch .lgStat 0x20 { s with
        pwr := { s.pwr with causes := s.pwr.causes.filter (· ≠ .ledgerRoot) }
        lg := { s.lg with
          recovering := none
          recoveryStatus := rsDone
          valid := true
          anchor := { s.lg.anchor with state := .checkpointed }
          checkpointDue := true } })))

/-! ### Long-Integer Engines, Lattice Units, entropy (06, 07, 08) -/

/-- GO (R148, R158, R159, R196, Table 6.4): on an idle engine of the sender whose block passes every check before
execution, the command of the block's opcode runs; what it will end with follows from its operands and from what it
has drawn out of the engine's buffer, and nothing else changes but the other engines' DRBG instances and their
reserve. -/
def Obligations.LieStart : Prop := ∀ (s : State) (loc : Loc) (env : HostEnv) (e : Nat) (operand key : Bytes),
  let u := s.applyEnv env
  let b : LieBlock := ⟨(List.range 8).map fun i => mapGet 0 (s.engine e).cmd i⟩
  let v := u.onEngine e fun g =>
    { g with status := 0, detail := 0, nominal := 0, stale := false, irq := b.irq, vector := b.vector }
  Reaches s loc (.frame e 0x40) → (s.engine e).owner = loc.fn → (s.engine e).running = none → (s.engine e).retired = false →
  v.lieChecks b .direct loc.fn (s.engine e).epoch = none →
  v.lieInputs b .direct loc.fn = .ok (operand, key) →
  ∀ row ∈ [(1, Instr.ecdsaSign loc env), (2, .ecdsaVerify loc env), (3, .eddsaSign loc env), (4, .eddsaVerify loc env),
    (5, .ecdh loc env), (6, .ecKeygen loc env), (7, .ecPointCheck loc env), (8, .rsaPrivate loc env),
    (9, .rsaPublic loc env), (10, .curveLoad loc env), (11, .curveUnload loc env)], b.op = row.1 →
  let rnd := (v.engineBytes e (drawNeed b.op b.curve b.len) (b.op = 6)).1
  ∃ t c, exec row.2 s = .next t ∧ (t.engine e).running = some c ∧ (∀ f, f ≠ e → t.engine f = s.engine f)
    ∧ t = { u with li := { s.li with engines := t.li.engines }, en := t.en, pd := t.pd, freeCtr := t.freeCtr }
    ∧ (t.engine e).status = 0 ∧ (t.engine e).owner = loc.fn
    ∧ c.opcode = row.1 ∧ c.user = .direct ∧ c.tenant = loc.fn ∧ c.epoch = b.epoch ∧ c.start = s.clock ∧ c.nominal = b.nominal
    ∧ (row.1 = 10 → c.writes = [] ∧ let cv := b.curveLoaded loc.fn operand
        if cv.sanity rnd = 0 then c.status = stOk ∧ c.load = some cv
        else c.status = stCurveRejected ∧ c.detail = cv.sanity rnd ∧ c.load = none)
    ∧ (row.1 ≠ 10 → c.load = none ∧
        match lieRun b ((s.curveOf b.curve loc.fn).getD noCurve) operand key rnd with
        | .error st => c.status = st ∧ c.writes = []
        | .ok (r, k) => c.status = stOk
            ∧ c.writes = [(b2n b.resPool, b.result, r), (1, b.keyAddr, k)].filter (·.2.2 ≠ []))

/-- What the commands compute (R152 to R157, Table 6.10): the private scalar's defects and the secret number's range;
a verification by FIPS 186-5; an ECDH point of the curve; a key pair inside the group; an RSA result that the fault
check has passed, and m^e mod n. -/
def Obligations.LieResults : Prop := ∀ (b : LieBlock) (c : Curve) (operand key free : Bytes),
  (b.op = 1 → ofBe key = 0 → lieRun b c operand key free = .error stScalarZero)
  ∧ (b.op = 1 → 0 < c.n → c.n ≤ ofBe key → lieRun b c operand key free = .error stOperandGeModulus)
  ∧ (b.op = 1 → 0 < ofBe key → ofBe key < c.n → ∃ k, 0 < k ∧ k < c.n ∧ lieRun b c operand key free =
      .ok (be b.bytes (c.ecdsa (ofBe key) (ofBe operand) k).1 ++ be b.bytes (c.ecdsa (ofBe key) (ofBe operand) k).2, []))
  ∧ (b.op = 2 → let x := beAt operand 0 b.bytes
      let y := beAt operand b.bytes b.bytes
      (c.p ≤ x → lieRun b c operand key free = .error stOperandGeModulus)
      ∧ (x < c.p → y < c.p → c.holds x y = false → lieRun b c operand key free = .error stPointNotOnCurve)
      ∧ (beAt operand (3 * b.bytes) b.bytes = 0 → x < c.p → y < c.p → c.holds x y = true → (x ≠ 0 ∨ y ≠ 0) →
        lieRun b c operand key free = .error stSignatureCheckFailed))
  ∧ (b.op = 5 → b.isEd = false → ∀ r k, lieRun b c operand key free = .ok (r, k) → k = []
      ∧ ∃ x y, c.mul (ofBe key) (some (beAt operand 0 b.bytes, beAt operand b.bytes b.bytes)) = some (x, y) ∧ r = be b.bytes x)
  ∧ (b.op = 6 → b.isEd = false → 1 < c.n → ∀ r k, lieRun b c operand key free = .ok (r, k) →
      ∃ d x y, 0 < d ∧ d < c.n ∧ c.mul d c.base = some (x, y) ∧ k = be b.bytes d ∧ r = be b.bytes x ++ be b.bytes y)
  ∧ (b.op = 8 → ∀ r k, lieRun b c operand key free = .ok (r, k) → ∃ v n e, r = be b.bytes v ∧ v ^ e % n = ofBe operand
      ∧ ofBe operand ≠ 0)
  ∧ (b.op = 9 → let n := beAt operand 0 b.bytes
      let e := beAt operand b.bytes 8
      let m := beAt operand (b.bytes + 8) b.bytes
      (n % 2 = 0 → lieRun b c operand key free = .error stRsaKeyInvalid)
      ∧ (rsaBad b.len n e = false → n ≤ m → lieRun b c operand key free = .error stOperandGeModulus)
      ∧ (rsaBad b.len n e = false → m = 0 → lieRun b c operand key free = .error stScalarZero)
      ∧ (rsaBad b.len n e = false → 0 < m → m < n → lieRun b c operand key free = .ok (be b.bytes (m ^ e % n), [])))

/-- How an engine's command ends (R161, R162) and what changes an engine (R140, R145, R147, R164): completion after
the nominal time with its status, its result written only when it is OK; ABORT; a new owner; microcode. LIE calls that
wait for an engine go on after each. -/
def Obligations.LieEnd : Prop := ∀ s : State,
  (∀ loc e c, Reaches s loc (.frame e 0x40) → (s.engine e).owner < 64 → (s.engine e).running = some c → c.user = .direct →
    (s.engine e).irq = false → ∃ t : State, exec (.abort loc) s = .next t.resumeLie
    ∧ t = { s with li := { s.li with engines := t.li.engines }, latches := t.latches }
    ∧ t.engine e = { s.engine e with running := none, status := stAborted.toNat, detail := 0 }
    ∧ (∀ f, f ≠ e → t.engine f = s.engine f) ∧ (t.latched (.liStat e) (.tenant 0)).testBit 30 = true)
  ∧ (∀ e c, (s.engine e).running = some c → c.start + c.nominal ≤ s.clock → c.user = .direct → (s.engine e).irq = false →
    (∀ fault, c.status ≠ stOk → c.status ≠ stInternalFault → ∃ t : State, exec (.lieCommandComplete e fault) s = .next t.resumeLie
      ∧ t = { s with li := { s.li with engines := t.li.engines }, en := t.en, pd := t.pd, freeCtr := t.freeCtr, latches := t.latches }
      ∧ t.engine e = { s.engine e with
          running := none
          nominal := c.nominal
          status := c.status.toNat
          detail := c.detail
          buffer := (t.engine e).buffer })
    ∧ (∀ a r, c.status = stOk → c.load = none → c.opcode ≠ 11 → c.writes = [(0, a, r)] → s.dmaLands c.tenant a r.length = true →
      s.hostMem.wf = true → ∃ t : State, exec (.lieCommandComplete e false) s = .next t.resumeLie
      ∧ Stored s.hostMem t.hostMem a r
      ∧ t = { s with hostMem := t.hostMem, li := { s.li with engines := t.li.engines }, en := t.en, pd := t.pd, freeCtr := t.freeCtr,
                     latches := t.latches }
      ∧ t.engine e = { s.engine e with
          running := none
          nominal := c.nominal
          status := 0
          detail := 0
          buffer := (t.engine e).buffer })
    ∧ (∀ a r k, c.status = stOk → c.load = none → c.opcode ≠ 11 → c.writes = [(0, a, r), (1, k)] →
      s.dmaLands c.tenant a r.length = false → ∃ t : State, exec (.lieCommandComplete e false) s = .next t.resumeLie
      ∧ t.lg = s.lg ∧ (t.engine e).status = stDmaFault.toNat)
    ∧ (∀ v, c.status = stOk → c.load = some v → c.writes = [] → mapGet none s.li.curves c.curve = none → c.guarded = false →
      ∃ t : State, exec (.lieCommandComplete e false) s = .next t.resumeLie
      ∧ t = { s with li := t.li, en := t.en, pd := t.pd, freeCtr := t.freeCtr, latches := t.latches }
      ∧ mapGet none t.li.curves c.curve = some v))
  ∧ (∀ v e (o : BitVec 8), Writable s v 0x5100 e o.toNat → o.toNat < 64 → (s.engine e).owner < 64 →
    (s.engine e).owner ≠ o.toNat → (s.engine e).running = none → ∃ t : State,
      Wrote (.liEngineOwnerWrite v e o) s v stOk t.resumeLie.assignWork
    ∧ t = { s with li := { s.li with engines := t.li.engines }, latches := t.latches }
    ∧ t.engine e = { s.engine e with
        owner := o.toNat
        epoch := ((s.engine e).epoch + 1) % 65536
        status := 0
        detail := 0
        nominal := 0
        stale := false }
    ∧ (∀ f, f ≠ e → t.engine f = s.engine f) ∧ ∀ w, t.latched (.liStat e) w = 0)
  ∧ (∀ v env, let u := s.applyEnv env
    let a := s.num 0x5000 5 0 0
    let b := u.dmaBytes a (s.num 0x5000 6 0 0)
    Writable u v 0x5000 7 0x5A3C → s.li.ucodeLoad = none → s.pwr.mode = .standby → u.dmaOk 0 a (s.num 0x5000 6 0 0) = true →
    exec (.liUcodeLoad v 0x5A3C#32 env) s = .next (State.emit (.directory v stOk []) (State.served v
      (if ucodeFormatOk b = false then u.ucodeEvent (beAt b 12 4) 0x10
      else State.assignWork { u with li := { s.li with ucodeStatus := 1, ucodeLoad := some b } }))))
  ∧ (∀ b ok, s.li.ucodeLoad = some b → s.anchorRuns .ucode = true → s.unarchived + 1 < 16320 →
    let loads := ucodeSigned b && decide (s.li.ucodeMin ≤ beAt b 12 4) && ok
    ∃ t : State, exec (.ucodeLoadDone ok) s = .next (t.releaseUnits (· = .anchor .ucode)).assignWork
    ∧ t = { s with tg := t.tg, li := { s.li with
        ucodeLoad := none
        ucodeStatus := if ucodeSigned b = false then 0x11 else if beAt b 12 4 < s.li.ucodeMin then 0x12
          else if ok then 2 else 0x13
        ucodeRom := if loads then false else s.li.ucodeRom
        ucodeVersion := if loads then beAt b 12 4 else s.li.ucodeVersion } })
  ∧ (∀ v (x : BitVec 32), Writable s v 0x5000 4 x.toNat → s.li.ucodeMin < x.toNat → x.toNat ≤ s.activeVersion →
    s.li.ucodeSteps < 64 → Wrote (.liUcodeMinVersionWrite v ⟨x, true⟩) s v stOk
      { s with li := { s.li with ucodeMin := x.toNat, ucodeSteps := s.li.ucodeSteps + 1 } }
    ∧ Wrote (.liUcodeMinVersionWrite v ⟨x, false⟩) s v stInternalFault s)

/-- A Lattice Unit (R169, R171, R172, R175): a round with an accepted candidate makes the signature, which waits for a
second unit, one without makes another round, the twentieth ends with REJECTION_LIMIT; that unit's verification
releases the signature, one that fails releases nothing and is a fault of the unit. What waits for a unit is then
served (log entry 18). -/
def Obligations.LatticeUnits : Prop := ∀ (s : State) (u core : Nat) (o : UnitOp),
  (s.latticeUnit u).running = some o →
  (o.user = .service core → o.op = 2 → o.roundEnd ≤ s.clock → o.rounds < 20 →
    (∀ i < 8, o.accepts (8 * o.rounds + i) = true → ∃ t : State, exec (.latticeSignRound u) s = .next t.assignWork
      ∧ t = { s with lh := t.lh } ∧ (∀ w, w ≠ u → t.latticeUnit w = s.latticeUnit w)
      ∧ t.latticeUnit u = { s.latticeUnit u with lastRounds := o.rounds + 1, running := none }
      ∧ t.lh.toVerify = s.lh.toVerify ++ [(u, { o with user := .serviceVerify core, result := some o.signature })])
    ∧ ((∀ i < 8, o.accepts (8 * o.rounds + i) = false) → o.rounds ≠ 19 → ∃ t, exec (.latticeSignRound u) s = .next t
      ∧ t = { s with lh := t.lh } ∧ (∀ w, w ≠ u → t.latticeUnit w = s.latticeUnit w)
      ∧ t.latticeUnit u = { s.latticeUnit u with
          lastRounds := o.rounds + 1
          running := some { o with rounds := o.rounds + 1 } })
    ∧ ((∀ i < 8, o.accepts (8 * o.rounds + i) = false) → o.rounds = 19 →
      ∃ t : State, exec (.latticeSignRound u) s = .next t.assignWork
      ∧ t = { s with lh := t.lh, latches := t.latches, sz := (s.serviceEnd core stRejectionLimit).sz }
      ∧ t.latticeUnit u = { s.latticeUnit u with lastRounds := 20, running := none }
      ∧ t.lh.rejectionLimits = s.lh.rejectionLimits + 1))
  ∧ (∀ r, o.user = .serviceVerify core → o.op = 3 → o.result = some r → o.fin ≤ s.clock →
    exec (.latticeOpComplete u false) s = .next (((s.freeUnit u).bufferWrite core o.sigAddr r).serviceEnd core stOk).assignWork
    ∧ (mapWf {} s.lh.units = true → (s.latticeUnit u).faults = [] → (s.latticeUnit u).retired = false →
      ∃ t : State, exec (.latticeOpComplete u true) s = .next t.assignWork
      ∧ t = { s with lh := t.lh, latches := t.latches, sz := (s.serviceEnd core stInternalFault).sz }
      ∧ t.latticeUnit u = { s.latticeUnit u with running := none, faults := [s.clock] }
      ∧ t.lh.faultChecks = s.lh.faultChecks + 1))

/-- Noise sources and delivery (R191, R204, R206, R207): a failure isolates its source, stops delivery, empties the
reserve and every FIFO and stands as ENTROPY_FAIL; the sources restart after 10 ms and delivery resumes with a full
reserve; EnLatchClear starts all five again; 1,152 samples that pass the continuous tests give a block, which is kept
once the APT window has closed, and one that fails is a failure of its source. -/
def Obligations.NoiseSources : Prop := ∀ s : State,
  (∀ i < 5, s.powered = true → (s.source i).state = .running → s.en.firstSeed = true → s.en.stopped = false →
    s.en.latch = false → s.en.history = [] → ∃ t, exec (.entropyHealthFail [i] 1) s = .next t
    ∧ t.en.stopped = true ∧ (t.source i).state = .isolated ∧ t.en.latch = false ∧ t.en.reserve = [] ∧ t.en.vaultBlock = none
    ∧ t.en.history = [s.tb.rtc] ∧ (∀ f, t.fifo f = []) ∧ .entropyFail ∈ t.pwr.causes ∧ t.entropyBlock = some stEntropyFail
    ∧ t.krf.handles = s.krf.handles)
  ∧ (s.restartDue = true → ∃ t, exec (.sourceRestart []) s = .next t ∧ t = { s with en := { s.en with sources := t.en.sources } }
    ∧ ∀ i < 5, t.source i = if i ∈ s.restarting then { s.source i with state := .startup, since := s.clock, health := {} }
      else s.source i)
  ∧ (s.powered = true → s.en.stopped = true → s.en.firstSeed = true → s.restarting = [] → s.anchorSource = true →
    s.en.reserve.length ≤ 64 → ∃ t, exec .entropyDeliveryResume s = .next t
    ∧ t = { s with en := t.en, pd := t.pd, latches := t.latches, freeCtr := t.freeCtr }
    ∧ t.en.stopped = false ∧ t.en.reserve.length = 64 ∧ t.en.latch = s.en.latch ∧ t.en.fifos = s.en.fifos)
  ∧ (∀ v, Writable s v 0x4800 0xA 0xE7A1 → s.en.reserve.length ≤ 64 → ∃ t, Wrote (.enLatchClear v 0xE7A1#32 []) s v stOk t
    ∧ t = { s with en := t.en, latches := t.latches, freeCtr := t.freeCtr, pwr := { s.pwr with causes := s.pwr.causes.filter (· ≠ .entropyLatch) } }
    ∧ t.en.latch = false ∧ t.en.stopped = false ∧ t.en.history = [] ∧ t.en.reserve.length = 64
    ∧ ∀ i < 5, t.source i = { state := .running, since := s.clock })
  ∧ (∀ b : NoiseSamples, let i := b.source
    let r := (s.source i).health.pass (samplesOf b.packed)
    let block := Config.sha512 b.packed
    s.powered = true → i ≤ 4 → b.packed.length = 144 → (s.source i).state = .running →
    (r.2 ≠ 0 → exec (.conditioningBlock b) s = .next ((s.onSource i fun x => { x with health := r.1 }).healthFail [i] r.2))
    ∧ (r.2 = 0 → (s.source i).candidate = none → (i = 4 ∨ s.turn = some i) → s.en.stopped = false →
      ∃ t, exec (.conditioningBlock b) s = .next t ∧ t = { s with en := { s.en with
        sources := t.en.sources
        nextSource := if i = 4 then s.en.nextSource else (i + 1) % 4
        reserve := if i < 4 ∧ r.1.seen = 0 ∧ s.en.reserve.length < 64 then s.en.reserve ++ [block] else s.en.reserve
        vaultBlock := if i = 4 ∧ r.1.seen = 0 ∧ s.en.vaultBlock = none then some block else s.en.vaultBlock } }
      ∧ t.source i = { s.source i with health := r.1, candidate := if r.1.seen = 0 then none else some block }
      ∧ ∀ j, j ≠ i → t.source j = s.source j))

/-- The DRBG Bank (R193, R194, R199 to R203): a due reseed takes one block of the reserve; an instance whose epoch has
advanced starts again; the register pair gives its oldest word for an 8-byte read and takes 16 more when it is half
empty; the draw instance takes a block of each kind and the claim proceeds into Draw. -/
def Obligations.DrbgBank : Prop := ∀ s : State,
  (∀ n b bs, s.delivers n = true → s.en.reserve = b :: bs →
    let seeded := fun t : State => t = { s with en := t.en, pd := t.pd, latches := t.latches }
      ∧ t.en.reserve = bs ∧ (∀ m, m ≠ n → t.drbg m = s.drbg m)
      ∧ t.drbg n = { s.drbg n with
          secret := Config.out .drbgReseed 48 [] [(s.drbg n).secret, b]
          requests := 0
          lastReseed := s.clock
          maxRequests := t.reseedRequests
          maxInterval := t.reseedInterval }
    ((s.drbg n).maxRequests ≤ (s.drbg n).requests → ∃ t, exec (.drbgReseedCount n) s = .next t ∧ seeded t)
    ∧ ((s.drbg n).lastReseed + (s.drbg n).maxInterval * 1000000 ≤ s.clock →
      ∃ t, exec (.drbgReseedInterval n) s = .next t ∧ seeded t))
  ∧ (∀ n b bs, n < 256 → n ≠ 76 → s.en.firstSeed = true → s.en.stopped = false → s.en.latch = false →
    (s.drbg n).live = false → s.en.reserve = b :: bs → s.pwr.mode ≠ .quarantine →
    ∃ t : State, exec (.drbgReinstantiate n) s = .next (t.resumeRandoms n)
    ∧ t = { s with en := t.en, latches := t.latches } ∧ t.en.reserve = bs ∧ (t.drbg n).live = true
    ∧ (t.drbg n).secret = Config.out .drbgInstantiate 48 [] [b, s.personalisation n]
    ∧ (t.drbg n).epoch = (s.drbg n).epoch ∧ (t.drbg n).requests = 0)
  ∧ (∀ loc n upper w ws, s.reaches loc.viewer loc = true → s.openWord loc 0 = some (.rngData n, upper) → s.fifo n = w :: ws →
    s.entropyBlock = none → (s.drbg n).live = true →
    (loc.offset % 8 = 0 → exec (.rngDataRead loc 8) s =
      .next ((s.onFifo n fun _ => ws).emit (.readData loc.viewer loc w.toNat)))
    ∧ (loc.offset % 4 = 0 → ∃ t : State, exec (.rngDataRead loc 4) s = .next (t.emit (.readData loc.viewer loc 0))
      ∧ t = { s with latches := t.latches } ∧ (t.latched (.rngStat n) (.tenant n)).testBit 0 = true))
  ∧ (∀ n < 64, s.delivers n = true → (s.fifo n).length ≤ 16 → ∃ t ws, exec (.rngFifoRefill n) s = .next t
    ∧ t = { s with en := t.en, pd := t.pd, latches := t.latches, freeCtr := t.freeCtr } ∧ ws.length = 16
    ∧ t.fifo n = s.fifo n ++ ws ∧ ∀ m, m ≠ n → t.fifo m = s.fifo m)
  ∧ (∀ c v b bs, mapWf {} s.en.instances = true → s.en.drawWait = some c → s.pwr.mode = .service → s.entropyBlock = none →
    s.en.vaultBlock = some v → s.en.reserve = b :: bs → ∃ t, exec .drawSeedReady s = .next t
    ∧ t = { s with en := t.en, sz := t.sz, pwr := { s.pwr with mode := .draw } } ∧ t.en.drawWait = none
    ∧ t.en.vaultBlock = none ∧ t.en.reserve = bs ∧ t.sz.drawCount = s.sz.drawCount + 1
    ∧ t.sz.draw = some { slot := (s.core c).slot, seq := s.sz.drawCount + 1 } ∧ (t.drbg 76).live = true
    ∧ (t.drbg 76).epoch = ((s.drbg 76).epoch + 1) % 65536
    ∧ (t.drbg 76).secret = Config.out .drbgInstantiate 48 [] [drawSeed b v, t.personalisation 76])

/-! ### Applets and services (10) -/

/-- Loading: an image that passes every check takes the lowest free slot and its cores (R247); the completed load
starts each of them as R211 says; a failed check is reported in AppletLoadStatus; an unload frees the slot (R249). -/
def Obligations.AppletLoading : Prop := ∀ s : State,
  (∀ k env, let u := s.applyEnv env
    let i : Image := ⟨u.dmaBytes (s.num 0x6010 1 k 0) (s.num 0x6010 2 k 0)⟩
    let check := i.check k (s.octets 0x6100 k 0) (s.octets 0x6000 3 0)
    Writable u (.tenant k) 0x6010 4 0xA991 → (∀ l ∈ s.sz.loads, l.tenant ≠ k) → s.loadMode = true →
    u.dmaOk k (s.num 0x6010 1 k 0) (s.num 0x6010 2 k 0) = true →
    ∃ t : State, exec (.appletLoad (.tenant k) 0xA991#32 env) s = .next (t.emit (.directory (.tenant k) stOk []))
    ∧ (∀ a d, check = none → s.freeSlot = some a → s.dieFor (s.num 0x6010 3 k 0xFF) i.cores = some d →
      t.sz.loads = s.sz.loads ++ [{ tenant := k, image := i.bytes, slot := a, die := d }]
      ∧ (t.applet a).state = .loading ∧ (t.applet a).owner = k ∧ (t.applet a).grant = i.grant ∧ (t.applet a).die = d
      ∧ (t.applet a).cores = (s.freeCores d).take i.cores ∧ t.num 0x6010 5 k 0 = 1 ∧ t.sz.cores = s.sz.cores)
    ∧ (∀ code off, check = some (code, off) → t = { u with pd := t.pd } ∧ t.num 0x6010 5 k 0 = code
      ∧ t.num 0x6010 7 k 0 = if code = 0x13 then off else s.num 0x6010 7 k 0))
  ∧ (∀ k l, s.sz.loads.find? (fun l => l.tenant = k) = some l → (s.applet l.slot).cores.Nodup → ∃ t,
    exec (.appletInstall k) s = .next t ∧ (t.applet l.slot).state = .running ∧ (∀ x ∈ t.sz.loads, x.tenant ≠ k)
    ∧ t.num 0x6010 5 k 0 = 2 ∧ t.num 0x6010 6 k 0xFF = l.slot ∧ (∀ d, d ∉ (s.applet l.slot).cores → t.core d = s.core d)
    ∧ let i : Image := ⟨l.image⟩
      ∀ j c, (s.applet l.slot).cores[j]? = some c → t.core c = {
        run := .running
        slot := l.slot
        index := j
        w := Vector.replicate 16 0
        acc := Vector.replicate 4 0
        p := (Vector.replicate 8 0).set 7 0x10080000#32
        m := Vector.replicate 8 0
        ls := Vector.replicate 3 0
        le := Vector.replicate 3 0
        lc := Vector.replicate 3 0
        brev := 0
        flags := 0
        mode := 1
        reservation := none
        pc := BitVec.ofNat 32 i.entry
        imem := Memory.writeBytes [] 0 i.code
        dmem := Memory.writeBytes [] 0 i.data })
  ∧ (∀ k (a : BitVec 8), Writable s (.tenant k) 0x6010 8 a.toNat → a.toNat < 176 → (s.applet a.toNat).owner = k →
    (s.applet a.toNat).state ≠ .free → mapWf {} s.sz.slots = true → ∃ t, Wrote (.appletUnload (.tenant k) a) s (.tenant k) stOk t ∧ t.applet a.toNat = {}
    ∧ (∀ c ∈ (s.applet a.toNat).cores, t.core c = {}) ∧ (∀ b, b ≠ a.toNat → t.applet b = s.applet b))

/-- The mailbox of a slot (R253, R255): the host's doorbells, the configuration, and one message copied whole in
either direction, the header cell with the ring's phase. -/
def Obligations.Mailboxes : Prop := ∀ (s : State) (a : Nat),
  let ap := s.applet a
  (∀ loc (i : BitVec 16) env, Reaches s loc (.slotFrame a 0x18) →
    (i.toNat < ap.inSize → exec (.mbInTailDb loc i env) s =
      .next ((s.applyEnv env).onApplet a fun ap => { ap with hostInTail := i.toNat }))
    ∧ (ap.inSize ≤ i.toNat → exec (.mbInTailDb loc i env) s = .next ((s.applyEnv env).latch (.mbStat a) 4)))
  ∧ (∀ loc (i : BitVec 16), Reaches s loc (.slotFrame a 0x1C) → i.toNat < ap.outSize →
    exec (.mbOutHeadDb loc i) s = .next (s.onApplet a fun ap => { ap with hostOutHead := i.toNat }))
  ∧ (∀ loc (v : BitVec 32), Reaches s loc (.slotFrame a 0x10) →
    (ap.enabled = false → v.getLsbD 31 = true → ringSizesOk v.toNat = true → s.hg.faulted = [] →
      ∃ t, exec (.mbCfgWrite loc v) s = .next t ∧ t = { s with hg := t.hg, sz := { s.sz with slots := t.sz.slots } }
      ∧ t.applet a = { ap with
          cfg := 0x80000000#32 ||| (v &&& 0x001F1F1F#32)
          hostInTail := 0
          hostInHead := 0
          hostOutHead := 0
          hostOutTail := 0
          phase := true })
    ∧ (ap.enabled = true → v.getLsbD 31 = false → v &&& 0x001F1F1F#32 = ap.cfg &&& 0x001F1F1F#32 →
      exec (.mbCfgWrite loc v) s = .next (s.onApplet a fun ap => { ap with cfg := ap.cfg &&& 0x7FFFFFFF#32 })))
  ∧ (ap.enabled = true → ap.state ≠ .free → ap.state ≠ .loading →
    (let len := leAt (s.dmaBytes (ap.inBase + 64 * ap.hostInHead) 2) 0 2
      let n := messageCells len
      len ≤ 4088 → n ≤ ringUsed ap.inSize ap.hostInHead ap.hostInTail → ringUsed 512 ap.inHead ap.inTail + n ≤ 511 →
      ap.hostInHead < ap.inSize → (∀ c < ap.inSize, s.dmaOk ap.owner (ap.inBase + 64 * c) 64 = true) → ap.inRing.wf = true →
      ∃ t, exec (.mbInboundCopy a) s = .next t ∧ t = { s with sz := t.sz }
      ∧ (t.applet a).inTail = (ap.inTail + n) % 512 ∧ (t.applet a).hostInHead = (ap.hostInHead + n) % ap.inSize
      ∧ (∀ j < n, (t.applet a).inRing.readBytes (64 * ((ap.inTail + j) % 512)) 64
          = s.dmaBytes (ap.inBase + 64 * ((ap.hostInHead + j) % ap.inSize)) 64)
      ∧ ∀ b, b ≠ a → t.applet b = s.applet b)
    ∧ (let cell := ap.outRing.readBytes (64 * ap.outHead) 64
      let at' := ap.outBase + 64 * ap.hostOutTail
      messageCells (leAt (ap.outRing.readBytes (64 * ap.outHead) 2) 0 2) = 1 → ap.holdFrom = none → ap.outHead < 496 →
      1 ≤ ringUsed 496 ap.outHead ap.outNext → ringUsed ap.outSize ap.hostOutHead ap.hostOutTail + 1 < ap.outSize →
      ap.hostOutTail < ap.outSize → s.dmaLands ap.owner at' 64 = true → (s.fn ap.owner).msixEnable = false → s.hostMem.wf = true →
      ∃ t, exec (.mbOutboundCopy a) s = .next t ∧ t = { s with sz := t.sz, hostMem := t.hostMem }
      ∧ Stored s.hostMem t.hostMem at' (cell.take 4 ++ [BitVec.ofNat 8 (b2n ap.phase)] ++ cell.drop 5)
      ∧ (t.applet a).outHead = (ap.outHead + 1) % 496 ∧ (t.applet a).hostOutTail = (ap.hostOutTail + 1) % ap.outSize
      ∧ (t.applet a).phase = if ap.hostOutTail + 1 = ap.outSize then !ap.phase else ap.phase))

/-- The services that return at once or run on a unit (R227, R256, R168): RANDOM, HASH, LIE, LATTICE and STATS_PUBLISH
read their arguments in w1 to w4, end with their status, and SVC with their number is the same command; a service that
the image does not grant is a fault SVC_INVALID. -/
def Obligations.Services : Prop := ∀ (s : State) (n : Nat), Turn s n 2 →
  let c := s.seen n
  let u := s.onCore n fun _ => { c.retire 2 .seq with run := .service }
  let ap := s.applet c.slot
  let w := fun i : Fin 16 => c.w[i].toNat
  (∀ row ∈ [(0x01, Instr.random n), (0x02, .hash n), (0x03, .lie n), (0x10, .drawClaim n), (0x11, .drawCommit n),
      (0x12, .drawRelease n), (0x20, .sealRecord n), (0x30, .statsPublish n)],
    exec (.svc n (BitVec.ofNat 8 row.1)) s = exec row.2 s
    ∧ (ap.granted row.1 = false → exec row.2 s = .next (s.coreFault n ⟨causeSvcInvalid, 0⟩)))
  ∧ (ap.granted 0x02 = true → ∀ m, u.bufferRead n (w 2) (w 3) = some m → w 3 ≤ 2 ^ 24 → s.en.firstSeed = true →
    ∀ row ∈ [(1, Config.sha256 m), (2, Config.sha384 m), (3, Config.sha512 m), (4, Config.out .sha3x256 32 [] [m]),
      (5, Config.out .sha3x512 64 [] [m])], w 1 = row.1 → u.bufferOk n (w 4) row.2.length = true →
      exec (.hash n) s = .next ((u.bufferWrite n (w 4) row.2).serviceEnd n stOk))
  ∧ (ap.granted 0x02 = true → w 1 = 1 → 2 ^ 24 < w 3 → exec (.hash n) s =
      .next ((u.latch (.laneStat ap.die) 1).serviceEnd n stLenTooLong))
  ∧ (ap.granted 0x01 = true → 0 < w 2 → w 2 ≤ 4096 → u.bufferOk n (w 1) (w 2) = true → u.entropyBlock = none →
    u.claimOf n = none → (s.drbg (80 + c.slot)).live = true →
    ((s.drbg (80 + c.slot)).epoch = ap.rngEpoch → ∃ t b, b.length = w 2
      ∧ exec (.random n) s = .next ((State.bufferWrite n (w 1) b t).serviceEnd n stOk)
      ∧ t = { u with en := t.en, pd := t.pd, freeCtr := t.freeCtr })
    ∧ ((s.drbg (80 + c.slot)).epoch ≠ ap.rngEpoch → exec (.random n) s = .next (u.serviceEnd n stStaleOwner)))
  ∧ (ap.granted 0x01 = true → 0 < w 2 → w 2 ≤ 4096 → u.bufferOk n (w 1) (w 2) = true → u.entropyBlock = none →
    ∀ d, u.claimOf n = some d → u.inDataMemory n (w 1) (w 2) = true → (s.drbg 76).live = true →
    ∃ t, exec (.random n) s = .next t ∧ t.sz.draw = some { d with uncommitted := true })
  ∧ (ap.granted 0x03 = true → u.barred n = false → ∀ b e, u.bufferRead n (w 1) 64 = some b →
    (s.directEngines ap.die ap.owner).find? (fun e => (s.engine e).running.isNone) = some e →
    let r := u.lieStart e ⟨(List.range 8).map fun i => leAt b (8 * i) 8⟩ (.service n) ap.owner
    (r.2 = none → exec (.lie n) s = .next (r.1.awaits n (.lie e)))
    ∧ (∀ st d, r.2 = some (st, d) → exec (.lie n) s = .next (r.1.serviceEnd n st)))
  ∧ (ap.granted 0x04 = true → u.barred n = false → ∀ raw k, u.bufferRead n (w 1) 40 = some raw →
    let b := latticeBlock raw
    b.valid = true → (b.fixedRnd raw = true → s.lc.maint = true) → ((b.op = 2 ∨ b.op = 3) → b.inLen ≤ 16384 ∧ b.ctxLen ≤ 255) → u.latticeBuffers n b = true →
    (b.handle ≠ 0 → (s.latticeHandle b ap.owner).isSome = true) → s.entropyBlock = none → s.clientUnit (n / 32) = some k →
    ∀ row ∈ [(1, Instr.latticeKeygen n), (2, .latticeSign n), (3, .latticeVerify n), (4, .latticeEncaps n),
      (5, .latticeDecaps n)], b.op = row.1 → exec (.svc n 4#8) s = exec row.2 s ∧ ∃ t o, exec row.2 s = .next t
    ∧ t = { u with lh := t.lh, sz := t.sz, en := t.en, pd := t.pd, freeCtr := t.freeCtr }
    ∧ (t.latticeUnit k).running = some o ∧ mapGet none t.sz.outstanding n = some (.lattice k)
    ∧ o = { u.latticeInputs n b (s.latticeHandle b ap.owner) (b.fixedRnd raw) with rnd := o.rnd, start := s.clock }
    ∧ (b.fixedRnd raw = true → o.rnd = List.replicate 32 0))
  ∧ (ap.granted 0x30 = true → u.barred n = false →
    (w 2 = 0 → exec (.statsPublish n) s = .next (u.serviceEnd n stLenZero))
    ∧ (4096 < w 2 → exec (.statsPublish n) s = .next (u.serviceEnd n stLenTooLong))
    ∧ ∀ body, 0 < w 2 → w 2 ≤ 4096 → u.bufferRead n (w 1) (w 2) = some body → exec (.statsPublish n) s =
      .next ((u.append (u.appletRecord 0x42 0 c.slot 0 0 body) []).serviceEnd n stOk))

/-- Draws and takes of an applet (R202, R258, R259): a claim waits for its seed, a second one is busy; a commit enters
the journal and waits for the recorder; the acknowledgement ends UNCOMMITTED; a release ends the draw, the mode and
the draw instance's state; SEAL_RECORD puts a take without a receipt behind those fetched. -/
def Obligations.Draws : Prop := ∀ s : State,
  (∀ n, Turn s n 2 →
    let c := s.seen n
    let u := s.onCore n fun _ => { c.retire 2 .seq with run := .service }
    let ap := s.applet c.slot
    let w := fun i : Fin 16 => c.w[i].toNat
    (ap.granted 0x10 = true → u.barred n = false →
      (s.sz.draw = none → s.en.drawWait = none → s.pwr.mode = .service → s.entropyBlock = none →
        exec (.drawClaim n) s = .next (State.awaits n .claim { u with en := { s.en with drawWait := some n } }))
      ∧ (∀ d, s.sz.draw = some d → d.slot ≠ c.slot → exec (.drawClaim n) s = .next (u.serviceEnd n stDrawBusy)))
    ∧ (ap.granted 0x11 = true →
      (u.claimOf n = none → exec (.drawCommit n) s = .next (u.serviceEnd n stDrawOrder))
      ∧ (∀ d body, u.claimOf n = some d → d.waiting = none → 0 < w 2 → w 2 ≤ 4096 →
        u.bufferRead n (w 1) (w 2) = some body → s.lg.tapLog2 = 0 → s.reelFill + 8192 + 2 ^ 20 ≤ 2 ^ 30 →
        ∃ t, exec (.drawCommit n) s = .next t ∧ t = { s with sz := t.sz, lg := t.lg }
        ∧ t.sz.draw = some { d with commits := d.commits + 1, waiting := some (n, s.lg.journalCount + 1) }
        ∧ mapGet none t.sz.outstanding n = some .commit ∧ t.lg.journalCount = s.lg.journalCount + 1
        ∧ t.lg.continuity = Config.sha256 (0x43 :: s.lg.continuity
            ++ u.appletRecord 0x40 0 d.slot (d.commits + 1) d.seq body)))
    ∧ (ap.granted 0x12 = true → ∀ d, u.claimOf n = some d → d.waiting = none → s.pwr.mode = .draw → s.lg.tapLog2 = 0 →
      s.reelFill + 8192 + 2 ^ 20 ≤ 2 ^ 30 → mapWf {} s.en.instances = true → ∃ t, exec (.drawRelease n) s = .next t
      ∧ t.sz.draw = none ∧ t.pwr = { s.pwr with mode := .service }
      ∧ t.drbg 76 = { epoch := ((s.drbg 76).epoch + 1) % 65536 } ∧ t.lg.journalCount = s.lg.journalCount + 1)
    ∧ (ap.granted 0x20 = true → u.barred n = false → ∀ b space off payload, u.bufferRead n (w 1) 24 = some b →
      u.bufferSpace n (w 2) 32 = some (space, off) → leAt b 4 4 ≤ 16384 →
      u.bufferRead n (leAt b 0 4) (leAt b 4 4) = some payload → s.inflightRoom = true → leAt b 8 4 < 2 ^ 21 →
      leAt b 12 4 < 2 ^ 16 → (∀ m t x y, m ≠ n → mapGet none s.sz.outstanding m ≠ some (.sealWait t x y)) → exec (.sealRecord n) s = .next (State.awaits n (.seal s.td.nextId space off) { u with
        td := { s.td with
          nextId := s.td.nextId + 1
          fetched := s.td.fetched ++ [{
            id := s.td.nextId, source := .applet n, tenant := ap.owner, slot := leAt b 8 4, gate := leAt b 12 4
            length := leAt b 4 4, payload := payload, hasPayload := true, clientTag := leAt b 16 8 }] } })))
  ∧ (∀ d n k, s.sz.draw = some d → d.waiting = some (n, k) → k ≤ s.lg.journalCount - s.lg.reel.length →
    mapWf {} s.sz.slots = true → ∃ t, exec .drawCommitAck s = .next t ∧ t = { s with sz := t.sz }
    ∧ t.sz.draw = some { d with uncommitted := false, waiting := none }
    ∧ t.applet d.slot = { s.applet d.slot with holdFrom := none })

/-! ### Parameter Directory, Supervisory Port, registers, key handles (11, 12) -/

/-- Single entries and the mailbox (R263, R268 to R274, Table 11.10): READ returns the value in the viewer's byte
order, DESCRIBE the descriptor, NEXT the place of the next object; an object that is absent or denied says so; a WRITE
comes into force, or is staged where the object's apply point is EDGE; a part is staged and lasts 10 s; a mailbox
request ends with its response in host memory, DONE and its status. -/
def Obligations.DirectoryEntries : Prop := ∀ (s : State) (v : Viewer),
  let own := match v with
    | .tenant t => t
    | _ => 0
  (∀ (i : BitVec 16) (j : BitVec 8) o n x, Readable s v i.toNat j.toNat → findObj i.toNat j.toNat = some o →
    o.type.size = some n → o.type.isBytes = false → s.objVal v o own i.toNat j.toNat = .ok (.num x) →
    exec (.read v 0xFF#8 i j 0#32 0#32) s =
      .next (((s.readEffect v i.toNat j.toNat).served v).emit (.directory v stOk (putNum v n x))))
  ∧ (s.viewerActive v = true → s.dirFree → ∀ (i : BitVec 16) (j : BitVec 8),
    (findObj i.toNat j.toNat = none → i.toNat < 0xF000 → ∀ off len,
      exec (.read v 0xFF#8 i j off len) s = .next ((s.served v).emit (.directory v stNoObject [])))
    ∧ (∀ o, findObj i.toNat j.toNat = some o → s.entryDenied v o i.toNat j.toNat 1 0 = true → ∀ off len,
      exec (.read v 0xFF#8 i j off len) s = .next ((s.served v).emit (.directory v stAccessDenied [])))
    ∧ (∀ o, findObj i.toNat j.toNat = some o → s.entryDenied v o i.toNat j.toNat 3 0 = false →
      exec (.describe v 0xFF#8 i j) s =
        .next ((s.served v).emit (.directory v stOk (o.descriptor v i.toNat j.toNat))))
    ∧ (∀ o k l, s.nextObj v i.toNat j.toNat = some (o, k, l) → exec (.next v 0xFF#8 i j) s =
      .next ((s.served v).emit (.directory v stOk (putNum v 2 k ++ be 1 l)))))
  ∧ (∀ (i : BitVec 16) (j : BitVec 8) env o n x, let u := s.applyEnv env
    Writable u v i.toNat j.toNat x → findObj i.toNat j.toNat = some o → o.type.size = some n → o.type.isBytes = false →
    x < 256 ^ n → actionOf {} v own i.toNat j.toNat x [] = none →
    exec (.write v 0xFF#8 i j false 0#32 (putNum v n x) env) s = .next (State.emit (.directory v stOk []) (State.served v
      (if o.apply = .edge then u.stageNum i.toNat j.toNat (o.instFor v own) x
       else u.setNum i.toNat j.toNat (o.instFor v own) x))))
  ∧ (∀ (i : BitVec 16) (j : BitVec 8) env o b, let u := s.applyEnv env
    WritableBytes u v i.toNat j.toNat b → findObj i.toNat j.toNat = some o → o.type = .octets → b.length ≤ 4096 →
    (∀ x ∈ s.pd.staging, x.viewer ≠ v) → exec (.write v 0xFF#8 i j true 0#32 b env) s =
      .next (State.emit (.directory v stOk []) (State.served v { u with pd := { s.pd with staging := s.pd.staging ++ [{
        viewer := v, index := i.toNat, sub := j.toNat, inst := own, bytes := b, start := s.clock }] } })))
  ∧ (∃ t, exec (.stagingTimeout v) s = .next t ∧ t = { s with pd := { s.pd with staging := t.pd.staging } }
    ∧ ∀ x, x ∈ t.pd.staging ↔ x ∈ s.pd.staging ∧ (x.viewer = v → s.clock < x.start + 10000000000))
  ∧ (∀ loc n env, let u := s.applyEnv env
    let m := mapGet {} s.hg.mbx n
    let len := bitsOf m.size.toNat 15 0
    let cap := bitsOf m.size.toNat 31 16
    let r := parseRequest (.tenant n) (.mailbox n) (8 * cap) (u.dmaBytes m.reqAddr (8 * len))
    let y := (u.served (.tenant n)).runEntries {} r.entries r
    Reaches s loc (.mbx n 0x14) → s.dirFree → 2 ≤ len → len ≤ 8192 → 2 ≤ cap → cap ≤ 8192 →
    u.dmaOk n m.reqAddr (8 * len) = true → y.2.2 = false → y.1.sp.closing = false → mapGet {} y.1.hg.mbx n = m → m.ctrl.getLsbD 0 = false →
    y.1.dmaOk n m.respAddr y.2.1.response.length = true → y.1.hostMem.wf = true → ∃ t, exec (.mbxGo loc env) s = .next t
    ∧ t = { y.1 with hostMem := t.hostMem, hg := { y.1.hg with mbx := t.hg.mbx }, latches := t.latches }
    ∧ Stored y.1.hostMem t.hostMem m.respAddr y.2.1.response
    ∧ (t.latched (.pdMbx n) (.tenant n)).testBit 30 = true
    ∧ mapGet {} t.hg.mbx n = { m with status := y.2.1.status.toNat })

/-- The session of the regulator (R278 to R284): a HELLO_C is refused under the code of its check or answered by a
half-open session; FINISH_C opens it; a DATA record executes once, a repetition gets the kept response, one out of
order is discarded; CLOSE, the idle time and the link's end close it. -/
def Obligations.YilileSession : Prop := ∀ (s : State) (x : Session),
  let closed := fun u t : State => t = { u with
      sp := { u.sp with session := none, closing := false }
      latches := t.latches
      pd := { u.pd with
        staging := u.pd.staging.filter fun y => y.viewer ≠ .regulator
        deferred := u.pd.deferred.map fun r => if r.sink = .session then { r with sink := .dropped } else r
        waiting := u.pd.waiting.filter fun r => r.sink ≠ .session } }
    ∧ (t.latched .spLink (.tenant 0)).testBit 0 = true
  (∀ h, s.spUp = true → s.foreign h.src = false → s.coreEntropyBlock = none →
    (s.sessionOpen = true → s.helloCode h = some 1)
    ∧ (∀ c, s.helloCode h = some c → exec (.helloC h) s = .next (State.sendRecord h.src 0x20
      (yilileRecord 0x20 0 0 (be 1 c ++ List.replicate 7 0))
      { s with sp := { s.sp with refusals := s.sp.refusals + 1 } }))
    ∧ (s.helloCode h = none → ∃ (w : State) (y : Session) (nonce : Bytes) (k : Nat),
      let body := nonce ++ p384Point y.secret ++ List.replicate 7 0 ++ deviceCert ++ be 8 s.tb.deviceTime
        ++ be 1 s.pwr.mode.code ++ List.replicate 7 0
      let th1 := Config.sha384 (helloRecord h ++ (yilileRecord 2 y.sid 0 (body ++ List.replicate 96 0)).take 472)
      let rec' := yilileRecord 2 y.sid 0 (body ++ deviceSign k (0x59 :: 0x44 :: th1))
      exec (.helloC h) s = .next (w.sendRecord h.src 2 rec')
      ∧ w = { s with sp := { s.sp with session := some y }, en := w.en, pd := w.pd, freeCtr := w.freeCtr }
      ∧ y = { sid := (Config.freeValue 64 s.freeCtr).toNat, source := h.src, opened := false
              signer := Config.sha256 h.signer.publicKey, last := s.clock
              secret := y.secret, z := p384Shared y.secret h.ephemeral, th2 := Config.sha384 (helloRecord h ++ rec')
              kRd := sessionKey y.z 1 32 th1, kDr := sessionKey y.z 2 32 th1, salt := sessionKey y.z 3 8 th1 }))
  ∧ (s.sp.session = some x → s.spUp = true →
    (x.opened = false → s.foreign x.source = false →
      (∃ t : State, exec (.finishC x.source x.sid true true) s = .next (t.sendRecord x.source 4 (x.record 4 0
          (be 4 t.sessionIdle ++ be 2 1424 ++ be 2 0 ++ be 8 s.tb.deviceTime)))
        ∧ t = { s with
          sp := { s.sp with session := some { x with opened := true, last := s.clock, secret := 0, z := [] } }
          pd := (s.applyNum 0xA000 9 0).pd
          latches := t.latches }
        ∧ (t.latched .spLink (.tenant 0)).testBit 0 = true)
      ∧ (∀ sig, exec (.finishC x.source x.sid false sig) s = .next (State.sendRecord x.source 0x20
          (yilileRecord 0x20 x.sid 0 (be 1 5 ++ List.replicate 7 0))
          { s with sp := { s.sp with session := none } })))
    ∧ (x.opened = false → x.last + 2000000000 ≤ s.clock →
      exec .halfOpenTimeout s = .next { s with sp := { s.sp with session := none } })
    ∧ (x.opened = true → s.foreign x.source = false →
      (∀ plain, s.dirFree → (parseRequest .regulator .session 1424 plain).entries = [] →
        let rec' := x.record 0x10 (x.seqIn + 1) (parseRequest .regulator .session 1424 plain).response
        exec (.yilileData x.source x.sid (x.seqIn + 1) true plain) s = .next (State.sendRecord x.source 0x10 rec'
          (State.served .regulator { s with
            sp := { s.sp with session := some { x with seqIn := x.seqIn + 1, last := s.clock, kept := rec' } } })))
      ∧ (∀ plain, x.kept ≠ [] → exec (.yilileData x.source x.sid x.seqIn true plain) s =
        .next (State.sendRecord x.source 0x10 x.kept { s with
          sp := { s.sp with session := some { x with last := s.clock } } }))
      ∧ (∀ plain seq, (seq = x.seqIn → x.kept = []) → (seq = x.seqIn + 1 → s.outstanding 64 = true) →
        exec (.yilileData x.source x.sid seq true plain) s = .next { s with sp := { s.sp with dropped := s.sp.dropped + 1 } })
      ∧ (s.pwr.mode ≠ .ceremony → ∃ t, exec (.yilileClose x.source x.sid (x.seqIn + 1) true) s = .next t ∧ closed s t))
    ∧ (x.opened = true → s.pwr.mode ≠ .ceremony →
      (x.last + s.sessionIdle * 1000000000 ≤ s.clock → ∃ t, exec .sessionIdleTimeout s = .next t
        ∧ closed (s.sendRecord x.source 0x12 (x.record 0x12 (x.seqIn + 1) [])) t)
      ∧ (∀ c, s.sp.downSince = some c → c + s.sessionIdle * 1000000000 < s.clock →
        ∃ t, exec .spLinkDownTimeout s = .next t ∧ closed s t)))

/-- The port itself (R276, R277, Table 11.14): ARP answers for its own address, keeps the sender 300 s, ICMP echoes at
most 64 times a second; the PHY's link; one MDIO operation at a time; SpEnable and the regulator root. -/
def Obligations.SupervisoryPort : Prop := ∀ s : State,
  (∀ (d : NetSrc) type b (hop : Nat), hop = (if s.spGateway = 0 ∨ d.ip / 2 ^ (32 - s.spPrefix) = s.spIp / 2 ^ (32 - s.spPrefix)
      then d.ip else s.spGateway) →
    ((∃ e ∈ s.sp.arp, e.1 = hop) → s.sendRecord d type b = s.emit (.yilile d type b))
    ∧ ((∀ e ∈ s.sp.arp, e.1 ≠ hop) → s.sp.arp.length < 8 → s.sendRecord d type b = { s with
        sp := { s.sp with arp := s.sp.arp ++ [(hop, (Config.freeValue 48 s.freeCtr).toNat, s.clock)] }
        freeCtr := s.freeCtr + 1
        outbox := s.outbox ++ [.ethernet 0x0806 (s.arpPacket 1 0 hop), .yilile d type b] }))
  ∧ (∀ ip mac, s.spUp = true → s.sp.arp = [] → exec (.arpRequest ip mac s.spIp) s = .next (State.emit
    (.ethernet 0x0806 (be 2 1 ++ be 2 0x0800 ++ [6, 4] ++ be 2 2 ++ be 6 s.spMac ++ be 4 s.spIp ++ be 6 mac ++ be 4 ip))
    { s with sp := { s.sp with arp := [(ip, mac, s.clock)] } }))
  ∧ (∀ ip, ∃ t, exec (.arpCacheExpiry ip) s = .next t ∧ t = { s with sp := { s.sp with arp := t.sp.arp } }
    ∧ ∀ e, e ∈ t.sp.arp ↔ e ∈ s.sp.arp ∧ (e.1 = ip → s.clock < e.2.2 + 300000000000))
  ∧ (∀ ip payload, s.spUp = true → payload.length ≤ 1472 → s.sp.icmpSecond = s.clock / 1000000000 →
    (s.sp.icmpCount < 64 → exec (.icmpEcho ip s.spIp payload) s = .next (State.emit (.ethernet 0x0800 (be 4 ip ++ payload))
      (State.resolve ip { s with sp := { s.sp with icmpCount := s.sp.icmpCount + 1 } })))
    ∧ (64 ≤ s.sp.icmpCount → exec (.icmpEcho ip s.spIp payload) s = .next s))
  ∧ (s.powered = true → s.spEnabled = true →
    (∀ r : BitVec 16, r.getLsbD 2 = true → s.sp.link = false → ∃ t, exec (.phyPoll (some r) 2) s = .next t
      ∧ t = { s with sp := { s.sp with link := true, speed := 2, downSince := none }, latches := t.latches }
      ∧ (t.latched .spLink (.tenant 0)).testBit 1 = true)
    ∧ (∀ sp, s.sp.link = true → s.sp.downSince = none → ∃ t, exec (.phyPoll none sp) s = .next t
      ∧ t = { s with sp := { s.sp with link := false, speed := 0, downSince := some s.clock }, latches := t.latches }
      ∧ (t.latched .spLink (.tenant 0)).testBit 3 = true)
    ∧ ∃ t, exec .spRxError s = .next t ∧ t = { s with latches := t.latches }
      ∧ (t.latched .spLink (.tenant 0)).testBit 2 = true)
  ∧ (∀ (phy reg : BitVec 5) (d : BitVec 16), Reaches s (.bar2 0x90008) .spMdio → s.sp.mdioBusy = false →
    exec (.mdioWrite phy reg d) s = .next { s with sp := { s.sp with
      mdioBusy := true, mdioOp := 1, mdioPhy := phy.toNat, mdioReg := reg.toNat, mdioData := d.toNat } }
    ∧ (s.sp.mdioData < 65536 → exec (.mdioRead phy reg) s = .next { s with sp := { s.sp with
      mdioBusy := true, mdioOp := 2, mdioPhy := phy.toNat, mdioReg := reg.toNat } }))
  ∧ (s.sp.mdioBusy = true → s.lc.tapInstr ≠ 0 → s.lc.tapInstr ≠ 3 →
    (s.sp.mdioOp = 2 → ∀ d : BitVec 16, exec (.mdioOperationDone (some d)) s = .next { s with
      sp := { s.sp with mdioBusy := false, mdioData := d.toNat } })
    ∧ (s.sp.mdioOp = 2 → ∃ t, exec (.mdioOperationDone none) s = .next t
      ∧ t = { s with sp := { s.sp with mdioBusy := false, mdioData := 0xFFFF }, latches := t.latches }
      ∧ (t.latched .spLink (.tenant 0)).testBit 3 = true)
    ∧ (s.sp.mdioOp = 1 → ∀ a, exec (.mdioOperationDone a) s = .next { s with sp := { s.sp with mdioBusy := false } }))
  ∧ (s.spUp = true → exec .yilileRecordDiscard s = .next { s with sp := { s.sp with dropped := s.sp.dropped + 1 } })
  ∧ (∀ v, Writable s v 0xA000 1 1 → s.sessionOpen = false → s.spMac ≠ 0 → s.spIp ≠ 0 →
    Wrote (.spEnableWrite v 1#8) s v stOk (s.setNum 0xA000 1 0 1))
  ∧ (∀ t, Writable s (.tenant t) 0xA000 1 0 → s.sessionOpen = true →
    Wrote (.spEnableWrite (.tenant t) 0#8) s (.tenant t) stAccessDenied s)
  ∧ (Writable s .regulator 0xA000 1 0 → ∃ u : State, exec (.spEnableWrite .regulator 0#8) s = .next u.spOff
    ∧ u = ((State.served .regulator (s.setNum 0xA000 1 0 0)).emit (.directory .regulator stOk [])).onSp
      fun p => { p with closing := true })
  ∧ (s.pwr.mode ≠ .ceremony → let t := s.spOff
    t = { s with sp := t.sp, latches := t.latches, pd := t.pd }
    ∧ t.sp.session = none ∧ t.sp.link = false ∧ t.sp.arp = [] ∧ t.pd.nums = s.pd.nums
    ∧ (s.sp.link = true → (t.latched .spLink (.tenant 0)).testBit 1 = true)
    ∧ (s.sessionOpen = true → (t.latched .spLink (.tenant 0)).testBit 0 = true))
  ∧ (∀ b : Bytes, WritableBytes s .regulator 0xA000 0xC b → b.length = 32 →
    (s.sp.rootDigests.length < 4 → Wrote (.spRootDigestWrite .regulator ⟨b, true⟩) s .regulator stOk
        { s with sp := { s.sp with rootDigests := s.sp.rootDigests ++ [b] } }
      ∧ Wrote (.spRootDigestWrite .regulator ⟨b, false⟩) s .regulator stInternalFault s)
    ∧ (4 ≤ s.sp.rootDigests.length → ∀ burnt,
      Wrote (.spRootDigestWrite .regulator ⟨b, burnt⟩) s .regulator stModeRefused s))

/-- Registers (R9, R292 to R301): a write of a read-only word changes nothing, a refused size and a reserved offset
leave their bits; TB_CFG's write waits in its shadow; a read returns fields and latch and clears the latch for its
viewer alone; locks only rise; a mismatch disables its queue pair; a vector unmasked sends what was pending. -/
def Obligations.Registers : Prop := ∀ (s : State) (loc : Loc) (env : HostEnv),
  let u := s.applyEnv env
  let v := loc.viewer
  env.poisoned = false →
  (s.reaches v loc = true → ∀ x : BitVec 64,
    (∀ size, size ≠ 0 → size ≠ 4 → size ≠ 8 → ∃ t, exec (.registerWrite v loc size x env) s = .next t
      ∧ t = { u with latches := t.latches } ∧ (t.latched (.fnStat loc.fn) v).testBit 2 = true)
    ∧ (loc.offset % 4 = 0 → s.openWord loc 0 = none → (∀ n o, loc ≠ .bar4 n o) →
      ∃ t, exec (.registerWrite v loc 4 x env) s = .next t
      ∧ t = { u with latches := t.latches, hg := { s.hg with fns := t.hg.fns }, outbox := t.outbox }
      ∧ (t.latched (.fnStat loc.fn) v).testBit 3 = true))
  ∧ (∀ r (x : BitVec 64), Reaches s loc r → r ∈ [.modeStat, .wrIgn, .parErr, .parAddr, .lgStat, .bankStat, .spLink, .elReel,
      .elBacklog, .chStat, .tgState, .tgNext, .tgUnarch, .lcStat, .tbRef] → exec (.registerWrite v loc 4 x env) s = .next u)
  ∧ (∀ x : BitVec 64, Reaches s loc .tbCfg → s.hg.faulted = [] → ∃ t, exec (.registerWrite v loc 4 x env) s = .next t
    ∧ t = { u with hg := t.hg, tb := { s.tb with cfgShadow := BitVec.ofNat 32 x.toNat &&& 0x801F0000#32, cfgPend := true } })
  ∧ (∀ x : BitVec 32, Reaches s (.bar2 0x808) .blockLock → s.hg.faulted = [] → ∃ t, exec (.blockLockWrite (.tenant 0) x) s = .next t
    ∧ t = { s with hg := t.hg } ∧ t.hg.blockLock = s.hg.blockLock ||| x.toNat % 65536)
  ∧ (∀ r c upper, s.openWord loc 0 = some (r, upper) → Reaches s loc r → rcOf r = some c → (∀ n, r ≠ .rngData n) →
    mapWf 0 s.latches = true →
    s.regField v loc.fn r upper + s.latched c v < 2 ^ 32 → ∃ t, exec (.rcRead v loc 4) s = .next t
    ∧ t = { s with latches := t.latches
                   outbox := s.outbox ++ [.readData v loc (s.regField v loc.fn r upper + s.latched c v)] }
    ∧ t.latched c v = 0 ∧ ∀ w, viewerCode w ≠ viewerCode v → t.latched c w = s.latched c w)
  ∧ exec (.parityScan none) s = .next s
  ∧ (∀ n q, n < 64 → q < 8 → mapWf {} s.hg.queues = true → s.powered = true → 4 ≤ s.pwr.wakeStep → s.unitAt loc = parityUnit (.queue n q 0x10) →
    s.sealing = false → s.unarchived + 2 < 16320 → ∃ t, exec (.parityScan (some (loc, .main))) s = .next t
    ∧ (t.qpair n q).enabled = false ∧ t.hg.parAddr / 2 ^ 31 = 1 ∧ (queueUnit n q, [0, 8, 0x10]) ∈ t.hg.faulted
    ∧ .blockParity ∈ t.pwr.causes ∧ (t.latched .parErr .maker).testBit 0 = true)
  ∧ (∀ n k, s.fnReached n = true → k < 32 → (s.fn n).msixEnable = true → (s.fn n).msixMaskAll = false →
    (s.fn n).pba = [k] → ∃ t, exec (.msixUnmask n k) s = .next t
    ∧ t = { s with hg := { s.hg with fns := t.hg.fns }, outbox := s.outbox ++ [.msix n k
        (mapGet (0, 0) (s.fn n).vectors k).1 (mapGet (0, 0) (s.fn n).vectors k).2] }
    ∧ (t.fn n).pba = [] ∧ k ∈ (t.fn n).unmasked)

/-- Key handles (R440 to R447): generation and import take the key engine; at their end the handle has its next
generation, its entry stands in the key store, and the key is in the register file where the mode has keys; a failed
check leaves no handle; deletion; what the objects return. -/
def Obligations.KeyHandles : Prop := ∀ (s : State) (v : Viewer) (byte : BitVec 8) (inst : Nat),
  namedTenant v byte.toNat = .ok inst →
  let h := s.num 0x2100 1 inst 0
  (Writable s v 0x2100 5 0x6E4B → s.pwr.mode = .standby ∨ s.pwr.mode = .service ∨ s.pwr.mode = .draw ∨ s.pwr.mode = .held →
    s.en.firstSeed = true → s.keyStore ≠ 0 → s.krf.running = none →
    Wrote (.keyGenerate v byte 0x6E4B#32) s v stOk (State.assignWork
      { s with krf := { s.krf with running := some (s.keyOp v inst false) } }))
  ∧ (Writable s v 0x2100 8 0x1A4B → s.pwr.mode = .ceremony → s.pwr.ceremonyFrom = some .standby → s.keyStore ≠ 0 →
    s.krf.running = none →
    Wrote (.keyImport v byte 0x1A4B#32) s v stOk (State.assignWork
      { s with krf := { s.krf with running := some (s.keyOp v inst true) } }))
  ∧ (Writable s v 0x2100 9 0xDE4B → v ≠ .regulator → s.krf.running = none → (s.handle h).isSome = true →
    reachesHandle v (s.handle h) = true → s.handleUsed h = false → mapWf none s.krf.handles = true →
    ∃ t, Wrote (.keyDelete v byte 0xDE4B#32) s v stOk t ∧ t = { s with krf := { s.krf with handles := t.krf.handles }, pd := t.pd }
    ∧ t.handle h = none ∧ ∀ g, g ≠ h → t.handle g = s.handle g)
  ∧ (∀ k, s.handle h = some k → k.state = .unwrapped → k.publicPart.length ≤ 4096 → reachesHandle v (some k) = true → h ≠ 0 →
    (Readable s v 0x2100 0xB → exec (.keyPublicRead v byte) s = .next ((s.served v).emit (.directory v stOk k.publicPart)))
    ∧ (Readable s v 0x2100 0xC → exec (.keyAttestationRead v byte) s = .next ((s.served v).emit (.directory v stOk
        (deviceSign 0 ([0x41] ++ be 8 unitId ++ be 2 h ++ be 1 k.type ++ be 1 k.usage ++ be 1 k.owner ++ be 4 k.generation
          ++ Config.sha384 k.publicPart))))))
  ∧ (∀ j, s.krf.journal = some j → s.derives = true → Readable s v 0x4000 0x14 → exec (.journalKeyAttestationRead v) s =
    .next ((s.served v).emit (.directory v stOk (deviceSign 0 ([0x41] ++ be 8 unitId ++ be 2 0 ++ be 1 1 ++ be 1 0 ++ be 1 0xFF
      ++ be 4 s.lc.state ++ Config.sha384 j.2)))))
  ∧ (∀ o : KeyOp, s.krf.running = some o → o.imported = false → s.keyOpBlock o = none →
    s.keyOpPlaced o = true →
    let runs := fun u => ∃ x, (s.latticeUnit u).running = some x ∧ x.user = .anchor .keyOp
    (∃ r t : State, exec (.keyOpComplete true) s = .next ((t.releaseUnits (· = .anchor .keyOp)).assignWork)
      ∧ r = { s with krf := { s.krf with running := none }, en := r.en, pd := r.pd, freeCtr := r.freeCtr }
      ∧ t.num 0x2100 0xA o.tenant 0 = stInternalFault.toNat
      ∧ (∀ u, u < 4 → runs u → (∀ w, w < u → ¬ runs w) →
        t = (r.unitFault u).setNum 0x2100 0xA o.tenant stInternalFault.toNat)
      ∧ (∀ e, (∀ w, w < 4 → ¬ runs w) → o.engine = some e →
        t = (r.lieFault e).setNum 0x2100 0xA o.tenant stInternalFault.toNat))
    ∧ (o.type = 4 → s.dmaLands 0 (s.entryAddress o.handle) (48 + 32 + 32) = true → s.hostMem.wf = true → ∃ (t : State) (priv : Bytes),
      let g := mapGet 0 s.krf.generations o.handle + 1
      let pub := ecPublic 4 false priv
      let keys := decide (s.pwr.mode = .service ∨ s.pwr.mode = .draw ∨ s.pwr.mode = .held)
      let k : Handle := {
        type := 4, usage := o.usage, owner := o.tenant, generation := g, words := 0, publicDigest := Config.sha256 pub
        state := if keys then .unwrapped else .wrapped, publicPart := if keys then pub else []
        privatePart := if keys then priv else [] }
      exec (.keyOpComplete false) s = .next ((t.releaseUnits (· = .anchor .keyOp)).assignWork) ∧ t.handle o.handle = some k ∧ priv.length = 32
      ∧ (∀ f, f ≠ o.handle → t.handle f = s.handle f) ∧ t.krf.running = none ∧ t.num 0x2100 0xA o.tenant 0xFFFF = 0
      ∧ mapGet 0 t.krf.generations o.handle = g
      ∧ Stored s.hostMem t.hostMem (s.entryAddress o.handle) (t.storeEntry o.handle { k with words := 0 } pub priv)))

/-! ### The Escrow Line (13) -/

/-- A reel (R307 to R319): ReelOpen starts OPENING; the recorder's answer refuses it under the code of its check, or
keys it, with pickup first where records are missing; a frame carries the next bytes of the records in order; an
accepted status frame frees what the recorder holds, any other is counted; silence stalls it; a stop begins the run-
out, near whose end REEL_END joins the journal, and whose last frame is FINAL; the receive lanes. -/
def Obligations.EscrowReel : Prop := ∀ s : State,
  (∀ v env, let u := s.applyEnv env
    Writable u v 0x7000 4 0xE1A → s.mayOpenReel = true → s.coreEntropyBlock = none → ∃ t : State,
    exec (.reelOpen v 0xE1A#32 env) s = .next ((t.served v).emit (.directory v stOk []))
    ∧ t = { u with el := t.el, en := t.en, pd := t.pd, freeCtr := t.freeCtr } ∧ t.el.state = .opening
    ∧ t.el.ephemeral = p384Point t.el.secret
    ∧ t.el.frameSeq = 0 ∧ t.el.keyed = false ∧ t.el.reelCount = s.el.reelCount + 1 ∧ t.el.openStart = s.clock
    ∧ t.el.reelId = s.pwr.bootCount % 2 ^ 20 * 2 ^ 44 + (s.el.reelCount + 1) ∧ t.el.openCount = s.lg.journalCount
    ∧ t.el.cadence = t.reelCadence ∧ t.el.waived = s.el.waiver ∧ t.el.waiver = false)
  ∧ (s.serdes = true → s.el.state = .opening →
    let refused := fun (t : State) (code : Nat) => t = { s with
        el := { s.el.unkeyed with state := .idle, result := code, waived := false }
        latches := t.latches }
      ∧ (t.latched .elReel (.tenant 0)).testBit 2 = true
    (∀ f : OpenAckFields, f.reelId = s.el.reelId →
      let z := p384Shared s.el.secret f.ephemeral
      let th := Config.sha384 (slice s.el.openSent 0 624 ++ ackBytes f)
      ∃ t, exec (.openAck f) s = .next t
      ∧ (s.recorderDigest = 0 → refused t 0x10)
      ∧ (∀ c, s.ackRefusal f = some c → refused t c)
      ∧ (s.ackRefusal f = none → f.heldCount ≠ s.lg.journalCount → t = { s with
          lg := { s.lg with reel := s.lg.reel.filter fun r => f.heldCount < r.last }
          el := { s.el with
            state := .pickup
            heldCount := f.heldCount
            sentCount := f.heldCount
            sentPart := 0
            keyed := true
            secret := 0
            kFw := reelKey z 1 32 th
            kSt := reelKey z 2 32 th
            saltFw := (reelKey z 3 8 th).take 4
            saltSt := (reelKey z 3 8 th).drop 4
            lastTag := th.take 16
            runOut := f.runOut
            heldContinuity := slice f.heldContinuity 0 32
            lastStatus := s.clock
            goodSince := s.clock } })
      ∧ (s.ackRefusal f = none → f.heldCount = s.lg.journalCount → s.roomy →
        t = { s with lg := t.lg, el := t.el, latches := t.latches } ∧ t.el.state = .running
        ∧ t.lg.journalCount = s.lg.journalCount + 1 ∧ t.el.segmentStart = s.lg.journalCount + 1))
    ∧ (∃ t, exec (.recorderRefuse s.el.reelId) s = .next t ∧ refused t 0x15)
    ∧ (s.el.openStart + 1000000000 ≤ s.clock → ∃ t, exec .openTimeout s = .next t ∧ refused t 0x14))
  ∧ (s.el.state = .pickup → s.el.segmentStart = 0 → s.hostPartNeeded = false → s.roomy →
    ∃ t, exec .pickupVerified s = .next t ∧ t = { s with lg := t.lg, el := t.el } ∧ t.el.state = .pickup
    ∧ t.lg.journalCount = s.lg.journalCount + 1 ∧ t.el.segmentStart = s.lg.journalCount + 1)
  ∧ (∀ v, Writable s v 0x7000 0xB 0x5C1E →
    Wrote (.pickupWaive v 0x5C1E#32) s v stOk { s with el := { s.el with waiver := true } })
  ∧ (s.powered = true → s.el.transmit = true → s.el.state = .running → s.el.ending = false →
    let body := (fillBody s.toSend s.el.sentPart 8128 s.el.sentCount).1
    let seq := s.el.frameSeq + 1
    let type := if body = [] then 2 else 1
    let cipher := Config.out .gcmCipher 8128 [] [s.el.kFw, s.el.saltFw ++ be 8 seq, slice body 0 8128]
    ∃ t header first, exec .reelFrameTick s = .next t ∧ t = { s with
      el := t.el, outbox := s.outbox ++ [.escrowFrame (seq % 4) type (header ++ cipher ++ t.el.lastTag)] }
    ∧ header = be 4 0x544D524C ++ be 1 type ++ be 1 0 ++ be 2 body.length ++ be 8 s.el.reelId ++ be 8 seq
      ++ be 8 s.el.streamOffset ++ be 2 first ++ be 6 0 ++ be 8 s.tb.deviceTime
    ∧ t.el.lastTag = Config.out .gcmTag 16 [] [s.el.kFw, s.el.saltFw ++ be 8 seq, header ++ s.el.lastTag, cipher]
    ∧ t.el.frameSeq = seq ∧ t.el.streamOffset = s.el.streamOffset + body.length
    ∧ t.el.frames = s.el.frames ++ [(seq, s.clock)] ∧ t.el.state = .running)
  ∧ (∀ l part room sent, part ≤ ((l.head?.map fun r => r.bytes.length).getD 0) →
    (fillBody l part room sent).1 = (((l.flatMap (·.bytes)).drop part).take room))
  ∧ (∀ f : StatusFields, s.powered = true →
    (s.statusAccepted f = false →
      exec (.statusFrame f) s = .next { s with el := { s.el with statusDropped := s.el.statusDropped + 1 } })
    ∧ (s.statusAccepted f = true → f.stop = false → f.broken = false → ∃ t, exec (.statusFrame f) s = .next t
      ∧ t = { s with lg := { s.lg with reel := s.lg.reel.filter fun r => f.heldCount < r.last }, el := t.el }
      ∧ t.el.statusSeq = f.statusSeq ∧ t.el.ackSeq = f.ackSeq ∧ t.el.heldCount = f.heldCount ∧ t.el.lastStatus = s.clock
      ∧ t.el.frames = s.el.frames.filter (fun x => f.ackSeq < x.1) ∧ t.el.state = s.el.state))
  ∧ (s.el.state = .running → s.el.stalled = false →
    let stall := (State.latch .elReel 0x10 { s with el := { s.el with stalled := true } }).raiseCause .escrowStall
    (s.el.lastStatus + s.statusLimit * 1000000 ≤ s.clock → exec .statusLimitExpiry s = .next stall)
    ∧ (∀ x ∈ s.el.frames, x.2 + s.ackLimit * 1000000 ≤ s.clock → exec .ackLimitExpiry s = .next stall))
  ∧ (s.el.stalled = true → s.el.keyed = true → s.el.goodSince + 10000000 ≤ s.clock →
    s.clock < s.el.lastStatus + s.statusLimit * 1000000 → s.el.frames = [] →
    exec .stallRecovery s = .next { s with el := { s.el with stalled := false } })
  ∧ (s.pwr.causes = [.reelBufferFull] → s.reelFill ≤ 2 ^ 29 → s.pwr.mode = .held →
    exec .reelBufferResume s = .next { s with pwr := { s.pwr with causes := [], mode := .service } })
  ∧ (∀ v, Writable s v 0x7000 5 0xE50 → s.el.state = .running → s.sealing = false → Wrote (.reelStop v 0xE50#32) s v stOk { s with
      el := { s.el with state := .runout, stopCause := endRequest, stopClock := s.clock } })
  ∧ (s.el.state = .runout → s.el.ending = false → s.el.stopClock + s.el.runOut * 1000000 ≤ s.clock + 5000000 →
    s.el.segmentStart ≠ 0 → s.roomy → ∃ t, exec .reelEndAppend s = .next t
    ∧ t = { s with lg := t.lg, el := { s.el with ending := true, endCount := s.lg.journalCount + 1 } }
    ∧ t.lg.journalCount = s.lg.journalCount + 1)
  ∧ (s.el.state = .pickup → s.el.segmentStart = 0 → s.hostPartNeeded = true → s.hostPart = none →
    ∃ t, exec .pickupVerified s = .next t ∧ t = { s with
      el := { s.el with state := .runout, result := endPickup, stopCause := endPickup, stopClock := s.clock }
      latches := t.latches })
  ∧ (s.powered = true → s.el.transmit = true →
    (s.el.state = .opening → ∃ t, exec .reelFrameTick s = .next t ∧ t = { s with
        el := t.el
        freeCtr := t.freeCtr
        outbox := s.outbox ++ [0, 1, 2, 3].map fun l => .escrowFrame l 4 (slice s.openFrame 0 8192) }
      ∧ t.el.openSent = s.openFrame ∧ t.el.state = .opening)
    ∧ (s.el.state = .runout → s.el.ending = true →
      s.el.endCount = 0 ∨ s.el.endCount ≤ (fillBody s.toSend s.el.sentPart 8128 s.el.sentCount).2.1 →
      let type := if (fillBody s.toSend s.el.sentPart 8128 s.el.sentCount).1 = [] then 2 else 1
      ∃ t frame, exec .reelFrameTick s = .next t ∧ t = { s with
        el := t.el
        latches := t.latches
        outbox := s.outbox ++ [.escrowFrame ((s.el.frameSeq + 1) % 4) type frame] }
      ∧ frame.take 6 = be 4 0x544D524C ++ be 1 type ++ be 1 3 ∧ t.el.state = .idle ∧ t.el.result = s.el.stopCause
      ∧ t.el.keyed = false ∧ t.el.kFw = [] ∧ t.el.kSt = [] ∧ (t.latched .elReel (.tenant 0)).testBit 1 = true))
  ∧ (∀ f : StatusFields, s.powered = true → s.statusAccepted f = true → s.el.state = .running → s.sealing = false →
    f.stop = true ∨ f.broken = true → ∃ t, exec (.statusFrame f) s = .next t ∧ t.el.state = .runout
      ∧ t.el.stopCause = (if f.broken then endBroken else endRecorder) ∧ t.el.stopClock = s.clock
      ∧ (t.latched .elReel (.tenant 0)).testBit 5 = true)
  ∧ (s.powered = true → (∀ l < 4, s.serdes = true → bitOf s.el.rxLock l = false →
      exec (.escrowLaneBlockLock l true) s = .next { s with el := { s.el with rxLock := s.el.rxLock + 2 ^ l } })
    ∧ (∀ l < 4, bitOf s.el.rxLock l = true → ∃ t, exec (.escrowLaneBlockLock l false) s = .next t
      ∧ t = { s with el := { s.el with rxLock := s.el.rxLock - 2 ^ l }, latches := t.latches }
      ∧ (t.latched (.elLane 0) (.tenant 0)).testBit (8 + l) = true)
    ∧ (∀ l < 4, exec (.uncorrectableCodeword true l) s = .next (s.latch (.elLane 0) (2 ^ (12 + l))))
    ∧ ∀ l < 16, exec (.uncorrectableCodeword false l) s = .next (s.latch (.xlPort (l / 4)) 0x20))

/-! ### The Crossing Links and the Fleet (14) -/

/-- Ports and frames (R327 to R333, R339, R345, R347): a port trains, is keyed by HELLOs and comes UP; a failure waits
1 s; an UP port goes DOWN on silence, a bad tag or a LinkSeq out of order; a good frame returns its credits, acts
here, or leaves by its route; CREDIT, HEARTBEAT, repetition of a request, peer reads; FleetEnable and MemberUnitId. -/
def Obligations.FleetLinks : Prop := ∀ s : State, mapWf {} s.xl.ports = true →
  let retry := fun p => ({ cfg := (s.port p).cfg, retryAt := some (s.clock + 1000000000) } : Port)
  let helloFrame := fun (p : Nat) (b : Bytes) => Out.linkFrame p 3 1 0xFFFF s.memberId false 0 0 0 b (linkHeader
    { vc := 3, type := 1, dest := 0xFFFF, src := s.memberId, down := false, payload := b } 0 0 0 ++ b ++ List.replicate 16 0)
  let others := fun (t : State) (p : Nat) => ∀ q, q ≠ p → t.port q = s.port q
  let fell := fun (t : State) (p : Nat) => t = { s with xl := { s.xl with ports := t.xl.ports }, latches := t.latches }
    ∧ t.port p = s.fallen p ∧ (t.latched (.xlPort p) .maker).testBit 1 = true ∧ others t p
  let failed := fun (t : State) (p : Nat) (q : Port) => t = { s with
      xl := { s.xl with ports := t.xl.ports }
      latches := t.latches
      pd := { s.pd with nums := t.pd.nums }
      tg := t.tg }
    ∧ t.port p = q ∧ (t.latched (.xlPort p) .maker).testBit 2 = true ∧ others t p
    ∧ t.num 0x7800 0xA 0 0 = s.num 0x7800 0xA 0 0 + 1
  (∀ p, (s.port p).state = .training →
    (s.portMay p = true → s.serdes = true → s.coreEntropyBlock = none → ∃ t nonce d,
      let hello := helloBytes nonce (p384Point d) deviceCert s.fleetId s.memberId
      exec (.portLanesLocked p) s = .next t ∧ t = { s with
        xl := { s.xl with ports := t.xl.ports }
        en := t.en
        pd := t.pd
        freeCtr := t.freeCtr
        outbox := s.outbox ++ [helloFrame p (hello ++ List.replicate 96 0)] }
      ∧ t.port p = { s.port p with state := .keying, since := s.clock, hello := hello, helloSigned := false, secret := d }
      ∧ hello.length = 448 ∧ others t p)
    ∧ ((s.port p).since + 100000000 ≤ s.clock →
      exec (.trainingTimeout p) s = .next (s.onPort p fun _ => retry p)))
  ∧ (∀ p, (s.port p).state = .keying → s.unarchived + 1 < 16320 →
    ((s.port p).since + 5000000 ≤ s.clock → ∃ t, exec (.keyingTimeout p) s = .next t ∧ failed t p (retry p))
    ∧ ∀ h : HelloFields,
      let own := (s.port p).hello
      let other := helloBytes h.nonce h.ephemeral h.cert h.fleetId h.memberId
      let th := Config.sha384 (if s.memberId < h.memberId then own ++ other else other ++ own)
      let key := linkKey (p384Shared (s.port p).secret h.ephemeral)
      (h.signed = true → s.helloAccepted h = false → ∃ t, exec (.hello p h) s = .next t ∧ failed t p (retry p))
      ∧ (h.signed = true → s.helloAccepted h = true → (s.port p).helloSigned = true → ∃ t, exec (.hello p h) s = .next t
        ∧ t = { s with xl := { s.xl with ports := t.xl.ports }, latches := t.latches } ∧ others t p
        ∧ (t.latched (.xlPort p) .maker).testBit 0 = true
        ∧ (s.memberId < h.memberId → t.port p = {
          cfg := (s.port p).cfg, state := .up, partner := h.memberId, lastFrame := s.clock, lastSent := s.clock
          kTx := key 1 32 th, kRx := key 2 32 th, saltTx := (key 3 8 th).take 4, saltRx := (key 3 8 th).drop 4 })
        ∧ (h.memberId < s.memberId → t.port p = {
          cfg := (s.port p).cfg, state := .up, partner := h.memberId, lastFrame := s.clock, lastSent := s.clock
          kTx := key 2 32 th, kRx := key 1 32 th, saltTx := (key 3 8 th).drop 4, saltRx := (key 3 8 th).take 4 }))
      ∧ (h.signed = false → (s.port p).helloSigned = false → ∃ t, exec (.hello p h) s = .next t ∧ t = { s with
          xl := { s.xl with ports := t.xl.ports }
          freeCtr := s.freeCtr + 1
          outbox := s.outbox ++ [helloFrame p (own ++ slice (deviceSign s.freeCtr (0x4C :: th)) 0 96)] }
        ∧ others t p ∧ t.port p = { s.port p with helloSigned := true, partner := h.memberId }))
  ∧ (∀ p c, (s.port p).state = .down → (s.port p).retryAt = some c → c ≤ s.clock → exec (.keyingRetry p) s = .next
      (s.onPort p fun q => if s.portMay p then { q with retryAt := none, state := .training, since := s.clock }
        else { q with retryAt := none }))
  ∧ (∀ p, (s.port p).state = .up →
    ((s.port p).lastFrame + 100000 ≤ s.clock → ∃ t, exec (.linkIdleTimeout p) s = .next t ∧ fell t p)
    ∧ (∀ h, ∃ t, exec (.hello p h) s = .next t ∧ fell t p)
    ∧ (∀ h : LinkHdr, h.port = p → h.tagOk = true → h.seq ≠ (s.port p).rxSeq + 1 → ∃ t, fell t p
      ∧ exec (.credit h) s = .next t ∧ exec (.heartbeat h) s = .next t
      ∧ ∀ type payload, exec (.linkFrameForward h type payload) s = .next t)
    ∧ (∀ h : LinkHdr, h.port = p → h.tagOk = false → s.unarchived + 1 < 16320 → ∃ t, failed t p (s.fallen p)
      ∧ (t.latched (.xlPort p) .maker).testBit 1 = true ∧ ∀ type, exec (.linkFrameDiscard h type) s = .next t)
    ∧ ((s.port p).lastSent + 10000 ≤ s.clock → (s.port p).queue = [] → 1 ≤ (s.port p).credit 3 → ∃ t,
      exec (.creditTick p) s = .next t ∧ t = { s with
        xl := { s.xl with ports := t.xl.ports }
        outbox := s.outbox ++ [s.outFrame p 3 3 0xFFFF s.memberId false []] }
      ∧ (t.port p).txSeq = (s.port p).txSeq + 1 ∧ (t.port p).lastSent = s.clock ∧ (t.port p).state = .up ∧ others t p)
    ∧ ∀ vc c, mapGet none (s.port p).stalledSince vc = some c → c + 1000000 < s.clock →
      exec (.creditStallTimer p vc) s = .next (s.latch (.xlPort p) 0x10))
  ∧ (∀ h : LinkHdr, let p := h.port
    let q := s.port p
    let u := (s.frameIn h).1
    (Arrives s h 3 → exec (.credit h) s = .next u)
    ∧ (Arrives s h 2 → exec (.heartbeat h) s = .next u)
    ∧ (q.state = .up → h.tagOk = true → h.seq = q.rxSeq + 1 →
      (q.queue = [] → mapWf 64 q.credits = true → mapWf 0 q.owed = true → mapWf 0 s.xl.memberSeen = true →
        u = { s with xl := { s.xl with
          ports := u.xl.ports, memberSeen := u.xl.memberSeen, lost := s.xl.lost.filter (· ≠ h.src) } }
        ∧ mapGet 0 u.xl.memberSeen h.src = s.clock ∧ others u p
        ∧ u.port p = { q with
          rxSeq := h.seq, lastFrame := s.clock, stalledSince := [], credits := (u.port p).credits, owed := (u.port p).owed }
        ∧ (u.port p).credit h.creditVc = min 64 (q.credit h.creditVc + h.creditCount)
        ∧ (∀ vc, vc ≠ h.creditVc → (u.port p).credit vc = q.credit vc)
        ∧ mapGet 0 (u.port p).owed h.vc = mapGet 0 q.owed h.vc + (40 + h.length + 255) / 256)
      ∧ (∀ type, vcOf type ≠ some h.vc →
        exec (.linkFrameDiscard h type) s = .next (u.setNum 0x7800 0xA 0 (u.num 0x7800 0xA 0 0 + 1)))
      ∧ ∀ type payload, vcOf type = some h.vc → h.dest ≠ 0xFFFF → let r := u.route p h.dest
        let dropped := (u.latch (.xlPort p) 8).setNum 0x7800 0xB 0 (u.num 0x7800 0xB 0 0 + 1)
        (r.valid = false → exec (.linkFrameForward h type payload) s = .next dropped)
        ∧ (r.valid = true → r.isLocal = false →
          (h.wentDown = true → r.up = true → exec (.linkFrameForward h type payload) s = .next dropped)
          ∧ ((h.wentDown = false ∨ r.up = false) → (u.port r.out).state = .up → (u.port r.out).queue = [] →
            frameUnits payload.length ≤ (u.port r.out).credit h.vc → ∃ t, exec (.linkFrameForward h type payload) s = .next t
            ∧ t = { u with
              xl := { u.xl with ports := t.xl.ports }
              outbox := u.outbox ++ [u.outFrame r.out h.vc type h.dest h.src (h.wentDown || !r.up) payload] })))
    ∧ (Arrives s h 0x12 → s.dirFree → ∀ b : Bytes,
      let r := parseRequest (.peer p) (.peer h) 4088 b
      let y := (u.served (.peer p)).runEntries {} r.entries r
      (s.fresh h → y.2.2 = false → y.1.sp.closing = false → exec (.dirReq h b) s = .next (y.1.respond h 0x22 y.2.1.response))
      ∧ ∀ a, u.xl.answered.find? (fun a => a.src = h.src && a.reqId = h.reqId) = some a →
        exec (.dirReq h b) s = .next (u.sendMember h.src 1 a.type a.payload))
    ∧ (Arrives s h 0x22 → ∀ r b, u.asked h 0x12 r → exec (.dirResp h b) s = .next (State.emit
      (.directory (.peer p) stOk b)
      { u with xl := { u.xl with requests := u.xl.requests.filter fun q => q.reqId ≠ h.reqId } })))
  ∧ (∀ id r p up, s.xl.requests.find? (fun r => r.reqId = id) = some r → r.sent + 1000000 ≤ s.clock →
    s.sends r.dest 0 r.payload.length p up → ∃ t, exec (.linkRequestResend id) s = .next t ∧ t = { s with
      xl := { s.xl with
        ports := t.xl.ports
        requests := s.xl.requests.map fun q => if q.reqId = id then { q with sent := s.clock } else q }
      outbox := s.outbox ++ [s.outFrame p 0 r.type r.dest s.memberId (!up) r.payload] })
  ∧ (s.fleetEnable = true → s.xl.lastHeartbeat + 500000 ≤ s.clock →
    (s.partners = [] → exec .heartbeatTick s = .next { s with xl := { s.xl with lastHeartbeat := s.clock } })
    ∧ ∀ m p up, s.partners = [m] → s.sends m 3 0 p up → ∃ t, exec .heartbeatTick s = .next t ∧ t = { s with
      xl := { s.xl with ports := t.xl.ports, lastHeartbeat := s.clock }
      outbox := s.outbox ++ [s.outFrame p 3 2 m s.memberId (!up) []] })
  ∧ (∀ v m (x : BitVec 64), m < 1024 → Writable s v (0x7900 + m / 256) (m % 256) x.toNat → ∃ t : State,
    Wrote (.memberUnitIdWrite v m x) s v stOk t ∧ t.memberUnit m = x.toNat
    ∧ t = { s with xl := { s.xl with ports := t.xl.ports }, latches := t.latches, pd := { s.pd with nums := t.pd.nums } }
    ∧ ∀ p < 4, ((s.port p).state = .up → (s.port p).partner = m → (t.port p).state ≠ .up)
      ∧ ((s.port p).state ≠ .up ∨ (s.port p).partner ≠ m → t.port p = s.port p))
  ∧ (∀ v, (Writable s v 0x7800 1 1 → (∀ d b, s.lc.staged = some (d, b) → d ≠ 5) → ∃ t : State,
      Wrote (.fleetEnableWrite v 1#8) s v stOk t ∧ t.fleetEnable = true
      ∧ t = { s with xl := { s.xl with ports := t.xl.ports }, pd := { s.pd with nums := t.pd.nums } }
      ∧ ∀ p < 4, (s.port p).state = .down → (s.port p).retryAt = none →
        (t.port p).state = if t.portMay p then .training else .down)
    ∧ (Writable s v 0x7800 1 0 → ∃ t : State, Wrote (.fleetEnableWrite v 0#8) s v stOk t ∧ t.fleetEnable = false
      ∧ t = { s with xl := { s.xl with ports := t.xl.ports }, latches := t.latches, pd := { s.pd with nums := t.pd.nums } }
      ∧ ∀ p < 4, (t.port p).state = .down))

/-- Leases, roles and claims (R334, R335, R338, R342 to R344, Table 14.6): the authority grants the next serials of a
slot and the holder has them; a role is offered, accepted or refused, and completes the RoleApply that waits; a mirror
is removed; a lease comes back; one member at a time may hold a Ceremony. A change of roles is in the journal. -/
def Obligations.FleetRoles : Prop := ∀ (s : State) (h : LinkHdr) (n : Nat), s.roomy → mapWf {} s.lg.slots = true →
  mapWf 0 s.xl.grantLimit = true →
  let u := (s.frameIn h).1
  let x := s.slot n
  let me := s.memberId
  let within := fun a t : State => t = { a with
      xl := t.xl
      lg := { a.lg with
        journalCount := t.lg.journalCount
        continuity := t.lg.continuity
        anchor := t.lg.anchor
        reel := t.lg.reel
        reelWritten := t.lg.reelWritten
        slots := t.lg.slots
        resident := t.lg.resident
        nodes := t.lg.nodes
        tree := t.lg.tree
        dirty := t.lg.dirty
        dirtyNodes := t.lg.dirtyNodes
        suspended := t.lg.suspended }
      pd := t.pd
      latches := t.latches
      outbox := t.outbox
      freeCtr := t.freeCtr }
    ∧ (∀ m, m ≠ n → t.slot m = s.slot m) ∧ t.xl.routes = s.xl.routes ∧ t.xl.ceremonyHolder = s.xl.ceremonyHolder
  let records := fun (t : State) (k : Nat) => t.lg.journalCount = s.lg.journalCount + k
  let answers := fun (t : State) (type : Nat) (b : Bytes) => ∀ p up, u.sends h.src 1 (8 + b.length) p up →
    t.outbox = u.outbox ++ [u.outFrame p 1 type h.src me (!up) (be 8 h.reqId ++ b)]
  (Arrives s h 0x10 → s.fresh h → x.fleet = true → x.authority = me → x.leased = true ∨ x.home = h.src →
    (x.leased && x.mirrored) = false → (∀ t ∈ s.xl.takeover, t.slot ≠ n) →
    let limit := max (mapGet 0 s.xl.grantLimit n) x.serial
    let first := limit + 1
    let last := min (limit + (u.applyNum 0x7800 4 0).leaseBlock) (2 ^ 64 - 1)
    (2 ^ 64 - 1 ≤ limit → exec (.leaseReq h n) s = .next u)
    ∧ (limit < 2 ^ 64 - 1 → ∃ t, exec (.leaseReq h n) s = .next t ∧ within u t ∧ records t 1 ∧ t.slot n = x
    ∧ t.xl.leases = s.xl.leases ++ [{ slot := n, holder := h.src, first := first, last := last }]
    ∧ mapGet 0 t.xl.grantLimit n = last ∧ answers t 0x20 (be 4 n ++ be 8 first ++ be 8 last)))
  ∧ (∀ q range, Arrives s h 0x20 → s.asked h 0x10 q → beAt q.payload 8 4 = n → x.fleet = true → x.authority = h.src →
    exec (.leaseGrant h n range) s = .next { u with xl := { u.xl with
      requests := s.xl.requests.filter fun q => q.reqId ≠ h.reqId
      leases := s.xl.leases ++ [{ slot := n, holder := me, first := range.first, last := range.last }] } })
  ∧ (∀ (r : RoleFields) tenant, Arrives s h 0x11 → s.fresh h → r.slot = n →
    let elsewhere := 2097152 ≤ n ∨ (s.window (n / 1024)).owner ≠ tenant ∨ (s.window (n / 1024)).reassigning = true
    (elsewhere → ∃ t, exec (.roleOffer h r tenant) s = .next t ∧ within u t ∧ records t 0 ∧ t.slot n = x
      ∧ answers t 0x21 [2])
    ∧ (¬elsewhere → s.slotInFlight n = true → ∃ t, exec (.roleOffer h r tenant) s = .next t ∧ within u t ∧ records t 0
      ∧ t.slot n = x ∧ answers t 0x21 [0])
    ∧ (¬elsewhere → s.slotInFlight n = false → r.mirror = me → x.fleet = false ∨ x.home = h.src → ∃ t, exec (.roleOffer h r tenant) s = .next t ∧ within u t ∧ records t 1 ∧ answers t 0x21 [1] ∧ t.slot n = { x with
        home := h.src
        mirror := me
        roleEpoch := r.roleEpoch % 65536
        flags := setBit (setBit x.flags 0 true) 1 r.leased
        serial := r.serial
        handle := r.handle
        official := r.official
        landing := r.landing
        digest := slice r.digest 0 16
        state := 2 }))
  ∧ (∀ v, s.roleSlot = n → n < 2097152 → (s.window (n / 1024)).owner ≠ 0xFF → (s.window (n / 1024)).reassigning = false →
    x.fleet = false ∨ x.home = me → s.slotInFlight n = false → s.xl.offer = none → (x.leased && s.lentOut n) = false →
    Writable s v 0x7820 4 1 → s.roleLeased = false →
    (s.roleMirror = 0xFFFF → x.mirrored = false → ∃ t : State, Wrote (.roleApply v 1#8) s v stOk t ∧ within s t
      ∧ records t 1 ∧ t.slot n = { x with
        home := me
        mirror := 0xFFFF
        roleEpoch := (x.roleEpoch + 1) % 65536
        flags := setBit (setBit x.flags 0 false) 1 false })
    ∧ (s.roleMirror ≠ me → s.roleMirror ≠ 0xFFFF → s.reachable s.roleMirror = true →
      ∃ t, exec (.roleApply v 1#8) s = .next t ∧ within s t ∧ records t 0 ∧ t.slot n = x ∧ t.pd.deferred.isSome = true
      ∧ t.xl.offer = some { slot := n, mirror := s.roleMirror, leased := false, start := s.clock, reqId := s.xl.nextReq }))
  ∧ (∀ v o q, s.xl.offer = some o → o.slot = n → s.waitsAlone v 0x7820 4 →
    (∀ answer : RoleAnswer, Arrives s h 0x21 → s.asked h 0x11 q → q.reqId = o.reqId → ∃ t,
      exec (.roleAnswer h answer) s = .next t ∧ t.xl.offer = none ∧ t.pd.deferred = none ∧ within u t
      ∧ t.outbox.getLast? = some (.directory v
        (match answer with
          | .accepted => stOk
          | .refused => stSlotBusy
          | .badSlot => stBadSlot) [])
      ∧ (answer ≠ .accepted → t.slot n = x)
      ∧ (answer = .accepted → o.leased = false → o.mirror ≠ 0xFFFF → o.mirror ≠ me → me ≠ 0xFFFF → records t 1
        ∧ t.slot n = { x with
          home := me
          mirror := o.mirror
          roleEpoch := (x.roleEpoch + 1) % 65536
          flags := setBit (setBit x.flags 0 true) 1 false }))
    ∧ (o.start + 1000000 ≤ s.clock → exec .roleOfferTimeout s = .next (State.emit (.directory v stMirrorTimeout []) { s with
      xl := { s.xl with offer := none, requests := s.xl.requests.filter fun q => q.reqId ≠ o.reqId }
      pd := { s.pd with deferred := none, turn := originOf v } })))
  ∧ (∀ range l, Arrives s h 0x33 → x.authority = me → s.xl.leases.find? (fun l => l.slot = n && l.holder = h.src
      && l.first = range.first && l.last = range.last) = some l →
    ∃ t, exec (.leaseReturn h n range) s = .next t ∧ within u t ∧ records t 1
    ∧ t.xl.leases = s.xl.leases.filter fun m => m ≠ l)
  ∧ (∀ unit, Arrives s h 0x13 → s.fresh h →
    let denied := s.pwr.mode = .ceremony ∨ s.xl.ceremonyHolder ≠ 0xFFFF ∨ (s.xl.claim.isSome = true ∧ unitId < unit)
    ∃ t, exec (.ceremonyClaim h unit) s = .next t
    ∧ t = { u with xl := t.xl, pd := t.pd, latches := t.latches, outbox := t.outbox }
    ∧ (denied → t.xl.ceremonyHolder = s.xl.ceremonyHolder ∧ answers t 0x23 [0])
    ∧ (¬denied → t.xl.ceremonyHolder = h.src ∧ answers t 0x23 [1]))
  ∧ (Arrives s h 5 → s.xl.ceremonyHolder = h.src →
    exec (.ceremonyEnd h) s = .next { u with xl := { u.xl with ceremonyHolder := 0xFFFF } })
  ∧ (∀ v c q, s.xl.claim = some c → s.waitsAlone v 0x1100 2 →
    (Arrives s h 0x23 → s.asked h 0x13 q →
      (c.waiting = [h.src] → s.mayHoldCeremony = true → ∃ t, exec (.claimAnswer h true) s = .next t
        ∧ t.pwr.mode = .ceremony ∧ t.xl.claim = none ∧ t.xl.ceremonyHolder = me ∧ t.pd.deferred = none
        ∧ t.outbox.getLast? = some (.directory v stOk []))
      ∧ (∀ m ms, c.waiting.filter (· ≠ h.src) = m :: ms → exec (.claimAnswer h true) s = .next { u with xl := { u.xl with
        requests := s.xl.requests.filter fun q => q.reqId ≠ h.reqId, claim := some { c with waiting := m :: ms } } })
      ∧ ∃ t, exec (.claimAnswer h false) s = .next t ∧ t = { u with xl := t.xl, pd := t.pd, outbox := t.outbox }
        ∧ t.xl.claim = none ∧ t.pd.deferred = none ∧ t.outbox.getLast? = some (.directory v stModeRefused []))
    ∧ (c.start + 10000000 ≤ s.clock → ∃ t, exec .ceremonyClaimTimeout s = .next t
      ∧ t = { s with xl := t.xl, pd := t.pd, outbox := t.outbox } ∧ t.xl.claim = none ∧ t.pd.deferred = none
      ∧ t.outbox.getLast? = some (.directory v stModeRefused [])))

/-- Landings at the authority and the loss of members (R336, R337, R339, R340, R342, Table 14.7): a record is
acknowledged, forwarded or refused; a landing goes on with the answer, or lands VOID without it; the slot serves again
after a sync; a member that learns a higher role epoch gives the slot up; a lost home's mirror voids what the home may
not have landed and takes its place; a lost or released mirror leaves the home alone; roles are handed over. -/
def Obligations.FleetLandings : Prop := ∀ (s : State) (h : LinkHdr) (n : Nat), s.roomy → mapWf {} s.lg.slots = true →
  mapWf 0 s.xl.acked = true →
  let u := (s.frameIn h).1
  let x := s.slot n
  let me := s.memberId
  let within := fun a t : State => t = { a with
      xl := t.xl
      lg := { a.lg with
        journalCount := t.lg.journalCount
        continuity := t.lg.continuity
        anchor := t.lg.anchor
        reel := t.lg.reel
        reelWritten := t.lg.reelWritten
        slots := t.lg.slots
        resident := t.lg.resident
        nodes := t.lg.nodes
        tree := t.lg.tree
        dirty := t.lg.dirty
        dirtyNodes := t.lg.dirtyNodes
        suspended := t.lg.suspended }
      en := t.en
      pd := t.pd
      latches := t.latches
      outbox := t.outbox
      freeCtr := t.freeCtr }
    ∧ (∀ m, m ≠ n → t.slot m = s.slot m) ∧ t.xl.routes = s.xl.routes ∧ t.xl.ceremonyHolder = s.xl.ceremonyHolder
  let records := fun (t : State) (k : Nat) => t.lg.journalCount = s.lg.journalCount + k
  let body := fun serial => be 8 0 ++ be 4 n ++ be 2 x.roleEpoch ++ be 8 serial
  let gaveUp := fun (t : State) (epoch : Nat) => within u t ∧ records t 1
    ∧ t.slot n = { x with roleEpoch := epoch, state := 2 }
    ∧ t.xl.leases = s.xl.leases.filter fun l => !(l.slot = n && l.holder = me)
  (∀ m : MirrorFields, m.slot = n → Arrives s h 0x30 → ∀ p up,
    let next := nextLeased (mapGet 0 s.xl.acked (State.ackKey n h.src)) (s.xl.leases.filter fun l => l.slot = n && l.holder = h.src)
    let mine := x.fleet = true ∧ x.authority = me ∧ x.roleEpoch = m.roleEpoch ∧ (∀ t ∈ s.xl.takeover, t.slot ≠ n)
      ∧ next = some m.serial
    (mine → (x.leased && x.mirrored) = false → u.sends h.src 1 22 p up → ∃ t, exec (.mirrorRec h m) s = .next t ∧ within u t
      ∧ records t 0 ∧ mapGet 0 t.xl.acked (State.ackKey n h.src) = m.serial
      ∧ t.slot n = (if x.home = me then x else { x with serial := m.serial, digest := slice m.continuity 0 16 })
      ∧ t.outbox = u.outbox ++ [u.outFrame p 1 0x24 h.src me (!up) (body m.serial)])
    ∧ (mine → (x.leased && x.mirrored) = true → u.sends x.mirror 2 48 p up → ∃ t, exec (.mirrorRec h m) s = .next t
      ∧ within u t ∧ records t 0 ∧ t.slot n = x
      ∧ t.xl.forwarded = s.xl.forwarded ++ [{ slot := n, serial := m.serial, holder := h.src }]
      ∧ t.outbox = u.outbox ++ [u.outFrame p 2 0x30 x.mirror me (!up) (mirrorBytes m)])
    ∧ (x.roleEpoch ≠ m.roleEpoch → u.sends h.src 1 22 p up → ∃ t, exec (.mirrorRec h m) s = .next t ∧ within u t
      ∧ records t 0 ∧ t.slot n = x ∧ t.outbox = u.outbox ++ [u.outFrame p 1 0x25 h.src me (!up) (body m.serial)])
    ∧ (x.leased = true → x.mirrored = true → x.mirror = me → x.home = h.src → h.src ≠ me → x.roleEpoch = m.roleEpoch →
      u.sends h.src 1 22 p up → ∃ t, exec (.mirrorRec h m) s = .next t ∧ within u t ∧ records t 0
      ∧ mapGet 0 t.xl.acked (State.ackKey n (s.holderOf n m.serial h.src)) = m.serial
      ∧ t.slot n = { x with serial := m.serial, digest := slice m.continuity 0 16 }
      ∧ t.outbox = u.outbox ++ [u.outFrame p 1 0x24 h.src me (!up) (body m.serial)]))
  ∧ (∀ epoch serial k, s.waitingTake n serial = some k → x.authority = h.src → (∀ f ∈ s.xl.forwarded, f.slot ≠ n) →
    (Arrives s h 0x24 → s.lands = true → k.roleEpoch = epoch →
      exec (.mirrorAck h n epoch serial) s = .next (u.commitTake k))
    ∧ (Arrives s h 0x25 → epoch = x.roleEpoch →
      (k.failure = none → exec (.mirrorRefuse h n epoch serial) s = .next (u.onTake k.id fun t => { t with
        signature := [], failure := some stNotMirror, phase := .journalSign }))
      ∧ (k.failure ≠ none → s.lands = true →
        exec (.mirrorRefuse h n epoch serial) s = .next ((u.commitTake k).learnEpoch n epoch))))
  ∧ (∀ id k c, s.takeById id = some k → k.mirrorSent = some c → k.phase = .mirror → c + s.mirrorTimeout ≤ s.clock →
    k.failure = none → ∃ t, exec (.mirrorTimeoutExpiry id) s = .next t ∧ t = { s with
      lg := { s.lg with suspended := t.lg.suspended }
      pd := { s.pd with nums := t.pd.nums }
      td := { s.td with inflight := s.td.inflight.map fun t => if t.id = k.id then { t with
        signature := [], failure := some stMirrorTimeout, phase := .journalSign } else t } }
    ∧ t.num 0x7800 9 0 0 = s.num 0x7800 9 0 0 + 1 ∧ (∀ m, m ∈ t.lg.suspended ↔ m = k.slot ∨ m ∈ s.lg.suspended))
  ∧ (n ∈ s.lg.suspended → (∀ r ∈ s.xl.requests, r.type = 0x14 → beAt r.payload 8 4 ≠ n) → ∃ t,
    exec (.syncReqTick n) s = .next t ∧ within s t ∧ records t 0 ∧ t.slot n = x
    ∧ t.xl.requests = s.xl.requests ++ [{
      reqId := s.xl.nextReq, dest := x.authority, type := 0x14
      payload := be 8 s.xl.nextReq ++ roleBytes (s.roleOf n), sent := s.clock }])
  ∧ (∀ r : RoleFields, r.slot = n →
    (Arrives s h 0x14 → s.fresh h → x.fleet = true → x.authority = me → x.roleEpoch = r.roleEpoch →
      ∃ t, exec (.syncReq h r) s = .next t ∧ within u t ∧ records t 0 ∧ mapGet 0 t.xl.acked (State.ackKey n h.src) = r.serial
      ∧ t.xl.answered.length = s.xl.answered.length + 1
      ∧ t.slot n = if x.home = me then x else { x with serial := r.serial, handle := r.handle, official := r.official, landing := r.landing, digest := slice r.digest 0 16 })
    ∧ (Arrives s h 0x26 → x.fleet = true → x.roleEpoch = r.roleEpoch →
      (x.mirror ≠ me ∨ x.home ≠ h.src → x.authority = h.src → ∃ t, exec (.syncImage h r) s = .next t ∧ within u t
        ∧ records t 0 ∧ t.slot n = x ∧ t.lg.suspended = s.lg.suspended.filter (· ≠ n))
      ∧ (x.mirror = me → x.home = h.src → ∃ t, exec (.syncImage h r) s = .next t ∧ within u t ∧ records t 0
        ∧ t.slot n = x.takeImage r ∧ t.lg.suspended = s.lg.suspended)
      ∧ (x.leased = true → x.mirrored = true → x.home = me → x.mirror = h.src → h.src ≠ me → ∃ t,
        exec (.syncImage h r) s = .next t ∧ within u t ∧ records t 0 ∧ t.slot n = x
        ∧ t.lg.suspended = s.lg.suspended.filter (· ≠ n)))
    ∧ (Arrives s h 0x31 → x.fleet = true → x.mirrored = true → x.home = h.src → x.mirror = me →
      epochAhead r.roleEpoch x.roleEpoch = true → ∃ t, exec (.handover h r) s = .next t ∧ within u t ∧ records t 1
      ∧ t.slot n = { x with
        home := me
        mirror := 0xFFFF
        roleEpoch := r.roleEpoch % 65536
        flags := setBit (setBit x.flags 0 false) 1 r.leased
        serial := r.serial
        handle := r.handle
        official := r.official
        landing := r.landing
        digest := slice r.digest 0 16
        state := 1 }))
  ∧ (∀ epoch, x.fleet = true → epochAhead epoch x.roleEpoch = true → s.serves n = true →
    (Arrives s h 4 → ∃ t, exec (.roleNotice h n epoch) s = .next t ∧ gaveUp t epoch)
    ∧ (Arrives s h 0x25 → (∀ f ∈ s.xl.forwarded, f.slot ≠ n) → ∀ serial, s.waitingTake n serial = none →
      ∃ t, exec (.mirrorRefuse h n epoch serial) s = .next t ∧ gaveUp t epoch))
  ∧ (Arrives s h 0x32 → x.fleet = true → x.leased = false → x.home = me → x.mirrored = true → x.mirror = h.src →
    me ≠ 0xFFFF → ∃ t, exec (.release h [n]) s = .next t ∧ within u t ∧ records t 1 ∧ t.slot n = { x with
      mirror := 0xFFFF
      roleEpoch := (x.roleEpoch + 1) % 65536
      flags := setBit (setBit x.flags 0 false) 1 false })
  ∧ (∀ m, let a := s.applyNum 0x7800 6 0
    s.fleetEnable = true → m ∉ s.xl.lost → mapGet 0 s.xl.memberSeen m + a.memberLossLimit ≤ s.clock →
    (s.roleSlots = [] → s.xl.ceremonyHolder = m → m ≠ me → exec (.memberLoss m) s = .next { a with
      xl := { s.xl with lost := m :: s.xl.lost, ceremonyHolder := 0xFFFF } })
    ∧ (s.roleSlots = [n] → s.partners = [m] → s.xl.ceremonyHolder ≠ m → x.home = m → x.mirrored = true → x.mirror = me →
      (∀ t ∈ s.xl.takeover, t.slot ≠ n) → ∃ t, exec (.memberLoss m) s = .next t ∧ within a t ∧ records t 0
      ∧ t.slot n = { x with roleEpoch := (x.roleEpoch + 1) % 65536, state := 2 }
      ∧ t.xl.takeover = s.xl.takeover ++ [{ slot := n, member := m, state := x.state }]))
  ∧ (∀ k, s.xl.takeover.find? (fun t => t.slot = n) = some k → x.home = k.member →
    let serials := ((s.xl.leases.filter fun l => l.slot = n).map (·.holder)).eraseDups.flatMap fun g =>
      s.voidedSerials n g
    serials.length ≤ 100 → ∃ t, exec (.takeoverComplete n) s = .next t ∧ within s t ∧ records t (serials.length + 1)
    ∧ (t.slot n).home = me ∧ (t.slot n).mirror = 0xFFFF ∧ (t.slot n).mirrored = false ∧ (t.slot n).state = 1
    ∧ (t.slot n).serial = max x.serial (serials.foldl max 0) ∧ t.num 0x7800 8 0 0 = s.num 0x7800 8 0 0 + 1)

/-! ### Card host, tamper, life cycle (15 to 17) -/

/-- The card host (R350 to R363, Tables 15.2, 15.3, 15.6): insertion starts the steps, whose first failure ends them;
a trigger starts its operation or says why not; a read takes the newer valid copy; a write goes to the other copy and
is done when it reads back; a removal ends each by its phase; tuning; CH_CFG. -/
def Obligations.CardHost : Prop := ∀ s : State,
  let step := fun (o : CardOp) (n a : Nat) (b : Bytes) => ({ s with
    ch := { s.ch with op := some o }, outbox := s.outbox ++ [.card n a b] } : State)
  let ends := fun (t : State) (code : Status) => t.ch = { s.ch with op := none, opStatus := code.toNat }
    ∧ t = { s with ch := t.ch, latches := t.latches, pd := t.pd } ∧ (t.latched .chStat .maker).testBit 2 = true
  let tuned := { s.ch with lastTune := s.clock, tuneTemp := s.ch.temp, retune := none }
  let tuning := s.outbox ++ List.replicate 64 (.card 19 0 [])
  (∀ f, s.powered = true → s.pwr.mode ≠ .quarantine → s.pwr.mode ≠ .retired → s.ch.facts = none → s.lc.tapInstr ≠ 0 →
    s.lc.tapInstr ≠ 3 →
    (s.ch.enabled = false → exec (.cardInsertion f) s = .next s)
    ∧ (s.ch.enabled = true → ∃ t, exec (.cardInsertion f) s = .next t ∧ t = { s with
        ch := { s.ch with
          facts := some f, initStep := 1, present := false, mode := 0, v18 := false, tap := 0, powered := true, label := [] }
        latches := t.latches }
      ∧ (t.latched .chStat .maker).testBit 0 = true))
  ∧ (∀ f, s.ch.facts = some f →
    (s.ch.initStep = 9 → exec (.cardCommandComplete .ok) s = .next { s with
      ch := { s.ch with initStep := 0, present := true, label := slice f.label 0 512 } })
    ∧ (s.ch.initStep = 3 → f.ready = true → f.ccs = true → f.s18a = true → 3 ≤ s.ch.maxMode →
      exec (.cardCommandComplete .ok) s = .next { s with
        ch := { s.ch with initStep := 4 }, outbox := s.outbox ++ [.card 11 0 []] })
    ∧ (s.ch.initStep ≠ 0 → s.ch.initStep ≠ 4 → ∃ t, exec (.cardCommandComplete .error) s = .next t ∧ t = { s with
        ch := { s.ch with
          initStep := 0, mode := 0, v18 := false, tap := 0, powered := false, opStatus := stCardInitFailed.toNat }
        latches := t.latches }
      ∧ (t.latched .chStat .maker).testBit 4 = true)
    ∧ (s.ch.initStep = 4 → ∃ t, exec (.cardCommandComplete .error) s = .next t
      ∧ t = { s with ch := { s.ch with initStep := 5 }, outbox := t.outbox }))
  ∧ (∀ f o b, s.ch.facts = some f → s.ch.initStep = 0 → s.ch.op = some o → s.ch.retune = none →
    (o.kind = .read ∨ o.kind = .write → o.step = 0 → exec (.cardCommandComplete (.data b)) s =
      .next (step { o with step := 1, copyA := b } 18 (copyLba o.slot 1) []))
    ∧ (o.kind = .read → o.step = 1 → mapWf [] s.pd.octets = true → ∀ c,
      (copyOk o.slot s.cardId o.copyA = true ∧ c = o.copyA
          ∧ (copyOk o.slot s.cardId b = true → copyVersion b ≤ copyVersion o.copyA)
        ∨ copyOk o.slot s.cardId b = true ∧ c = b
          ∧ (copyOk o.slot s.cardId o.copyA = true → copyVersion o.copyA < copyVersion b)) →
      ∃ t, exec (.cardCommandComplete (.data b)) s = .next t ∧ ends t stOk ∧ t.cardPayload = slice c 64 (beAt c 12 4)
      ∧ t.num 0x8010 6 0 0 = copyVersion c ∧ t.recShareSet = beAt c 48 8 ∧ t.recShare = beAt c 56 3)
    ∧ (o.kind = .read → o.step = 1 → copyOk o.slot s.cardId o.copyA = false → copyOk o.slot s.cardId b = false →
      ∃ t, exec (.cardCommandComplete (.data b)) s = .next t ∧ ends t stCardRecordInvalid ∧ t.pd = s.pd)
    ∧ (o.kind = .write → o.step = 1 → ∃ t p, exec (.cardCommandComplete (.data b)) s = .next t
      ∧ t = { s with ch := { s.ch with op := some p }, pd := t.pd, outbox := s.outbox ++ [.card 23 9 []] }
      ∧ p = { o with step := 2, target := p.target, version := p.version, image := s.copyImage o.slot p.version }
      ∧ t.num 0x8010 7 0 0 = p.version
      ∧ (copyOk o.slot s.cardId o.copyA = true → copyVersion o.copyA < p.version
        ∧ (copyOk o.slot s.cardId b = false ∨ copyVersion b ≤ copyVersion o.copyA → p.target = 1))
      ∧ (copyOk o.slot s.cardId b = true → copyVersion b < p.version
        ∧ (copyOk o.slot s.cardId o.copyA = false ∨ copyVersion o.copyA < copyVersion b → p.target = 0)))
    ∧ (o.kind = .write → o.step = 3 → exec (.cardCommandComplete .ok) s =
      .next (step { o with step := 4 } 25 (copyLba o.slot o.target) o.image))
    ∧ (o.kind = .write → o.step = 7 → ∃ t, exec (.cardCommandComplete (.data b)) s = .next t
      ∧ ends t (if b = o.image then stOk else stInternalFault)
      ∧ (b = o.image → t.num 0x8010 6 0 0 = o.version) ∧ (b ≠ o.image → t.pd = s.pd))
    ∧ (o.kind = .format → o.step = 3 → b = o.image → ∃ t, exec (.cardCommandComplete (.data b)) s = .next t
      ∧ t = { s with
        ch := { s.ch with label := o.image, op := none, opStatus := 0 }
        latches := t.latches }
      ∧ (t.latched .chStat .maker).testBit 2 = true))
  ∧ (∀ f, s.ch.facts = some f → ∃ t, exec .cardRemoval s = .next t
    ∧ (s.ch.initStep ≠ 0 ∨ s.ch.op.isSome = true → exec .cardTimeout s = .next t)
    ∧ t = { s with
      ch := { s.ch with
        present := false, facts := none, initStep := 0, mode := 0, v18 := false, tap := 0, powered := false, label := []
        op := none, retune := none, opStatus := t.ch.opStatus }
      latches := t.latches }
    ∧ (t.latched .chStat .maker).testBit 1 = true
    ∧ (s.ch.op = none → t.ch.opStatus = s.ch.opStatus)
    ∧ (∀ o, s.ch.op = some o → t.ch.opStatus =
        (if o.kind = .write ∧ 4 ≤ o.step ∨ o.kind = .format ∧ 1 ≤ o.step then stWriteIndeterminate.toNat
          else stCardRemoved.toNat)
      ∧ (t.ch.opStatus = stWriteIndeterminate.toNat → (t.latched .chStat .maker).testBit 3 = true)))
  ∧ (∀ taps, let r := longestRun taps
    r.1 + r.2 ≤ 64 ∧ (∀ i < r.2, taps.testBit (r.1 + i) = true)
    ∧ (∀ first len, first + len ≤ 64 → (∀ i < len, taps.testBit (first + i) = true) → len ≤ r.2)
    ∧ middleTap taps = r.1 + (r.2 - 1) / 2)
  ∧ (∀ low high, let taps := low % 2 ^ 32 + high % 2 ^ 32 * 2 ^ 32
    let run := (longestRun taps).2
    s.tunes = true → s.ch.lastTune + 4000000000 ≤ s.clock →
    (s.ch.op.isSome = true → exec (.cardRetuneTimer low high) s = .next { s with
      ch := { s.ch with retune := some taps } })
    ∧ (s.ch.op = none → ∃ t, exec (.cardRetuneTimer low high) s = .next t
      ∧ (t.latched .chStat .maker).testBit 5 = true
      ∧ (8 ≤ run → t = { s with ch := { tuned with tap := middleTap taps }, latches := t.latches, outbox := tuning })
      ∧ (run < 8 → (t.latched .chStat .maker).testBit 6 = true
        ∧ (s.ch.mode = 5 → t = { s with
          ch := { tuned with mode := 6 }, latches := t.latches, outbox := tuning ++ [.card 6 6 []] })
        ∧ (s.ch.mode = 7 → t = { s with
          ch := { tuned with mode := 5, lastTune := 0 }, latches := t.latches, outbox := tuning ++ [.card 6 5 []] }))))
  ∧ (∀ x low high, let taps := low % 2 ^ 32 + high % 2 ^ 32 * 2 ^ 32
    s.powered = true →
    ((x - s.ch.tuneTemp).natAbs < 15 → exec (.cardTempPoll x low high) s = .next { s with ch := { s.ch with temp := x } })
    ∧ (15 ≤ (x - s.ch.tuneTemp).natAbs → s.tunes = true → s.ch.op = none → 8 ≤ (longestRun taps).2 → ∃ t,
      exec (.cardTempPoll x low high) s = .next t ∧ (t.latched .chStat .maker).testBit 5 = true
      ∧ t = { s with
        ch := { tuned with temp := x, tuneTemp := x, tap := middleTap taps }, latches := t.latches, outbox := tuning }))
  ∧ (∀ v, let r := s.recordSelect
    let first := fun kind => step { kind := kind, step := 0, slot := r } 18 (copyLba r 0) []
    (Writable s v 0x8010 2 0xCA4D →
      (s.ch.op = none → s.ch.present = true → s.cardLabelOk = true →
        Wrote (.cardRead v 0xCA4D#32) s v stOk (first .read))
      ∧ (s.ch.op.isSome = true → Wrote (.cardRead v 0xCA4D#32) s v stSlotBusy s)
      ∧ (s.ch.op = none → s.ch.present = false → Wrote (.cardRead v 0xCA4D#32) s v stCardRemoved s))
    ∧ (Writable s v 0x8010 3 0xCA57 → s.ch.op = none → s.ch.present = true → s.cardLabelOk = true →
      (s.shareOk = false → Wrote (.cardWrite v 0xCA57#32) s v stBadDescriptor s)
      ∧ (s.shareOk = true → s.cardProtected = false → Wrote (.cardWrite v 0xCA57#32) s v stOk (first .write))
      ∧ (s.shareOk = true → s.cardProtected = true → ∃ t, Wrote (.cardWrite v 0xCA57#32) s v stOk t
        ∧ ends t stCardWriteProtected ∧ t.pd = s.pd))
    ∧ (Writable s v 0x8010 4 0xCAF0 → s.ch.op = none → s.ch.present = true → s.cardProtected = false →
      s.coreEntropyBlock = none → ∃ t id, Wrote (.cardFormat v 0xCAF0#32) s v stOk t ∧ t = { s with
        ch := { s.ch with op := some { kind := .format, step := 0, slot := 0, image := s.newLabel id } }
        en := t.en
        pd := t.pd
        freeCtr := t.freeCtr
        outbox := s.outbox ++ [.card 24 0 []] }))
  ∧ (∀ x : BitVec 32, Reaches s (.bar2 0xC0008) .chCfg →
    (s.ch.enabled = false → bitOf s.hg.blockLock 12 = false → bitsOf x.toNat 6 4 ≠ 0 → ∃ t,
      exec (.chCfgWrite x) s = .next t ∧ t = { s with ch := { s.ch with cfg := x &&& 0x80000073#32 }, hg := t.hg })
    ∧ (s.ch.enabled = true → x.getLsbD 31 = true → ∃ t, exec (.chCfgWrite x) s = .next t
      ∧ t = { s with latches := t.latches })
    ∧ (s.ch.enabled = true → x.getLsbD 31 = false → ∃ t, exec (.chCfgWrite x) s = .next t
      ∧ t = { s with ch := t.ch, latches := t.latches } ∧ t.ch.cfg = s.ch.cfg &&& 0x7FFFFFFF#32
      ∧ t.ch.op = none ∧ t.ch.present = false ∧ t.ch.powered = false))

/-- The Guard and the Evidence Log (R367, R370, R374 to R391): an ERASE alarm erases what Table 16.5 lists and enters
Quarantine; a HOLD alarm holds sealing; the window's record; warnings; alarms after an erase and on battery; gangways;
records become durable, are archived and signed for; the fuses; re-provisioning. A record is chained to the head
(R386). -/
def Obligations.Tamper : Prop := ∀ s : State, s.unarchived + 1 < 16320 → s.tg.queue.length < 8 →
  let logged := fun (t : State) (kind code time : Nat) (data : Bytes) =>
    let body := s.evidenceBody kind code time data
    let h := Config.sha256 (0x56 :: s.evidenceHead ++ body)
    t.tg.nextSeq = s.tg.nextSeq + 1 ∧ t.tg.head = h ∧ t.tg.queue = s.tg.queue ++ [(s.tg.nextSeq, body ++ h.take 8)]
  let seen := fun (t : State) k => (t.latched .tgAlarm .maker).testBit k = true
    ∧ (t.latched .alarmsSeen .regulator).testBit k = true
  let opens := fun (m : MonitorReading) k erase => ({
    sources := 2 ^ k, first := m.monitor, count := 1, perSource := [(k, 1)], erase := erase, time := s.stamp, start := s.clock
    } : AlarmWindow)
  let quiet := fun (t : State) => t = { s with tg := t.tg, latches := t.latches }
  (∀ m k, s.powered = true → s.monitorArmed m.monitor = true → sourceOf m.monitor = some k → s.tg.window = none →
    (s.outputs m = true → s.isErase k = true → s.tg.erased = false → s.pwr.mode ≠ .retired → s.lc.state ≠ 5 → ∃ t, exec (.eraseAlarm m) s = .next t
      ∧ t.pwr.mode = .quarantine ∧ .eraseAlarm ∈ t.pwr.causes ∧ t.tg.erased = true ∧ t.tg.rootKey = none
      ∧ t.tg.gangwaysKeyed = [] ∧ t.tg.window = some (opens m k true) ∧ seen t k ∧ t.krf.journal = none
      ∧ (∀ e ∈ t.krf.handles, ∀ x, e.2 = some x → x.privatePart = [] ∧ x.state ≠ .unwrapped)
      ∧ t.sp.session = none ∧ t.el.keyed = false ∧ t.en.firstSeed = false ∧ t.en.reserve = [] ∧ t.sz.cores = []
      ∧ (∀ e ∈ t.sz.regions, e.2.mem = []) ∧ (∀ e ∈ t.li.engines, e.2.running = none)
      ∧ (∀ e ∈ t.lh.units, e.2.running = none) ∧ t.td.inflight = [] ∧ t.lg.slots = [] ∧ t.lg.rootCtr = [] ∧ t.lg.keys = []
      ∧ (∀ p, (t.port p).state = .down) ∧ t.ch.powered = false ∧ t.tg.log = s.tg.log ∧ t.tb.deviceTime = s.tb.deviceTime
      ∧ t.pwr.bootCount = s.pwr.bootCount)
    ∧ (s.outputs m = true → s.isErase k = false → s.tg.erased = false → ∃ t, exec (.holdAlarm m) s = .next t
      ∧ t.tg.window = some (opens m k false) ∧ k ∈ t.tg.holdActive ∧ seen t k
      ∧ t.tg.rootKey = s.tg.rootKey ∧ t.krf.handles = s.krf.handles
      ∧ (s.pwr.mode = .service ∨ s.pwr.mode = .draw → s.stands .holdAlarm = false → t.pwr.mode = .held ∧ .holdAlarm ∈ t.pwr.causes)
      ∧ (s.pwr.mode = .wake ∨ s.pwr.mode = .selfTest ∨ s.pwr.mode = .standby ∨ s.pwr.mode = .held → .holdAlarm ∈ t.pwr.causes
        ∧ t = { s with tg := t.tg, latches := t.latches, pwr := { s.pwr with causes := t.pwr.causes } })
      ∧ (s.pwr.mode = .quarantine ∨ s.pwr.mode = .retired → quiet t))
    ∧ (s.outputs m = true → s.isErase k = false → s.tg.erased = true → s.pwr.mode = .quarantine → ∃ t, exec (.postEraseAlarm m) s = .next t
      ∧ quiet t ∧ seen t k ∧ t.tg.nextSeq = s.tg.nextSeq ∧ t.tg.window = none
      ∧ t.tg.postSources = s.tg.postSources ||| 2 ^ k ∧ t.tg.postCount = min (s.tg.postCount + 1) 0xFFFFFFFF)
    ∧ (warns m = true → s.tg.erased = false → ∃ t, exec (.monitorWarning m) s = .next t ∧ quiet t
      ∧ (t.latched .tgWarn .maker).testBit k = true ∧ (t.latched .warningsSeen .regulator).testBit k = true
      ∧ (rateDue s.tg.warnLast k s.clock = true →
        logged t 2 0 s.stamp (alarmData (2 ^ k) m.monitor (1 + mapGet 0 s.tg.warnBack k))
        ∧ mapGet none t.tg.warnLast k = some s.clock)
      ∧ (rateDue s.tg.warnLast k s.clock = false → t.tg.nextSeq = s.tg.nextSeq
        ∧ mapGet 0 t.tg.warnBack k = mapGet 0 s.tg.warnBack k + 1)))
  ∧ (∀ w, s.powered = true → s.tg.window = some w → w.start + 1000 ≤ s.clock → ∃ t, exec .coalescingWindowClose s = .next t
    ∧ t.tg.window = none
    ∧ (w.erase = true → logged t 1 1 w.time (alarmData w.sources w.first w.count)
      ∧ t = { s with tg := t.tg, el := { s.el with transmit := t.el.transmit }, outbox := t.outbox }
      ∧ (s.pwr.mode ≠ .retired → t.el.transmit = false))
    ∧ (w.erase = false → quiet t ∧
      let ks := (List.range 14).filter fun k => bitOf w.sources k
      let due := ks.any fun k => rateDue s.tg.holdLast k s.clock
      (due = true → logged t 1 2 w.time (alarmData w.sources w.first (w.count + (ks.map fun k => mapGet 0 s.tg.holdBack k).sum))
        ∧ ∀ k ∈ ks, mapGet none t.tg.holdLast k = some s.clock)
      ∧ (due = false → t.tg.nextSeq = s.tg.nextSeq)))
  ∧ (∀ k, (mapGet 0 s.tg.outside k + 10000000 ≤ s.clock → exec (.holdSourceInRange k) s = .next { s with tg := { s.tg with
      holdActive := s.tg.holdActive.filter (· ≠ k) } })
    ∧ (s.clock < mapGet 0 s.tg.outside k + 10000000 → exec (.holdSourceInRange k) s = .next s))
  ∧ (∀ m k, s.pwr.mode = .vault → s.outputs m = true → s.monitorArmed m.monitor = true → sourceOf m.monitor = some k → s.tg.erased = false →
    ∃ t, exec (.vaultModeAlarm [m]) s = .next t ∧ t = { s with tg := { s.tg with
        rootKey := none, erased := true, nextSeq := t.tg.nextSeq, queue := t.tg.queue, head := t.tg.head } }
    ∧ t.tg.nextSeq = s.tg.nextSeq + 1)
  ∧ (s.pwr.mode ≠ .dark → s.fusedOff 0 = false → exec (.shieldCompare []) s = .next { s with tg := { s.tg with
      shieldPattern := s.tg.shieldPattern + 1 } })
  ∧ (∀ g < 13, s.powered = true →
    (6 ≤ s.pwr.wakeStep → g ∉ s.tg.gangwaysStopped → g ∉ s.tg.gangwaysKeyed → exec (.gangwayRekeyed g) s = .next { s with
      tg := { s.tg with gangwaysKeyed := s.tg.gangwaysKeyed ++ [g] } })
    ∧ (g ∈ s.tg.gangwaysKeyed → s.fusedOff 3 = false →
      exec (.gangwayAuthenticationFailure g) s = exec (.eraseAlarm ⟨0xB000 + g, .check⟩) s)
    ∧ (g ∈ s.tg.gangwaysKeyed → s.fusedOff 3 = true → s.stands .integrityStop = false → ∃ t,
      exec (.gangwayAuthenticationFailure g) s = .next t
      ∧ g ∉ t.tg.gangwaysKeyed ∧ g ∈ t.tg.gangwaysStopped ∧ .integrityStop ∈ t.pwr.causes
      ∧ t.pwr.mode = (if s.pwr.mode = .service ∨ s.pwr.mode = .draw then .held else s.pwr.mode)
      ∧ t.tg.rootKey = s.tg.rootKey ∧ t.krf = s.krf))
  ∧ (∀ seq b q, s.tg.queue = (seq, b) :: q → s.pwr.mode ≠ .dark → mapWf [] s.tg.log = true → ∃ t,
    exec .evidenceWriteDone s = .next t ∧ t = { s with tg := { s.tg with queue := q, log := t.tg.log } }
    ∧ mapGet [] t.tg.log (seq % 16384) = b ∧ ∀ n, n ≠ seq % 16384 → mapGet [] t.tg.log n = mapGet [] s.tg.log n)
  ∧ (∀ v, (∀ x : BitVec 32, Writable s v 0x9100 2 x.toNat →
      (s.tg.mark ≤ x.toNat → x.toNat ≤ s.tg.nextSeq → s.tg.suppressed = 0 →
        Wrote (.evidenceArchiveMarkWrite v x) s v stOk { s with tg := { s.tg with mark := x.toNat } })
      ∧ (s.tg.mark ≤ x.toNat → x.toNat ≤ s.tg.nextSeq → s.tg.suppressed ≠ 0 → s.tg.nextSeq - x.toNat ≤ 15360 →
        ∃ t, Wrote (.evidenceArchiveMarkWrite v x) s v stOk t ∧ quiet t ∧ t.tg.mark = x.toNat ∧ t.tg.suppressed = 0
        ∧ logged t 4 9 s.stamp (be 4 s.tg.suppressed ++ be 4 0))
      ∧ (x.toNat < s.tg.mark ∨ s.tg.nextSeq < x.toNat → Wrote (.evidenceArchiveMarkWrite v x) s v stModeRefused s))
    ∧ (Readable s v 0x9100 6 → exec (.evidenceHeadSignatureRead v) s = .next ((s.served v).emit (.directory v stOk
        (deviceSign 0 (0x48 :: be 8 unitId ++ be 4 s.tg.nextSeq ++ s.evidenceHead)))))
    ∧ (∀ x : BitVec 32, let n := x.toNat
      Writable s v 0x9000 1 n →
      (n &&& s.tg.eraseFused = s.tg.eraseFused → n &&& 0xFE0 = n → n ≠ s.tg.eraseFused → ∃ t,
        Wrote (.tamperEraseFusedWrite v ⟨x, true⟩) s v stOk t ∧ quiet t ∧ t.tg.eraseFused = n
        ∧ logged t 4 8 s.stamp (be 4 n ++ be 4 0) ∧ Wrote (.tamperEraseFusedWrite v ⟨x, false⟩) s v stInternalFault s)
      ∧ (n &&& s.tg.eraseFused ≠ s.tg.eraseFused ∨ n &&& 0xFE0 ≠ n → ∀ burnt,
        Wrote (.tamperEraseFusedWrite v ⟨x, burnt⟩) s v stModeRefused s))
    ∧ (Writable s v 0x9200 1 0x9A1E → s.pwr.mode = .ceremony → s.tg.erased = true ∨ s.stands .vaultLost = true →
      (s.tg.reprovisioning = true → Wrote (.reprovision v 0x9A1E#32) s v stSlotBusy s)
      ∧ (s.tg.reprovisioning = false →
        let ends := fun code => Wrote (.reprovision v 0x9A1E#32) s v stOk { s with tg := { s.tg with
          reprovisionStatus := code } }
        (15360 < s.unarchived → ends 0x10)
        ∧ (s.unarchived ≤ 15360 → s.tb.dtValid = false → ends 0x11)
        ∧ (s.unarchived ≤ 15360 → s.tb.dtValid = true → s.en.firstSeed = false → ends 0x12)
        ∧ (s.unarchived ≤ 15360 → s.tb.dtValid = true → s.en.firstSeed = true →
          Wrote (.reprovision v 0x9A1E#32) s v stOk { s with tg := { s.tg with reprovisioning := true } }))))
  ∧ (∀ x : BitVec 32, let n := x.toNat
    Writable s .maker 0x9000 2 n →
    (s.lc.maint = true → s.lc.state = 1 ∨ s.lc.state = 2 → bitOf s.lc.rights 5 = true → n ≤ 255 → ∃ t,
      Wrote (.tamperGroupDisableWrite .maker ⟨x, false⟩) s .maker stInternalFault s
      ∧ Wrote (.tamperGroupDisableWrite .maker ⟨x, true⟩) s .maker stOk t ∧ quiet t ∧ t.tg.groupsBurnt = s.tg.groupsBurnt ||| n
      ∧ t.tg.groupsFused = s.tg.groupsFused ∧ logged t 4 7 s.stamp (be 4 (s.tg.groupsBurnt ||| n) ++ be 4 0))
    ∧ (s.lc.state ≠ 1 → s.lc.state ≠ 2 → ∀ burnt,
      Wrote (.tamperGroupDisableWrite .maker ⟨x, burnt⟩) s .maker stAccessDenied s))
  ∧ (s.tg.reprovisioning = true → s.pwr.mode = .ceremony → s.unarchived ≤ 15360 → ∃ t r,
    exec .reprovisionComplete s = .next t ∧ t = { s with
      tg := t.tg, krf := { s.krf with handles := [] }, pwr := { s.pwr with causes := t.pwr.causes }, en := t.en, pd := t.pd,
      freeCtr := t.freeCtr }
    ∧ t.tg.erased = false ∧ r.length = 32
    ∧ t.tg.rootKey = some (List.zipWith (· ^^^ ·) (Config.sha512 (s.freeBytes 144)) r) ∧ t.tg.reprovisionStatus = 1
    ∧ t.tg.reprovisioning = false ∧ t.tg.reprovisioned = true ∧ t.tg.postCount = 0
    ∧ ∀ c, c ∈ t.pwr.causes → c ∈ s.pwr.causes ∧ c ≠ .eraseAlarm ∧ c ≠ .vaultLost)

/-- Life cycle, rights and debug (R395 to R410): each transition of Table 17.2 and no other; the burn; certificates
and the challenge with its response, checked in order; the TAP instructions, which act as BYPASS and set DENIED where
they are not available. -/
def Obligations.LifeCycle : Prop := ∀ s : State, s.unarchived + 2 < 16320 →
  let denied := fun (t : State) => t = { s with lc := { s.lc with tapInstr := 0xFF }, latches := t.latches }
    ∧ (t.latched .lcStat .maker).testBit 1 = true
  let kept := fun (a t : State) => (a.lc.state = 3 → t.krf = { a.krf with journal := none })
    ∧ (a.derives = true → a.lc.state ≠ 3 → t.krf = a.krf)
  let checked := fun (a : State) (c : Bytes) (t : State) =>
    (∀ code, a.certFailure c = some code → t = { a with
        lc := { a.lc with certStatus := code, certBuffer := [] }, tg := t.tg, latches := t.latches }
      ∧ (t.latched .lcStat .maker).testBit 3 = true)
    ∧ (a.certFailure c = none → a.el.state ≠ .running → t = { a with
        lc := { a.lc with
          maint := true
          rights := ofBits (rightStates.mapIdx fun k r => bitOf (beAt c 4 4) k && bitOf r (a.lc.state - 1))
          certStatus := 1
          certSerial := beAt c 8 8
          certBuffer := [] }
        krf := t.krf
        tg := t.tg
        latches := t.latches }
      ∧ kept a t ∧ (t.latched .lcStat .maker).testBit 2 = true)
  (s.lc.burning = none → ∀ v (x : BitVec 8), Writable s v 0x9800 2 x.toNat →
    let l := s.lc.state
    let burns := fun who => Wrote (.lcRequest v x) s v stOk { s with lc := { s.lc with burning := some (x.toNat, who) } }
    (v = .maker → s.pwr.mode = .standby → s.lc.maint = true →
      (x = 2#8 → l = 1 → bitOf s.lc.rights 3 = true → burns 1)
      ∧ (x = 5#8 → l = 1 ∨ l = 2 ∨ l = 4 → s.el.state = .idle → s.fleetEnable = false → bitOf s.lc.rights 4 = true → burns 1)
      ∧ (x = 2#8 → l = 1 → bitOf s.lc.rights 3 = false → Wrote (.lcRequest v x) s v stAccessDenied s))
    ∧ (v = .tenant 0 → x = 3#8 → l = 2 → s.pwr.mode = .standby → s.lc.maint = false → burns 2)
    ∧ (v = .regulator → l = 3 → s.pwr.mode = .ceremony → x = 4#8 ∨ x = 5#8 ∧ s.el.state = .idle ∧ s.fleetEnable = false →
      Wrote (.lcRequest v x) s v stOk { s with lc := { s.lc with staged := some (x.toNat, 3) } })
    ∧ (x.toNat ≤ l → Wrote (.lcRequest v x) s v stModeRefused s))
  ∧ (∀ v (x : BitVec 8), Writable s v 0x9800 2 x.toNat → s.lc.burning ≠ none →
    Wrote (.lcRequest v x) s v stModeRefused s)
  ∧ (∀ x : BitVec 32, Reaches s (.bar2 0xE0008) .lcXfer →
    (x.toNat / 65536 = 0x5C4A → x.toNat % 16 = 5 → s.pwr.mode = .quarantine → s.lc.burning = none → s.lc.state ≠ 5 →
      exec (.lcXfer x) s = .next { s with lc := { s.lc with burning := some (5, 2) } })
    ∧ (x.toNat / 65536 ≠ 0x5C4A ∨ x.toNat % 16 ≠ 5 ∨ s.pwr.mode ≠ .quarantine → ∃ t, exec (.lcXfer x) s = .next t
      ∧ t = { s with latches := t.latches } ∧ (t.latched .lcStat .maker).testBit 1 = true))
  ∧ (∀ dest who, s.lc.burning = some (dest, who) → 2 ≤ dest → dest ≤ 5 → ∃ t, exec .lcBurnComplete s = .next t
    ∧ t.lc = { s.lc with
      fuses := t.lc.fuses, state := dest, burning := none, maint := false, rights := 0 }
    ∧ (∀ i : Fin 4, t.lc.fuses[i] = if i.val + 2 = dest then 3 else s.lc.fuses[i])
    ∧ (t.latched .lcStat .maker).testBit 0 = true
    ∧ (dest ≠ 5 ∨ s.pwr.mode ≠ .standby ∧ s.pwr.mode ≠ .quarantine →
      t = { s with lc := t.lc, tg := t.tg, latches := t.latches })
    ∧ (dest = 5 → s.pwr.mode = .standby ∨ s.pwr.mode = .quarantine → t.pwr.mode = .retired ∧ t.el.transmit = false ∧ ∀ p, (t.port p).state = .down))
  ∧ (s.certDue = true → ∃ t, exec .certCheck s = .next t ∧ checked s s.lc.certBuffer t)
  ∧ (∀ (x : BitVec 32) env, let u := s.applyEnv env
    Reaches u (.bar2 0xE0018) .lcCertCtrl → x.getLsbD 31 = true →
    (s.pwr.mode = .standby → s.pwr.causes ≠ [] →
      (u.dmaOk 0 s.lc.certAddr 4851 = true → ∃ t, exec (.lcCertGo x env) s = .next t
        ∧ checked { u with lc := { s.lc with certBuffer := u.dmaBytes s.lc.certAddr 4851 } }
          (u.dmaBytes s.lc.certAddr 4851) t)
      ∧ (u.dmaOk 0 s.lc.certAddr 4851 = false → ∃ t, exec (.lcCertGo x env) s = .next t ∧ t = { u with
          lc := { s.lc with certStatus := 0x15, certBuffer := [] }, tg := t.tg, latches := t.latches }
        ∧ (t.latched .lcStat .maker).testBit 3 = true))
    ∧ (s.pwr.mode ≠ .standby ∨ s.pwr.causes = [] → ∃ t, exec (.lcCertGo x env) s = .next t
      ∧ t = { u with latches := t.latches } ∧ (t.latched .lcStat .maker).testBit 1 = true))
  ∧ (∀ v, Writable s v 0x9810 2 0xD3B6 → s.lc.state = 3 → s.pwr.mode = .standby → s.coreEntropyBlock = none → ∃ t nonce k,
    let b := [0x4A, 0x01, 0x03, 0x00] ++ be 4 s.rightsRequested ++ be 8 unitId ++ be 4 s.pwr.bootCount
      ++ be 4 s.tg.nextSeq ++ be 8 s.tb.deviceTime ++ nonce
    Wrote (.debugChallengeIssue v 0xD3B6#32) s v stOk t
    ∧ t = { s with lc := t.lc, en := t.en, pd := t.pd, freeCtr := t.freeCtr }
    ∧ nonce.length = 32 ∧ t.lc = { s.lc with debugStatus := 1, challenge := b ++ deviceSign k b })
  ∧ (∀ v env, let u := s.applyEnv env
    let r := u.dmaBytes (s.num 0x9810 4 0 0) 4787
    Writable u v 0x9810 5 0xD3C7 →
    (u.dmaOk 0 (s.num 0x9810 4 0 0) 4787 = false → ∃ t : State, Wrote (.debugResponseSubmit v 0xD3C7#32 env) s v stOk t
      ∧ t = { u with lc := { s.lc with debugStatus := 0x17, challenge := [] }, tg := t.tg, latches := t.latches })
    ∧ (u.dmaOk 0 (s.num 0x9810 4 0 0) 4787 = true →
    (∀ code, u.responseFailure r = some code → ∃ t : State, Wrote (.debugResponseSubmit v 0xD3C7#32 env) s v stOk t
      ∧ t = { u with lc := { s.lc with debugStatus := code, challenge := [] }, tg := t.tg })
    ∧ (s.lc.maint = false → s.el.state ≠ .running → ∃ t : State,
      Wrote (.debugResponseSubmit v 0xD3C7#32 env) s v stOk t ∧ (u.responseFailure r = none → kept u t ∧ t = { u with
        tg := t.tg
        krf := t.krf
        lc := { s.lc with
          challenge := []
          debugStatus := 2
          maint := true
          rights := ofBits (rightStates.mapIdx fun k a => bitOf (beAt r 4 4) k && bitOf a (s.lc.state - 1)) } }))))
  ∧ (s.powered = true →
    let loads := fun i => ({ s with lc := { s.lc with tapInstr := i } } : State)
    exec .tapReset s = .next (loads 2)
    ∧ exec .idcode s = .next ((loads 2).emit (.jtag 32 jtagIdcode))
    ∧ exec .bypass s = .next ((loads 0xFF).emit (.jtag 1 0))
    ∧ exec .lcStatus s = .next ((loads 0x10).emit (.jtag 32 (s.lcStat .maker)))
    ∧ (∀ pins pre, exec (.samplePreload pins pre) s = .next (State.emit (.jtag pins.length (ofBits pins)) { s with
        lc := { s.lc with tapInstr := 1, preload := pre } }))
    ∧ (∀ c, s.pwr.mode ≠ .retired → exec (.lcAuth c) s = .next { s with
        lc := { s.lc with tapInstr := 0x11, certBuffer := slice c 0 4851 } })
    ∧ (∀ c, s.pwr.mode = .retired → ∃ t, exec (.lcAuth c) s = .next t ∧ denied t)
    ∧ (∀ d, s.boundaryFree = false → ∃ t, denied t ∧ exec (.extest d) s = .next t ∧ exec .clamp s = .next t)
    ∧ (∀ d, s.boundaryFree = true → s.ch.facts = none →
      exec (.extest d) s = .next { s with lc := { s.lc with tapInstr := 0, boundary := d } }
      ∧ exec .clamp s = .next { s with lc := { s.lc with tapInstr := 3, boundary := s.lc.preload } })
    ∧ (∀ core op (x : BitVec 97), s.lc.maint = false ∨ bitOf s.lc.rights 0 = false →
      ∃ t, denied t ∧ exec (.dbgCore core op) s = .next t ∧ exec (.dbgReg x) s = .next t)
    ∧ (s.lc.maint = true → bitOf s.lc.rights 0 = true →
      let at' := loads 0x22
      let ok := fun v => Out.jtag 73 v
      (∀ n < 192, at'.drawHolds n = false → let c := at'.seen n
        (c.run = .running → mapWf {} s.sz.cores = true → ∃ t, exec (.dbgCore n .halt) s = .next t
          ∧ t = { at' with sz := { s.sz with cores := t.sz.cores }, outbox := s.outbox ++ [ok 0] }
          ∧ (t.core n).run = .debug ∧ (t.core n).resumeTo = .running ∧ ∀ m, m ≠ n → t.core m = s.core m)
        ∧ (c.run = .debug → ∃ t, exec (.dbgCore n .resume) s = .next t
          ∧ t = { at' with sz := { s.sz with cores := t.sz.cores }, outbox := s.outbox ++ [ok 0] })
        ∧ (c.run = .debug → c.resumeTo = .running → mapWf {} s.sz.cores = true → ∃ t,
          exec (.dbgCore n .step) s = .next t ∧ (t.core n).run = .stepping)
        ∧ (∀ i, exec (.dbgCore n (.readW i)) s = .next (at'.emit (ok c.w[i].toNat)))
        ∧ (∀ i, exec (.dbgCore n (.readP i)) s = .next (at'.emit (ok c.p[i].toNat)))
        ∧ (∀ i, exec (.dbgCore n (.readAcc i)) s = .next (at'.emit (ok c.acc[i].toNat))))
      ∧ (∀ n op, at'.drawHolds n = true → exec (.dbgCore n op) s = .next (at'.emit (ok (2 ^ 72))))
      ∧ (∀ (x : BitVec 97) r, let u := loads 0x20
        let off := bitsOf x.toNat 95 64
        x.getLsbD 96 = false → off % 4 = 0 → off < 0x100000 → u.openWord (.bar2 off) 0 = some (r, false) →
        r ∈ [.modeStat, .blockLock, .parAddr] → u.mayAccess .maker (.bar2 off) = true →
        u.regField .maker 0 r false < 2 ^ 32 →
        exec (.dbgReg x) s = .next (u.emit (.jtag 97 (off * 2 ^ 64 + u.regField .maker 0 r false)))))
    ∧ (∀ b, s.lc.maint = false ∨ bitOf s.lc.rights 1 = false → ∃ t, exec (.dbgDir b) s = .next t ∧ denied t)
    ∧ (∀ b, s.lc.maint = true → bitOf s.lc.rights 1 = true → s.dirFree →
      let r := parseRequest .maker .jtag 4096 (b.take 4096)
      let y := ((loads 0x21).served .maker).runEntries {} r.entries r
      y.2.2 = false → y.1.sp.closing = false → exec (.dbgDir b) s = .next (y.1.emit (.jtagBytes y.2.1.response)))
    ∧ (s.lc.maint = false ∨ bitOf s.lc.rights 7 = false ∨ s.pwr.mode = .retired → ∃ t, exec .dbgScan s = .next t ∧ denied t)
    ∧ (s.lc.maint = true → bitOf s.lc.rights 7 = true → s.pwr.mode ≠ .retired → ∃ t, exec .dbgScan s = .next t
      ∧ t.pwr.mode = .wake ∧ .debugScan ∈ t.pwr.causes ∧ t.tg.rootKey = s.tg.rootKey ∧ t.krf.journal = none
      ∧ (∀ e ∈ t.krf.handles, ∀ x, e.2 = some x → x.privatePart = []) ∧ t.sz.cores = [] ∧ t.td.inflight = []
      ∧ t.lg.slots = [] ∧ t.sp.session = none ∧ t.el.keyed = false ∧ t.en.firstSeed = false ∧ t.tg.gangwaysKeyed = []))

/-! ### One rule each -/

/-- R294: a read of no bytes is answered with one DW of zero and has no side effect; a write of none has no effect.
What the host's memory turns into meanwhile (`env`) is the host's. -/
def Obligations.ZeroLength : Prop := ∀ (s : State) (v : Viewer) (loc : Loc) (x : BitVec 64) (env : HostEnv),
  (match loc with
    | .config t _ => s.configOpen v t
    | _ => s.mayAccess v loc) = true →
  exec (.rcRead v loc 0) s = .next (s.emit (.readData v loc 0))
  ∧ (env.poisoned = false → exec (.registerWrite v loc 0 x env) s = .next (s.applyEnv env))

/-- R33: DrainLimit takes 2,100 to 10,000; any other value is refused with MODE_REFUSED and leaves the object as it
is; a new value is in force from the next Drain. -/
def Obligations.DrainLimit : Prop := ∀ (s : State) (v : Viewer) (env : HostEnv) (n : Nat), n < 2 ^ 32 →
  let u := s.applyEnv env
  u.viewerActive v = true → s.dirFree → (∀ o, findObj 0x1100 9 = some o → u.entryDenied v o 0x1100 9 2 n = false) →
  let i := Instr.write v 0xFF#8 0x1100#16 9#8 false 0#32 (putNum v 4 n) env
  (n < 2100 ∨ 10000 < n → exec i s = .next ((u.served v).emit (.directory v stModeRefused [])))
  ∧ (2100 ≤ n → n ≤ 10000 → ∃ t : State, exec i s = .next ((t.served v).emit (.directory v stOk []))
    ∧ t = { u with pd := { s.pd with staged := t.pd.staged } } ∧ t.numWritten 0x1100 9 0 3000 = n
    ∧ t.num 0x1100 9 0 3000 = s.num 0x1100 9 0 3000)
  ∧ (s.numWritten 0x1100 9 0 3000 = n → s.inTransition = false →
    s.pwr.mode = .service ∨ s.pwr.mode = .draw ∨ s.pwr.mode = .held → Writable s v 0x1100 2 4 →
    ∃ t, exec (.modeRequestStandby v) s = .next t ∧ t.pwr.mode = .drain ∧ t.num 0x1100 9 0 3000 = n)

/-! ### The block -/

/-- A step runs the command at the front of the queue, on the state with the queue's rest; on an empty queue it idles
(the model's choice, log entry 8). -/
def Obligations.StepRunsFrontCommand : Prop :=
  (∀ (c : Instr) (rest : List Instr) (s : State), step { s with pending := c :: rest } = exec c { s with pending := rest })
  ∧ ∀ s : State, s.pending = [] → step s = .next s

/-- Reset: the invariant holds, and what the spec gives stands at its value: Wake (Table 2.1), no reel (R307), no
link, no session, no fuse burnt, an empty Evidence Log whose head starts from the UnitId (R386), and locks and shadows
of zero. -/
def Obligations.ResetMeetsInvariant : Prop := Inv State.reset
  ∧ State.reset.pwr.mode = .wake ∧ State.reset.modeStat = 2 ∧ State.reset.pending = []
  ∧ State.reset.pwr.causes = [] ∧ State.reset.pwr.bootCount = 0 ∧ State.reset.el.state = .idle
  ∧ (∀ p, (State.reset.port p).state = .down) ∧ State.reset.sp.session = none
  ∧ State.reset.tg.nextSeq = 0 ∧ State.reset.evidenceHead = be 8 unitId ++ List.replicate 24 0
  ∧ State.reset.hg.blockLock = 0 ∧ State.reset.ch.cfg = 0x70 ∧ (∀ i : Fin 4, State.reset.lc.fuses[i] = 0)
  ∧ (∀ n, (State.reset.core n).run = .off) ∧ (∀ n, State.reset.slot n = {}) ∧ State.reset.latches = []

/-- Every step keeps the invariant. -/
def Obligations.StepKeepsInvariant : Prop := ∀ s t : State, Inv s → step s = .next t → Inv t
end

