-- ==== Sys2Proof/Laws/Store.lean ====
section
/-! SUPPORT. The laws of maps and memories: a read after a write, what a write leaves alone, and that every operation
keeps the canonical form. -/

namespace Sys2Proof.Machine

variable {α : Type} [DecidableEq α]

omit [DecidableEq α] in
@[simp] theorem mapGet_nil (d : α) (k : Nat) : mapGet d [] k = d := rfl

omit [DecidableEq α] in
theorem mapGet_below (d : α) : ∀ (m : List (Nat × α)) (k : Nat), (∀ e ∈ m, k < e.1) → mapGet d m k = d
  | [], _, _ => rfl
  | (a, v) :: t, k, h => by
    have ha : k < a := h (a, v) (List.mem_cons_self ..)
    simp only [mapGet, if_neg (Nat.ne_of_lt ha)]
    exact mapGet_below d t k fun e he => h e (List.mem_cons_of_mem _ he)

theorem MapWf_iff (d : α) : ∀ m : List (Nat × α), mapWf d m = true ↔ MapWf d m
  | [] => by simp [mapWf, MapWf]
  | (k, v) :: t => by simp [mapWf, MapWf, MapWf_iff d t, and_assoc]

theorem mem_mapSet (d : α) : ∀ (m : List (Nat × α)) (k : Nat) (v : α) (e : Nat × α),
    e ∈ mapSet d m k v → e = (k, v) ∨ e ∈ m
  | [], k, v, e, h => by
    simp only [mapSet] at h
    split at h
    · simp at h
    · simp at h; exact .inl h
  | (a, w) :: t, k, v, e, h => by
    simp only [mapSet] at h
    split at h
    · split at h
      · exact .inr h
      · rcases List.mem_cons.1 h with h | h
        · exact .inl h
        · exact .inr h
    · split at h
      · split at h
        · exact .inr (List.mem_cons_of_mem _ h)
        · rcases List.mem_cons.1 h with h | h
          · exact .inl h
          · exact .inr (List.mem_cons_of_mem _ h)
      · rcases List.mem_cons.1 h with h | h
        · exact .inr (h ▸ List.mem_cons_self ..)
        · exact (mem_mapSet d t k v e h).imp id (List.mem_cons_of_mem _)

/-- A write keeps the canonical form. -/
theorem MapWf.mapSet {d : α} : ∀ {m : List (Nat × α)}, MapWf d m → ∀ (k : Nat) (v : α), MapWf d (mapSet d m k v)
  | [], _, k, v => by
    simp only [Machine.mapSet]
    split
    · trivial
    · simp_all [MapWf]
  | (a, w) :: t, h, k, v => by
    obtain ⟨hw, ht, hm⟩ := h
    simp only [Machine.mapSet]
    split
    · rename_i hk
      split
      · exact ⟨hw, ht, hm⟩
      · rename_i hv
        exact ⟨hv, fun e he => (List.mem_cons.1 he).elim (fun h => h ▸ hk) fun h => Nat.lt_trans hk (ht e h), hw, ht, hm⟩
    · split
      · rename_i hk
        split
        · exact hm
        · rename_i hv
          exact ⟨hv, fun e he => hk ▸ ht e he, hm⟩
      · rename_i h1 h2
        refine ⟨hw, fun e he => ?_, hm.mapSet k v⟩
        rcases mem_mapSet d t k v e he with h | h
        · subst h; exact Nat.lt_of_le_of_ne (Nat.le_of_not_lt h1) (Ne.symm h2)
        · exact ht e h

/-- A read after a write to the same key gives the value written. -/
theorem mapGet_mapSet_self (d : α) : ∀ (m : List (Nat × α)) (k : Nat) (v : α), MapWf d m →
    mapGet d (mapSet d m k v) k = v
  | [], k, v, _ => by
    simp only [mapSet]
    split <;> simp_all [mapGet]
  | (a, w) :: t, k, v, h => by
    obtain ⟨hw, ht, hm⟩ := h
    simp only [mapSet]
    split
    · rename_i hk
      split
      · rename_i hv
        subst hv
        exact mapGet_below v ((a, w) :: t) k fun e he =>
          (List.mem_cons.1 he).elim (fun h => h ▸ hk) fun h => Nat.lt_trans hk (ht e h)
      · simp [mapGet]
    · split
      · rename_i hk
        split
        · rename_i hv
          subst hv; subst hk
          exact mapGet_below v t k ht
        · simp [mapGet]
      · rename_i h1 h2
        simp only [mapGet, if_neg h2]
        exact mapGet_mapSet_self d t k v hm

/-- A write leaves every other key alone. -/
theorem mapGet_mapSet_ne (d : α) : ∀ (m : List (Nat × α)) (k j : Nat) (v : α), j ≠ k →
    mapGet d (mapSet d m k v) j = mapGet d m j
  | [], k, j, v, hj => by
    simp only [mapSet]
    split <;> simp_all [mapGet]
  | (a, w) :: t, k, j, v, hj => by
    simp only [mapSet]
    split
    · split
      · rfl
      · simp [mapGet, hj]
    · split
      · rename_i hk
        split
        · subst hk
          simp [mapGet, hj]
        · simp [mapGet, hk ▸ hj]
          intro h; exact absurd h (hk ▸ hj)
      · simp only [mapGet]
        split
        · rfl
        · exact mapGet_mapSet_ne d t k j v hj

/-- A value that unlisted keys do not read as is read back, whatever the map. -/
theorem mapGet_mapSet_listed (d : α) {v : α} (hv : v ≠ d) : ∀ (m : List (Nat × α)) (k : Nat),
    mapGet d (mapSet d m k v) k = v
  | [], k => by simp [mapSet, hv, mapGet]
  | (a, w) :: t, k => by
    simp only [mapSet, hv, if_false]
    split
    · simp [mapGet]
    · split
      · simp [mapGet]
      · rename_i h
        simp only [mapGet, if_neg h]
        exact mapGet_mapSet_listed d hv t k

omit [DecidableEq α] in
theorem MapWf.filter {d : α} (p : Nat × α → Bool) : ∀ {m : List (Nat × α)}, MapWf d m → MapWf d (m.filter p)
  | [], _ => trivial
  | (a, w) :: t, h => by
    obtain ⟨hw, ht, hm⟩ := h
    simp only [List.filter]
    split
    · exact ⟨hw, fun e he => ht e (List.mem_filter.1 he).1, hm.filter p⟩
    · exact hm.filter p

/-- A write of a byte keeps the canonical form of a memory. -/
theorem Memory.wf_write {m : Memory} (h : m.wf = true) (a : Nat) (v : Byte) : (m.write a v).wf = true :=
  (MapWf_iff _ _).2 (((MapWf_iff _ _).1 h).mapSet a v)

/-- A write of bytes keeps the canonical form of a memory. -/
theorem Memory.wf_writeBytes : ∀ (b : Bytes) {m : Memory}, m.wf = true → ∀ a : Nat, (m.writeBytes a b).wf = true
  | [], _, h, _ => h
  | x :: xs, _, h, a => wf_writeBytes xs (wf_write h a x) (a + 1)

/-- A byte written reads back. -/
theorem Memory.read_write_self {m : Memory} (h : m.wf = true) (a : Nat) (v : Byte) : (m.write a v).read a = v :=
  mapGet_mapSet_self _ _ _ _ ((MapWf_iff _ _).1 h)

/-- A write leaves every other byte alone. -/
theorem Memory.read_write_ne (m : Memory) {a b : Nat} (v : Byte) (hb : b ≠ a) : (m.write a v).read b = m.read b :=
  mapGet_mapSet_ne _ _ _ _ _ hb

/-- A write of bytes leaves every byte outside them alone. -/
theorem Memory.read_writeBytes_outside : ∀ (b : Bytes) (m : Memory) (a x : Nat),
    (x < a ∨ a + b.length ≤ x) → (m.writeBytes a b).read x = m.read x
  | [], _, _, _, _ => rfl
  | y :: ys, m, a, x, hx => by
    have hx' : x < a + 1 ∨ a + 1 + ys.length ≤ x := by simp only [List.length_cons] at hx; omega
    have hn : x ≠ a := by simp only [List.length_cons] at hx; omega
    show ((m.write a y).writeBytes (a + 1) ys).read x = m.read x
    rw [read_writeBytes_outside ys _ (a + 1) x hx', read_write_ne m y hn]

/-- Bytes written read back. -/
theorem Memory.readBytes_writeBytes : ∀ (b : Bytes) {m : Memory}, m.wf = true → ∀ (a : Nat),
    (m.writeBytes a b).readBytes a b.length = b
  | [], _, _, _ => rfl
  | y :: ys, m, h, a => by
    show (((m.write a y).writeBytes (a + 1) ys).read a) :: _ = y :: ys
    rw [read_writeBytes_outside ys _ (a + 1) a (.inl (Nat.lt_succ_self a)), read_write_self h a y]
    exact congrArg _ (readBytes_writeBytes ys (wf_write h a y) (a + 1))

end Sys2Proof.Machine
end

