-- ==== Sys2Proof/Laws/Directory.lean ====
section
/-! SUPPORT. Byte orders read back, and what a command that stands for one WRITE of the Parameter Directory does. -/

namespace Sys2Proof.Machine

@[simp] theorem le_length (n v : Nat) : (le n v).length = n := by
  induction n generalizing v with
  | zero => rfl
  | succ n ih => simp [le, ih]

theorem ofLe_le (n v : Nat) : ofLe (le n v) = v % 256 ^ n := by
  induction n generalizing v with
  | zero => simp [le, ofLe, Nat.mod_one]
  | succ n ih =>
    have h : (BitVec.ofNat 8 v).toNat = v % 256 := rfl
    rw [le, ofLe, ih, h, Nat.pow_succ, Nat.mul_comm (256 ^ n) 256, Nat.mod_mul]

@[simp] theorem be_length (n v : Nat) : (be n v).length = n := by simp [be]

theorem ofBe_be (n v : Nat) : ofBe (be n v) = v % 256 ^ n := by simp [ofBe, be, ofLe_le]

@[simp] theorem putNum_length (v : Viewer) (n x : Nat) : (putNum v n x).length = n := by
  unfold putNum; split <;> simp

theorem getNum_putNum (v : Viewer) (n x : Nat) : getNum v (putNum v n x) = x % 256 ^ n := by
  unfold getNum putNum; split <;> simp [ofLe_le, ofBe_be]

theorem slice_append_left (a b : Bytes) (n : Nat) (h : a.length = n) : slice (a ++ b) 0 n = a := by
  subst h; simp [slice]

theorem slice_append (a b : Bytes) (k n : Nat) (h : a.length = k) : slice (a ++ b) k n = slice b 0 n := by
  subst h; simp [slice]

/-- An entry without a value is sixteen bytes. -/
theorem EntryOut.encode_length (v : Viewer) {x : EntryOut} (h : x.value = []) : (x.encode v).length = 16 := by
  simp [EntryOut.encode, h, pad8]

/-- The status that a request of one entry without a value answers. -/
theorem DirReq.single_encode {r : DirReq} {x : EntryOut} (hv : x.value = []) (hx : x.op = 2) (hc : r.count = 1)
    (ho : r.out = x.encode r.viewer) : r.single = (x.status, []) := by
  have h4 : slice r.out 4 2 = putNum r.viewer 2 x.status.toNat := by
    rw [ho]
    simp only [EntryOut.encode, List.append_assoc]
    rw [← List.append_assoc (putNum r.viewer 2 x.index), ← List.append_assoc _ (be 1 x.op),
      slice_append _ _ 4 2 (by simp)]
    exact slice_append_left _ _ _ (by simp)
  have h8 : slice r.out 8 4 = putNum r.viewer 4 0 := by
    rw [ho]
    simp only [EntryOut.encode, List.append_assoc, hv, List.length_nil]
    rw [← List.append_assoc (putNum r.viewer 2 x.index), ← List.append_assoc _ (be 1 x.op), ← List.append_assoc _ (putNum r.viewer 2 _),
      ← List.append_assoc _ (be 1 x.type), ← List.append_assoc _ (be 1 (b2n x.staged)), slice_append _ _ 8 4 (by simp)]
    exact slice_append_left _ _ _ (putNum_length ..)
  have h3 : slice r.out 3 1 = [2] := by
    rw [ho]
    simp only [EntryOut.encode, List.append_assoc]
    rw [← List.append_assoc (putNum r.viewer 2 x.index), slice_append _ _ 3 1 (by simp)]
    rw [hx]
    exact slice_append_left _ _ _ (by simp)
  have hs : getNum r.viewer (putNum r.viewer 2 x.status.toNat) = x.status.toNat := by
    rw [getNum_putNum]
    exact Nat.mod_eq_of_lt (by have := x.status.isLt; omega)
  have h0 : getNum r.viewer (putNum r.viewer 4 0) = 0 := by rw [getNum_putNum, Nat.zero_mod]
  simp only [DirReq.single, hc, h3, h4, h8, hs, h0]
  simp [slice]

@[simp] theorem State.served_viewerActive (s : State) (v u : Viewer) : (s.served v).viewerActive u = s.viewerActive u := rfl
@[simp] theorem State.served_offEnabled (s : State) (v : Viewer) (index : Nat) :
    (s.served v).offEnabled index = s.offEnabled index := rfl
@[simp] theorem State.served_beforeSeed (s : State) (v : Viewer) (index sub : Nat) :
    (s.served v).beforeSeed index sub = s.beforeSeed index sub := rfl
@[simp] theorem State.served_en (s : State) (v : Viewer) : (s.served v).en = s.en := rfl
@[simp] theorem State.served_entryDenied (s : State) (v u : Viewer) (o : Obj) (index sub op n : Nat) :
    (s.served v).entryDenied u o index sub op n = s.entryDenied u o index sub op n := rfl
@[simp] theorem State.served_accepted (s : State) (v : Viewer) (o : Obj) (index sub : Nat) (x : Val) :
    (s.served v).accepted o index sub x = s.accepted o index sub x := rfl

/-- Where nothing of the Directory waits, no source has a request outstanding. -/
theorem State.dirFree.outstanding {s : State} (h : s.dirFree) (origin : Nat) : s.outstanding origin = false := by
  simp [State.outstanding, h.1, h.2.1]

/-- Where the port is not to close, the end of a request closes nothing. -/
theorem State.spClose_id {s : State} (h : s.sp.closing = false) : s.spClose = s := by simp [State.spClose, h]

/-- A request of one entry that does not wait, while nothing else of the Directory does, is answered at once. -/
theorem State.single_entry {s : State} {w : World} {v : Viewer} {tenant inst : Nat} {e : DirEntry}
    (ha : s.viewerActive v = true) (hd : s.dirFree) (ht : namedTenant v tenant = .ok inst)
    (hv : ((s.served v).execEntry w v inst e).2.value = [])
    (hp : ((s.served v).execEntry w v inst e).2.op = 2) (hw : ((s.served v).execEntry w v inst e).2.status ≠ stWaits)
    (hc : ((s.served v).execEntry w v inst e).1.sp.closing = false) :
    s.single w v tenant e
      = ((s.served v).execEntry w v inst e).1.emit (.directory v ((s.served v).execEntry w v inst e).2.status []) := by
  have hl := EntryOut.encode_length v hv
  have hs : (s.onPd fun p => { p with turn := originOf v }) = s.served v := rfl
  simp only [State.single, ha, Bool.not_true, ht, State.submit, hd.outstanding, hd.1, Option.isSome_none, State.runReq,
    DirReq.origin, hs, State.runEntries, hw, decide_false, Bool.and_false, List.length_nil, hl, Nat.add_zero]
  simp only [show ¬(2 : Nat) ^ 20 < 16 + 16 by decide, if_false, Bool.false_eq_true,
    State.finishReq, State.respondReq]
  rw [DirReq.single_encode (x := ((s.served v).execEntry w v inst e).2) hv hp rfl (by simp)]
  exact State.spClose_id hc

/-- A WRITE of a number that may be written and whose owner acts: the action, and its status as the answer. -/
theorem State.writeNum_acts {s : State} {w : World} {v : Viewer} {tenant inst index sub n k : Nat} {act : Act} {o : Obj}
    (h : Writable s v index sub n) (ho : findObj index sub = some o) (hk : o.type.size = some k) (hn : n < 256 ^ k)
    (hb : o.type.isBytes = false) (ht : namedTenant v tenant = .ok inst) (ha : actionOf w v inst index sub n [] = some act)
    (hw : (act (s.served v)).2 ≠ stWaits) (hc : (act (s.served v)).1.sp.closing = false) :
    s.writeObj w v tenant index sub (objBytes v index sub n)
      = (act (s.served v)).1.emit (.directory v (act (s.served v)).2 []) := by
  obtain ⟨h1, h2, o', ho', h3, h4, h5, h6⟩ := h
  rw [ho] at ho'
  cases ho'
  have hbytes : objBytes v index sub n = putNum v k n := by simp [objBytes, ho, hk]
  have hg : getNum v (putNum v k n) = n := by rw [getNum_putNum]; exact Nat.mod_eq_of_lt hn
  let e : DirEntry := { index := index, sub := sub, op := 2, length := k, value := putNum v k n }
  have hoff : (o.apply = .off && s.offEnabled index) = false := by
    by_cases ho : o.apply = .off
    · simp [h6 ho]
    · simp [ho]
  have hnow : (o.apply = .now && !s.en.firstSeed && !s.beforeSeed index sub) = false := by
    by_cases ho : o.apply = .now
    · rcases h5 ho with h | h <;> simp [h]
    · simp [ho]
  let x : EntryOut := { index := index, sub := sub, op := 2, status := (act (s.served v)).2, type := o.type.code,
                        total := (act (s.served v)).1.fullLength v o inst index sub }
  have hx : (s.served v).execEntry w v inst e = ((act (s.served v)).1, x) := by
    have hm : e.malformed = false := by simp [DirEntry.malformed, e]
    have hv : getNum v e.value = n := hg
    simp only [State.execEntry, hm, hv, show findObj e.index e.sub = some o from ho,
      State.served_entryDenied, show s.entryDenied v o e.index e.sub e.op n = false from h3]
    simp only [e, reduceIte, Bool.false_eq_true, show ¬(2 = 4) by decide, show ¬(2 = 1) by decide]
    simp only [State.entryWrite, hk, State.writeFixed, State.served_offEnabled, State.served_accepted, State.served_beforeSeed,
      State.served_en, hoff, hb, State.entryValue, hg, Bool.false_eq_true, reduceIte, h4,
      State.applyWrite, hnow, ha, ne_eq, not_true, or_self]
    rfl
  have := State.single_entry (w := w) (e := e) h1 h2 ht (by rw [hx]) (by rw [hx]) (by rw [hx]; exact hw) (by rw [hx]; exact hc)
  rw [State.writeObj, hbytes, putNum_length]
  rw [hx] at this
  exact this

end Sys2Proof.Machine
end

