-- ==== Sys2Proof/Laws/Sezel.lean ====
section
/-! SUPPORT. What the shared operations of the Sezel cores do: the one step of `State.sezel`, and when the writes an
instruction makes become visible. -/

namespace Sys2Proof.Machine

/-- An instruction that can be fetched and does not fault retires. -/
theorem State.sezel_turn {s : State} {n size : Nat} (h : Turn s n size) {body : Body} {s' : State} {c' : SCore}
    {ctl : Control} (hb : body s (s.core n).settle = .ok (s', c', ctl)) :
    s.sezel n size body = s'.onCore n fun _ => c'.retire size ctl := by
  obtain ⟨h1, h2, h3⟩ := h
  simp [State.sezel, h1, h2, h3, hb]

/-- An instruction that can be fetched and faults stops the core. -/
theorem State.sezel_fault {s : State} {n size : Nat} (h : Turn s n size) {body : Body} {f : CoreFault}
    (hb : body s (s.core n).settle = .error f) : s.sezel n size body = s.coreFault n f := by
  obtain ⟨h1, h2, h3⟩ := h
  simp [State.sezel, h1, h2, h3, hb]

/-- Writes added to those that wait. -/
def SCore.plus (l : List PendWrite) (c : SCore) : SCore := { c with pend := c.pend ++ l }

/-- Writes one instruction nearer to being visible. -/
def nearer (l : List PendWrite) : List PendWrite := l.map fun p => { p with dist := p.dist - 1 }

@[simp] theorem SCore.apply_regs (c : SCore) (p : PendWrite) : c.regs.apply p = (c.apply p).regs := by
  cases p with
  | mk loc value dist mac => cases loc <;> rfl

theorem SCore.foldl_apply_regs (l : List PendWrite) : ∀ c : SCore, l.foldl SCore.apply c.regs = (l.foldl SCore.apply c).regs := by
  induction l with
  | nil => intro c; rfl
  | cons p t ih => intro c; simp only [List.foldl_cons, SCore.apply_regs, ih]

@[simp] theorem SCore.regs_plus (l : List PendWrite) (c : SCore) : (c.plus l).regs = c.regs := rfl
@[simp] theorem SCore.regs_regs (c : SCore) : c.regs.regs = c.regs := rfl

theorem SCore.apply_plus (l : List PendWrite) (c : SCore) (p : PendWrite) : (c.plus l).apply p = (c.apply p).plus l := by
  cases p with
  | mk loc value dist mac => cases loc <;> rfl

theorem SCore.foldl_apply_plus (l : List PendWrite) : ∀ (m : List PendWrite) (c : SCore),
    m.foldl SCore.apply (c.plus l) = (m.foldl SCore.apply c).plus l := by
  intro m
  induction m with
  | nil => intro c; rfl
  | cons p t ih => intro c; simp only [List.foldl_cons, SCore.apply_plus, ih]

theorem filter_far {l : List PendWrite} (h : ∀ p ∈ l, p.dist ≠ 0) : l.filter (fun p => p.dist = 0) = [] := by
  rw [List.filter_eq_nil_iff]
  intro p hp
  simpa using h p hp

theorem pendAfter_far {l : List PendWrite} (h : ∀ p ∈ l, p.dist ≠ 0) : pendAfter l = l := by
  induction l with
  | nil => rfl
  | cons p t ih =>
    have ht := ih fun q hq => h q (List.mem_cons_of_mem _ hq)
    have hp := h p List.mem_cons_self
    have ha : (t.any fun q => q.loc.covers p.loc && q.dist = 0) = false := by
      rw [List.any_eq_false]
      intro q hq
      have := h q (List.mem_cons_of_mem _ hq)
      simp [this]
    simp [pendAfter, hp, ha, ht]

theorem pendAfter_append_far (m : List PendWrite) {l : List PendWrite} (h : ∀ p ∈ l, p.dist ≠ 0) :
    pendAfter (m ++ l) = pendAfter m ++ l := by
  induction m with
  | nil => simp [pendAfter, pendAfter_far h]
  | cons p t ih =>
    have ha : ((t ++ l).any fun q => q.loc.covers p.loc && q.dist = 0) = t.any fun q => q.loc.covers p.loc && q.dist = 0 := by
      rw [List.any_append]
      have : (l.any fun q => q.loc.covers p.loc && q.dist = 0) = false := by
        rw [List.any_eq_false]
        intro q hq
        simp [h q hq]
      simp [this]
    simp only [List.cons_append, pendAfter, ha, ih]
    split <;> simp

/-- Writes that nobody sees yet do not change what the next instruction sees. -/
theorem SCore.settle_plus_far (c : SCore) {l : List PendWrite} (h : ∀ p ∈ l, p.dist ≠ 0) :
    (c.plus l).settle = c.settle.plus l := by
  simp only [SCore.settle, SCore.plus, List.filter_append, filter_far h, List.append_nil, pendAfter_append_far _ h]
  have := SCore.foldl_apply_plus l (c.pend.filter fun p => p.dist = 0) c
  simp only [SCore.plus] at this
  rw [this]

/-- Writes that are visible now are done after those that were visible. -/
theorem SCore.settle_plus_near (c : SCore) {l : List PendWrite} (h : ∀ p ∈ l, p.dist = 0) :
    (c.plus l).settle.regs = (l.foldl SCore.apply c.settle).regs := by
  have hl : l.filter (fun p => p.dist = 0) = l := by
    rw [List.filter_eq_self]
    intro p hp
    simpa using h p hp
  have e := SCore.foldl_apply_plus l (c.pend.filter fun p => p.dist = 0) c
  simp only [SCore.settle, SCore.plus, List.filter_append, hl, List.foldl_append] at *
  rw [e]
  have a := SCore.foldl_apply_regs l ((c.pend.filter fun p => p.dist = 0).foldl SCore.apply c)
  rw [show ({ (c.pend.filter fun p => p.dist = 0).foldl SCore.apply c with pend := pendAfter c.pend } : SCore)
      = ({ (c.pend.filter fun p => p.dist = 0).foldl SCore.apply c with pend := pendAfter c.pend } : SCore) from rfl]
  have b := SCore.foldl_apply_regs l
    ({ (c.pend.filter fun p => p.dist = 0).foldl SCore.apply c with pend := pendAfter c.pend } : SCore)
  have d := SCore.foldl_apply_regs l
    ({ (c.pend.filter fun p => p.dist = 0).foldl SCore.apply c with
        pend := ((c.pend.filter fun p => p.dist = 0).foldl SCore.apply c).pend ++ l } : SCore)
  have e1 : ∀ x : SCore, ({ x with pend := pendAfter c.pend } : SCore).regs = x.regs := fun _ => rfl
  have e2 : ∀ x : SCore, ({ x with pend := x.pend ++ l } : SCore).regs = x.regs := fun _ => rfl
  rw [e1] at b
  rw [e2] at d
  show (List.foldl SCore.apply _ l).regs = _
  rw [← b, ← d]

theorem SCore.loopEnd_plus (l : List PendWrite) (succ : Word) : ∀ (ks : List (Fin 3)) (c : SCore),
    SCore.loopEnd succ ks (c.plus l) = (SCore.loopEnd succ ks c).plus l := by
  intro ks
  induction ks with
  | nil => intro c; rfl
  | cons k ks ih =>
    intro c
    unfold SCore.loopEnd
    by_cases h1 : c.lc[k] ≠ 0 ∧ c.le[k] = succ
    · rw [if_pos h1, if_pos (show (c.plus l).lc[k] ≠ 0 ∧ (c.plus l).le[k] = succ from h1)]
      by_cases h2 : c.lc[k] = 1
      · rw [if_pos h2, if_pos (show (c.plus l).lc[k] = 1 from h2)]
        exact ih { c with lc := c.lc.set k 0 }
      · rw [if_neg h2, if_neg (show ¬(c.plus l).lc[k] = 1 from h2)]
        rfl
    · rw [if_neg h1, if_neg (show ¬((c.plus l).lc[k] ≠ 0 ∧ (c.plus l).le[k] = succ) from h1)]
      exact ih c

/-- Writes that wait go through a retirement, one instruction nearer. -/
theorem SCore.retire_plus (l : List PendWrite) (size : Nat) (ctl : Control) (c : SCore) :
    (c.plus l).retire size ctl = (c.retire size ctl).plus (nearer l) := by
  let n := fun (m : List PendWrite) => m.map fun (p : PendWrite) => { p with dist := p.dist - 1 }
  have e : ∀ (r : CoreRun) (x : BitVec 64) (d : Option (Option Word)) (pc : Word),
      ({ (c.plus l) with run := r, instret := x, delay := d, pc := pc, pend := n (c.plus l).pend } : SCore)
        = SCore.plus (nearer l) { c with run := r, instret := x, delay := d, pc := pc, pend := n c.pend } := by
    intro r x d pc
    simp only [SCore.plus, List.map_append, nearer, n]
  rcases hd : c.delay with _ | _ | t <;> cases ctl <;> simp only [SCore.retire, hd, show (c.plus l).delay = c.delay from rfl]
  all_goals first
    | exact e _ _ _ _
    | (rw [← SCore.loopEnd_plus]; exact congrArg _ (e _ _ _ _))

/-- When the writes of one instruction become visible (R232). -/
theorem SCore.later_plus : ∀ (d : Nat) (c : SCore) (l : List PendWrite), (∀ p ∈ l, p.dist = d) →
    (∀ k, k < d → ((c.plus l).later k).regs = (c.later k).regs)
      ∧ ((c.plus l).later d).regs = (l.foldl SCore.apply (c.later d)).regs := by
  intro d
  induction d with
  | zero =>
    intro c l h
    exact ⟨fun k hk => absurd hk (Nat.not_lt_zero k), SCore.settle_plus_near c h⟩
  | succ d ih =>
    intro c l h
    have hf : ∀ p ∈ l, p.dist ≠ 0 := fun p hp => by rw [h p hp]; omega
    have hn : ∀ p ∈ nearer l, p.dist = d := by
      intro p hp
      obtain ⟨q, hq, rfl⟩ := List.mem_map.mp hp
      simp [h q hq]
    obtain ⟨h1, h2⟩ := ih (c.settle.retire 2 .seq) (nearer l) hn
    have hs := SCore.settle_plus_far c hf
    refine ⟨fun k hk => ?_, ?_⟩
    · cases k with
      | zero => simp only [SCore.later, hs, SCore.regs_plus]
      | succ k =>
        simp only [SCore.later, hs, SCore.retire_plus]
        exact h1 k (by omega)
    · simp only [SCore.later, hs, SCore.retire_plus]
      rw [h2]
      have : ∀ (m : List PendWrite) (x : SCore), (nearer m).foldl SCore.apply x = m.foldl SCore.apply x := by
        intro m
        induction m with
        | nil => intro x; rfl
        | cons p t ih =>
          intro x
          have : x.apply { p with dist := p.dist - 1 } = x.apply p := by
            cases p with
            | mk loc value dist mac => cases loc <;> rfl
          simp only [nearer, List.map_cons, List.foldl_cons, this]
          exact ih _
      rw [this]

/-! ### Instructions that add writes -/

/-- The flags a FlagSet names, with their values. -/
def flagList (f : FlagSet) : List (Fin 5 × Option Bool) :=
  [(0, f.z), (1, f.n), (2, f.c), (3, f.v), (4, if f.satf then some true else none)]

/-- The write of one flag. -/
def flagWrite (lat : Nat) (x : Fin 5 × Option Bool) : Option PendWrite :=
  x.2.map fun b => { loc := .flag x.1, value := if b then 1 else 0, dist := lat, mac := false }

/-- The writes of a FlagSet. -/
def flagWrites (lat : Nat) (f : FlagSet) : List PendWrite := (flagList f).filterMap (flagWrite lat)

theorem SCore.putFlags_plus (lat : Nat) (f : FlagSet) (c : SCore) : c.putFlags lat f = c.plus (flagWrites lat f) := by
  obtain ⟨z, n, cc, v, satf⟩ := f
  cases z <;> cases n <;> cases cc <;> cases v <;> cases satf <;>
    simp [SCore.putFlags, SCore.putFlag, SCore.put, SCore.plus, flagWrites, flagList, flagWrite]

theorem flagWrites_dist {lat : Nat} {f : FlagSet} : ∀ p ∈ flagWrites lat f, p.dist = lat := by
  intro p hp
  obtain ⟨⟨n, o⟩, _, ho⟩ := List.mem_filterMap.mp hp
  cases o with
  | none => cases ho
  | some b => cases ho; rfl

theorem SCore.apply_flag (c : SCore) (n : Fin 5) (b : Bool) (d : Nat) (m : Bool) :
    c.apply { loc := .flag n, value := if b then 1 else 0, dist := d, mac := m } = { c with flags := putBit n.val b c.flags } := by
  cases b <;> rfl

theorem flagWrites_foldl (lat : Nat) (f : FlagSet) (c : SCore) :
    (flagWrites lat f).foldl SCore.apply c = { c with flags := f.onto c.flags } := by
  have h : ∀ (l : List (Fin 5 × Option Bool)) (c : SCore), (l.filterMap (flagWrite lat)).foldl SCore.apply c
      = { c with flags := l.foldl (fun w x => match x.2 with | some b => putBit x.1.val b w | none => w) c.flags } := by
    intro l
    induction l with
    | nil => intro c; rfl
    | cons x t ih =>
      intro c
      obtain ⟨n, o⟩ := x
      cases o with
      | none => exact ih c
      | some b =>
        have := ih { c with flags := putBit n.val b c.flags }
        rw [show ((n, some b) :: t).filterMap (flagWrite lat)
            = { loc := .flag n, value := if b then 1 else 0, dist := lat, mac := false } :: t.filterMap (flagWrite lat) from rfl,
          List.foldl_cons, SCore.apply_flag]
        exact this
  rw [flagWrites, h]
  obtain ⟨z, n, cc, v, satf⟩ := f
  cases satf <;> rfl

@[simp] theorem SCore.plus_plus (l m : List PendWrite) (c : SCore) : (c.plus l).plus m = c.plus (l ++ m) := by
  simp [SCore.plus]

theorem SCore.putW_plus (rd : Fin 16) (lat : Nat) (v : Word) (c : SCore) :
    c.putW rd lat v = c.plus [{ loc := .w rd, value := v.setWidth 72, dist := lat, mac := false }] := rfl

theorem SCore.put_plus (loc : SLoc) (lat : Nat) (v : Acc) (mac : Bool) (c : SCore) :
    c.put loc lat v mac = c.plus [{ loc := loc, value := v, dist := lat, mac := mac }] := rfl

theorem SCore.apply_w (c : SCore) (n : Fin 16) (v : Word) (d : Nat) (m : Bool) :
    c.apply { loc := .w n, value := v.setWidth 72, dist := d, mac := m } = { c with w := c.w.set n v } := by
  simp only [SCore.apply]
  rw [show (v.setWidth 72).setWidth 32 = v by ext i; simp]

/-- An instruction that adds writes at distance `lat` and goes on. -/
theorem writes_of_plus {lat : Nat} {i : Instr} {s : State} {n size : Nat} {f late : SCore → SCore} {l : List PendWrite}
    (h : Turn s n size) (he : exec i s = .next (s.sezel n size (pureBody f)))
    (hf : f (s.core n).settle = (s.core n).settle.plus l) (hl : ∀ p ∈ l, p.dist = lat) (h0 : 0 < lat)
    (hs : ∀ c : SCore, (l.foldl SCore.apply c).regs = (late c).regs) : Writes lat i s n size id late := by
  have hd : ∀ p ∈ nearer l, p.dist = lat - 1 := by
    intro p hp
    obtain ⟨q, hq, rfl⟩ := List.mem_map.mp hp
    simp [hl q hq]
  have hn : ∀ (m : List PendWrite) (x : SCore), (nearer m).foldl SCore.apply x = m.foldl SCore.apply x := by
    intro m
    induction m with
    | nil => intro x; rfl
    | cons p t ih =>
      intro x
      have : x.apply { p with dist := p.dist - 1 } = x.apply p := by
        cases p with
        | mk loc value dist mac => cases loc <;> rfl
      simp only [nearer, List.map_cons, List.foldl_cons, this]
      exact ih _
  obtain ⟨h1, h2⟩ := SCore.later_plus (lat - 1) (s.idle n size) (nearer l) hd
  refine ⟨(f (s.core n).settle).retire size .seq, ?_, ?_, ?_⟩
  · rw [he, State.sezel_turn h rfl]
  · intro k hk
    rw [hf, SCore.retire_plus]
    exact h1 k (by omega)
  · rw [hf, SCore.retire_plus]
    refine h2.trans ?_
    rw [hn]
    exact hs _

/-- An instruction that writes a w register and flags. -/
theorem result_of {lat : Nat} {i : Instr} {s : State} {n size : Nat} {f : SCore → SCore} {rd : Fin 16} {v : Word}
    {fs : FlagSet} (h : Turn s n size) (he : exec i s = .next (s.sezel n size (pureBody f))) (h0 : 0 < lat)
    (hf : f (s.core n).settle = ((s.core n).settle.putW rd lat v).putFlags lat fs) : Result lat i s n size rd v fs := by
  refine writes_of_plus h he (l := { loc := .w rd, value := v.setWidth 72, dist := lat, mac := false } :: flagWrites lat fs)
    ?_ ?_ h0 ?_
  · rw [hf, SCore.putW_plus, SCore.putFlags_plus, SCore.plus_plus, List.singleton_append]
  · intro p hp
    rcases List.mem_cons.mp hp with rfl | hp
    · rfl
    · exact flagWrites_dist p hp
  · intro c
    rw [List.foldl_cons, flagWrites_foldl, SCore.apply_w]

/-- An instruction that writes an accumulator and flags. -/
theorem accResult_of {i : Instr} {s : State} {n size : Nat} {f : SCore → SCore} {d : Fin 4} {v : Acc} {fs : FlagSet}
    {mac : Bool} (h : Turn s n size) (he : exec i s = .next (s.sezel n size (pureBody f)))
    (hf : f (s.core n).settle = ((s.core n).settle.put (.acc d) 3 v mac).putFlags 3 fs) : AccResult i s n size d v fs := by
  refine writes_of_plus h he (l := { loc := .acc d, value := v, dist := 3, mac := mac } :: flagWrites 3 fs) ?_ ?_ (by omega) ?_
  · rw [hf, SCore.put_plus, SCore.putFlags_plus, SCore.plus_plus, List.singleton_append]
  · intro p hp
    rcases List.mem_cons.mp hp with rfl | hp
    · rfl
    · exact flagWrites_dist p hp
  · intro c
    rw [List.foldl_cons, flagWrites_foldl]
    rfl

/-- An instruction that writes flags. -/
theorem flagResult_of {lat : Nat} {i : Instr} {s : State} {n size : Nat} {f : SCore → SCore} {fs : FlagSet}
    (h : Turn s n size) (he : exec i s = .next (s.sezel n size (pureBody f))) (h0 : 0 < lat)
    (hf : f (s.core n).settle = (s.core n).settle.putFlags lat fs) : FlagResult lat i s n size fs := by
  refine writes_of_plus h he (l := flagWrites lat fs) ?_ flagWrites_dist h0 ?_
  · rw [hf, SCore.putFlags_plus]
  · intro c
    rw [flagWrites_foldl]

/-! ### What an instruction changes at once: the address registers, data memory and the reservation -/

/-- Address registers, data memory and reservation. -/
abbrev Direct := Vector Word 8 × Memory × Option (Nat × Nat)

/-- Change what is changed at once. -/
def SCore.direct (g : Direct → Direct) (c : SCore) : SCore :=
  let r := g (c.p, c.dmem, c.reservation)
  { c with p := r.1, dmem := r.2.1, reservation := r.2.2 }

theorem SCore.apply_direct (g : Direct → Direct) (c : SCore) (w : PendWrite) :
    (c.direct g).apply w = (c.apply w).direct g := by
  cases w with
  | mk loc value dist mac => cases loc <;> rfl

theorem SCore.foldl_apply_direct (g : Direct → Direct) : ∀ (m : List PendWrite) (c : SCore),
    m.foldl SCore.apply (c.direct g) = (m.foldl SCore.apply c).direct g := by
  intro m
  induction m with
  | nil => intro c; rfl
  | cons p t ih => intro c; simp only [List.foldl_cons, SCore.apply_direct, ih]

theorem SCore.settle_direct (g : Direct → Direct) (c : SCore) : (c.direct g).settle = c.settle.direct g := by
  have := SCore.foldl_apply_direct g (c.pend.filter fun p => p.dist = 0) c
  simp only [SCore.settle]
  rw [show (c.direct g).pend = c.pend from rfl, this]
  rfl

theorem SCore.loopEnd_direct (g : Direct → Direct) (succ : Word) : ∀ (ks : List (Fin 3)) (c : SCore),
    SCore.loopEnd succ ks (c.direct g) = (SCore.loopEnd succ ks c).direct g := by
  intro ks
  induction ks with
  | nil => intro c; rfl
  | cons k ks ih =>
    intro c
    unfold SCore.loopEnd
    by_cases h1 : c.lc[k] ≠ 0 ∧ c.le[k] = succ
    · rw [if_pos h1, if_pos (show (c.direct g).lc[k] ≠ 0 ∧ (c.direct g).le[k] = succ from h1)]
      by_cases h2 : c.lc[k] = 1
      · rw [if_pos h2, if_pos (show (c.direct g).lc[k] = 1 from h2)]
        exact ih { c with lc := c.lc.set k 0 }
      · rw [if_neg h2, if_neg (show ¬(c.direct g).lc[k] = 1 from h2)]
        rfl
    · rw [if_neg h1, if_neg (show ¬((c.direct g).lc[k] ≠ 0 ∧ (c.direct g).le[k] = succ) from h1)]
      exact ih c

theorem SCore.retire_direct (g : Direct → Direct) (size : Nat) (ctl : Control) (c : SCore) :
    (c.direct g).retire size ctl = (c.retire size ctl).direct g := by
  rcases hd : c.delay with _ | _ | t <;> cases ctl <;>
    simp only [SCore.retire, hd, show (c.direct g).delay = c.delay from rfl]
  all_goals first
    | rfl
    | (rw [← SCore.loopEnd_direct]; rfl)

/-- What an instruction changes at once stays so in what the later ones see. -/
theorem SCore.later_direct (g : Direct → Direct) : ∀ (k : Nat) (c : SCore),
    (c.direct g).later k = (c.later k).direct g := by
  intro k
  induction k with
  | zero => exact SCore.settle_direct g
  | succ k ih =>
    intro c
    simp only [SCore.later, SCore.settle_direct, SCore.retire_direct]
    exact ih _

/-- An instruction that changes something at once, and adds writes at distance `lat`. -/
theorem writesIn_of_direct {t : State} {lat : Nat} {i : Instr} {s : State} {n size : Nat} {body : Body}
    {now late : SCore → SCore} {l : List PendWrite} {c' : SCore} (g : Direct → Direct) (h : Turn s n size)
    (he : exec i s = .next (s.sezel n size body)) (hb : body s (s.core n).settle = .ok (t, c', .seq))
    (hf : c' = ((s.core n).settle.plus l).direct g) (hl : ∀ p ∈ l, p.dist = lat) (h0 : 0 < lat)
    (hn : ∀ c : SCore, c.direct g = now c)
    (hs : ∀ c : SCore, (l.foldl SCore.apply c).regs = (late c).regs) : WritesIn t lat i s n size now late := by
  have hd : ∀ p ∈ nearer l, p.dist = lat - 1 := by
    intro p hp
    obtain ⟨q, hq, rfl⟩ := List.mem_map.mp hp
    simp [hl q hq]
  have hr : ∀ (m : List PendWrite) (x : SCore), (nearer m).foldl SCore.apply x = m.foldl SCore.apply x := by
    intro m
    induction m with
    | nil => intro x; rfl
    | cons p t ih =>
      intro x
      have : x.apply { p with dist := p.dist - 1 } = x.apply p := by
        cases p with
        | mk loc value dist mac => cases loc <;> rfl
      simp only [nearer, List.map_cons, List.foldl_cons, this]
      exact ih _
  have hm : ∀ c d : SCore, c.regs = d.regs → (c.direct g).regs = (d.direct g).regs := by
    intro c d e
    have : (c.regs.direct g) = (d.regs.direct g) := by rw [e]
    exact this
  obtain ⟨h1, h2⟩ := SCore.later_plus (lat - 1) (s.idle n size) (nearer l) hd
  refine ⟨c'.retire size .seq, ?_, ?_, ?_⟩
  · rw [he, State.sezel_turn h hb]
  · intro k hk
    rw [hf, SCore.retire_direct, SCore.retire_plus, SCore.later_direct, ← hn]
    exact hm _ _ (h1 k (by omega))
  · rw [hf, SCore.retire_direct, SCore.retire_plus, SCore.later_direct]
    rw [← hs, ← hn, SCore.foldl_apply_direct]
    refine hm _ _ (h2.trans ?_)
    rw [hr]

/-- An instruction that writes an address register. -/
theorem addressResult_of {i : Instr} {s : State} {n size : Nat} {body : Body} {p : Fin 8} {v : Word} (h : Turn s n size)
    (he : exec i s = .next (s.sezel n size body))
    (hb : body s (s.core n).settle = .ok (s, { (s.core n).settle with p := (s.core n).settle.p.set p v }, .seq)) :
    AddressResult i s n size p v := by
  refine writesIn_of_direct (l := []) (fun q => (q.1.set p v, q.2)) h he hb ?_ (fun _ hp => by cases hp) (by omega)
    (fun _ => rfl) (fun _ => rfl)
  simp [SCore.plus, SCore.direct]

end Sys2Proof.Machine
end

