-- ==== Sys2Proof/Laws/State.lean ====
section
/-! SUPPORT. One lemma per field of the state and per shared update: the field the update names takes what the update says,
and every other field stays. -/

namespace Sys2Proof.Machine

variable (s : State)

-- onPwr
@[simp] theorem State.onPwr_pending (f : Pwr → Pwr) : (s.onPwr f).pending = s.pending := rfl
@[simp] theorem State.onPwr_clock (f : Pwr → Pwr) : (s.onPwr f).clock = s.clock := rfl
@[simp] theorem State.onPwr_freeCtr (f : Pwr → Pwr) : (s.onPwr f).freeCtr = s.freeCtr := rfl
@[simp] theorem State.onPwr_outbox (f : Pwr → Pwr) : (s.onPwr f).outbox = s.outbox := rfl
@[simp] theorem State.onPwr_hostMem (f : Pwr → Pwr) : (s.onPwr f).hostMem = s.hostMem := rfl
@[simp] theorem State.onPwr_dmaFail (f : Pwr → Pwr) : (s.onPwr f).dmaFail = s.dmaFail := rfl
@[simp] theorem State.onPwr_latches (f : Pwr → Pwr) : (s.onPwr f).latches = s.latches := rfl
@[simp] theorem State.onPwr_pwr (f : Pwr → Pwr) : (s.onPwr f).pwr = f s.pwr := rfl
@[simp] theorem State.onPwr_tb (f : Pwr → Pwr) : (s.onPwr f).tb = s.tb := rfl
@[simp] theorem State.onPwr_hg (f : Pwr → Pwr) : (s.onPwr f).hg = s.hg := rfl
@[simp] theorem State.onPwr_td (f : Pwr → Pwr) : (s.onPwr f).td = s.td := rfl
@[simp] theorem State.onPwr_lg (f : Pwr → Pwr) : (s.onPwr f).lg = s.lg := rfl
@[simp] theorem State.onPwr_li (f : Pwr → Pwr) : (s.onPwr f).li = s.li := rfl
@[simp] theorem State.onPwr_lh (f : Pwr → Pwr) : (s.onPwr f).lh = s.lh := rfl
@[simp] theorem State.onPwr_en (f : Pwr → Pwr) : (s.onPwr f).en = s.en := rfl
@[simp] theorem State.onPwr_sz (f : Pwr → Pwr) : (s.onPwr f).sz = s.sz := rfl
@[simp] theorem State.onPwr_pd (f : Pwr → Pwr) : (s.onPwr f).pd = s.pd := rfl
@[simp] theorem State.onPwr_sp (f : Pwr → Pwr) : (s.onPwr f).sp = s.sp := rfl
@[simp] theorem State.onPwr_el (f : Pwr → Pwr) : (s.onPwr f).el = s.el := rfl
@[simp] theorem State.onPwr_xl (f : Pwr → Pwr) : (s.onPwr f).xl = s.xl := rfl
@[simp] theorem State.onPwr_ch (f : Pwr → Pwr) : (s.onPwr f).ch = s.ch := rfl
@[simp] theorem State.onPwr_tg (f : Pwr → Pwr) : (s.onPwr f).tg = s.tg := rfl
@[simp] theorem State.onPwr_lc (f : Pwr → Pwr) : (s.onPwr f).lc = s.lc := rfl
@[simp] theorem State.onPwr_krf (f : Pwr → Pwr) : (s.onPwr f).krf = s.krf := rfl

-- onTb
@[simp] theorem State.onTb_pending (f : Tb → Tb) : (s.onTb f).pending = s.pending := rfl
@[simp] theorem State.onTb_clock (f : Tb → Tb) : (s.onTb f).clock = s.clock := rfl
@[simp] theorem State.onTb_freeCtr (f : Tb → Tb) : (s.onTb f).freeCtr = s.freeCtr := rfl
@[simp] theorem State.onTb_outbox (f : Tb → Tb) : (s.onTb f).outbox = s.outbox := rfl
@[simp] theorem State.onTb_hostMem (f : Tb → Tb) : (s.onTb f).hostMem = s.hostMem := rfl
@[simp] theorem State.onTb_dmaFail (f : Tb → Tb) : (s.onTb f).dmaFail = s.dmaFail := rfl
@[simp] theorem State.onTb_latches (f : Tb → Tb) : (s.onTb f).latches = s.latches := rfl
@[simp] theorem State.onTb_pwr (f : Tb → Tb) : (s.onTb f).pwr = s.pwr := rfl
@[simp] theorem State.onTb_tb (f : Tb → Tb) : (s.onTb f).tb = f s.tb := rfl
@[simp] theorem State.onTb_hg (f : Tb → Tb) : (s.onTb f).hg = s.hg := rfl
@[simp] theorem State.onTb_td (f : Tb → Tb) : (s.onTb f).td = s.td := rfl
@[simp] theorem State.onTb_lg (f : Tb → Tb) : (s.onTb f).lg = s.lg := rfl
@[simp] theorem State.onTb_li (f : Tb → Tb) : (s.onTb f).li = s.li := rfl
@[simp] theorem State.onTb_lh (f : Tb → Tb) : (s.onTb f).lh = s.lh := rfl
@[simp] theorem State.onTb_en (f : Tb → Tb) : (s.onTb f).en = s.en := rfl
@[simp] theorem State.onTb_sz (f : Tb → Tb) : (s.onTb f).sz = s.sz := rfl
@[simp] theorem State.onTb_pd (f : Tb → Tb) : (s.onTb f).pd = s.pd := rfl
@[simp] theorem State.onTb_sp (f : Tb → Tb) : (s.onTb f).sp = s.sp := rfl
@[simp] theorem State.onTb_el (f : Tb → Tb) : (s.onTb f).el = s.el := rfl
@[simp] theorem State.onTb_xl (f : Tb → Tb) : (s.onTb f).xl = s.xl := rfl
@[simp] theorem State.onTb_ch (f : Tb → Tb) : (s.onTb f).ch = s.ch := rfl
@[simp] theorem State.onTb_tg (f : Tb → Tb) : (s.onTb f).tg = s.tg := rfl
@[simp] theorem State.onTb_lc (f : Tb → Tb) : (s.onTb f).lc = s.lc := rfl
@[simp] theorem State.onTb_krf (f : Tb → Tb) : (s.onTb f).krf = s.krf := rfl

-- onHg
@[simp] theorem State.onHg_pending (f : Hg → Hg) : (s.onHg f).pending = s.pending := rfl
@[simp] theorem State.onHg_clock (f : Hg → Hg) : (s.onHg f).clock = s.clock := rfl
@[simp] theorem State.onHg_freeCtr (f : Hg → Hg) : (s.onHg f).freeCtr = s.freeCtr := rfl
@[simp] theorem State.onHg_outbox (f : Hg → Hg) : (s.onHg f).outbox = s.outbox := rfl
@[simp] theorem State.onHg_hostMem (f : Hg → Hg) : (s.onHg f).hostMem = s.hostMem := rfl
@[simp] theorem State.onHg_dmaFail (f : Hg → Hg) : (s.onHg f).dmaFail = s.dmaFail := rfl
@[simp] theorem State.onHg_latches (f : Hg → Hg) : (s.onHg f).latches = s.latches := rfl
@[simp] theorem State.onHg_pwr (f : Hg → Hg) : (s.onHg f).pwr = s.pwr := rfl
@[simp] theorem State.onHg_tb (f : Hg → Hg) : (s.onHg f).tb = s.tb := rfl
@[simp] theorem State.onHg_hg (f : Hg → Hg) : (s.onHg f).hg = f s.hg := rfl
@[simp] theorem State.onHg_td (f : Hg → Hg) : (s.onHg f).td = s.td := rfl
@[simp] theorem State.onHg_lg (f : Hg → Hg) : (s.onHg f).lg = s.lg := rfl
@[simp] theorem State.onHg_li (f : Hg → Hg) : (s.onHg f).li = s.li := rfl
@[simp] theorem State.onHg_lh (f : Hg → Hg) : (s.onHg f).lh = s.lh := rfl
@[simp] theorem State.onHg_en (f : Hg → Hg) : (s.onHg f).en = s.en := rfl
@[simp] theorem State.onHg_sz (f : Hg → Hg) : (s.onHg f).sz = s.sz := rfl
@[simp] theorem State.onHg_pd (f : Hg → Hg) : (s.onHg f).pd = s.pd := rfl
@[simp] theorem State.onHg_sp (f : Hg → Hg) : (s.onHg f).sp = s.sp := rfl
@[simp] theorem State.onHg_el (f : Hg → Hg) : (s.onHg f).el = s.el := rfl
@[simp] theorem State.onHg_xl (f : Hg → Hg) : (s.onHg f).xl = s.xl := rfl
@[simp] theorem State.onHg_ch (f : Hg → Hg) : (s.onHg f).ch = s.ch := rfl
@[simp] theorem State.onHg_tg (f : Hg → Hg) : (s.onHg f).tg = s.tg := rfl
@[simp] theorem State.onHg_lc (f : Hg → Hg) : (s.onHg f).lc = s.lc := rfl
@[simp] theorem State.onHg_krf (f : Hg → Hg) : (s.onHg f).krf = s.krf := rfl

-- onTd
@[simp] theorem State.onTd_pending (f : Td → Td) : (s.onTd f).pending = s.pending := rfl
@[simp] theorem State.onTd_clock (f : Td → Td) : (s.onTd f).clock = s.clock := rfl
@[simp] theorem State.onTd_freeCtr (f : Td → Td) : (s.onTd f).freeCtr = s.freeCtr := rfl
@[simp] theorem State.onTd_outbox (f : Td → Td) : (s.onTd f).outbox = s.outbox := rfl
@[simp] theorem State.onTd_hostMem (f : Td → Td) : (s.onTd f).hostMem = s.hostMem := rfl
@[simp] theorem State.onTd_dmaFail (f : Td → Td) : (s.onTd f).dmaFail = s.dmaFail := rfl
@[simp] theorem State.onTd_latches (f : Td → Td) : (s.onTd f).latches = s.latches := rfl
@[simp] theorem State.onTd_pwr (f : Td → Td) : (s.onTd f).pwr = s.pwr := rfl
@[simp] theorem State.onTd_tb (f : Td → Td) : (s.onTd f).tb = s.tb := rfl
@[simp] theorem State.onTd_hg (f : Td → Td) : (s.onTd f).hg = s.hg := rfl
@[simp] theorem State.onTd_td (f : Td → Td) : (s.onTd f).td = f s.td := rfl
@[simp] theorem State.onTd_lg (f : Td → Td) : (s.onTd f).lg = s.lg := rfl
@[simp] theorem State.onTd_li (f : Td → Td) : (s.onTd f).li = s.li := rfl
@[simp] theorem State.onTd_lh (f : Td → Td) : (s.onTd f).lh = s.lh := rfl
@[simp] theorem State.onTd_en (f : Td → Td) : (s.onTd f).en = s.en := rfl
@[simp] theorem State.onTd_sz (f : Td → Td) : (s.onTd f).sz = s.sz := rfl
@[simp] theorem State.onTd_pd (f : Td → Td) : (s.onTd f).pd = s.pd := rfl
@[simp] theorem State.onTd_sp (f : Td → Td) : (s.onTd f).sp = s.sp := rfl
@[simp] theorem State.onTd_el (f : Td → Td) : (s.onTd f).el = s.el := rfl
@[simp] theorem State.onTd_xl (f : Td → Td) : (s.onTd f).xl = s.xl := rfl
@[simp] theorem State.onTd_ch (f : Td → Td) : (s.onTd f).ch = s.ch := rfl
@[simp] theorem State.onTd_tg (f : Td → Td) : (s.onTd f).tg = s.tg := rfl
@[simp] theorem State.onTd_lc (f : Td → Td) : (s.onTd f).lc = s.lc := rfl
@[simp] theorem State.onTd_krf (f : Td → Td) : (s.onTd f).krf = s.krf := rfl

-- onLg
@[simp] theorem State.onLg_pending (f : Lg → Lg) : (s.onLg f).pending = s.pending := rfl
@[simp] theorem State.onLg_clock (f : Lg → Lg) : (s.onLg f).clock = s.clock := rfl
@[simp] theorem State.onLg_freeCtr (f : Lg → Lg) : (s.onLg f).freeCtr = s.freeCtr := rfl
@[simp] theorem State.onLg_outbox (f : Lg → Lg) : (s.onLg f).outbox = s.outbox := rfl
@[simp] theorem State.onLg_hostMem (f : Lg → Lg) : (s.onLg f).hostMem = s.hostMem := rfl
@[simp] theorem State.onLg_dmaFail (f : Lg → Lg) : (s.onLg f).dmaFail = s.dmaFail := rfl
@[simp] theorem State.onLg_latches (f : Lg → Lg) : (s.onLg f).latches = s.latches := rfl
@[simp] theorem State.onLg_pwr (f : Lg → Lg) : (s.onLg f).pwr = s.pwr := rfl
@[simp] theorem State.onLg_tb (f : Lg → Lg) : (s.onLg f).tb = s.tb := rfl
@[simp] theorem State.onLg_hg (f : Lg → Lg) : (s.onLg f).hg = s.hg := rfl
@[simp] theorem State.onLg_td (f : Lg → Lg) : (s.onLg f).td = s.td := rfl
@[simp] theorem State.onLg_lg (f : Lg → Lg) : (s.onLg f).lg = f s.lg := rfl
@[simp] theorem State.onLg_li (f : Lg → Lg) : (s.onLg f).li = s.li := rfl
@[simp] theorem State.onLg_lh (f : Lg → Lg) : (s.onLg f).lh = s.lh := rfl
@[simp] theorem State.onLg_en (f : Lg → Lg) : (s.onLg f).en = s.en := rfl
@[simp] theorem State.onLg_sz (f : Lg → Lg) : (s.onLg f).sz = s.sz := rfl
@[simp] theorem State.onLg_pd (f : Lg → Lg) : (s.onLg f).pd = s.pd := rfl
@[simp] theorem State.onLg_sp (f : Lg → Lg) : (s.onLg f).sp = s.sp := rfl
@[simp] theorem State.onLg_el (f : Lg → Lg) : (s.onLg f).el = s.el := rfl
@[simp] theorem State.onLg_xl (f : Lg → Lg) : (s.onLg f).xl = s.xl := rfl
@[simp] theorem State.onLg_ch (f : Lg → Lg) : (s.onLg f).ch = s.ch := rfl
@[simp] theorem State.onLg_tg (f : Lg → Lg) : (s.onLg f).tg = s.tg := rfl
@[simp] theorem State.onLg_lc (f : Lg → Lg) : (s.onLg f).lc = s.lc := rfl
@[simp] theorem State.onLg_krf (f : Lg → Lg) : (s.onLg f).krf = s.krf := rfl

-- onLi
@[simp] theorem State.onLi_pending (f : Li → Li) : (s.onLi f).pending = s.pending := rfl
@[simp] theorem State.onLi_clock (f : Li → Li) : (s.onLi f).clock = s.clock := rfl
@[simp] theorem State.onLi_freeCtr (f : Li → Li) : (s.onLi f).freeCtr = s.freeCtr := rfl
@[simp] theorem State.onLi_outbox (f : Li → Li) : (s.onLi f).outbox = s.outbox := rfl
@[simp] theorem State.onLi_hostMem (f : Li → Li) : (s.onLi f).hostMem = s.hostMem := rfl
@[simp] theorem State.onLi_dmaFail (f : Li → Li) : (s.onLi f).dmaFail = s.dmaFail := rfl
@[simp] theorem State.onLi_latches (f : Li → Li) : (s.onLi f).latches = s.latches := rfl
@[simp] theorem State.onLi_pwr (f : Li → Li) : (s.onLi f).pwr = s.pwr := rfl
@[simp] theorem State.onLi_tb (f : Li → Li) : (s.onLi f).tb = s.tb := rfl
@[simp] theorem State.onLi_hg (f : Li → Li) : (s.onLi f).hg = s.hg := rfl
@[simp] theorem State.onLi_td (f : Li → Li) : (s.onLi f).td = s.td := rfl
@[simp] theorem State.onLi_lg (f : Li → Li) : (s.onLi f).lg = s.lg := rfl
@[simp] theorem State.onLi_li (f : Li → Li) : (s.onLi f).li = f s.li := rfl
@[simp] theorem State.onLi_lh (f : Li → Li) : (s.onLi f).lh = s.lh := rfl
@[simp] theorem State.onLi_en (f : Li → Li) : (s.onLi f).en = s.en := rfl
@[simp] theorem State.onLi_sz (f : Li → Li) : (s.onLi f).sz = s.sz := rfl
@[simp] theorem State.onLi_pd (f : Li → Li) : (s.onLi f).pd = s.pd := rfl
@[simp] theorem State.onLi_sp (f : Li → Li) : (s.onLi f).sp = s.sp := rfl
@[simp] theorem State.onLi_el (f : Li → Li) : (s.onLi f).el = s.el := rfl
@[simp] theorem State.onLi_xl (f : Li → Li) : (s.onLi f).xl = s.xl := rfl
@[simp] theorem State.onLi_ch (f : Li → Li) : (s.onLi f).ch = s.ch := rfl
@[simp] theorem State.onLi_tg (f : Li → Li) : (s.onLi f).tg = s.tg := rfl
@[simp] theorem State.onLi_lc (f : Li → Li) : (s.onLi f).lc = s.lc := rfl
@[simp] theorem State.onLi_krf (f : Li → Li) : (s.onLi f).krf = s.krf := rfl

-- onLh
@[simp] theorem State.onLh_pending (f : Lh → Lh) : (s.onLh f).pending = s.pending := rfl
@[simp] theorem State.onLh_clock (f : Lh → Lh) : (s.onLh f).clock = s.clock := rfl
@[simp] theorem State.onLh_freeCtr (f : Lh → Lh) : (s.onLh f).freeCtr = s.freeCtr := rfl
@[simp] theorem State.onLh_outbox (f : Lh → Lh) : (s.onLh f).outbox = s.outbox := rfl
@[simp] theorem State.onLh_hostMem (f : Lh → Lh) : (s.onLh f).hostMem = s.hostMem := rfl
@[simp] theorem State.onLh_dmaFail (f : Lh → Lh) : (s.onLh f).dmaFail = s.dmaFail := rfl
@[simp] theorem State.onLh_latches (f : Lh → Lh) : (s.onLh f).latches = s.latches := rfl
@[simp] theorem State.onLh_pwr (f : Lh → Lh) : (s.onLh f).pwr = s.pwr := rfl
@[simp] theorem State.onLh_tb (f : Lh → Lh) : (s.onLh f).tb = s.tb := rfl
@[simp] theorem State.onLh_hg (f : Lh → Lh) : (s.onLh f).hg = s.hg := rfl
@[simp] theorem State.onLh_td (f : Lh → Lh) : (s.onLh f).td = s.td := rfl
@[simp] theorem State.onLh_lg (f : Lh → Lh) : (s.onLh f).lg = s.lg := rfl
@[simp] theorem State.onLh_li (f : Lh → Lh) : (s.onLh f).li = s.li := rfl
@[simp] theorem State.onLh_lh (f : Lh → Lh) : (s.onLh f).lh = f s.lh := rfl
@[simp] theorem State.onLh_en (f : Lh → Lh) : (s.onLh f).en = s.en := rfl
@[simp] theorem State.onLh_sz (f : Lh → Lh) : (s.onLh f).sz = s.sz := rfl
@[simp] theorem State.onLh_pd (f : Lh → Lh) : (s.onLh f).pd = s.pd := rfl
@[simp] theorem State.onLh_sp (f : Lh → Lh) : (s.onLh f).sp = s.sp := rfl
@[simp] theorem State.onLh_el (f : Lh → Lh) : (s.onLh f).el = s.el := rfl
@[simp] theorem State.onLh_xl (f : Lh → Lh) : (s.onLh f).xl = s.xl := rfl
@[simp] theorem State.onLh_ch (f : Lh → Lh) : (s.onLh f).ch = s.ch := rfl
@[simp] theorem State.onLh_tg (f : Lh → Lh) : (s.onLh f).tg = s.tg := rfl
@[simp] theorem State.onLh_lc (f : Lh → Lh) : (s.onLh f).lc = s.lc := rfl
@[simp] theorem State.onLh_krf (f : Lh → Lh) : (s.onLh f).krf = s.krf := rfl

-- onEn
@[simp] theorem State.onEn_pending (f : En → En) : (s.onEn f).pending = s.pending := rfl
@[simp] theorem State.onEn_clock (f : En → En) : (s.onEn f).clock = s.clock := rfl
@[simp] theorem State.onEn_freeCtr (f : En → En) : (s.onEn f).freeCtr = s.freeCtr := rfl
@[simp] theorem State.onEn_outbox (f : En → En) : (s.onEn f).outbox = s.outbox := rfl
@[simp] theorem State.onEn_hostMem (f : En → En) : (s.onEn f).hostMem = s.hostMem := rfl
@[simp] theorem State.onEn_dmaFail (f : En → En) : (s.onEn f).dmaFail = s.dmaFail := rfl
@[simp] theorem State.onEn_latches (f : En → En) : (s.onEn f).latches = s.latches := rfl
@[simp] theorem State.onEn_pwr (f : En → En) : (s.onEn f).pwr = s.pwr := rfl
@[simp] theorem State.onEn_tb (f : En → En) : (s.onEn f).tb = s.tb := rfl
@[simp] theorem State.onEn_hg (f : En → En) : (s.onEn f).hg = s.hg := rfl
@[simp] theorem State.onEn_td (f : En → En) : (s.onEn f).td = s.td := rfl
@[simp] theorem State.onEn_lg (f : En → En) : (s.onEn f).lg = s.lg := rfl
@[simp] theorem State.onEn_li (f : En → En) : (s.onEn f).li = s.li := rfl
@[simp] theorem State.onEn_lh (f : En → En) : (s.onEn f).lh = s.lh := rfl
@[simp] theorem State.onEn_en (f : En → En) : (s.onEn f).en = f s.en := rfl
@[simp] theorem State.onEn_sz (f : En → En) : (s.onEn f).sz = s.sz := rfl
@[simp] theorem State.onEn_pd (f : En → En) : (s.onEn f).pd = s.pd := rfl
@[simp] theorem State.onEn_sp (f : En → En) : (s.onEn f).sp = s.sp := rfl
@[simp] theorem State.onEn_el (f : En → En) : (s.onEn f).el = s.el := rfl
@[simp] theorem State.onEn_xl (f : En → En) : (s.onEn f).xl = s.xl := rfl
@[simp] theorem State.onEn_ch (f : En → En) : (s.onEn f).ch = s.ch := rfl
@[simp] theorem State.onEn_tg (f : En → En) : (s.onEn f).tg = s.tg := rfl
@[simp] theorem State.onEn_lc (f : En → En) : (s.onEn f).lc = s.lc := rfl
@[simp] theorem State.onEn_krf (f : En → En) : (s.onEn f).krf = s.krf := rfl

-- onSz
@[simp] theorem State.onSz_pending (f : Sz → Sz) : (s.onSz f).pending = s.pending := rfl
@[simp] theorem State.onSz_clock (f : Sz → Sz) : (s.onSz f).clock = s.clock := rfl
@[simp] theorem State.onSz_freeCtr (f : Sz → Sz) : (s.onSz f).freeCtr = s.freeCtr := rfl
@[simp] theorem State.onSz_outbox (f : Sz → Sz) : (s.onSz f).outbox = s.outbox := rfl
@[simp] theorem State.onSz_hostMem (f : Sz → Sz) : (s.onSz f).hostMem = s.hostMem := rfl
@[simp] theorem State.onSz_dmaFail (f : Sz → Sz) : (s.onSz f).dmaFail = s.dmaFail := rfl
@[simp] theorem State.onSz_latches (f : Sz → Sz) : (s.onSz f).latches = s.latches := rfl
@[simp] theorem State.onSz_pwr (f : Sz → Sz) : (s.onSz f).pwr = s.pwr := rfl
@[simp] theorem State.onSz_tb (f : Sz → Sz) : (s.onSz f).tb = s.tb := rfl
@[simp] theorem State.onSz_hg (f : Sz → Sz) : (s.onSz f).hg = s.hg := rfl
@[simp] theorem State.onSz_td (f : Sz → Sz) : (s.onSz f).td = s.td := rfl
@[simp] theorem State.onSz_lg (f : Sz → Sz) : (s.onSz f).lg = s.lg := rfl
@[simp] theorem State.onSz_li (f : Sz → Sz) : (s.onSz f).li = s.li := rfl
@[simp] theorem State.onSz_lh (f : Sz → Sz) : (s.onSz f).lh = s.lh := rfl
@[simp] theorem State.onSz_en (f : Sz → Sz) : (s.onSz f).en = s.en := rfl
@[simp] theorem State.onSz_sz (f : Sz → Sz) : (s.onSz f).sz = f s.sz := rfl
@[simp] theorem State.onSz_pd (f : Sz → Sz) : (s.onSz f).pd = s.pd := rfl
@[simp] theorem State.onSz_sp (f : Sz → Sz) : (s.onSz f).sp = s.sp := rfl
@[simp] theorem State.onSz_el (f : Sz → Sz) : (s.onSz f).el = s.el := rfl
@[simp] theorem State.onSz_xl (f : Sz → Sz) : (s.onSz f).xl = s.xl := rfl
@[simp] theorem State.onSz_ch (f : Sz → Sz) : (s.onSz f).ch = s.ch := rfl
@[simp] theorem State.onSz_tg (f : Sz → Sz) : (s.onSz f).tg = s.tg := rfl
@[simp] theorem State.onSz_lc (f : Sz → Sz) : (s.onSz f).lc = s.lc := rfl
@[simp] theorem State.onSz_krf (f : Sz → Sz) : (s.onSz f).krf = s.krf := rfl

-- onPd
@[simp] theorem State.onPd_pending (f : Pd → Pd) : (s.onPd f).pending = s.pending := rfl
@[simp] theorem State.onPd_clock (f : Pd → Pd) : (s.onPd f).clock = s.clock := rfl
@[simp] theorem State.onPd_freeCtr (f : Pd → Pd) : (s.onPd f).freeCtr = s.freeCtr := rfl
@[simp] theorem State.onPd_outbox (f : Pd → Pd) : (s.onPd f).outbox = s.outbox := rfl
@[simp] theorem State.onPd_hostMem (f : Pd → Pd) : (s.onPd f).hostMem = s.hostMem := rfl
@[simp] theorem State.onPd_dmaFail (f : Pd → Pd) : (s.onPd f).dmaFail = s.dmaFail := rfl
@[simp] theorem State.onPd_latches (f : Pd → Pd) : (s.onPd f).latches = s.latches := rfl
@[simp] theorem State.onPd_pwr (f : Pd → Pd) : (s.onPd f).pwr = s.pwr := rfl
@[simp] theorem State.onPd_tb (f : Pd → Pd) : (s.onPd f).tb = s.tb := rfl
@[simp] theorem State.onPd_hg (f : Pd → Pd) : (s.onPd f).hg = s.hg := rfl
@[simp] theorem State.onPd_td (f : Pd → Pd) : (s.onPd f).td = s.td := rfl
@[simp] theorem State.onPd_lg (f : Pd → Pd) : (s.onPd f).lg = s.lg := rfl
@[simp] theorem State.onPd_li (f : Pd → Pd) : (s.onPd f).li = s.li := rfl
@[simp] theorem State.onPd_lh (f : Pd → Pd) : (s.onPd f).lh = s.lh := rfl
@[simp] theorem State.onPd_en (f : Pd → Pd) : (s.onPd f).en = s.en := rfl
@[simp] theorem State.onPd_sz (f : Pd → Pd) : (s.onPd f).sz = s.sz := rfl
@[simp] theorem State.onPd_pd (f : Pd → Pd) : (s.onPd f).pd = f s.pd := rfl
@[simp] theorem State.onPd_sp (f : Pd → Pd) : (s.onPd f).sp = s.sp := rfl
@[simp] theorem State.onPd_el (f : Pd → Pd) : (s.onPd f).el = s.el := rfl
@[simp] theorem State.onPd_xl (f : Pd → Pd) : (s.onPd f).xl = s.xl := rfl
@[simp] theorem State.onPd_ch (f : Pd → Pd) : (s.onPd f).ch = s.ch := rfl
@[simp] theorem State.onPd_tg (f : Pd → Pd) : (s.onPd f).tg = s.tg := rfl
@[simp] theorem State.onPd_lc (f : Pd → Pd) : (s.onPd f).lc = s.lc := rfl
@[simp] theorem State.onPd_krf (f : Pd → Pd) : (s.onPd f).krf = s.krf := rfl

-- onSp
@[simp] theorem State.onSp_pending (f : Sp → Sp) : (s.onSp f).pending = s.pending := rfl
@[simp] theorem State.onSp_clock (f : Sp → Sp) : (s.onSp f).clock = s.clock := rfl
@[simp] theorem State.onSp_freeCtr (f : Sp → Sp) : (s.onSp f).freeCtr = s.freeCtr := rfl
@[simp] theorem State.onSp_outbox (f : Sp → Sp) : (s.onSp f).outbox = s.outbox := rfl
@[simp] theorem State.onSp_hostMem (f : Sp → Sp) : (s.onSp f).hostMem = s.hostMem := rfl
@[simp] theorem State.onSp_dmaFail (f : Sp → Sp) : (s.onSp f).dmaFail = s.dmaFail := rfl
@[simp] theorem State.onSp_latches (f : Sp → Sp) : (s.onSp f).latches = s.latches := rfl
@[simp] theorem State.onSp_pwr (f : Sp → Sp) : (s.onSp f).pwr = s.pwr := rfl
@[simp] theorem State.onSp_tb (f : Sp → Sp) : (s.onSp f).tb = s.tb := rfl
@[simp] theorem State.onSp_hg (f : Sp → Sp) : (s.onSp f).hg = s.hg := rfl
@[simp] theorem State.onSp_td (f : Sp → Sp) : (s.onSp f).td = s.td := rfl
@[simp] theorem State.onSp_lg (f : Sp → Sp) : (s.onSp f).lg = s.lg := rfl
@[simp] theorem State.onSp_li (f : Sp → Sp) : (s.onSp f).li = s.li := rfl
@[simp] theorem State.onSp_lh (f : Sp → Sp) : (s.onSp f).lh = s.lh := rfl
@[simp] theorem State.onSp_en (f : Sp → Sp) : (s.onSp f).en = s.en := rfl
@[simp] theorem State.onSp_sz (f : Sp → Sp) : (s.onSp f).sz = s.sz := rfl
@[simp] theorem State.onSp_pd (f : Sp → Sp) : (s.onSp f).pd = s.pd := rfl
@[simp] theorem State.onSp_sp (f : Sp → Sp) : (s.onSp f).sp = f s.sp := rfl
@[simp] theorem State.onSp_el (f : Sp → Sp) : (s.onSp f).el = s.el := rfl
@[simp] theorem State.onSp_xl (f : Sp → Sp) : (s.onSp f).xl = s.xl := rfl
@[simp] theorem State.onSp_ch (f : Sp → Sp) : (s.onSp f).ch = s.ch := rfl
@[simp] theorem State.onSp_tg (f : Sp → Sp) : (s.onSp f).tg = s.tg := rfl
@[simp] theorem State.onSp_lc (f : Sp → Sp) : (s.onSp f).lc = s.lc := rfl
@[simp] theorem State.onSp_krf (f : Sp → Sp) : (s.onSp f).krf = s.krf := rfl

-- onEl
@[simp] theorem State.onEl_pending (f : El → El) : (s.onEl f).pending = s.pending := rfl
@[simp] theorem State.onEl_clock (f : El → El) : (s.onEl f).clock = s.clock := rfl
@[simp] theorem State.onEl_freeCtr (f : El → El) : (s.onEl f).freeCtr = s.freeCtr := rfl
@[simp] theorem State.onEl_outbox (f : El → El) : (s.onEl f).outbox = s.outbox := rfl
@[simp] theorem State.onEl_hostMem (f : El → El) : (s.onEl f).hostMem = s.hostMem := rfl
@[simp] theorem State.onEl_dmaFail (f : El → El) : (s.onEl f).dmaFail = s.dmaFail := rfl
@[simp] theorem State.onEl_latches (f : El → El) : (s.onEl f).latches = s.latches := rfl
@[simp] theorem State.onEl_pwr (f : El → El) : (s.onEl f).pwr = s.pwr := rfl
@[simp] theorem State.onEl_tb (f : El → El) : (s.onEl f).tb = s.tb := rfl
@[simp] theorem State.onEl_hg (f : El → El) : (s.onEl f).hg = s.hg := rfl
@[simp] theorem State.onEl_td (f : El → El) : (s.onEl f).td = s.td := rfl
@[simp] theorem State.onEl_lg (f : El → El) : (s.onEl f).lg = s.lg := rfl
@[simp] theorem State.onEl_li (f : El → El) : (s.onEl f).li = s.li := rfl
@[simp] theorem State.onEl_lh (f : El → El) : (s.onEl f).lh = s.lh := rfl
@[simp] theorem State.onEl_en (f : El → El) : (s.onEl f).en = s.en := rfl
@[simp] theorem State.onEl_sz (f : El → El) : (s.onEl f).sz = s.sz := rfl
@[simp] theorem State.onEl_pd (f : El → El) : (s.onEl f).pd = s.pd := rfl
@[simp] theorem State.onEl_sp (f : El → El) : (s.onEl f).sp = s.sp := rfl
@[simp] theorem State.onEl_el (f : El → El) : (s.onEl f).el = f s.el := rfl
@[simp] theorem State.onEl_xl (f : El → El) : (s.onEl f).xl = s.xl := rfl
@[simp] theorem State.onEl_ch (f : El → El) : (s.onEl f).ch = s.ch := rfl
@[simp] theorem State.onEl_tg (f : El → El) : (s.onEl f).tg = s.tg := rfl
@[simp] theorem State.onEl_lc (f : El → El) : (s.onEl f).lc = s.lc := rfl
@[simp] theorem State.onEl_krf (f : El → El) : (s.onEl f).krf = s.krf := rfl

-- onXl
@[simp] theorem State.onXl_pending (f : Xl → Xl) : (s.onXl f).pending = s.pending := rfl
@[simp] theorem State.onXl_clock (f : Xl → Xl) : (s.onXl f).clock = s.clock := rfl
@[simp] theorem State.onXl_freeCtr (f : Xl → Xl) : (s.onXl f).freeCtr = s.freeCtr := rfl
@[simp] theorem State.onXl_outbox (f : Xl → Xl) : (s.onXl f).outbox = s.outbox := rfl
@[simp] theorem State.onXl_hostMem (f : Xl → Xl) : (s.onXl f).hostMem = s.hostMem := rfl
@[simp] theorem State.onXl_dmaFail (f : Xl → Xl) : (s.onXl f).dmaFail = s.dmaFail := rfl
@[simp] theorem State.onXl_latches (f : Xl → Xl) : (s.onXl f).latches = s.latches := rfl
@[simp] theorem State.onXl_pwr (f : Xl → Xl) : (s.onXl f).pwr = s.pwr := rfl
@[simp] theorem State.onXl_tb (f : Xl → Xl) : (s.onXl f).tb = s.tb := rfl
@[simp] theorem State.onXl_hg (f : Xl → Xl) : (s.onXl f).hg = s.hg := rfl
@[simp] theorem State.onXl_td (f : Xl → Xl) : (s.onXl f).td = s.td := rfl
@[simp] theorem State.onXl_lg (f : Xl → Xl) : (s.onXl f).lg = s.lg := rfl
@[simp] theorem State.onXl_li (f : Xl → Xl) : (s.onXl f).li = s.li := rfl
@[simp] theorem State.onXl_lh (f : Xl → Xl) : (s.onXl f).lh = s.lh := rfl
@[simp] theorem State.onXl_en (f : Xl → Xl) : (s.onXl f).en = s.en := rfl
@[simp] theorem State.onXl_sz (f : Xl → Xl) : (s.onXl f).sz = s.sz := rfl
@[simp] theorem State.onXl_pd (f : Xl → Xl) : (s.onXl f).pd = s.pd := rfl
@[simp] theorem State.onXl_sp (f : Xl → Xl) : (s.onXl f).sp = s.sp := rfl
@[simp] theorem State.onXl_el (f : Xl → Xl) : (s.onXl f).el = s.el := rfl
@[simp] theorem State.onXl_xl (f : Xl → Xl) : (s.onXl f).xl = f s.xl := rfl
@[simp] theorem State.onXl_ch (f : Xl → Xl) : (s.onXl f).ch = s.ch := rfl
@[simp] theorem State.onXl_tg (f : Xl → Xl) : (s.onXl f).tg = s.tg := rfl
@[simp] theorem State.onXl_lc (f : Xl → Xl) : (s.onXl f).lc = s.lc := rfl
@[simp] theorem State.onXl_krf (f : Xl → Xl) : (s.onXl f).krf = s.krf := rfl

-- onCh
@[simp] theorem State.onCh_pending (f : Ch → Ch) : (s.onCh f).pending = s.pending := rfl
@[simp] theorem State.onCh_clock (f : Ch → Ch) : (s.onCh f).clock = s.clock := rfl
@[simp] theorem State.onCh_freeCtr (f : Ch → Ch) : (s.onCh f).freeCtr = s.freeCtr := rfl
@[simp] theorem State.onCh_outbox (f : Ch → Ch) : (s.onCh f).outbox = s.outbox := rfl
@[simp] theorem State.onCh_hostMem (f : Ch → Ch) : (s.onCh f).hostMem = s.hostMem := rfl
@[simp] theorem State.onCh_dmaFail (f : Ch → Ch) : (s.onCh f).dmaFail = s.dmaFail := rfl
@[simp] theorem State.onCh_latches (f : Ch → Ch) : (s.onCh f).latches = s.latches := rfl
@[simp] theorem State.onCh_pwr (f : Ch → Ch) : (s.onCh f).pwr = s.pwr := rfl
@[simp] theorem State.onCh_tb (f : Ch → Ch) : (s.onCh f).tb = s.tb := rfl
@[simp] theorem State.onCh_hg (f : Ch → Ch) : (s.onCh f).hg = s.hg := rfl
@[simp] theorem State.onCh_td (f : Ch → Ch) : (s.onCh f).td = s.td := rfl
@[simp] theorem State.onCh_lg (f : Ch → Ch) : (s.onCh f).lg = s.lg := rfl
@[simp] theorem State.onCh_li (f : Ch → Ch) : (s.onCh f).li = s.li := rfl
@[simp] theorem State.onCh_lh (f : Ch → Ch) : (s.onCh f).lh = s.lh := rfl
@[simp] theorem State.onCh_en (f : Ch → Ch) : (s.onCh f).en = s.en := rfl
@[simp] theorem State.onCh_sz (f : Ch → Ch) : (s.onCh f).sz = s.sz := rfl
@[simp] theorem State.onCh_pd (f : Ch → Ch) : (s.onCh f).pd = s.pd := rfl
@[simp] theorem State.onCh_sp (f : Ch → Ch) : (s.onCh f).sp = s.sp := rfl
@[simp] theorem State.onCh_el (f : Ch → Ch) : (s.onCh f).el = s.el := rfl
@[simp] theorem State.onCh_xl (f : Ch → Ch) : (s.onCh f).xl = s.xl := rfl
@[simp] theorem State.onCh_ch (f : Ch → Ch) : (s.onCh f).ch = f s.ch := rfl
@[simp] theorem State.onCh_tg (f : Ch → Ch) : (s.onCh f).tg = s.tg := rfl
@[simp] theorem State.onCh_lc (f : Ch → Ch) : (s.onCh f).lc = s.lc := rfl
@[simp] theorem State.onCh_krf (f : Ch → Ch) : (s.onCh f).krf = s.krf := rfl

-- onTg
@[simp] theorem State.onTg_pending (f : Tg → Tg) : (s.onTg f).pending = s.pending := rfl
@[simp] theorem State.onTg_clock (f : Tg → Tg) : (s.onTg f).clock = s.clock := rfl
@[simp] theorem State.onTg_freeCtr (f : Tg → Tg) : (s.onTg f).freeCtr = s.freeCtr := rfl
@[simp] theorem State.onTg_outbox (f : Tg → Tg) : (s.onTg f).outbox = s.outbox := rfl
@[simp] theorem State.onTg_hostMem (f : Tg → Tg) : (s.onTg f).hostMem = s.hostMem := rfl
@[simp] theorem State.onTg_dmaFail (f : Tg → Tg) : (s.onTg f).dmaFail = s.dmaFail := rfl
@[simp] theorem State.onTg_latches (f : Tg → Tg) : (s.onTg f).latches = s.latches := rfl
@[simp] theorem State.onTg_pwr (f : Tg → Tg) : (s.onTg f).pwr = s.pwr := rfl
@[simp] theorem State.onTg_tb (f : Tg → Tg) : (s.onTg f).tb = s.tb := rfl
@[simp] theorem State.onTg_hg (f : Tg → Tg) : (s.onTg f).hg = s.hg := rfl
@[simp] theorem State.onTg_td (f : Tg → Tg) : (s.onTg f).td = s.td := rfl
@[simp] theorem State.onTg_lg (f : Tg → Tg) : (s.onTg f).lg = s.lg := rfl
@[simp] theorem State.onTg_li (f : Tg → Tg) : (s.onTg f).li = s.li := rfl
@[simp] theorem State.onTg_lh (f : Tg → Tg) : (s.onTg f).lh = s.lh := rfl
@[simp] theorem State.onTg_en (f : Tg → Tg) : (s.onTg f).en = s.en := rfl
@[simp] theorem State.onTg_sz (f : Tg → Tg) : (s.onTg f).sz = s.sz := rfl
@[simp] theorem State.onTg_pd (f : Tg → Tg) : (s.onTg f).pd = s.pd := rfl
@[simp] theorem State.onTg_sp (f : Tg → Tg) : (s.onTg f).sp = s.sp := rfl
@[simp] theorem State.onTg_el (f : Tg → Tg) : (s.onTg f).el = s.el := rfl
@[simp] theorem State.onTg_xl (f : Tg → Tg) : (s.onTg f).xl = s.xl := rfl
@[simp] theorem State.onTg_ch (f : Tg → Tg) : (s.onTg f).ch = s.ch := rfl
@[simp] theorem State.onTg_tg (f : Tg → Tg) : (s.onTg f).tg = f s.tg := rfl
@[simp] theorem State.onTg_lc (f : Tg → Tg) : (s.onTg f).lc = s.lc := rfl
@[simp] theorem State.onTg_krf (f : Tg → Tg) : (s.onTg f).krf = s.krf := rfl

-- onLc
@[simp] theorem State.onLc_pending (f : Lc → Lc) : (s.onLc f).pending = s.pending := rfl
@[simp] theorem State.onLc_clock (f : Lc → Lc) : (s.onLc f).clock = s.clock := rfl
@[simp] theorem State.onLc_freeCtr (f : Lc → Lc) : (s.onLc f).freeCtr = s.freeCtr := rfl
@[simp] theorem State.onLc_outbox (f : Lc → Lc) : (s.onLc f).outbox = s.outbox := rfl
@[simp] theorem State.onLc_hostMem (f : Lc → Lc) : (s.onLc f).hostMem = s.hostMem := rfl
@[simp] theorem State.onLc_dmaFail (f : Lc → Lc) : (s.onLc f).dmaFail = s.dmaFail := rfl
@[simp] theorem State.onLc_latches (f : Lc → Lc) : (s.onLc f).latches = s.latches := rfl
@[simp] theorem State.onLc_pwr (f : Lc → Lc) : (s.onLc f).pwr = s.pwr := rfl
@[simp] theorem State.onLc_tb (f : Lc → Lc) : (s.onLc f).tb = s.tb := rfl
@[simp] theorem State.onLc_hg (f : Lc → Lc) : (s.onLc f).hg = s.hg := rfl
@[simp] theorem State.onLc_td (f : Lc → Lc) : (s.onLc f).td = s.td := rfl
@[simp] theorem State.onLc_lg (f : Lc → Lc) : (s.onLc f).lg = s.lg := rfl
@[simp] theorem State.onLc_li (f : Lc → Lc) : (s.onLc f).li = s.li := rfl
@[simp] theorem State.onLc_lh (f : Lc → Lc) : (s.onLc f).lh = s.lh := rfl
@[simp] theorem State.onLc_en (f : Lc → Lc) : (s.onLc f).en = s.en := rfl
@[simp] theorem State.onLc_sz (f : Lc → Lc) : (s.onLc f).sz = s.sz := rfl
@[simp] theorem State.onLc_pd (f : Lc → Lc) : (s.onLc f).pd = s.pd := rfl
@[simp] theorem State.onLc_sp (f : Lc → Lc) : (s.onLc f).sp = s.sp := rfl
@[simp] theorem State.onLc_el (f : Lc → Lc) : (s.onLc f).el = s.el := rfl
@[simp] theorem State.onLc_xl (f : Lc → Lc) : (s.onLc f).xl = s.xl := rfl
@[simp] theorem State.onLc_ch (f : Lc → Lc) : (s.onLc f).ch = s.ch := rfl
@[simp] theorem State.onLc_tg (f : Lc → Lc) : (s.onLc f).tg = s.tg := rfl
@[simp] theorem State.onLc_lc (f : Lc → Lc) : (s.onLc f).lc = f s.lc := rfl
@[simp] theorem State.onLc_krf (f : Lc → Lc) : (s.onLc f).krf = s.krf := rfl

-- onKrf
@[simp] theorem State.onKrf_pending (f : Krf → Krf) : (s.onKrf f).pending = s.pending := rfl
@[simp] theorem State.onKrf_clock (f : Krf → Krf) : (s.onKrf f).clock = s.clock := rfl
@[simp] theorem State.onKrf_freeCtr (f : Krf → Krf) : (s.onKrf f).freeCtr = s.freeCtr := rfl
@[simp] theorem State.onKrf_outbox (f : Krf → Krf) : (s.onKrf f).outbox = s.outbox := rfl
@[simp] theorem State.onKrf_hostMem (f : Krf → Krf) : (s.onKrf f).hostMem = s.hostMem := rfl
@[simp] theorem State.onKrf_dmaFail (f : Krf → Krf) : (s.onKrf f).dmaFail = s.dmaFail := rfl
@[simp] theorem State.onKrf_latches (f : Krf → Krf) : (s.onKrf f).latches = s.latches := rfl
@[simp] theorem State.onKrf_pwr (f : Krf → Krf) : (s.onKrf f).pwr = s.pwr := rfl
@[simp] theorem State.onKrf_tb (f : Krf → Krf) : (s.onKrf f).tb = s.tb := rfl
@[simp] theorem State.onKrf_hg (f : Krf → Krf) : (s.onKrf f).hg = s.hg := rfl
@[simp] theorem State.onKrf_td (f : Krf → Krf) : (s.onKrf f).td = s.td := rfl
@[simp] theorem State.onKrf_lg (f : Krf → Krf) : (s.onKrf f).lg = s.lg := rfl
@[simp] theorem State.onKrf_li (f : Krf → Krf) : (s.onKrf f).li = s.li := rfl
@[simp] theorem State.onKrf_lh (f : Krf → Krf) : (s.onKrf f).lh = s.lh := rfl
@[simp] theorem State.onKrf_en (f : Krf → Krf) : (s.onKrf f).en = s.en := rfl
@[simp] theorem State.onKrf_sz (f : Krf → Krf) : (s.onKrf f).sz = s.sz := rfl
@[simp] theorem State.onKrf_pd (f : Krf → Krf) : (s.onKrf f).pd = s.pd := rfl
@[simp] theorem State.onKrf_sp (f : Krf → Krf) : (s.onKrf f).sp = s.sp := rfl
@[simp] theorem State.onKrf_el (f : Krf → Krf) : (s.onKrf f).el = s.el := rfl
@[simp] theorem State.onKrf_xl (f : Krf → Krf) : (s.onKrf f).xl = s.xl := rfl
@[simp] theorem State.onKrf_ch (f : Krf → Krf) : (s.onKrf f).ch = s.ch := rfl
@[simp] theorem State.onKrf_tg (f : Krf → Krf) : (s.onKrf f).tg = s.tg := rfl
@[simp] theorem State.onKrf_lc (f : Krf → Krf) : (s.onKrf f).lc = s.lc := rfl
@[simp] theorem State.onKrf_krf (f : Krf → Krf) : (s.onKrf f).krf = f s.krf := rfl

-- emit
@[simp] theorem State.emit_pending (o : Out) : (s.emit o).pending = s.pending := rfl
@[simp] theorem State.emit_clock (o : Out) : (s.emit o).clock = s.clock := rfl
@[simp] theorem State.emit_freeCtr (o : Out) : (s.emit o).freeCtr = s.freeCtr := rfl
@[simp] theorem State.emit_outbox (o : Out) : (s.emit o).outbox = s.outbox ++ [o] := rfl
@[simp] theorem State.emit_hostMem (o : Out) : (s.emit o).hostMem = s.hostMem := rfl
@[simp] theorem State.emit_dmaFail (o : Out) : (s.emit o).dmaFail = s.dmaFail := rfl
@[simp] theorem State.emit_latches (o : Out) : (s.emit o).latches = s.latches := rfl
@[simp] theorem State.emit_pwr (o : Out) : (s.emit o).pwr = s.pwr := rfl
@[simp] theorem State.emit_tb (o : Out) : (s.emit o).tb = s.tb := rfl
@[simp] theorem State.emit_hg (o : Out) : (s.emit o).hg = s.hg := rfl
@[simp] theorem State.emit_td (o : Out) : (s.emit o).td = s.td := rfl
@[simp] theorem State.emit_lg (o : Out) : (s.emit o).lg = s.lg := rfl
@[simp] theorem State.emit_li (o : Out) : (s.emit o).li = s.li := rfl
@[simp] theorem State.emit_lh (o : Out) : (s.emit o).lh = s.lh := rfl
@[simp] theorem State.emit_en (o : Out) : (s.emit o).en = s.en := rfl
@[simp] theorem State.emit_sz (o : Out) : (s.emit o).sz = s.sz := rfl
@[simp] theorem State.emit_pd (o : Out) : (s.emit o).pd = s.pd := rfl
@[simp] theorem State.emit_sp (o : Out) : (s.emit o).sp = s.sp := rfl
@[simp] theorem State.emit_el (o : Out) : (s.emit o).el = s.el := rfl
@[simp] theorem State.emit_xl (o : Out) : (s.emit o).xl = s.xl := rfl
@[simp] theorem State.emit_ch (o : Out) : (s.emit o).ch = s.ch := rfl
@[simp] theorem State.emit_tg (o : Out) : (s.emit o).tg = s.tg := rfl
@[simp] theorem State.emit_lc (o : Out) : (s.emit o).lc = s.lc := rfl
@[simp] theorem State.emit_krf (o : Out) : (s.emit o).krf = s.krf := rfl

-- takeFree
@[simp] theorem State.takeFree_pending (n : Nat) : (s.takeFree n).pending = s.pending := rfl
@[simp] theorem State.takeFree_clock (n : Nat) : (s.takeFree n).clock = s.clock := rfl
@[simp] theorem State.takeFree_freeCtr (n : Nat) : (s.takeFree n).freeCtr = s.freeCtr + n := rfl
@[simp] theorem State.takeFree_outbox (n : Nat) : (s.takeFree n).outbox = s.outbox := rfl
@[simp] theorem State.takeFree_hostMem (n : Nat) : (s.takeFree n).hostMem = s.hostMem := rfl
@[simp] theorem State.takeFree_dmaFail (n : Nat) : (s.takeFree n).dmaFail = s.dmaFail := rfl
@[simp] theorem State.takeFree_latches (n : Nat) : (s.takeFree n).latches = s.latches := rfl
@[simp] theorem State.takeFree_pwr (n : Nat) : (s.takeFree n).pwr = s.pwr := rfl
@[simp] theorem State.takeFree_tb (n : Nat) : (s.takeFree n).tb = s.tb := rfl
@[simp] theorem State.takeFree_hg (n : Nat) : (s.takeFree n).hg = s.hg := rfl
@[simp] theorem State.takeFree_td (n : Nat) : (s.takeFree n).td = s.td := rfl
@[simp] theorem State.takeFree_lg (n : Nat) : (s.takeFree n).lg = s.lg := rfl
@[simp] theorem State.takeFree_li (n : Nat) : (s.takeFree n).li = s.li := rfl
@[simp] theorem State.takeFree_lh (n : Nat) : (s.takeFree n).lh = s.lh := rfl
@[simp] theorem State.takeFree_en (n : Nat) : (s.takeFree n).en = s.en := rfl
@[simp] theorem State.takeFree_sz (n : Nat) : (s.takeFree n).sz = s.sz := rfl
@[simp] theorem State.takeFree_pd (n : Nat) : (s.takeFree n).pd = s.pd := rfl
@[simp] theorem State.takeFree_sp (n : Nat) : (s.takeFree n).sp = s.sp := rfl
@[simp] theorem State.takeFree_el (n : Nat) : (s.takeFree n).el = s.el := rfl
@[simp] theorem State.takeFree_xl (n : Nat) : (s.takeFree n).xl = s.xl := rfl
@[simp] theorem State.takeFree_ch (n : Nat) : (s.takeFree n).ch = s.ch := rfl
@[simp] theorem State.takeFree_tg (n : Nat) : (s.takeFree n).tg = s.tg := rfl
@[simp] theorem State.takeFree_lc (n : Nat) : (s.takeFree n).lc = s.lc := rfl
@[simp] theorem State.takeFree_krf (n : Nat) : (s.takeFree n).krf = s.krf := rfl

-- latch
@[simp] theorem State.latch_pending (r : RcReg) (b : Nat) : (s.latch r b).pending = s.pending := rfl
@[simp] theorem State.latch_clock (r : RcReg) (b : Nat) : (s.latch r b).clock = s.clock := rfl
@[simp] theorem State.latch_freeCtr (r : RcReg) (b : Nat) : (s.latch r b).freeCtr = s.freeCtr := rfl
@[simp] theorem State.latch_outbox (r : RcReg) (b : Nat) : (s.latch r b).outbox = s.outbox := rfl
@[simp] theorem State.latch_hostMem (r : RcReg) (b : Nat) : (s.latch r b).hostMem = s.hostMem := rfl
@[simp] theorem State.latch_dmaFail (r : RcReg) (b : Nat) : (s.latch r b).dmaFail = s.dmaFail := rfl
@[simp] theorem State.latch_pwr (r : RcReg) (b : Nat) : (s.latch r b).pwr = s.pwr := rfl
@[simp] theorem State.latch_tb (r : RcReg) (b : Nat) : (s.latch r b).tb = s.tb := rfl
@[simp] theorem State.latch_hg (r : RcReg) (b : Nat) : (s.latch r b).hg = s.hg := rfl
@[simp] theorem State.latch_td (r : RcReg) (b : Nat) : (s.latch r b).td = s.td := rfl
@[simp] theorem State.latch_lg (r : RcReg) (b : Nat) : (s.latch r b).lg = s.lg := rfl
@[simp] theorem State.latch_li (r : RcReg) (b : Nat) : (s.latch r b).li = s.li := rfl
@[simp] theorem State.latch_lh (r : RcReg) (b : Nat) : (s.latch r b).lh = s.lh := rfl
@[simp] theorem State.latch_en (r : RcReg) (b : Nat) : (s.latch r b).en = s.en := rfl
@[simp] theorem State.latch_sz (r : RcReg) (b : Nat) : (s.latch r b).sz = s.sz := rfl
@[simp] theorem State.latch_pd (r : RcReg) (b : Nat) : (s.latch r b).pd = s.pd := rfl
@[simp] theorem State.latch_sp (r : RcReg) (b : Nat) : (s.latch r b).sp = s.sp := rfl
@[simp] theorem State.latch_el (r : RcReg) (b : Nat) : (s.latch r b).el = s.el := rfl
@[simp] theorem State.latch_xl (r : RcReg) (b : Nat) : (s.latch r b).xl = s.xl := rfl
@[simp] theorem State.latch_ch (r : RcReg) (b : Nat) : (s.latch r b).ch = s.ch := rfl
@[simp] theorem State.latch_tg (r : RcReg) (b : Nat) : (s.latch r b).tg = s.tg := rfl
@[simp] theorem State.latch_lc (r : RcReg) (b : Nat) : (s.latch r b).lc = s.lc := rfl
@[simp] theorem State.latch_krf (r : RcReg) (b : Nat) : (s.latch r b).krf = s.krf := rfl

-- clearLatch
@[simp] theorem State.clearLatch_pending (r : RcReg) (v : Viewer) : (s.clearLatch r v).pending = s.pending := rfl
@[simp] theorem State.clearLatch_clock (r : RcReg) (v : Viewer) : (s.clearLatch r v).clock = s.clock := rfl
@[simp] theorem State.clearLatch_freeCtr (r : RcReg) (v : Viewer) : (s.clearLatch r v).freeCtr = s.freeCtr := rfl
@[simp] theorem State.clearLatch_outbox (r : RcReg) (v : Viewer) : (s.clearLatch r v).outbox = s.outbox := rfl
@[simp] theorem State.clearLatch_hostMem (r : RcReg) (v : Viewer) : (s.clearLatch r v).hostMem = s.hostMem := rfl
@[simp] theorem State.clearLatch_dmaFail (r : RcReg) (v : Viewer) : (s.clearLatch r v).dmaFail = s.dmaFail := rfl
@[simp] theorem State.clearLatch_pwr (r : RcReg) (v : Viewer) : (s.clearLatch r v).pwr = s.pwr := rfl
@[simp] theorem State.clearLatch_tb (r : RcReg) (v : Viewer) : (s.clearLatch r v).tb = s.tb := rfl
@[simp] theorem State.clearLatch_hg (r : RcReg) (v : Viewer) : (s.clearLatch r v).hg = s.hg := rfl
@[simp] theorem State.clearLatch_td (r : RcReg) (v : Viewer) : (s.clearLatch r v).td = s.td := rfl
@[simp] theorem State.clearLatch_lg (r : RcReg) (v : Viewer) : (s.clearLatch r v).lg = s.lg := rfl
@[simp] theorem State.clearLatch_li (r : RcReg) (v : Viewer) : (s.clearLatch r v).li = s.li := rfl
@[simp] theorem State.clearLatch_lh (r : RcReg) (v : Viewer) : (s.clearLatch r v).lh = s.lh := rfl
@[simp] theorem State.clearLatch_en (r : RcReg) (v : Viewer) : (s.clearLatch r v).en = s.en := rfl
@[simp] theorem State.clearLatch_sz (r : RcReg) (v : Viewer) : (s.clearLatch r v).sz = s.sz := rfl
@[simp] theorem State.clearLatch_pd (r : RcReg) (v : Viewer) : (s.clearLatch r v).pd = s.pd := rfl
@[simp] theorem State.clearLatch_sp (r : RcReg) (v : Viewer) : (s.clearLatch r v).sp = s.sp := rfl
@[simp] theorem State.clearLatch_el (r : RcReg) (v : Viewer) : (s.clearLatch r v).el = s.el := rfl
@[simp] theorem State.clearLatch_xl (r : RcReg) (v : Viewer) : (s.clearLatch r v).xl = s.xl := rfl
@[simp] theorem State.clearLatch_ch (r : RcReg) (v : Viewer) : (s.clearLatch r v).ch = s.ch := rfl
@[simp] theorem State.clearLatch_tg (r : RcReg) (v : Viewer) : (s.clearLatch r v).tg = s.tg := rfl
@[simp] theorem State.clearLatch_lc (r : RcReg) (v : Viewer) : (s.clearLatch r v).lc = s.lc := rfl
@[simp] theorem State.clearLatch_krf (r : RcReg) (v : Viewer) : (s.clearLatch r v).krf = s.krf := rfl

end Sys2Proof.Machine
end

