-- ==== Sys2Proof/Tests/Slice0.lean ====
section
/-! SUPPORT. Tests: an ill-formed command for each check of WellFormed; results the manual works out; and, for each statement
with hypotheses, a state and operands that meet them. -/

namespace Sys2Proof.Tests

open Sys2Proof.Machine

/-! ### WellFormed -/

def aHdr : LinkHdr :=
  { port := 0, vc := 0, wentDown := false, creditVc := 0, creditCount := 0, dest := 1, src := 2, seq := 1, length := 8,
    reqId := 0, tagOk := true }
def aRole : RoleFields :=
  { slot := 0, roleEpoch := 0, home := 0, mirror := 1, leased := false, mirrored := true, serial := 0, leases := [] }
def aCert : Cert :=
  { role := 1, serial := 0, notBefore := 0, notAfter := 1, subject := List.replicate 32 0,
    issuerDigest := List.replicate 32 0, publicKey := List.replicate 97 0, formatOk := true, sigOk := true }
def aCard : CardFacts :=
  { cmd8Ok := true, ready := true, ccs := true, s18a := true, supported := true, cmd11Ok := true, modes := [1], taps := 0,
    label := List.replicate 512 0, wp := false }

theorem test_wf_viewer : (Instr.stagingTimeout (.tenant 64)).wf = false := by decide
theorem test_wf_peer : (Instr.stagingTimeout (.peer 4)).wf = false := by decide
theorem test_wf_window : (Instr.cqHeadDb (.window 0 65536) 0).wf = false := by decide
theorem test_wf_bar2 : (Instr.cqHeadDb (.bar2 0x100000) 0).wf = false := by decide
theorem test_wf_config : (Instr.rcRead (.tenant 0) (.config 0 (.ideControl 4)) 4).wf = false := by decide
theorem test_wf_bar4 : (Instr.rcRead (.tenant 0) (.bar4 0 8192) 4).wf = false := by decide
theorem test_wf_env_blocks : (Instr.rebuildStart { blocks := [(2 ^ 64, [0])] }).wf = false := by decide
theorem test_wf_env_failing : (Instr.rebuildStart { failing := some [(2, 1)] }).wf = false := by decide
theorem test_wf_noise : (Instr.perstAssert [5]).wf = false := by decide
theorem test_wf_fn : (Instr.functionLevelReset 64).wf = false := by decide
theorem test_wf_pair : (Instr.cqStallTimeout 0 8).wf = false := by decide
theorem test_wf_island : (Instr.islandLock 288).wf = false := by decide
theorem test_wf_monitor : (Instr.eraseAlarm ⟨65536, .check⟩).wf = false := by decide
theorem test_wf_monitors : (Instr.vaultModeAlarm [⟨65536, .check⟩]).wf = false := by decide
theorem test_wf_differing : (Instr.shieldCompare [65536]).wf = false := by decide
theorem test_wf_channels : (Instr.selfTestStart [] 0).wf = false := by decide
theorem test_wf_gate : (Instr.gateOwnerWrite .maker 65536 0).wf = false := by decide
theorem test_wf_slot_window : (Instr.windowReassignComplete 2048).wf = false := by decide
theorem test_wf_tenant : (Instr.slotReopen 64).wf = false := by decide
theorem test_wf_engine : (Instr.lieCommandComplete 96 false).wf = false := by decide
theorem test_wf_unit : (Instr.latticeSignRound 24).wf = false := by decide
theorem test_wf_sources : (Instr.entropyHealthFail [5] 0).wf = false := by decide
theorem test_wf_source : (Instr.conditioningBlock ⟨5, List.replicate 144 0⟩).wf = false := by
  simp only [Instr.wf, List.length_replicate]; decide
theorem test_wf_samples : (Instr.conditioningBlock ⟨4, []⟩).wf = false := by decide
theorem test_wf_instance : (Instr.drbgReseedCount 256).wf = false := by decide
theorem test_wf_core : (Instr.nop 192).wf = false := by decide
theorem test_wf_applet_slot : (Instr.mbInboundCopy 176).wf = false := by decide
theorem test_wf_value : (Instr.write .maker 0 0 0 false 0 (List.replicate 4097 0) {}).wf = false := by
  simp only [Instr.wf, List.length_replicate]; decide
theorem test_wf_source_ip : (Instr.finishC ⟨2 ^ 32, 0⟩ 0 true true).wf = false := by decide
theorem test_wf_session : (Instr.yilileClose ⟨0, 0⟩ (2 ^ 64) 0 true).wf = false := by decide
theorem test_wf_plain : (Instr.yilileData ⟨0, 0⟩ 0 0 true (List.replicate 1425 0)).wf = false := by
  simp only [Instr.wf, List.length_replicate]; decide
theorem test_wf_mac : (Instr.arpRequest 0 (2 ^ 48) 0).wf = false := by decide
theorem test_wf_ip : (Instr.arpCacheExpiry (2 ^ 32)).wf = false := by decide
theorem test_wf_speed : (Instr.phyPoll none 3).wf = false := by decide
theorem test_wf_digest : (Instr.spRootDigestWrite .regulator ⟨[], true⟩).wf = false := by decide
theorem test_wf_found : (Instr.parityScan (some (.bar2 (2 ^ 20), .main))).wf = false := by decide
theorem test_wf_vector : (Instr.msixUnmask 0 32).wf = false := by decide
theorem test_wf_open_ack : (Instr.openAck { reelId := 0, heldCount := 0, heldContinuity := [], recorderKey := [], runOut := 0, sigOk := true }).wf = false := by decide
theorem test_wf_status : (Instr.statusFrame ⟨0, 0, 0, 0, 2 ^ 32, false, false, true⟩).wf = false := by decide
theorem test_wf_reel : (Instr.recorderRefuse (2 ^ 64)).wf = false := by decide
theorem test_wf_port : (Instr.portLanesLocked 4).wf = false := by decide
theorem test_wf_vc : (Instr.creditStallTimer 0 4).wf = false := by decide
theorem test_wf_hello : (Instr.hello 0 { unitId := 0, fleetId := 0, memberId := 65536, certOk := true, signed := true, sigOk := true }).wf = false := by decide
theorem test_wf_header : (Instr.heartbeat { aHdr with port := 4 }).wf = false := by decide
theorem test_wf_frame_type : (Instr.linkFrameDiscard aHdr 256).wf = false := by decide
theorem test_wf_slot : (Instr.leaseReq aHdr 2097152).wf = false := by decide
theorem test_wf_lease : (Instr.leaseGrant aHdr 0 ⟨2 ^ 64, 0⟩).wf = false := by decide
theorem test_wf_role : (Instr.handover aHdr { aRole with home := 65536 }).wf = false := by decide
theorem test_wf_mirror : (Instr.mirrorRec aHdr ⟨0, 0, 0, 0, []⟩).wf = false := by decide
theorem test_wf_epoch : (Instr.roleNotice aHdr 0 65536).wf = false := by decide
theorem test_wf_serial : (Instr.mirrorAck aHdr 0 0 (2 ^ 64)).wf = false := by decide
theorem test_wf_slots : (Instr.release aHdr [2097152]).wf = false := by decide
theorem test_wf_member : (Instr.memberLoss 1024).wf = false := by decide
theorem test_wf_dir_req : (Instr.dirReq aHdr (List.replicate 4089 0)).wf = false := by
  simp only [Instr.wf, List.length_replicate]; decide
theorem test_wf_dir_resp : (Instr.dirResp aHdr (List.replicate 4089 0)).wf = false := by
  simp only [Instr.wf, List.length_replicate]; decide
theorem test_wf_claim : (Instr.ceremonyClaim aHdr (2 ^ 64)).wf = false := by decide
theorem test_wf_cert : (Instr.helloC ⟨⟨0, 0⟩, List.replicate 32 0, List.replicate 97 0, true, aCert,
    { aCert with role := 256 }⟩).wf = false := by decide
theorem test_wf_card : (Instr.cardInsertion { aCard with modes := [8] }).wf = false := by
  simp only [Instr.wf, CardFacts.wf, aCard, List.length_replicate]; decide
theorem test_wf_tap : (Instr.cardRetuneTimer 0 (2 ^ 32)).wf = false := by decide
theorem test_wf_temperature : (Instr.cardTempPoll 128 0 0).wf = false := by decide
theorem test_wf_alarm_source : (Instr.holdSourceInRange 14).wf = false := by decide
theorem test_wf_gangway : (Instr.gangwayRekeyed 13).wf = false := by decide
theorem test_wf_lc_auth : (Instr.lcAuth []).wf = false := by decide
theorem test_wf_dbg_dir : (Instr.dbgDir (List.replicate 4097 0)).wf = false := by
  simp only [Instr.wf, List.length_replicate]; decide
theorem test_wf_lane : (Instr.escrowLaneBlockLock 4 true).wf = false := by decide
theorem test_wf_codeword : (Instr.uncorrectableCodeword true 4).wf = false := by decide
theorem test_wf_reference : (Instr.referenceStop 4).wf = false := by decide
theorem test_wf_ok : (Instr.cardInsertion aCard).wf = true := by
  simp only [Instr.wf, CardFacts.wf, aCard, List.length_replicate]; decide
theorem test_wf_ok_link : (Instr.handover aHdr aRole).wf = true := by decide

/-! ### Witnesses: states and operands that meet the hypotheses of the statements -/

/-- `Writable`, evaluated. -/
def canWrite (s : State) (v : Viewer) (index sub n : Nat) : Bool :=
  s.viewerActive v && s.pd.deferred.isNone && s.pd.waiting.isEmpty && !s.sp.closing && match findObj index sub with
    | none => false
    | some o => !s.entryDenied v o index sub 2 n && s.accepted o index sub (.num n)
      && (o.apply ≠ .now || s.en.firstSeed || s.beforeSeed index sub) && (o.apply ≠ .off || !s.offEnabled index)

theorem writable {s : State} {v : Viewer} {index sub n : Nat} (h : canWrite s v index sub n = true) :
    Writable s v index sub n := by
  unfold canWrite at h
  split at h
  · simp at h
  · rename_i o ho
    simp only [Bool.and_eq_true, Option.isNone_iff_eq_none, List.isEmpty_iff, Bool.not_eq_true', Bool.or_eq_true,
      decide_eq_true_eq, ne_eq] at h
    obtain ⟨⟨⟨⟨h1, h2⟩, hw⟩, hc⟩, ⟨⟨h3, h4⟩, h5⟩, h6⟩ := h
    refine ⟨h1, ⟨h2, hw, hc⟩, o, ho, h3, h4, fun ha => ?_, fun ha => ?_⟩
    · rcases h5 with (h5 | h5) | h5
      · exact absurd ha h5
      · exact .inl h5
      · exact .inr h5
    · rcases h6 with h6 | h6
      · exact absurd ha h6
      · exact h6

/-- Service, from power-on, with the first seed. -/
def svc : State := { State.reset with
  pwr := { mode := .service, vbat := true, perst := false, wakeStep := 14 }
  hg := { linkUp := true, fns := [(0, { memSpace := true, busMaster := true })] }
  tb := { State.reset.tb with refPresent := 15 }
  en := { firstSeed := true, reserve := List.replicate 64 (List.replicate 64 0), vaultBlock := some (List.replicate 64 0) }
  lg := { valid := true }
  tg := { State.reset.tg with loaded := true, gangwaysKeyed := List.range 13 } }

/-- An applet of two cores, of which core `n` runs at `pc`. -/
def sez (n : Nat) (pc : Word) (c : SCore) : State := { svc with sz := {
  cores := [(n, { c with run := .running, pc := pc })]
  slots := [(0, { state := .running, owner := 0, kind := 2, cores := [n, n + 1], grant := 2 ^ 64 - 1 })] } }

def regs : SCore := {
  w := #v[0, 7, 3, 9, 0, 0, 0, 0, 0, 0, 0, 0, 0, 0, 0, 0]
  acc := #v[0, 5, 2, 0]
  p := #v[0x10000000, 0x1007FFF8, 0x20000000, 0, 0, 0, 0, 0x10000010] }

theorem witness_turn : Turn (sez 0 0 regs) 0 2 ∧ Turn (sez 191 0x3FFFC regs) 191 4 ∧ Turn (sez 191 0x3FFFE regs) 191 2 := by
  refine ⟨⟨?_, ?_, ?_⟩, ⟨?_, ?_, ?_⟩, ⟨?_, ?_, ?_⟩⟩ <;> decide

theorem witness_AddSub : Turn (sez 0 0 regs) 0 (AluForm.rr 1 2).size ∧ Turn (sez 0 0 regs) 0 (AluForm.r3 1 2 3).size := by
  refine ⟨⟨?_, ?_, ?_⟩, ⟨?_, ?_, ?_⟩⟩ <;> decide

theorem witness_RoundingAndFit : (0 : Int) < 2 ∧ (4 : Int) % 2 = 0 ∧ 2 * ((-3 : Int) % 2) = 2
    ∧ (-(2 ^ 31) ≤ (2 ^ 31 - 1 : Int) ∧ (2 ^ 31 - 1 : Int) < 2 ^ 31) ∧ (-(2 ^ 31) - 1 : Int) < -(2 ^ 31)
    ∧ (2 ^ 31 : Int) ≤ 2 ^ 31 := by decide

theorem witness_SezelMultiply : Turn (sez 0 0 regs) 0 (MacForm.mk true 1 2 3).size
    ∧ Turn (sez 0 0 regs) 0 (MacForm.mk false 1 2 3).size := by
  refine ⟨⟨?_, ?_, ?_⟩, ⟨?_, ?_, ?_⟩⟩ <;> decide

theorem witness_SezelAccumulators : Turn (sez 0 0 regs) 0 4
    ∧ (AccForm.mk 3 1 2 0).sh = 0 ∧ ((sez 0 0 regs).seen 0).acc[(AccForm.mk 3 1 2 0).accb].toInt ≠ 0
    ∧ (AccForm.mk 3 1 0 63).accb = 0 ∧ (AccForm.mk 0 1 2 0).accd = 0 ∧ (AwForm.mk 3 0 1 0).acca = 0
    ∧ (ExtForm.mk 1 2 true 3 0).sh = 0 ∧ ((40 : BitVec 6) = 0 ∨ (40 : BitVec 6) = 32 ∨ (40 : BitVec 6) = 40) := by
  refine ⟨⟨?_, ?_, ?_⟩, ?_⟩ <;> decide

/-- The first and the last word of data memory, and the reservation an SC.W needs. -/
theorem witness_SezelLoadsStores :
    let s := sez 0 0 regs
    let c := s.seen 0
    s.load c (WordForm.cls 0 1 1 |>.addr c) 4 false = .ok [0, 0, 0, 0]
    ∧ s.load c (AccMemForm.memp 1 1 1 |>.addr c) 8 false = .ok [0, 0, 0, 0, 0, 0, 0, 0]
    ∧ s.lrscFault c c.p[0] = none
    ∧ (∃ t c', s.store c (WordForm.cls 0 1 1 |>.addr c) (le 4 c.w[1].toNat) = .ok (t, c'))
    ∧ (∃ t c', s.store c (MemForm.memp 1 0 1 |>.toWord.addr c) (le 1 c.w[1].toNat) = .ok (t, c'))
    ∧ (s.place c.slot c.p[0].toNat).granule = some (0, 0) ∧ c.reservation = none := by
  exact ⟨rfl, rfl, by decide, ⟨_, _, rfl⟩, ⟨_, _, rfl⟩, by decide, by decide⟩

theorem witness_ScW :
    let s := sez 0 0 { regs with reservation := some (0, 0) }
    let c := s.seen 0
    Turn s 0 4 ∧ s.lrscFault c c.p[0] = none ∧ c.reservation.isSome = true
    ∧ c.reservation = (s.place c.slot c.p[0].toNat).granule ∧ ∃ t c', s.store c c.p[0] (le 4 c.w[1].toNat) = .ok (t, c') :=
  ⟨⟨by decide, by decide, by decide⟩, by decide, by decide, by decide, ⟨_, _, rfl⟩⟩

theorem witness_SezelMemory :
    let ap : AppletSlot := { kind := 2, owner := 5 }
    let r : Region := { kib := 4, base := 8 }
    0 < [(0 : Byte)].length ∧ (0x10000001#32).toNat % 4 ≠ 0 ∧ (0x1007FFFC#32).toNat % 4 = 0 ∧ (0x1007FFFC#32).toNat < 0x10080000
    ∧ (0x20002000#32).toNat < 0x20000000 + 0x2000000
    ∧ (ap.kind ≠ 1 ∧ r.base * 1024 ≤ (0x20002000#32).toNat - 0x20000000
        ∧ (0x20002FFF#32).toNat - 0x20000000 < r.base * 1024 + r.kib * 1024)
    ∧ r.base * 1024 + r.kib * 1024 ≤ (0x20003000#32).toNat - 0x20000000
    ∧ (0x30000000 ≤ (0x30007FFF#32).toNat ∧ (0x30007FFF#32).toNat < 0x30008000)
    ∧ (0x10080000 ≤ (0x10080000#32).toNat ∧ (0x1FFFFFFF#32).toNat < 0x20000000) ∧ 0x30010000 ≤ (0x30010000#32).toNat := by decide

theorem witness_AddressUpdate :
    let c : SCore := { m := #v[12, 16, 0, 0, 0, 0, 0, 0], brev := 2 }
    (c.m[2].toNat = 0)
    ∧ (c.m[0].toNat ≤ 2 ^ 4 ∧ (∀ j < 4, 2 ^ j < c.m[0].toNat) ∧ c.m[0].toNat ≠ 0 ∧ c.brev.getLsbD 0 = false)
    ∧ (c.m[1].toNat ≤ 2 ^ 4 ∧ (∀ j < 4, 2 ^ j < c.m[1].toNat) ∧ c.brev.getLsbD 1 = true ∧ c.m[1].toNat = 2 ^ 4 ∧ 1 ≤ 4 ∧ 4 ≤ 23) := by
  decide

theorem witness_SezelRetire :
    let c : SCore := { pc := 0x10, lc := #v[1, 3, 0], le := #v[0x12, 0x12, 0x12], ls := #v[4, 8, 0] }
    (∀ t : Word, c.delay ≠ some (some t)) ∧ (c.lc[1] ≠ 0 ∧ c.le[1] = c.pc + 2 ∧ c.lc[1] ≠ 1)
    ∧ (c.lc[0] ≠ 0 ∧ c.le[0] = c.pc + 2 ∧ c.lc[0] = 1) ∧ ({ c with delay := some (some 4) } : SCore).delay = some (some 4) := by
  refine ⟨fun t => ?_, by decide, by decide, rfl⟩
  simp

theorem witness_SezelControl :
    let c := (sez 0 0 regs).seen 0
    (14 : BitVec 4) ≠ 15 ∧ (1 : BitVec 10) ≠ 0 ∧ (sez 0 0 regs).loadWords c c.p[7] false 2 = .ok [0, 0]
    ∧ (0 : Word).toNat < 2 ^ 16 ∧ (sez 0 0 regs).loadWords c (c.p[7] + 8) false (maskRegs 0).length = .ok []
    ∧ ∃ t c', (sez 0 0 regs).storeWords c (c.p[7] - 8)
        ([c.pc + 4 + BitVec.ofNat 32 (c.sizeAt (c.pc + 4)), 0]) = .ok (t, c') :=
  ⟨by decide, by decide, rfl, by decide, rfl, ⟨_, _, rfl⟩⟩

theorem witness_SezelSystem :
    let s := sez 0 0 regs
    let one : State := { s with sz := { s.sz with slots := [(0, { state := .running, cores := [0] })] } }
    let two : State := { s with sz := { s.sz with cores := s.sz.cores ++ [(1, { run := .running })] } }
    ({ s with lc := { s.lc with maint := true } } : State).lc.maint = true
    ∧ ((two.core 0).run ≠ .halted ∧ 1 ∈ (two.applet (two.seen 0).slot).cores ∧ (1 : Nat) ≠ 0 ∧ (two.core 1).run ≠ .halted)
    ∧ ((one.core 0).run ≠ .halted ∧ (∀ k ∈ (one.applet (one.seen 0).slot).cores, k = 0 ∨ (one.core k).run = .halted)
      ∧ (one.applet (one.seen 0).slot).state = .running)
    ∧ (let t := { s with sz := { s.sz with cores := [(191, { run := .waiting, wake := true })] } }
       191 < 192 ∧ (t.core 191).run = .waiting ∧ (t.core 191).wake = true) := by
  refine ⟨by decide, by decide, ⟨by decide, by decide, by decide⟩, by decide⟩

theorem witness_SezelStops :
    let s := sez 0 0 { regs with p := #v[1, 0, 0, 0, 0, 0, 0, 0x10000000] }
    let c := s.seen 0
    ((sez 0 0x40000 regs).core 0).run = .running ∧ 0x40000 ≤ ((sez 0 0x40000 regs).seen 0).pc.toNat
    ∧ ((sez 0 1 regs).seen 0).pc.toNat % 2 = 1
    ∧ s.lc.maint = false ∧ s.load c (WordForm.cls 0 1 1 |>.addr c) 4 false = .error ⟨4, 1⟩
    ∧ s.store c (WordForm.cls 0 1 1 |>.addr c) (le 4 c.w[1].toNat) = .error ⟨4, 1⟩
    ∧ c.acc[(AccForm.mk 0 1 3 0).accb].toInt = 0 ∧ (AccForm.mk 0 1 3 1).sh ≠ 0 ∧ (ExtForm.mk 0 0 false 0 1).sh ≠ 0 := by
  exact ⟨by decide, by decide, by decide, by decide, rfl, rfl, by decide, by decide, by decide⟩

theorem witness_RetBadMask :
    let s := sez 0 0 { regs with dmem := [(0x16, 1)] }
    let c := s.seen 0
    s.loadWords c c.p[7] false 2 = .ok [0, 0x10000] ∧ 2 ^ 16 ≤ (0x10000 : Word).toNat := ⟨rfl, by decide⟩

theorem witness_FaultStop : (sez 0 0 regs).sz.draw = none ∧ ((sez 0 0 regs).applet ((sez 0 0 regs).core 0).slot).state = .running := by
  decide

/-- With the Supervisory Port up and the regulator's session open. -/
def regd (s : State) : State := { s with
  pd := { s.pd with nums := [(objKey 0xA000 1 0, some 1)] }
  sp := { s.sp with link := true, session := some { sid := 1, source := ⟨0, 0⟩, opened := true, signer := [], last := 0 } } }

/-- `svc` in another mode. -/
def inMode (m : Mode) : State := { svc with pwr := { svc.pwr with mode := m } }

/-- A take and a manifest. -/
def aTake : Take := { id := 7, source := .queue 0, tenant := 0 }
def aManifest : Manifest :=
  { id := 3, die := 0, tenant := 0, handle := 1, epoch := 0, maxLeaves := 2, deadline := 100, openTime := 0, openClock := 0 }

theorem witness_CausesAndHeld :
    (svc.stands .ledgerRoot = false ∧ Cause.rank .ledgerRoot ≠ 2 ∧ Cause.ledgerRoot ≠ .eraseAlarm ∧ svc.unarchived + 1 < 16320 ∧ svc.tg.queue.length < 8)
    ∧ ((inMode .standby).sealing = false ∧ Cause.ledgerRoot ≠ .entropyLatch ∧ Cause.ledgerRoot ≠ .holdAlarm)
    ∧ (let s : State := { svc with tg := { svc.tg with nextSeq := 16318, queue := List.replicate 7 (0, []) } }
       s.unarchived + 1 < 16320 ∧ s.tg.queue.length < 8)
    ∧ (svc.sz.draw = none ∧ svc.en.drawWait = none ∧ svc.roomy) := by decide

theorem witness_PowerRails :
    (inMode .dark).pwr.mode ≠ .vault ∧ (inMode .vault).pwr.mode = .vault
    ∧ (svc.powered = true ∧ svc.pwr.vbat = true ∧ svc.lc.burning = none ∧ svc.tg.window = none)
    ∧ (State.reset.pwr.mode = .wake ∧ State.reset.pwr.wakeStep = 0 ∧ State.reset.pwr.pwrfail = false
      ∧ fusedState (completeBurns State.reset.lc.fuses) ≠ 5 ∧ State.reset.tb.dtValid = true ∧ State.reset.unarchived < 16320
      ∧ State.reset.tg.erased = false) := by decide

theorem witness_Clocks :
    (let s : State := { State.reset with pwr := { State.reset.pwr with wakeStep := 3 }, clock := 1000000 }
     s.pwr.mode = .wake ∧ 3 ≤ s.pwr.wakeStep ∧ bitOf s.tb.refPresent 2 = false ∧ s.wakeStopped = false
       ∧ s.pwr.t0 + 1000000 ≤ s.clock)
    ∧ (let s : State := { svc with tb := { svc.tb with refPresent := 15 } }
       s.powered = true ∧ (∀ r < 4, bitOf s.tb.refPresent r = true)
       ∧ (∀ r < 3, s.monitorArmed (0x5000 + r) = false)
       ∧ ({ s with tg := { s.tg with groupsFused := 255 } } : State).monitorArmed 0xE000 = false ∧ s.tb.cfgActive.getLsbD 31 = false
       ∧ (∀ n ∈ [0, 7, 8, 65, 66, 77, 78, 275, 276, 287], n ∉ s.tb.locked)
       ∧ (0x5000 ∉ s.tg.armed ∧ bitOf s.tb.refPresent 0 = true ∧ s.pwr.perst = false))
    ∧ (let s : State := { svc with tb := { svc.tb with locked := [287] } }
       0x4000 + 287 ∉ s.tg.armed ∧ 287 ∈ s.tb.locked) := by decide

/-- Wake complete, before Self-Test. -/
def woken : State := { State.reset with
  pwr := { State.reset.pwr with wakeStep := 7, perst := false }
  tb := { State.reset.tb with refPresent := 4, locked := List.range' 96 180 }
  en := { sources := (List.range 5).map fun i => (i, { state := .running }) }
  tg := { State.reset.tg with loaded := true, gangwaysKeyed := List.range 13 } }

def aChannel : Channel :=
  { supported := true, trained := true, rate := 4800, capGib := 16, x4 := false, ranks2 := false }

/-- One monitor whose margin is its guard band. -/
def testing : State := { woken with pwr := { woken.pwr with mode := .selfTest, wakeStep := 9, s0 := some 0 }, clock := 1800000 }

/-- Standby with a reel that runs and Device Time, in Integrator. -/
def reeled : State := { svc with
  pwr := { svc.pwr with mode := .standby }
  el := { svc.el with state := .running, keyed := true }
  lc := { svc.lc with state := 2 } }

set_option maxRecDepth 8192 in
theorem witness_SelfTest :
    (woken.wakeDone = true ∧ woken.certDue = false ∧ woken.en.latch = false ∧ (0 : BitVec 7).getLsbD 3 = false ∧ aChannel.supported = true
      ∧ aChannel.trained = true ∧ 16 ≤ aChannel.capGib ∧ aChannel.capGib ≤ 64 ∧ aChannel.rate = 4800)
    ∧ (testing.powered = true ∧ testing.en.firstSeed = false ∧ testing.en.stopped = false ∧ testing.anchorSource = true
      ∧ testing.pwr.s0 = some 0 ∧ 0 + 1800000 ≤ testing.clock)
    ∧ (testing.pwr.mode = .selfTest ∧ testing.pwr.wakeStep < 12 ∧ smallest (ratios [(0x1000, 12000)]) = some (0x1000, 1000)
      ∧ 1000 ≤ (0x1000, 1000).2)
    ∧ (let s : State := { testing with pwr := { testing.pwr with wakeStep := 12 } }
       s.pwr.wakeStep = 12 ∧ s.pwr.lastReset = .powerOn ∧ s.lg.anchor.state = .empty)
    ∧ (let s : State := { testing with pwr := { testing.pwr with wakeStep := 13, selfTest := 32 }, en := { testing.en with firstSeed := true } }
       s.pwr.wakeStep = 13 ∧ s.lg.waitSince = none ∧ s.lg.recovering = none ∧ s.en.firstSeed = true ∧ s.pwr.selfTest % 32 = 0) := by
  decide

/-- A transition in progress. -/
def draining : State := { svc with pwr := { svc.pwr with
  mode := .drain, drain := some { ending := none, silent := false, start := 0, handedOver := false } } }

theorem witness_ModeRequests :
    Writable svc (.tenant 0) 0x1100 2 4 ∧ svc.inTransition = false
    ∧ (Writable (regd draining) .regulator 0x1100 2 4 ∧ (regd draining).inTransition = true)
    ∧ (Writable reeled (.tenant 0) 0x1100 2 5 ∧ reeled.inTransition = false ∧ (∀ c ∈ reeled.pwr.causes, reeled.causeOver c = true)
      ∧ reeled.tb.dtValid = true ∧ reeled.en.firstSeed = true ∧ reeled.lc.state = 2 ∧ reeled.lc.maint = false ∧ reeled.el.state = .running
      ∧ reeled.clock < reeled.el.lastStatus + reeled.statusLimit * 1000000)
    ∧ (let s := regd reeled
       Writable s .regulator 0x1100 2 8 ∧ s.inTransition = false ∧ s.mayHoldCeremony = true ∧ s.claimees = [])
    ∧ (let s : State := { svc with pwr := { svc.pwr with heldStandby := true } }
       s.pwr.heldStandby = true ∧ s.inTransition = false)
    ∧ Writable svc (.tenant 0) 0x1100 3 0xA5C3
    ∧ (let s : State := { svc with pwr := { svc.pwr with mode := .held, entering := some 0 } }
       (s.applyEnv {}).pwr.entering = some 0 ∧ s.pwr.mode = .held ∧ s.pwr.causes = [])
    ∧ (let s : State := { reeled with pwr := { reeled.pwr with entering := some 0 } }
       s.pwr.entering = some 0 ∧ s.pwr.mode = .standby ∧ s.pwr.causes = [] ∧ ∀ e ∈ s.krf.handles, e.2 = none) := by
  refine ⟨writable (by decide), by decide, ⟨writable (by decide), by decide⟩, ⟨writable (by decide), by decide⟩,
    ⟨writable (by decide), by decide⟩, by decide, writable (by decide), by decide, by decide⟩

theorem witness_Drains :
    (svc.sz.draw = none ∧ svc.en.drawWait = none ∧ svc.pwr.mode ≠ .ceremony ∧ svc.td.manifests = [] ∧ svc.roomy)
    ∧ (draining.handsOver = true ∧ draining.drained = true ∧ draining.handOverRoles.rolesHandedOver = true)
    ∧ (let s : State := { draining with clock := 3000000000 }
       s.handsOver = true ∧ s.drainLate = true)
    ∧ (let d : Drain := { ending := none, silent := false, start := 0, handedOver := true }
       let s : State := { svc with pwr := { svc.pwr with mode := .drain, drain := some d } }
       s.pwr.drain = some d ∧ d.handedOver = true ∧ d.ending = none ∧ s.drained = true ∧ s.el.state = .idle ∧ s.lg.valid = true
         ∧ s.lg.writesStopped = false ∧ s.stands .memoryIntegrity = false ∧ s.lc.state ≠ 5 ∧ s.lh.toVerify = []
         ∧ (∀ e, (s.engine e).running = none) ∧ ∀ u, (s.latticeUnit u).running = none)
    ∧ (State.reset.powered = true ∧ State.reset.pwr.perst = true)
    ∧ (svc.pwr.perst = false ∧ svc.pwr.mode = .service)
    ∧ (let s : State := { svc with pwr := { svc.pwr with mode := .selfTest }, lg := { svc.lg with waitSince := some 0 }, clock := 600000000000 }
       s.recoveryExpired = true) := by
  refine ⟨by decide, by decide, by decide, ⟨rfl, rfl, rfl, by decide, rfl, rfl, rfl, by decide, by decide, rfl, fun _ => rfl, fun _ => rfl⟩,
    by decide, by decide, by decide⟩

theorem witness_FunctionResets :
    let s : State := { svc with hg := { svc.hg with vfEnable := true, numVfs := 63, fns := [(0, { d3hot := true }), (63, { d3hot := true })] } }
    (63 < 64 ∧ s.powered = true ∧ s.fnPresent 63 = true ∧ s.hg.linkUp = true ∧ (s.fn 63).d3hot = true ∧ s.hg.vfEnable = true)
    ∧ (let k : Handle := ⟨4, 1, 5, 1, 0, [], .wrapped, [], []⟩
       let s : State := { svc with krf := { svc.krf with handles := [(1, some k)] } }
       s.pwr.mode = .service ∧ s.krf.handles = [(1, some k)] ∧ k.owner = 5 ∧ k.state = .wrapped) := by decide

/-- Function 0 with one queue pair of 16 entries and one descriptor that waits. -/
def queued : State := { svc with
  hg := { svc.hg with queues := [(0, { sqBase := 0x1000, cqBase := 0x8000, cfg := 0x80000404, sqTail := 1 })] }
  hostMem := Memory.writeBytes [] 0x1000
    ([1, 1, 0, 0, 2, 0] ++ le 2 7 ++ le 2 3 ++ le 2 0 ++ le 4 5 ++ le 8 0x4000 ++ le 8 0 ++ le 8 9) }

theorem witness_QueueRegisters :
    Reaches queued (.window 0 0x1018) (.queue 0 0 0x18) ∧ Reaches queued (.bar2 0x1018) (.queue 0 0 0x18)
    ∧ ((15 : BitVec 16).toNat < (queued.qpair 0 0).sqSize ∧ (queued.qpair 0 0).sqSize ≤ (16 : BitVec 16).toNat)
    ∧ Reaches queued (.window 0 0x101C) (.queue 0 0 0x1C)
    ∧ ((15 : BitVec 16).toNat < (queued.qpair 0 0).cqSize ∧ (queued.qpair 0 0).cqSize ≤ (16 : BitVec 16).toNat)
    ∧ Reaches queued (.window 0 0x1050) (.queue 0 1 0x10)
    ∧ (let v : BitVec 32 := 0x80000404
       (queued.qpair 0 1).enabled = false ∧ (queued.qpair 0 1).outstanding = 0 ∧ v.getLsbD 31 = true ∧ qSizesOk v.toNat = true
         ∧ queued.hg.faulted = [])
    ∧ Reaches queued (.window 0 0x1010) (.queue 0 0 0x10)
    ∧ (let v : BitVec 32 := 0x404
       (queued.qpair 0 0).enabled = true ∧ v.getLsbD 31 = false
         ∧ v &&& 0x001F1F1F#32 = (queued.qpair 0 0).cfg &&& 0x001F1F1F#32)
    ∧ (let s : State := { queued with hg := { queued.hg with queues := [(0, { fullSince := some 0 })] }, clock := 1000000001 }
       (s.qpair 0 0).fullSince = some 0 ∧ 0 + 1000000000 < s.clock) := by
  refine ⟨⟨?_, ?_, false, ?_⟩, ⟨?_, ?_, false, ?_⟩, ?_, ⟨?_, ?_, false, ?_⟩, ?_, ⟨?_, ?_, false, ?_⟩, ?_, ⟨?_, ?_, false, ?_⟩,
    ?_, ?_⟩ <;> decide

set_option maxRecDepth 4096 in
theorem witness_DescriptorFetch :
    let b := queued.hostMem.readBytes 0x1000 64
    queued.fetches = true ∧ queued.inflightRoom = true ∧ queued.nextPair = some 0 ∧ queued.dmaOk 0 0x1000 64 = true
    ∧ (parseDescriptor b 0 0 0).malformed = false
    ∧ (let s : State := { queued with hg := { queued.hg with queues :=
        [(0, { sqBase := 0x1000, cqBase := 0x8000, cfg := 0x80000404, sqTail := 0, sqHead := 15, owed := [(1, stHeld)] })] } }
       s.fetches = true ∧ s.nextPair = some 0 ∧ (s.qpair 0 0).owes = some stHeld ∧ (s.qpair 0 0).sqHead + 1 = (s.qpair 0 0).sqSize) := by
  decide

/-- A key of a tenant, unwrapped. -/
def aKey (type owner : Nat) : Handle := ⟨type, 1, owner, 1, 0, [], .unwrapped, [], []⟩

/-- Service with a slot of tenant 0, its key and one fetched take. -/
def sealable : State := { svc with
  tb := { svc.tb with dtValid := true, deviceTime := 1000 }
  lg := { svc.lg with slots := [(5, { state := 1, tenant := 0, handle := 1, serial := 41 })], windows := [(0, { owner := 0 })] }
  td := { svc.td with fetched := [{ aTake with slot := 5, length := 3, payload := [1, 2, 3], hasPayload := true }] }
  krf := { svc.krf with handles := [(1, some (aKey 0x04 0))] } }

theorem witness_TakeReserve :
    let s := sealable
    let t : Take := { aTake with slot := 5, length := 3, payload := [1, 2, 3], hasPayload := true }
    (s.td.fetched.find? (fun u => u.id = t.id) = some t ∧ s.pwr.stowed = false ∧ s.pwr.mode = .service)
    ∧ (t.failure = none ∧ t.malformed = false ∧ 0 < t.length ∧ t.length ≤ 16384 ∧ t.hasPayload = true ∧ s.tb.dtValid = true
      ∧ s.tb.timeFault = false ∧ s.failedLine t.slot = none)
    ∧ (let u : Take := { t with hasPayload := false, payloadAddr := 0x4000 }
       s.dmaOk u.tenant u.payloadAddr u.length = true
         ∧ { s with dmaFail := [(0x4002, 0x4002)] }.dmaOk u.tenant u.payloadAddr u.length = false)
    ∧ (let u : Take := { t with failure := some stHeld }
       { s with td := { s.td with fetched := [u] } }.td.fetched.find? (fun x => x.id = u.id) = some u)
    ∧ ((s.window 0).owner = t.tenant ∧ (s.window 0).reassigning = false ∧ (s.slot 5).state = 1
      ∧ s.unwrappedType (s.slot 5).handle = some 0x04 ∧ t.slot ∉ s.lg.suspended)
    ∧ (t.gate = 0 ∧ s.td.manifestSeq < 2 ^ 44 - 1 ∧ (s.slot 5).fleet = false ∧ s.reservationCounter 5 < 2 ^ 64 - 1)
    ∧ (let s : State := { s with td := { s.td with gates := [(1, { owner := 0, close := 1001 }), (2, { owner := 0, close := 1000 })] } }
       (s.gate 1).owner = t.tenant ∧ s.tb.deviceTime < (s.gate 1).close ∧ (s.gate 2).close ≤ s.tb.deviceTime)
    ∧ (let u : Take := { t with malformed := true }
       { s with td := { s.td with fetched := [u] } }.td.fetched.find? (fun x => x.id = u.id) = some u)
    ∧ (let u : Take := { t with length := 16385 }
       u.malformed = false ∧ 16384 < u.length)
    ∧ ({ t with length := 0 } : Take).length = 0
    ∧ (let s : State := { s with lg := { s.lg with windows := [(0, { owner := 1 })] } }
       (s.window (t.slot / 1024)).owner ≠ t.tenant) := by decide

theorem witness_CompletionPost :
    let s : State := { queued with hg := { queued.hg with queues :=
      [(0, { sqBase := 0x1000, cqBase := 0x8000, cfg := 0x80000404, cqTail := 15, outstanding := 1 })] } }
    aTake.source = .queue 0 ∧ aTake.silent = false ∧ s.pwr.drain = none
    ∧ s.dmaLands aTake.tenant ((s.qpair 0 0).cqBase + 32 * (s.qpair 0 0).cqTail) 32 = true ∧ aTake.irq = false
    ∧ s.hostMem.wf = true := by decide

/-- One take in flight, in a phase. -/
def inPhase (p : TakePhase) : State := { sealable with td := { sealable.td with
  inflight := [{ aTake with slot := 5, serial := 42, phase := p, handle := 1, digest := some [] }] }, clock := 50000 }

theorem witness_SealTakes :
    (∀ p ∈ [TakePhase.dispatched, .hashing, .signing, .verifying], (inPhase p).takeById 7
        = some { aTake with slot := 5, serial := 42, phase := p, handle := 1, digest := some [] })
    ∧ ((inPhase .dispatched).window (5 / 1024)).epoch = aTake.epoch ∧ aTake.sealMode = 0
    ∧ (let s : State := { inPhase .dispatched with lg := { sealable.lg with windows := [(0, { epoch := 1 })] } }
       (s.window (5 / 1024)).epoch ≠ aTake.epoch)
    ∧ (∀ p ∈ [TakePhase.signing, .verifying], (inPhase p).entropyBlock = none ∧ (inPhase p).sealEngine 0 none = some 0)
    ∧ ({ inPhase .signing with en := { svc.en with stopped := true } } : State).entropyBlock ≠ none
    ∧ (∀ p ∈ [TakePhase.signing, .verifying], let s : State := { inPhase p with td := { (inPhase p).td with
        inflight := (inPhase p).td.inflight.map fun t => { t with engine := some 15 } } }
       ∃ t, s.takeById 7 = some t ∧ t.phase = p ∧ t.engine = some 15)
    ∧ (inPhase .signing).unwrappedType 1 = some 0x04
    ∧ ({ inPhase .signing with krf := { svc.krf with handles := [(1, some (aKey 0x01 0))] } } : State).unwrappedType 1 = some 0x01
    ∧ aTake.dispatched + 50000 ≤ (inPhase .signing).clock := by decide

theorem witness_ReservationAndEngine :
    (∃ t ∈ (inPhase .hashing).td.inflight, t.slot = 5 ∧ t.serial = (inPhase .hashing).reservationCounter 5)
    ∧ svc.sealEngine 5 (some 80) = some 81 ∧ svc.sealEngine 5 none = some 80 := by decide

/-- A manifest of die 0 and handle 1 with one leaf, in a phase. -/
def manifested (p : ManifestPhase) : State := { inPhase .hashing with td := { (inPhase .hashing).td with
  inflight := [{ aTake with slot := 5, serial := 42, phase := .hashing, sealMode := 1, handle := 1, digest := some [] }]
  manifests := [{ aManifest with phase := p, leaves := [(4, 1, [0])], maxLeaves := 3 }] }, clock := 100 }

theorem witness_Manifests :
    (let s := manifested .opened
     ∃ t m, s.takeById 7 = some t ∧ t.phase = .hashing ∧ t.sealMode = 1 ∧ s.pwr.mode = .service
       ∧ s.leafWaits t = false ∧ s.td.manifests.find? (fun m => m.phase = .opened && m.die = t.die && m.handle = t.handle) = some m
       ∧ s.manifest m.id = some m ∧ m.leaves.length + 1 < m.maxLeaves ∧ m.openClock + m.deadline ≤ s.clock
       ∧ ((m.leaves ++ [(t.slot, t.officialTime, t.digestOf)]).filter (fun l => l.1 % 4 = t.slot % 4)).length < 96)
    ∧ (let s := manifested .closed
       ∃ m, s.manifest 3 = some m ∧ m.phase = .closed ∧ s.entropyBlock = none)
    ∧ (let s := manifested .signing
       ∃ m, s.manifest m.id = some m ∧ m.id = 3 ∧ m.phase = .signing ∧ m.engine = none ∧ m.mlUnit = none ∧ m.mlVerified = false
         ∧ s.unitWorks m.id = false ∧ s.entropyBlock = none ∧ s.sealEngine m.die none = some 0
         ∧ s.sealEngine m.die (some 0) = some 1 ∧ s.idleUnit m.die none = some 0)
    ∧ (let s := manifested .signing
       let s : State := { s with td := { s.td with
         manifests := s.td.manifests.map fun m => { m with engine := some 0, verifier := some 1, mlVerified := true } } }
       ∃ m, s.manifest 3 = some m ∧ m.phase = .signing ∧ m.engine.isSome = true ∧ m.mlVerified = true ∧ s.lg.tapLog2 = 0 ∧ s.reelFill + 4096 + 2 ^ 20 ≤ 2 ^ 30) :=
  ⟨⟨_, _, rfl, by decide, by decide, by decide, by decide, rfl, rfl, by decide, by decide, by decide⟩,
    ⟨_, rfl, by decide, by decide⟩,
    ⟨{ aManifest with phase := .signing, leaves := [(4, 1, [0])], maxLeaves := 3 }, rfl, by decide⟩,
    ⟨_, rfl, by decide, by decide, by decide, by decide, by decide⟩⟩

theorem witness_AuditPath :
    let m : Manifest := { aManifest with leaves := [(0, 0, [0]), (1, 0, [1]), (2, 0, [2])] }
    m.leaves.length ≤ 256 ∧ m.leaves[0]? = some (0, 0, [0]) ∧ m.leaves[2]? = some (2, 0, [2]) := by decide

theorem witness_Landing :
    (let s := inPhase .returned
     ∃ t, s.takeById 7 = some t ∧ s.pwr.stowed = false ∧ s.pwr.mode ∉ [.dark, .vault, .quarantine, .retired]
       ∧ (∀ u ∈ s.td.inflight, u.slot = t.slot → t.serial ≤ u.serial) ∧ (s.slot t.slot).fleet = false ∧ t.phase = .returned
       ∧ t.failure = none ∧ (s.window (t.slot / 1024)).epoch = t.epoch ∧ t.slot ∉ s.lg.suspended)
    ∧ (let s : State := { inPhase .returned with lg := { sealable.lg with windows := [(0, { epoch := 1 })] } }
       ∃ t, s.takeById 7 = some t ∧ t.phase = .returned ∧ t.failure = none ∧ (s.window (t.slot / 1024)).epoch ≠ t.epoch)
    ∧ (let s : State := { inPhase .returned with td := { sealable.td with
         inflight := [{ aTake with slot := 5, serial := 42, phase := .returned, failure := some stHeld }] } }
       ∃ t, s.takeById 7 = some t ∧ t.phase = .returned ∧ t.failure = some stHeld)
    ∧ (let s := inPhase .journalSign
       ∃ t, s.takeById 7 = some t ∧ t.phase = .journalSign)
    ∧ (let t : Take := { aTake with slot := 5, serial := 42, phase := .returned, handle := 1, digest := some [] }
       let s := inPhase .returned
       t.source = .queue 0 ∧ t.noReceipt = true ∧ s.lg.tapLog2 = 0 ∧ 0 < t.serial ∧ s.hostMem.wf = true
         ∧ s.reelFill + 4096 + 2 ^ 20 ≤ 2 ^ 30) :=
  ⟨⟨_, rfl, by decide⟩, ⟨_, rfl, by decide⟩, ⟨_, rfl, by decide⟩, ⟨_, rfl, by decide⟩, by decide⟩

theorem witness_DeviceTime :
    svc.pwr.mode ≠ .dark ∧ (0 : Int) ≤ svc.tb.remaining
    ∧ Writable svc (.tenant 0) 0xC000 3 ((-(10 ^ 9) : BitVec 64)).toNat ∧ Writable (regd svc) .regulator 0xC000 3 0
    ∧ (let s : State := { svc with tb := { svc.tb with deviceTime := 1000000000 } }
       s.powered = true ∧ s.tb.cmpTime + 1000000000 ≤ s.tb.deviceTime ∧ s.tb.timeFault = false ∧ s.tb.cfgActive.getLsbD 31 = false
         ∧ (((s.tb.deviceTime : Int) - s.tb.cmpTime - s.tb.cmpSlew - (1000000000 : Nat)).natAbs) * 1000000 ≤ 200 * 1000000000
         ∧ 200 * 999000000 < (((s.tb.deviceTime : Int) - s.tb.cmpTime - s.tb.cmpSlew - (999000000 : Nat)).natAbs) * 1000000)
    ∧ (let s := regd { reeled with pwr := { reeled.pwr with mode := .ceremony } }
       Writable s .regulator 0xC000 6 (2000 : BitVec 64).toNat ∧ s.pwr.mode = .ceremony
         ∧ (if s.tb.dtValid then s.tb.deviceTime else s.tb.timeFloor) ≤ (2000 : BitVec 64).toNat)
    ∧ (sealable.powered = true ∧ sealable.tb.dtValid = true
      ∧ sealable.tb.timeFloor ≤ sealable.tb.deviceTime + 60000000000) :=
  ⟨by decide, by decide, writable (by decide), writable (by decide), by decide, ⟨writable (by decide), by decide, by decide⟩,
    by decide⟩

/-- `sealable` with gates of tenant 0, of which the second has closed. -/
def gated : State := { sealable with td := { sealable.td with gates := [(1, { owner := 0, close := 2000 }), (65535, { owner := 0, close := 1000 })] } }

theorem witness_SlotAdministration :
    (Writable gated (.tenant 0) (0x3500 + 1 / 256) (1 % 256) (1500 : BitVec 64).toNat
      ∧ gated.tb.deviceTime < (gated.gate 1).close)
    ∧ (Writable gated (.tenant 0) (0x3500 + 65535 / 256) (65535 % 256) (3000 : BitVec 64).toNat
      ∧ (gated.gate 65535).close ≤ gated.tb.deviceTime ∧ (gated.gate 65535).close < (3000 : BitVec 64).toNat)
    ∧ (Writable gated (.tenant 0) (0x3600 + 65535 / 256) (65535 % 256) (63 : BitVec 8).toNat
      ∧ (63 : BitVec 8).toNat ≤ 63 ∧ (gated.gate 65535).owner ≠ (63 : BitVec 8).toNat)
    ∧ (Writable gated (.tenant 0) (0x4100 + 2047 / 256) (2047 % 256) (63 : BitVec 8).toNat
      ∧ (gated.window 2047).reassigning = false ∧ (gated.window 2047).owner ≠ (63 : BitVec 8).toNat)
    ∧ (let s : State := { gated with lg := { gated.lg with windows := [(0, { owner := 0, reassigning := true })] } }
       (s.window 0).reassigning = true ∧ s.pwr.stowed = false ∧ (∀ t ∈ s.td.inflight, t.slot / 1024 ≠ 0) ∧ s.lg.tapLog2 = 0
         ∧ s.reelFill + 4096 + 2 ^ 20 ≤ 2 ^ 30 ∧ (s.window 0).owner ≠ 0xFF)
    ∧ (let s : State := { gated with
         pd := { gated.pd with nums := [(objKey 0x4010 1 0, some 5), (objKey 0x4010 2 0, some 1), (objKey 0x4010 3 0, some 2)] } }
       Writable s (.tenant 0) 0x4010 5 1 ∧ namedTenant (.tenant 0) 0xFF = .ok 0 ∧ s.applyCheck false 0 = none
         ∧ s.slotNewState 0 ≠ (s.slot (s.slotSelect 0)).state ∧ s.pwr.stowed = false)
    ∧ (let g := regd gated
       let s : State := { g with
         lg := { g.lg with slots := [(2097151, { state := 3, handle := 1, serial := 1 })] }
         pd := { g.pd with nums := [(objKey 0x4010 1 63, some 2097151), (objKey 0x4010 3 63, some 1),
           (objKey 0x4010 6 63, some 16777217), (objKey 0xA000 1 0, some 1)] } }
       Writable s .regulator 0x4010 5 1 ∧ s.slotSelect 63 < 2097152 ∧ (s.slot 2097151).state = 3 ∧ s.slotNewState 63 = 1
         ∧ (s.window (2097151 / 1024)).reassigning = false ∧ s.slotInFlight 2097151 = false ∧ (s.slot 2097151).handle ≠ 0
         ∧ s.pwr.stowed = false
         ∧ (s.slot 2097151).serial + (if (s.slot 2097151).rebuilt then 16777216 else 2049) ≤ s.num 0x4010 6 63 0) :=
  ⟨⟨writable (by decide), by decide⟩, ⟨writable (by decide), by decide⟩, ⟨writable (by decide), by decide⟩,
    ⟨writable (by decide), by decide⟩, by decide, ⟨writable (by decide), rfl, by decide, by decide⟩,
    ⟨writable (by decide), by decide⟩⟩

/-- `sealable` with a checkpoint area. -/
def areas : State := { sealable with pd := { sealable.pd with nums := [(objKey 0x4000 2 0, some 0x10000)] }, clock := 2000000000 }

theorem witness_Checkpoints :
    (areas.canCheckpoint = true ∧ areas.lg.lastCheckpoint + 1000000 * areas.numWritten 0x4000 3 0 2000 ≤ areas.clock)
    ∧ (let s : State := { areas with lg := { areas.lg with sweep := some ⟨0, [], 0⟩ } }
       let base := areaAddress s.checkpointAddress (s.lg.checkpointSeq + 1)
       s.lg.sweep = some ⟨0, [], 0⟩ ∧ s.lg.tapLog2 = 0 ∧ s.reelFill + 4096 + 2 ^ 20 ≤ 2 ^ 30
         ∧ s.dmaLands 0 base 0x08020000 = true)
    ∧ (let s : State := { svc with lg := { svc.lg with tapWritten := 2 ^ 64 - 1 } }
       Writable s (.tenant 0) 0x4000 7 (BitVec.ofNat 64 (2 ^ 64 - 1)).toNat ∧ s.lg.tapConsumed ≤ 2 ^ 64 - 1)
    ∧ (let s : State := { svc with lg := { svc.lg with tapFailed := true } }
       s.lg.tapFailed = true ∧ s.canCheckpoint = false)
    ∧ (let s : State := { svc with pd := { svc.pd with staged := [(objKey 0x4000 5 0, some 4096), (objKey 0x4000 6 0, some 20)] } }
       mapGet none s.pd.staged (objKey 0x4000 5 0) = some 4096 ∧ mapGet none s.pd.staged (objKey 0x4000 6 0) = some 20)
    ∧ (svc.powered = true ∧ ∀ a ∈ [0, 63, 0x10000000, 0x4FFFFFFF], regionOf (a / 64 * 64) ≠ .reserved) :=
  ⟨by decide, ⟨rfl, rfl, by decide, by decide⟩, ⟨writable (by decide), by decide⟩, by decide, by decide, by decide⟩

/-! A checkpoint area from which a recovery goes through: a header with the digests of 2,048 chunks of zeros, and no record
after it. -/

def zeros (n : Nat) : Bytes := List.replicate n 0

theorem zeros_length (n : Nat) : (zeros n).length = n := List.length_replicate

theorem readBytes_zeros : ∀ (n a : Nat) (m : Memory), (∀ x, a ≤ x → m.read x = 0) → m.readBytes a n = zeros n
  | 0, _, _, _ => rfl
  | n + 1, a, m, h => by
    rw [Memory.readBytes, h a (Nat.le_refl a), readBytes_zeros n (a + 1) m fun x hx => h x (Nat.le_of_succ_le hx)]
    rfl

theorem slice_within (b c : Bytes) {off n : Nat} (h : off + n ≤ b.length) : slice (b ++ c) off n = (b.drop off).take n := by
  have h1 : off - b.length = 0 := by omega
  have h2 : n - (b.length - off) = 0 := by omega
  have h3 : n - min n (b.length - off) = 0 := by omega
  simp [slice, List.drop_append, h1, List.take_append, h2, h3]

theorem slice_zeros {off n k : Nat} (c : Bytes) (h : off + n ≤ k) : slice (zeros k ++ c) off n = zeros n := by
  rw [slice_within _ _ (by rw [zeros_length]; exact h), zeros, List.drop_replicate, List.take_replicate]
  congr 1
  omega

theorem slice_table (d : Bytes) (hd : d.length = 32) : ∀ (c k : Nat) (rest : Bytes), c < k →
    slice ((List.replicate k d).flatten ++ rest) (32 * c) 32 = d
  | _, 0, _, h => absurd h (Nat.not_lt_zero _)
  | 0, k + 1, rest, _ => by
    rw [List.replicate_succ, List.flatten_cons, List.append_assoc, slice_within _ _ (by omega)]
    exact List.take_of_length_le (by simp [hd])
  | c + 1, k + 1, rest, h => by
    have ih := slice_table d hd c k rest (by omega)
    rw [List.replicate_succ, List.flatten_cons, List.append_assoc]
    have e : 32 * (c + 1) = d.length + 32 * c := by omega
    simp only [slice, e, List.drop_length_add_append] at ih ⊢
    exact ih

/-- The digest of a chunk of zeros, and the header: 8,320 zeros, the table, and zeros up to its length. -/
def chunkDigest : Bytes := Config.sha256 (zeros 65536)
def zeroTable : Bytes := (List.replicate 2048 chunkDigest).flatten
def zeroHeader : Bytes := zeros 8320 ++ (zeroTable ++ zeros 57216)

theorem chunkDigest_length : chunkDigest.length = 32 :=
  (List.length_map _).trans List.length_range

theorem zeroHeader_length : zeroHeader.length = 131072 := by
  have h : ∀ k, (List.replicate k chunkDigest).flatten.length = k * 32 := fun k => by
    rw [List.length_flatten, List.map_replicate, chunkDigest_length, List.sum_replicate_nat]
  rw [zeroHeader, List.length_append, List.length_append, zeros_length, zeros_length, zeroTable, h]

theorem zeroHeader_low {off n : Nat} (h : off + n ≤ 8320) : slice zeroHeader off n = zeros n := slice_zeros _ h

theorem zeroHeader_table {c : Nat} (h : c < 2048) : slice zeroHeader (8320 + 32 * c) 32 = chunkDigest := by
  have ht := slice_table chunkDigest chunkDigest_length c 2048 (zeros 57216) h
  have e : 8320 + 32 * c = (zeros 8320).length + 32 * c := by rw [zeros_length]
  rw [zeroHeader, slice, e, List.drop_length_add_append]
  exact ht

def stowedAnchor : Anchor :=
  { state := .stowed, seq := 0, headerDigest := Config.sha256 zeroHeader, stowCount := 0, stowContinuity := zeros 32, stow := [] }

/-- Self-Test at the recovery's wait, with the header of that area in host memory and a stow in the anchor. -/
def stowed : State := { areas with
  pwr := { areas.pwr with mode := .selfTest }
  hostMem := Memory.writeBytes [] 0x10000 zeroHeader
  lg := { areas.lg with waitSince := some 0, anchor := stowedAnchor } }

theorem header_placed (h : Bytes) {n : Nat} (hn : h.length = n) : (Memory.writeBytes [] 0x10000 h).readBytes 0x10000 n = h :=
  hn ▸ Memory.readBytes_writeBytes h rfl 0x10000

theorem behind_header (h : Bytes) {n : Nat} (hn : h.length = n) (k : Nat) :
    (Memory.writeBytes [] 0x10000 h).readBytes (0x10000 + n) k = zeros k :=
  readBytes_zeros k _ _ fun x hx =>
    (Memory.read_writeBytes_outside h [] 0x10000 x (.inr (by rw [hn]; exact hx))).trans rfl

theorem stowed_hostMem : stowed.hostMem = Memory.writeBytes [] 0x10000 zeroHeader := by simp only [stowed]

theorem stowed_header : stowed.dmaBytes 0x10000 131072 = zeroHeader := by
  rw [State.dmaBytes, stowed_hostMem,
    header_placed zeroHeader zeroHeader_length]

theorem stowed_images : stowed.dmaBytes (0x10000 + 131072) 134217728 = zeros 134217728 := by
  rw [State.dmaBytes, stowed_hostMem,
    behind_header zeroHeader zeroHeader_length]

theorem stowed_dma {a n : Nat} (h : a + n ≤ 2 ^ 64) : stowed.dmaOk 0 a n = true := by
  show (_ || ((true && true && decide _) && !false)) = true
  rw [decide_eq_true h]
  simp

theorem stowed_area : (([0x10000, 0x10000 + 0x08020000] : List Nat).find? fun a =>
    Config.sha256 (stowed.dmaBytes a 131072) = stowedAnchor.headerDigest
      && (match some stowedAnchor.seq with | some q => beAt (stowed.dmaBytes a 131072) 8 8 = q | none => true))
    = some 0x10000 := by
  rw [List.find?_cons_of_pos]
  rw [stowed_header, beAt, zeroHeader_low (by decide), Bool.and_eq_true]
  exact ⟨decide_eq_true rfl, by decide⟩

theorem stowed_chunks : ((List.range 2048).any fun c =>
    Config.sha256 (slice (zeros 134217728) (65536 * c) 65536) ≠ slice zeroHeader (8320 + 32 * c) 32) = false := by
  rw [List.any_eq_false]
  intro c hc
  have hc := List.mem_range.1 hc
  have hz := slice_zeros (off := 65536 * c) (n := 65536) (k := 134217728) [] (by omega)
  rw [List.append_nil] at hz
  rw [hz, zeroHeader_table hc, decide_eq_true_eq]
  exact fun h => h rfl

theorem stowed_restores : ∃ t, stowed.restoreLedger stowedAnchor.headerDigest stowedAnchor.stowContinuity
    stowedAnchor.stowCount (some stowedAnchor.seq) = .ok t := by
  have hbase : stowed.checkpointAddress = 0x10000 := by decide
  have hn : beAt zeroHeader 24 8 = 0 := by rw [beAt, zeroHeader_low (by decide)]; decide
  have hc : slice zeroHeader 48 32 = stowedAnchor.stowContinuity := zeroHeader_low (by decide)
  refine ⟨?_, ?_⟩
  case refine_2 =>
    unfold State.restoreLedger
    rw [hbase, if_neg]
    · simp only [stowed_area, stowed_header, stowed_images, stowed_chunks, hn, hc]
      rw [if_neg (by rw [stowed_dma (by decide)]; decide), if_neg (by decide), if_neg (by decide)]
      simp only [stowedAnchor, Nat.sub_self, State.replay, ne_eq, not_true, if_false]
      rfl
    · simp only [List.any_cons, List.any_nil, stowed_dma (a := 0x10000) (n := 131072) (by decide),
        stowed_dma (a := 0x10000 + 0x08020000) (n := 131072) (by decide)]
      decide

theorem applyEnv_empty (s : State) : s.applyEnv {} = s := rfl

theorem stowed_writable : Writable (stowed.applyEnv {}) (.tenant 0) 0x4000 0xC 0xC35A := writable (by decide)

theorem witness_StowAndRecovery :
    (svc.powered = true ∧ svc.pwr.pwrfail = false ∧ svc.pwr.mode ≠ .wake ∧ svc.pwr.mode ≠ .retired ∧ svc.lg.valid = true
      ∧ svc.noReel = true)
    ∧ (let s : State := { svc with pwr := { svc.pwr with pwrfail := true } }
       s.powered = true ∧ s.pwr.pwrfail = true ∧ s.pwr.stowed = false ∧ s.pwr.mode ≠ .wake)
    ∧ (let s : State := { svc with pwr := { svc.pwr with pwrfail := true, stowed := true } }
       s.powered = true ∧ s.pwr.pwrfail = true ∧ s.pwr.stowed = true)
    ∧ (Writable (stowed.applyEnv {}) (.tenant 0) 0x4000 0xC 0xC35A ∧ stowed.recoveryAllowed = true ∧ stowed.pwr.mode ≠ .standby
      ∧ stowed.lg.anchor.state = .stowed ∧ ∃ t, (stowed.applyEnv {}).restoreLedger stowed.lg.anchor.headerDigest
        stowed.lg.anchor.stowContinuity stowed.lg.anchor.stowCount (some stowed.lg.anchor.seq) = .ok t)
    ∧ (let s := regd { svc with pwr := { svc.pwr with mode := .standby, causes := [.ledgerRoot] } }
       let s : State := { s with pd := { s.pd with octets := [(objKey 0x4000 0xF 0, List.replicate 32 1)] } }
       Writable (s.applyEnv {}) .regulator 0x4000 0xC 0xC35A ∧ s.recoveryAllowed = true ∧ s.pwr.mode = .standby
         ∧ s.octets 0x4000 0xF 0 ≠ [])
    ∧ (let s : State := { svc with pwr := { svc.pwr with mode := .selfTest }, lg := { svc.lg with recovering := some false } }
       s.lg.recovering = some false ∧ s.pwr.mode = .selfTest) :=
  ⟨by decide, by decide, by decide, ⟨stowed_writable, by decide, by decide, rfl, by rw [applyEnv_empty]; exact stowed_restores⟩,
    ⟨writable (by decide), by decide, by decide, by decide⟩, by decide⟩

/-- The command words of one command of each opcode, on host memory, with handles 1 (P-256), 2 (Curve25519 signature) and
3 (RSA of 16 words), and a loaded curve 0x10. -/
def lieWords (op : Nat) : List (Nat × Nat) :=
  match op with
  | 1 => [(0, 0x40101), (1, 1 * 2 ^ 32)]
  | 2 => [(0, 0x40102)]
  | 3 => [(0, 0x40403), (1, 2 * 2 ^ 32), (5, 16384)]
  | 4 => [(0, 0x40404)]
  | 5 => [(0, 0x1000040105 + 2 ^ 34), (3, 0), (4, 64)]
  | 6 => [(0, 0x40106 + 2 ^ 34)]
  | 7 => [(0, 0x40107)]
  | 8 => [(0, 0x100008), (1, 3 * 2 ^ 32)]
  | 9 => [(0, 0x800009)]
  | 10 => [(0, 0x4F0A + 0x10000)]
  | _ => [(0, 0x4100B)]

def smallCurve : Curve := { tenant := 0, words := 4, p := 23, a := 1, b := 1, gx := 3, gy := 10, n := 28, h := 1 }

/-- Engine 95 of tenant 0 with a command's words. -/
def engined (op : Nat) : State := { svc with
  li := { svc.li with engines := [(95, { owner := 0, cmd := lieWords op })], curves := [(0x10, some smallCurve)] }
  lg := { svc.lg with poolUnits := [(0, 1)], totalUnits := 1, keys := [(2, [1])], poolLines := [(1, true)] }
  krf := { svc.krf with handles := [(1, some ⟨1, 2, 0, 1, 4, [], .unwrapped, [], []⟩), (2, some ⟨4, 2, 0, 1, 4, [], .unwrapped, [], []⟩),
    (3, some ⟨0x10, 2, 0, 1, 16, [], .unwrapped, [], []⟩)] } }

/-- The hypotheses of `LieStart` for one opcode. -/
def lieGoes (op : Nat) : Bool :=
  let s := engined op
  let b : LieBlock := ⟨(List.range 8).map fun i => mapGet 0 (s.engine 95).cmd i⟩
  let v := s.onEngine 95 fun g =>
    { g with status := 0, detail := 0, nominal := 0, stale := false, irq := b.irq, vector := b.vector }
  b.op = op && (s.openWord (.window 0 0x9F40) 0) = some (.frame 95 0x40, false) && s.reaches (.tenant 0) (.window 0 0x9F40)
    && (v.lieChecks b .direct 0 0).isNone && (match v.lieInputs b .direct 0 with
      | .ok _ => true
      | .error _ => false)

theorem witness_LieStart : ∀ op ∈ List.range' 1 11, lieGoes op = true := by decide

theorem witness_LieResults :
    (let b : LieBlock := ⟨[0x40101]⟩
     b.op = 1 ∧ b.isEd = false ∧ 0 < smallCurve.n ∧ 0 < ofBe (be 8 27) ∧ ofBe (be 8 27) < smallCurve.n
       ∧ smallCurve.n ≤ ofBe (be 8 28) ∧ ofBe (be 8 0) = 0)
    ∧ (let b : LieBlock := ⟨[0x11002]⟩
       let o := fun x y r => be 8 x ++ be 8 y ++ be 8 5 ++ be 8 r ++ be 8 1
       b.op = 2 ∧ smallCurve.p ≤ beAt (o 23 10 1) 0 8 ∧ smallCurve.holds (beAt (o 3 11 1) 0 8) (beAt (o 3 11 1) 8 8) = false
         ∧ beAt (o 3 10 0) 24 8 = 0 ∧ smallCurve.holds (beAt (o 3 10 0) 0 8) (beAt (o 3 10 0) 8 8) = true)
    ∧ (let b : LieBlock := ⟨[0x11005]⟩
       b.op = 5 ∧ b.isEd = false ∧ lieRun b smallCurve (be 8 3 ++ be 8 10) (be 8 2) [] = .ok (be 8 7, []))
    ∧ (let b : LieBlock := ⟨[0x11006]⟩
       b.op = 6 ∧ b.isEd = false ∧ 1 < smallCurve.n
         ∧ lieRun b smallCurve [] [] (List.replicate 9 0) = .ok (be 8 3 ++ be 8 10, be 8 1))
    ∧ (let b : LieBlock := ⟨[0x10009]⟩
       let n := 2 ^ 63 + 1
       b.op = 9 ∧ rsaBad b.len n 3 = false ∧ n ≤ n ∧ 0 < n - 1 ∧ 16 % 2 = 0)
    ∧ (let b : LieBlock := ⟨[0x10008]⟩
       b.op = 8 ∧ lieRun b smallCurve (be 8 4) (be 4 11 ++ be 4 3 ++ be 8 7) [] = .ok (be 8 31, [])) := by
  refine ⟨by decide, by decide, ⟨by decide, by decide, rfl⟩, ⟨by decide, by decide, by decide, rfl⟩, by decide, by decide, rfl⟩

/-- A command on engine 95 that has run its time. -/
def aCommand : LieCmd := {
  opcode := 7, user := .direct, tenant := 0, epoch := 0, status := stPointNotOnCurve, detail := 0, writes := []
  nominal := 100, start := 0, curve := 1, load := none, guarded := false }
def running (c : LieCmd) : State := { engined 7 with li := { (engined 7).li with engines := [(95, { owner := 0, running := some c })] }, clock := 100 }

theorem witness_LieEnd :
    (let s := running aCommand
     Reaches s (.window 0 0x9F40) (.frame 95 0x40) ∧ (s.engine 95).owner < 64 ∧ (s.engine 95).running = some aCommand
       ∧ aCommand.user = .direct ∧ (s.engine 95).irq = false ∧ aCommand.start + aCommand.nominal ≤ s.clock
       ∧ aCommand.status ≠ stOk ∧ aCommand.status ≠ stInternalFault)
    ∧ (let c := { aCommand with status := stOk, writes := [(0, 0x100, [1, 2])] }
       c.status = stOk ∧ c.load = none ∧ c.opcode ≠ 11 ∧ (running c).dmaLands c.tenant 0x100 2 = true
         ∧ (running c).hostMem.wf = true)
    ∧ (let c := { aCommand with status := stOk, writes := [(0, 2 ^ 64 - 1, [1, 2]), (1, 0, [3])] }
       c.status = stOk ∧ c.load = none ∧ c.opcode ≠ 11 ∧ (running c).dmaLands c.tenant (2 ^ 64 - 1) 2 = false)
    ∧ (let c := { aCommand with status := stOk, opcode := 10, curve := 0x4F, load := some smallCurve }
       c.status = stOk ∧ c.load = some smallCurve ∧ c.writes = [] ∧ mapGet none (running c).li.curves c.curve = none
         ∧ c.guarded = false)
    ∧ (Writable (engined 7) (.tenant 0) 0x5100 95 (63 : BitVec 8).toNat ∧ ((engined 7).engine 95).owner < 64
      ∧ ((engined 7).engine 95).owner ≠ (63 : BitVec 8).toNat
      ∧ ((engined 7).engine 95).running = none)
    ∧ (let s := inMode .standby
       Writable (s.applyEnv {}) (.tenant 0) 0x5000 7 0x5A3C ∧ s.li.ucodeLoad = none
         ∧ s.pwr.mode = .standby ∧ s.dmaOk 0 (s.num 0x5000 5 0 0) (s.num 0x5000 6 0 0) = true)
    ∧ (let s := regd { reeled with pwr := { reeled.pwr with mode := .ceremony } }
       let s : State := { s with
         li := { s.li with ucodeLoad := some [], ucodeRom := false, ucodeVersion := 9, ucodeSteps := 63 }
         lh := { s.lh with units := [(3, { running := some { op := 3, param := 3, user := .anchor .ucode } })] } }
       s.li.ucodeLoad = some [] ∧ s.anchorRuns .ucode = true ∧ s.unarchived + 1 < 16320
         ∧ Writable s .regulator 0x5000 4 (9 : BitVec 32).toNat ∧ s.li.ucodeMin < (9 : BitVec 32).toNat
         ∧ (9 : BitVec 32).toNat ≤ s.activeVersion ∧ s.li.ucodeSteps < 64) := by
  refine ⟨⟨⟨?_, ?_, false, ?_⟩, ?_⟩, by decide, by decide, by decide, ⟨writable ?_, ?_⟩, ⟨writable ?_, ?_⟩, ?_, ?_, ?_, writable ?_,
    ?_⟩ <;> decide

/-- A signing by core 3's service on unit 23, in its last round, and the verification of its signature. -/
def signing : UnitOp := {
  op := 2, param := 2, user := .service 3, rounds := 19, sigAddr := 8 }
def onUnit23 (o : UnitOp) : State := { svc with lh := { units := [(23, { running := some o })] }, clock := 10 ^ 12 }

theorem witness_LatticeUnits :
    ((onUnit23 signing).latticeUnit 23).running = some signing ∧ signing.user = .service 3 ∧ signing.op = 2
    ∧ signing.roundEnd ≤ (onUnit23 signing).clock ∧ signing.rounds < 20 ∧ signing.rounds = 19
    ∧ ({ signing with rounds := 18 } : UnitOp).rounds ≠ 19
    ∧ (let o := { signing with op := 3, user := .serviceVerify 3, result := some [1] }
       ((onUnit23 o).latticeUnit 23).running = some o ∧ o.fin ≤ (onUnit23 o).clock ∧ o.result = some [1] ∧ mapWf {} (onUnit23 o).lh.units = true ∧ ((onUnit23 o).latticeUnit 23).faults = []
         ∧ ((onUnit23 o).latticeUnit 23).retired = false) := by decide

/-- Service with its five sources. -/
def sourced : State := { svc with en := { svc.en with sources := (List.range 5).map fun i => (i, { state := .running }) } }
def stoppedEn : State := { sourced with
  en := { sourced.en with stopped := true, sources := (List.range 5).map fun i => (i, { state := if i = 4 then .isolated else .running }) }
  clock := 20000000 }

set_option maxRecDepth 100000 in
theorem witness_NoiseSources :
    (∀ i < 5, sourced.powered = true ∧ (sourced.source i).state = .running ∧ sourced.en.firstSeed = true
      ∧ sourced.en.stopped = false ∧ sourced.en.latch = false ∧ sourced.en.history = [])
    ∧ stoppedEn.restartDue = true
    ∧ (let s : State := { sourced with en := { sourced.en with stopped := true } }
       s.powered = true ∧ s.en.stopped = true ∧ s.en.firstSeed = true ∧ s.restarting = [] ∧ s.anchorSource = true
         ∧ s.en.reserve.length ≤ 64)
    ∧ (Writable (regd (inMode .ceremony)) .regulator 0x4800 0xA 0xE7A1 ∧ (regd (inMode .ceremony)).en.reserve.length ≤ 64)
    ∧ (let s := sourced
       s.powered = true ∧ (∀ i ∈ [0, 4], (s.source i).state = .running ∧ (s.source i).candidate = none ∧ (i = 4 ∨ s.turn = some i))
         ∧ s.en.stopped = false ∧ (List.replicate 144 (0x55 : Byte)).length = 144
         ∧ ((s.source 0).health.pass (samplesOf (List.replicate 144 0x55))).2 = 0
         ∧ ((s.source 0).health.pass (samplesOf (List.replicate 144 0))).2 ≠ 0) := by
  refine ⟨by decide, by decide, by decide, ⟨writable (by decide), by decide⟩, ?_⟩
  decide

/-- Instance 63 live and due, with two words in its FIFO. -/
def drawing : State := { svc with
  en := { svc.en with instances := [(63, { live := true, maxRequests := 1, requests := 1 })], fifos := [(63, [1, 2])] }
  hg := { svc.hg with vfEnable := true, vfMemSpace := true, numVfs := 63 } }

theorem witness_DrbgBank :
    (drawing.delivers 63 = true ∧ drawing.en.reserve ≠ [] ∧ (drawing.drbg 63).maxRequests ≤ (drawing.drbg 63).requests
      ∧ (drawing.drbg 63).lastReseed + (drawing.drbg 63).maxInterval * 1000000 ≤ drawing.clock)
    ∧ (255 < 256 ∧ 255 ≠ 76 ∧ (drawing.drbg 255).live = false ∧ drawing.en.firstSeed = true ∧ drawing.en.stopped = false ∧ drawing.en.latch = false
      ∧ drawing.pwr.mode ≠ .quarantine)
    ∧ (drawing.reaches (.tenant 63) (.window 63 0x100) = true
      ∧ drawing.openWord (.window 63 0x100) 0 = some (.rngData 63, false) ∧ drawing.fifo 63 = [1, 2]
      ∧ drawing.entropyBlock = none ∧ (drawing.drbg 63).live = true ∧ (Loc.window 63 0x100).offset % 8 = 0
      ∧ (Loc.window 63 0x100).offset % 4 = 0)
    ∧ (drawing.delivers 63 = true ∧ (drawing.fifo 63).length ≤ 16)
    ∧ (let s : State := { drawing with en := { drawing.en with drawWait := some 5 } }
       mapWf {} s.en.instances = true ∧ s.en.drawWait = some 5 ∧ s.pwr.mode = .service ∧ s.entropyBlock = none
         ∧ s.en.vaultBlock = some (List.replicate 64 0) ∧ s.en.reserve ≠ []) := by decide

/-- Tenant 0's load of slot 3 with two cores of die 0. -/
def loading : State := { svc with sz := { svc.sz with
  loads := [{ tenant := 0, image := [], slot := 3, die := 0 }]
  slots := [(3, { state := .loading, owner := 0, cores := [5, 6] })] } }

def applied : State := { svc with sz := { svc.sz with slots := [(175, { state := .running, owner := 0, cores := [191] })] } }

theorem witness_AppletLoading :
    (Writable (svc.applyEnv {}) (.tenant 0) 0x6010 4 0xA991 ∧ (∀ l ∈ svc.sz.loads, l.tenant ≠ 0) ∧ svc.loadMode = true
      ∧ svc.dmaOk 0 (svc.num 0x6010 1 0 0) (svc.num 0x6010 2 0 0) = true ∧ svc.freeSlot = some 0
      ∧ svc.dieFor (svc.num 0x6010 3 0 0xFF) 32 = some 0)
    ∧ (loading.sz.loads.find? (fun l => l.tenant = 0) = some { tenant := 0, image := [], slot := 3, die := 0 }
      ∧ (loading.applet 3).cores.Nodup ∧ (loading.applet 3).cores[1]? = some 6)
    ∧ (Writable applied (.tenant 0) 0x6010 8 (175 : BitVec 8).toNat ∧ (applied.applet 175).owner = 0
      ∧ (175 : BitVec 8).toNat < 176 ∧ (applied.applet 175).state ≠ .free ∧ mapWf {} applied.sz.slots = true) :=
  ⟨⟨writable (by decide), by decide, by decide, by decide, by decide, by decide⟩, by decide,
    ⟨writable (by decide), by decide, by decide, by decide, by decide⟩⟩

/-- The last slot's mailbox: rings of 16 cells, one message that waits each way. -/
def boxed : State := { svc with sz := { svc.sz with slots := [(175, {
  state := .running
  owner := 0
  cfg := 0x80000404
  inBase := 0x1000
  outBase := 0x2000
  hostInHead := 15
  hostInTail := 0
  hostOutTail := 15
  hostOutHead := 3
  outTail := 1
  outNext := 1 })] } }

theorem witness_Mailboxes :
    (Reaches boxed (.bar2 0x62BD8) (.slotFrame 175 0x18) ∧ (15 : BitVec 16).toNat < (boxed.applet 175).inSize
      ∧ (boxed.applet 175).inSize ≤ (16 : BitVec 16).toNat)
    ∧ (Reaches boxed (.bar2 0x62BDC) (.slotFrame 175 0x1C) ∧ (15 : BitVec 16).toNat < (boxed.applet 175).outSize)
    ∧ Reaches boxed (.bar2 0x62BD0) (.slotFrame 175 0x10) ∧ Reaches applied (.bar2 0x62BD0) (.slotFrame 175 0x10)
    ∧ ((applied.applet 175).enabled = false ∧ (0x80000C0C : BitVec 32).getLsbD 31 = true
      ∧ ringSizesOk (0x80000C0C : BitVec 32).toNat = true ∧ applied.hg.faulted = [])
    ∧ ((boxed.applet 175).enabled = true ∧ (0x404 : BitVec 32).getLsbD 31 = false
      ∧ (0x404 : BitVec 32) &&& 0x001F1F1F#32 = (boxed.applet 175).cfg &&& 0x001F1F1F#32)
    ∧ (let ap := boxed.applet 175
       let len := leAt (boxed.dmaBytes (ap.inBase + 64 * ap.hostInHead) 2) 0 2
       ap.state ≠ .free ∧ ap.state ≠ .loading ∧ len ≤ 4088
         ∧ messageCells len ≤ ringUsed ap.inSize ap.hostInHead ap.hostInTail ∧ ringUsed 512 ap.inHead ap.inTail + messageCells len ≤ 511
         ∧ ap.hostInHead < ap.inSize ∧ (∀ c < 16, boxed.dmaOk ap.owner (ap.inBase + 64 * c) 64 = true) ∧ ap.inRing.wf = true)
    ∧ (let ap := boxed.applet 175
       messageCells (leAt (ap.outRing.readBytes (64 * ap.outHead) 2) 0 2) = 1 ∧ ap.holdFrom = none ∧ ap.outHead < 496
         ∧ 1 ≤ ringUsed 496 ap.outHead ap.outNext ∧ ringUsed ap.outSize ap.hostOutHead ap.hostOutTail + 1 < ap.outSize
         ∧ ap.hostOutTail < ap.outSize ∧ boxed.dmaLands ap.owner (ap.outBase + 64 * ap.hostOutTail) 64 = true
         ∧ (boxed.fn ap.owner).msixEnable = false ∧ boxed.hostMem.wf = true)
    ∧ (let s : State := { svc with sz := { svc.sz with slots := [(47, { owner := 0 })] } }
       Reaches s (.window 0 0xABD8) (.slotFrame 47 0x18)) := by
  refine ⟨⟨⟨?_, ?_, false, ?_⟩, ?_⟩, ⟨⟨?_, ?_, false, ?_⟩, ?_⟩, ⟨?_, ?_, false, ?_⟩, ⟨?_, ?_, false, ?_⟩, ?_, ?_, ?_, ?_,
    ⟨?_, ?_, false, ?_⟩⟩ <;> decide

/-- Core 0 with these values in w1 to w4. -/
def calling (w1 w2 w3 w4 : Word) : State :=
  let s := sez 0 0 { regs with w := #v[0, w1, w2, w3, w4, 0, 0, 0, 0, 0, 0, 0, 0, 0, 0, 0] }
  { s with
    en := { s.en with instances := [(76, { live := true }), (80, { live := true })] }
    li := { engines := [(15, { owner := 0 })] } }

/-- The state in which core 0's service begins. -/
def called (s : State) : State := s.onCore 0 fun _ => { (s.seen 0).retire 2 .seq with run := .service }

/-- `calling` with bytes at the start of core 0's data memory. -/
def passing (b : Bytes) (w1 w2 w3 w4 : Word) : State :=
  (calling w1 w2 w3 w4).onCore 0 fun c => { c with dmem := Memory.writeBytes [] 0 b }

/-- A lattice block (Table 10.11): opcode, set, KeyAddr, InAddr, InLen, OutAddr, SigAddr. -/
def latticeBytes (op param len : Nat) : Bytes :=
  le 4 op ++ le 4 param ++ le 4 0 ++ le 4 0x10001000 ++ le 4 0x10004000 ++ le 4 len ++ le 4 0x10009000 ++ le 4 0
    ++ le 4 0x1000A000 ++ le 4 0x1000C000

/-- The hypotheses of the lattice clause. -/
def latticeGoes (op param len : Nat) : Bool :=
  let s := passing (latticeBytes op param len) 0x10000000 0 0 0
  let s : State := { s with lc := { s.lc with maint := true } }
  let u := called s
  let ap := s.applet (s.seen 0).slot
  match u.bufferRead 0 (s.seen 0).w[1].toNat 40 with
  | some raw =>
    let b := latticeBlock raw
    ap.granted 4 && !u.barred 0 && b.valid && s.lc.maint && ((b.op ≠ 2 && b.op ≠ 3) || (b.inLen ≤ 16384 && b.ctxLen ≤ 255))
      && u.latticeBuffers 0 b && b.handle = 0 && s.entropyBlock.isNone && (s.clientUnit 0).isSome && b.op = op
  | none => false

theorem witness_Services :
    Turn (calling 0 0 0 0) 0 2
    ∧ ((calling 0 0 0 0).applet ((calling 0 0 0 0).seen 0).slot).granted 0x30 = true
    ∧ (let s : State := { svc with sz := { svc.sz with cores := [(0, { run := .running })], slots := [(0, { state := .running, cores := [0] })] } }
       Turn s 0 2 ∧ (s.applet 0).granted 0x30 = false)
    ∧ (∀ k ∈ [1, 2, 3, 4, 5], let s := calling (BitVec.ofNat 32 k) 0x10000000 3 0x1007FFC0
       (called s).bufferRead 0 0x10000000 3 = some [0, 0, 0] ∧ s.en.firstSeed = true ∧ (called s).bufferOk 0 0x1007FFC0 64 = true)
    ∧ (let s := calling 0x1007F000 4096 0 0
       (called s).bufferOk 0 0x1007F000 4096 = true ∧ (called s).entropyBlock = none ∧ (called s).claimOf 0 = none
         ∧ (s.drbg (80 + (s.seen 0).slot)).live = true
         ∧ (s.drbg (80 + (s.seen 0).slot)).epoch = (s.applet (s.seen 0).slot).rngEpoch
         ∧ ({ s with en := { s.en with instances := [(80, { live := true, epoch := 1 })] } } : State).drbg 80 = { live := true, epoch := 1 })
    ∧ (let s := calling 0x1007F000 4096 0 0
       let s : State := { s with sz := { s.sz with draw := some { slot := 0, seq := 1 } } }
       (called s).claimOf 0 = some { slot := 0, seq := 1 } ∧ (called s).inDataMemory 0 0x1007F000 4096 = true
         ∧ (s.drbg 76).live = true)
    ∧ (let s := passing (le 8 0x40107 ++ le 8 0 ++ le 8 0x10000100) 0x10000000 0 0 0
       let u := called s
       ∃ b, u.barred 0 = false ∧ u.bufferRead 0 0x10000000 64 = some b
         ∧ (s.directEngines 0 0).find? (fun e => (s.engine e).running.isNone) = some 15
         ∧ (u.lieStart 15 ⟨(List.range 8).map fun i => leAt b (8 * i) 8⟩ (.service 0) 0).2 = none)
    ∧ (let s := passing [] 0x10000000 0 0 0
       let u := called s
       ∃ b st d, u.bufferRead 0 0x10000000 64 = some b
         ∧ (u.lieStart 15 ⟨(List.range 8).map fun i => leAt b (8 * i) 8⟩ (.service 0) 0).2 = some (st, d))
    ∧ (latticeGoes 1 0x12 0 = true ∧ latticeGoes 2 3 16384 = true ∧ latticeGoes 3 1 16384 = true ∧ latticeGoes 4 0x12 0 = true
      ∧ latticeGoes 5 0x11 1088 = true)
    ∧ ∃ body, (called (calling 0x10000000 4096 0 0)).bufferRead 0 0x10000000 4096 = some body := by
  refine ⟨⟨by decide, by decide, by decide⟩, by decide, ⟨⟨by decide, by decide, by decide⟩, by decide⟩, by decide, by decide, by decide,
    ⟨_, by decide, rfl, by decide, rfl⟩, ⟨_, _, _, rfl, rfl⟩, by decide, ⟨_, rfl⟩⟩

theorem witness_Draws :
    (let s := calling 0 0 0 0
     Turn s 0 2 ∧ ((s.applet (s.seen 0).slot).granted 0x10 = true ∧ (s.applet (s.seen 0).slot).granted 0x20 = true)
       ∧ (called s).barred 0 = false ∧ s.sz.draw = none ∧ s.en.drawWait = none ∧ s.pwr.mode = .service ∧ s.entropyBlock = none
       ∧ (called s).claimOf 0 = none)
    ∧ (let s := calling 0 0 0 0
       let s : State := { s with sz := { s.sz with draw := some { slot := 175, seq := 1 } } }
       s.sz.draw = some { slot := 175, seq := 1 } ∧ 175 ≠ (s.seen 0).slot ∧ (called s).barred 0 = false)
    ∧ (let s := calling 0x10000000 4096 0 0
       let s : State := { s with pwr := { s.pwr with mode := .draw }, sz := { s.sz with draw := some { slot := 0, seq := 1 } } }
       ∃ body, Turn s 0 2 ∧ (called s).claimOf 0 = some { slot := 0, seq := 1 }
         ∧ ({ slot := 0, seq := 1 } : DrawClaim).waiting = none ∧ (called s).bufferRead 0 0x10000000 4096 = some body
         ∧ s.lg.tapLog2 = 0 ∧ s.reelFill + 8192 + 2 ^ 20 ≤ 2 ^ 30 ∧ s.pwr.mode = .draw ∧ mapWf {} s.en.instances = true)
    ∧ (let s := passing (le 4 0x10001000 ++ le 4 16384 ++ le 4 (2 ^ 21 - 1) ++ le 4 65535 ++ le 8 9) 0x10000000 0x1007FFE0 0 0
       ∃ b space off payload, Turn s 0 2 ∧ (called s).bufferRead 0 0x10000000 24 = some b
         ∧ (called s).bufferSpace 0 0x1007FFE0 32 = some (space, off) ∧ leAt b 4 4 ≤ 16384
         ∧ (called s).bufferRead 0 (leAt b 0 4) (leAt b 4 4) = some payload ∧ s.inflightRoom = true ∧ leAt b 8 4 < 2 ^ 21
         ∧ leAt b 12 4 < 2 ^ 16 ∧ s.sz.outstanding = [])
    ∧ (let s : State := { svc with lg := { svc.lg with journalCount := 5 }, sz := { svc.sz with draw := some { slot := 0, seq := 1, waiting := some (0, 5) } } }
       s.sz.draw = some { slot := 0, seq := 1, waiting := some (0, 5) } ∧ 5 ≤ s.lg.journalCount - s.lg.reel.length
         ∧ mapWf {} s.sz.slots = true) :=
  ⟨⟨⟨by decide, by decide, by decide⟩, by decide, by decide, by decide, by decide, by decide, by decide, by decide⟩, by decide,
    ⟨_, ⟨by decide, by decide, by decide⟩, by decide, rfl, rfl, by decide, by decide, by decide, by decide⟩,
    ⟨_, _, _, _, ⟨by decide, by decide, by decide⟩, rfl, rfl, by decide, rfl, by decide, by decide, by decide, rfl⟩, by decide⟩

/-- A mailbox of tenant 0 with an empty request of 16 bytes, and a Directory with a value of its own. -/
def mailed : State := { svc with
  hg := { svc.hg with mbx := [(0, { reqAddr := 0x1000, respAddr := 0x2000, size := 0x20000002 })] }
  hostMem := Memory.writeBytes [] 0x1000 ([1, 0] ++ le 2 0 ++ [0xFF, 0, 0, 0] ++ le 4 7 ++ le 4 16) }

theorem writableBytes {s : State} {v : Viewer} {index sub : Nat} {b : Bytes} {o : Obj} (hv : s.viewerActive v = true)
    (hd : s.dirFree) (ho : findObj index sub = some o) (ha : s.entryDenied v o index sub 2 (getNum v b) = false)
    (hb : s.accepted o index sub (.bytes b) = true) (hn : o.apply = .now → s.en.firstSeed = true)
    (hf : o.apply = .off → s.offEnabled index = false) : WritableBytes s v index sub b :=
  ⟨hv, hd, o, ho, ha, hb, fun h => .inl (hn h), hf⟩

set_option maxRecDepth 16384 in
theorem witness_DirectoryEntries :
    (Readable svc (.tenant 0) 0x1100 1 ∧ ∃ o x, findObj 0x1100 1 = some o ∧ o.type.size = some 1 ∧ o.type.isBytes = false
      ∧ svc.objVal (.tenant 0) o 0 0x1100 1 = .ok (.num x))
    ∧ (svc.viewerActive (.tenant 0) = true ∧ svc.dirFree ∧ findObj 0xEFFF 0xFF = none ∧ 0xEFFF < 0xF000)
    ∧ (∃ o, findObj 0x4800 0xA = some o ∧ svc.entryDenied (.tenant 0) o 0x4800 0xA 1 0 = true)
    ∧ (∃ o, findObj 0x1100 1 = some o ∧ svc.entryDenied (.tenant 0) o 0x1100 1 3 0 = false)
    ∧ (∃ o k l, svc.nextObj (.tenant 0) 0x1100 1 = some (o, k, l))
    ∧ (Writable (svc.applyEnv {}) (.tenant 0) 0x3001 1 256 ∧ actionOf {} (.tenant 0) 0 0x3001 1 256 [] = none
      ∧ ∃ o, findObj 0x3001 1 = some o ∧ o.type.size = some 2 ∧ o.type.isBytes = false ∧ o.apply = .edge)
    ∧ (Writable (svc.applyEnv {}) (.tenant 0) 0x4000 2 0x10000 ∧ actionOf {} (.tenant 0) 0 0x4000 2 0x10000 [] = none
      ∧ ∃ o, findObj 0x4000 2 = some o ∧ o.type.size = some 8 ∧ o.type.isBytes = false ∧ o.apply = .now)
    ∧ (WritableBytes ((regd (inMode .ceremony)).applyEnv {}) .regulator 0x6100 0 (List.replicate 2688 1)
      ∧ (∃ o, findObj 0x6100 0 = some o ∧ o.type = .octets) ∧ ∀ x ∈ (regd (inMode .ceremony)).pd.staging, x.viewer ≠ .regulator)
    ∧ (let m := mapGet {} mailed.hg.mbx 0
       let r := parseRequest (.tenant 0) (.mailbox 0) 65536 (mailed.dmaBytes m.reqAddr 16)
       let y := (mailed.served (.tenant 0)).runEntries {} r.entries r
       Reaches mailed (.window 0 0x214) (.mbx 0 0x14) ∧ mailed.dirFree ∧ y.1.sp.closing = false
         ∧ bitsOf m.size.toNat 15 0 = 2 ∧ bitsOf m.size.toNat 31 16 = 8192 ∧ mailed.dmaOk 0 m.reqAddr 16 = true ∧ y.2.2 = false
         ∧ mapGet {} y.1.hg.mbx 0 = m ∧ m.ctrl.getLsbD 0 = false ∧ y.1.dmaOk 0 m.respAddr y.2.1.response.length = true
         ∧ y.1.hostMem.wf = true) := by
  refine ⟨⟨⟨by decide, by decide, _, rfl, by decide⟩, _, _, rfl, by decide, by decide, rfl⟩, by decide, ⟨_, rfl, by decide⟩,
    ⟨_, rfl, by decide⟩, ⟨_, _, _, rfl⟩, ⟨writable (by decide), by decide, _, rfl, by decide, by decide, by decide⟩,
    ⟨writable (by decide), by decide, _, rfl, by decide, by decide, by decide⟩,
    ⟨writableBytes (by decide) (by decide) rfl (by decide) (by decide) (fun _ => by decide) (fun h => nomatch h), ⟨_, rfl, by decide⟩, by decide⟩,
    ⟨⟨by decide, by decide, false, by decide⟩, by decide⟩⟩

/-- The base point of P-384, uncompressed. -/
def basePoint : Bytes := p384Point 1

def certOf (role : Nat) (issuer : Bytes) : Cert :=
  { role := role, serial := 0, notBefore := 0, notAfter := 1, subject := [], issuerDigest := issuer, publicKey := [], formatOk := true,
    sigOk := true }
def aHello : HelloCFields :=
  { src := ⟨9, 9⟩, nonce := [], ephemeral := basePoint, formatOk := true, root := certOf 1 []
    signer := certOf 2 (Config.sha256 []) }

/-- The Supervisory Port up, with a regulator root and, where given, a session. -/
def ported (x : Option Session) : State := { svc with
  pd := { svc.pd with nums := [(objKey 0xA000 1 0, some 1), (objKey 0xA000 2 0, some 5), (objKey 0xA000 3 0, some 6)] }
  sp := { svc.sp with link := true, rootDigests := [Config.sha256 []], session := x }
  clock := 40000000000 }
def half : Session := { sid := 1, source := ⟨9, 9⟩, opened := false, signer := [], last := 0 }
def openOne : Session := { half with opened := true, seqIn := 4, kept := [1] }

theorem hello_good : (ported none).helloCode aHello = none := by
  simp [State.helloCode, ported, aHello, certOf, State.sessionOpen, State.rootDigest, State.inWindow, svc, State.reset,
    show p384Valid basePoint = true by decide]

theorem witness_YilileSession :
    ((ported none).spUp = true ∧ (ported none).foreign aHello.src = false ∧ (ported none).coreEntropyBlock = none
      ∧ (ported none).helloCode aHello = none ∧ (ported (some openOne)).sessionOpen = true)
    ∧ ((ported (some half)).sp.session = some half ∧ (ported (some half)).spUp = true ∧ half.opened = false
      ∧ (ported (some half)).foreign half.source = false ∧ half.last + 2000000000 ≤ (ported (some half)).clock)
    ∧ ((ported (some openOne)).sp.session = some openOne ∧ openOne.opened = true ∧ (ported (some openOne)).foreign openOne.source = false
      ∧ (ported (some openOne)).dirFree ∧ (parseRequest .regulator .session 1424 []).entries = []
      ∧ openOne.kept ≠ [] ∧ 6 ≠ openOne.seqIn ∧ 6 ≠ openOne.seqIn + 1 ∧ (ported (some openOne)).pwr.mode ≠ .ceremony
      ∧ openOne.last + (ported (some openOne)).sessionIdle * 1000000000 ≤ (ported (some openOne)).clock)
    ∧ (let s : State := { ported (some openOne) with sp := { (ported (some openOne)).sp with downSince := some 0 } }
       s.spUp = true ∧ s.sp.downSince = some 0 ∧ 0 + s.sessionIdle * 1000000000 < s.clock)
    ∧ (let s : State := { ported (some { openOne with kept := [] }) with pd := { (ported none).pd with
         waiting := [{ viewer := .regulator, sink := .session, tenant := 0, entries := [] }] } }
       s.sp.session = some { openOne with kept := [] } ∧ s.spUp = true ∧ s.outstanding 64 = true) :=
  ⟨⟨by decide, by decide, by decide, hello_good, by decide⟩, by decide, by decide, by decide, by decide⟩

theorem witness_SupervisoryPort :
    ((ported none).spUp = true ∧ (ported none).sp.arp = [] ∧ ([] : Bytes).length ≤ 1472 ∧ (ported none).sp.arp.length < 8)
    ∧ (let s : State := { ported none with sp := { (ported none).sp with arp := [(9, 1, 0)] } }
       ∃ e ∈ s.sp.arp, e.1 = 9)
    ∧ (let s : State := { ported none with sp := { (ported none).sp with icmpSecond := 40, icmpCount := 63 } }
       s.sp.icmpSecond = s.clock / 1000000000 ∧ s.sp.icmpCount < 64)
    ∧ (let s : State := { ported none with sp := { (ported none).sp with icmpSecond := 40, icmpCount := 64 } }
       s.sp.icmpSecond = s.clock / 1000000000 ∧ 64 ≤ s.sp.icmpCount)
    ∧ (let s : State := { ported none with sp := { (ported none).sp with link := false } }
       s.powered = true ∧ s.spEnabled = true ∧ (4 : BitVec 16).getLsbD 2 = true ∧ s.sp.link = false)
    ∧ ((ported none).sp.link = true ∧ (ported none).sp.downSince = none ∧ (ported none).sp.mdioBusy = false
      ∧ Reaches (ported none) (.bar2 0x90008) .spMdio ∧ (ported none).sp.mdioData < 65536)
    ∧ (∀ op ∈ [1, 2], let s : State := { ported none with sp := { (ported none).sp with mdioBusy := true, mdioOp := op }, lc := { svc.lc with tapInstr := 1 } }
       s.sp.mdioBusy = true ∧ s.lc.tapInstr ≠ 0 ∧ s.lc.tapInstr ≠ 3 ∧ s.sp.mdioOp = op)
    ∧ (Writable (ported none) (.tenant 0) 0xA000 1 1 ∧ (ported none).sessionOpen = false ∧ (ported none).spMac ≠ 0
      ∧ (ported none).spIp ≠ 0)
    ∧ (Writable (ported (some openOne)) (.tenant 0) 0xA000 1 0 ∧ (ported (some openOne)).sessionOpen = true)
    ∧ (let s := regd (inMode .ceremony)
       WritableBytes s .regulator 0xA000 0xC (List.replicate 32 7) ∧ (List.replicate 32 (7 : Byte)).length = 32
         ∧ s.sp.rootDigests.length < 4)
    ∧ (let s := regd (inMode .ceremony)
       let s : State := { s with sp := { s.sp with rootDigests := [[], [], [], []] } }
       WritableBytes s .regulator 0xA000 0xC (List.replicate 32 7) ∧ 4 ≤ s.sp.rootDigests.length)
    ∧ (Writable (ported (some openOne)) .regulator 0xA000 1 0 ∧ (ported (some openOne)).pwr.mode ≠ .ceremony) :=
  ⟨by decide, ⟨_, .head _, rfl⟩, by decide, by decide, by decide,
    ⟨by decide, by decide, by decide, ⟨by decide, by decide, false, by decide⟩, by decide⟩, by decide,
    ⟨writable (by decide), by decide, by decide, by decide⟩, ⟨writable (by decide), by decide⟩,
    ⟨writableBytes (by decide) (by decide) rfl (by decide) (by decide) (fun _ => by decide) (fun h => nomatch h), by decide, by decide⟩,
    ⟨writableBytes (by decide) (by decide) rfl (by decide) (by decide) (fun _ => by decide) (fun h => nomatch h), by decide⟩,
    ⟨writable (by decide), by decide⟩⟩

theorem witness_Registers :
    (({} : HostEnv).poisoned = false ∧ svc.reaches (.tenant 0) (.window 0 0xFFFC) = true ∧ svc.openWord (.window 0 0xFFFC) 0 = none
      ∧ (Loc.window 0 0xFFFC).offset % 4 = 0)
    ∧ Reaches svc (.window 0 0x40) .modeStat ∧ Reaches svc (.bar2 0x804) .parErr
    ∧ (Reaches svc (.bar2 0xF0008) .tbCfg ∧ svc.hg.faulted = [])
    ∧ Reaches svc (.bar2 0x808) .blockLock
    ∧ (svc.openWord (.bar2 0x804) 0 = some (.parErr, false) ∧ rcOf .parErr = some .parErr ∧ mapWf 0 svc.latches = true
      ∧ svc.regField (.tenant 0) 0 .parErr false + svc.latched .parErr (.tenant 0) < 2 ^ 32)
    ∧ (let s : State := { queued with pwr := { queued.pwr with mode := .standby } }
       s.sealing = false ∧ mapWf {} s.hg.queues = true ∧ s.powered = true ∧ 4 ≤ s.pwr.wakeStep
         ∧ s.unitAt (.window 63 0x11D0) = parityUnit (.queue 63 7 0x10) ∧ s.unarchived + 2 < 16320)
    ∧ (let s : State := { svc with hg := { svc.hg with fns := [(0, { memSpace := true, msixEnable := true, pba := [31] })] } }
       s.fnReached 0 = true ∧ (s.fn 0).msixEnable = true ∧ (s.fn 0).msixMaskAll = false ∧ (s.fn 0).pba = [31]) := by
  refine ⟨by decide, ⟨?_, ?_, false, ?_⟩, ⟨?_, ?_, false, ?_⟩, ⟨⟨?_, ?_, false, ?_⟩, ?_⟩, ⟨?_, ?_, false, ?_⟩, ?_, ?_, ?_⟩ <;>
    decide

/-- Tenant 0's key objects filled in, and a key store. -/
def keyed : State := { svc with
  tg := { svc.tg with rootKey := some [1] }
  pd := { svc.pd with nums := [(objKey 0x2100 1 0, some 0xFFF), (objKey 0x2100 2 0, some 4), (objKey 0x2100 3 0, some 1),
    (objKey 0x2100 0xE 0, some 0x100000)] } }
def aKeyOp : KeyOp :=
  { viewer := .tenant 0, tenant := 0, handle := 0xFFF, type := 4, usage := 1, words := 0, imported := false, blob := [], start := 0, engine := some 3 }

theorem witness_KeyHandles :
    (namedTenant (.tenant 0) 0xFF = .ok 0 ∧ Writable keyed (.tenant 0) 0x2100 5 0x6E4B ∧ keyed.keyStore ≠ 0 ∧ keyed.krf.running = none
      ∧ keyed.en.firstSeed = true)
    ∧ (let k := regd { keyed with pwr := { keyed.pwr with mode := .ceremony, ceremonyFrom := some .standby } }
       let s : State := { k with pd := { k.pd with nums := (objKey 0x2100 0xE 0, some 0x100000) :: k.pd.nums } }
       Writable s .regulator 0x2100 8 0x1A4B ∧ s.krf.running = none ∧ s.pwr.mode = .ceremony ∧ s.pwr.ceremonyFrom = some .standby ∧ s.keyStore ≠ 0
         ∧ namedTenant .regulator 0xFF = .ok 0)
    ∧ (let s : State := { keyed with krf := { keyed.krf with handles := [(0xFFF, some (aKey 4 0))] } }
       let h := s.num 0x2100 1 0 0
       Writable s (.tenant 0) 0x2100 9 0xDE4B ∧ s.krf.running = none ∧ (s.handle h).isSome = true ∧ reachesHandle (.tenant 0) (s.handle h) = true
         ∧ s.handleUsed h = false ∧ mapWf none s.krf.handles = true ∧ s.handle h = some (aKey 4 0)
         ∧ (aKey 4 0).state = .unwrapped ∧ (aKey 4 0).publicPart.length ≤ 4096 ∧ h ≠ 0
         ∧ Readable s (.tenant 0) 0x2100 0xB ∧ Readable s (.tenant 0) 0x2100 0xC)
    ∧ (let s : State := { keyed with krf := { keyed.krf with journal := some ([], []) } }
       s.krf.journal = some ([], []) ∧ s.derives = true ∧ Readable s (.tenant 0) 0x4000 0x14)
    ∧ (let s : State := { keyed with krf := { keyed.krf with running := some aKeyOp } }
       s.krf.running = some aKeyOp ∧ s.keyOpBlock aKeyOp = none ∧ s.keyOpPlaced aKeyOp = true
         ∧ (∀ u < 4, (s.latticeUnit u).running = none)
         ∧ s.dmaLands 0 (s.entryAddress aKeyOp.handle) (48 + 32 + 32) = true ∧ s.hostMem.wf = true)
    ∧ (let k : KeyOp := { aKeyOp with type := 0x22, usage := 2, engine := none }
       let s : State := { keyed with
         krf := { keyed.krf with running := some k }
         lh := { units := [(3, { running := some { op := 1, param := 2, user := .anchor .keyOp } })] } }
       s.krf.running = some k ∧ s.keyOpBlock k = none ∧ s.keyOpPlaced k = true
         ∧ ((s.latticeUnit 3).running.map (·.user)) = some (.anchor .keyOp)) :=
  ⟨⟨rfl, writable (by decide), by decide, by decide, by decide⟩,
    ⟨writable (by decide), by decide, by decide, by decide, by decide, rfl⟩,
    ⟨writable (by decide), by decide, by decide, by decide, by decide, by decide, by decide, by decide, by decide, by decide,
      ⟨by decide, by decide, _, rfl, by decide⟩, by decide, by decide, _, rfl, by decide⟩,
    ⟨by decide, by decide, by decide, by decide, _, rfl, by decide⟩, by decide, by decide⟩

/-- A unit with a reel in a state. -/
def reel (f : El → El) : State := { svc with el := f { svc.el with reelId := 7, keyed := true }, clock := 2000000000 }
def anAck : OpenAckFields :=
  { reelId := 7, heldCount := 0, heldContinuity := [], recorderKey := [], runOut := 100, ephemeral := basePoint, sigOk := true }
def aStatus : StatusFields :=
  { reelId := 7, statusSeq := 1, ackSeq := 0, heldCount := 0, freeMib := 0, stop := false, broken := false, tagOk := true }

/-- A reel in OPENING whose recorder's digest is set, with `n` records in the journal. -/
def opening (n : Nat) : State := { svc with
  pd := { svc.pd with nums := [(objKey 0x7010 1 0, some (ofBe (Config.sha256 [])))] }
  lg := { svc.lg with journalCount := n }
  el := { svc.el with state := .opening, reelId := 7, cadence := 2624, openCount := n, openContinuity := List.replicate 32 0 } }

/-- The recorder's answer passes every check, where its key's digest is not zero (no proof knows a value of SHA-256). -/
theorem ack_good (h : ofBe (Config.sha256 []) ≠ 0) (n : Nat) : (opening n).ackRefusal anAck = none := by
  have hd : (opening n).recorderDigest = ofBe (Config.sha256 []) := rfl
  have hv : p384Valid basePoint = true := by decide
  have hk : (!(p384Valid anAck.ephemeral && anAck.sigOk)) = false := by
    rw [show anAck.ephemeral = basePoint from rfl, hv]; decide
  have hr : (!runOutOk anAck.runOut (opening n).el.cadence) = false := by
    show (!runOutOk 100 2624) = false
    decide
  have hn : ¬(opening n).el.openCount < anAck.heldCount := Nat.not_lt_zero _
  have hc : slice anAck.heldContinuity 0 32 = (opening n).el.openContinuity := by
    show slice [] 0 32 = List.replicate 32 (0 : Byte)
    decide
  rw [State.ackRefusal, hd, hk, hr]
  simp [h, hn, hc, show anAck.recorderKey = [] from rfl]

theorem witness_EscrowReel :
    (Writable ((inMode .standby).applyEnv {}) (.tenant 0) 0x7000 4 0xE1A ∧ (inMode .standby).mayOpenReel = true
      ∧ (inMode .standby).coreEntropyBlock = none)
    ∧ (let s := reel fun e => { e with state := .opening }
       s.serdes = true ∧ s.el.state = .opening ∧ anAck.reelId = s.el.reelId ∧ s.el.openStart + 1000000000 ≤ s.clock
         ∧ s.recorderDigest = 0 ∧ s.ackRefusal anAck = some 0x10)
    ∧ ((opening 0).serdes = true ∧ (opening 0).el.state = .opening ∧ anAck.reelId = (opening 0).el.reelId
      ∧ anAck.heldCount = (opening 0).lg.journalCount ∧ (opening 0).roomy ∧ anAck.heldCount ≠ (opening 1).lg.journalCount)
    ∧ (ofBe (Config.sha256 []) ≠ 0 → (opening 0).ackRefusal anAck = none ∧ (opening 1).ackRefusal anAck = none)
    ∧ (let s := reel fun e => { e with state := .pickup }
       s.el.state = .pickup ∧ s.el.segmentStart = 0 ∧ s.hostPartNeeded = false ∧ s.roomy)
    ∧ (let s := regd (inMode .ceremony)
       Writable s .regulator 0x7000 0xB 0x5C1E)
    ∧ (let s := reel fun e => { e with state := .running }
       s.powered = true ∧ s.el.transmit = true ∧ s.el.state = .running ∧ s.el.ending = false ∧ s.el.stalled = false
         ∧ s.el.lastStatus + s.statusLimit * 1000000 ≤ s.clock
         ∧ s.statusAccepted aStatus = true ∧ s.statusAccepted { aStatus with statusSeq := 0 } = false ∧ s.serdes = true)
    ∧ (let s := reel fun e => { e with state := .running, frames := [(1, 1980000000)] }
       (1, 1980000000) ∈ s.el.frames ∧ 1980000000 + s.ackLimit * 1000000 ≤ s.clock)
    ∧ (let s := reel fun e => { e with state := .running, stalled := true, goodSince := 1990000000, lastStatus := 1995000001 }
       s.el.stalled = true ∧ s.el.keyed = true ∧ s.el.goodSince + 10000000 ≤ s.clock
         ∧ s.clock < s.el.lastStatus + s.statusLimit * 1000000 ∧ s.el.frames = [])
    ∧ (let s : State := { svc with pwr := { svc.pwr with mode := .held, causes := [.reelBufferFull] } }
       s.pwr.causes = [.reelBufferFull] ∧ s.reelFill ≤ 2 ^ 29 ∧ s.pwr.mode = .held)
    ∧ (let s : State := { reel fun e => { e with state := .running } with pwr := { svc.pwr with mode := .standby } }
       Writable s (.tenant 0) 0x7000 5 0xE50 ∧ s.el.state = .running ∧ s.sealing = false)
    ∧ (let s := reel fun e => { e with state := .runout, stopClock := 1900000000, runOut := 105, segmentStart := 1 }
       s.el.state = .runout ∧ s.el.ending = false ∧ s.el.stopClock + s.el.runOut * 1000000 ≤ s.clock + 5000000
         ∧ s.el.segmentStart ≠ 0 ∧ s.roomy)
    ∧ (let s : State := { reel fun e => { e with state := .pickup } with lg := { svc.lg with journalCount := 1 } }
       s.el.state = .pickup ∧ s.el.segmentStart = 0 ∧ s.hostPartNeeded = true ∧ s.hostPart = none)
    ∧ (∀ k ∈ [ReelState.opening, .runout], ∀ n < 2, let s := reel fun e => { e with
         state := k, ending := true, endCount := n, sentCount := n }
       s.powered = true ∧ s.el.transmit = true ∧ s.el.state = k ∧ s.el.ending = true
         ∧ s.el.endCount ≤ (fillBody s.toSend s.el.sentPart 8128 s.el.sentCount).2.1)
    ∧ (let s : State := { reel fun e => { e with state := .running } with pwr := { svc.pwr with mode := .standby } }
       s.powered = true ∧ s.statusAccepted { aStatus with stop := true } = true ∧ s.sealing = false)
    ∧ (∀ l < 4, bitOf (reel id).el.rxLock l = false ∧ bitOf (reel fun e => { e with rxLock := 15 }).el.rxLock l = true) := by
  exact ⟨⟨writable (by decide), by decide, by decide⟩, by decide, by decide, fun h => ⟨ack_good h 0, ack_good h 1⟩, by decide,
    writable (by decide), by decide, by decide, by decide, by decide, ⟨writable (by decide), by decide, by decide⟩, by decide,
    by decide, by decide, by decide, by decide⟩

/-- Member 1 of a Fleet, with port 0 enabled in a state, the way to member 2 through it, and frames of member 2 for this
member. -/
def linked (f : Port → Port) : State := { svc with
  pd := { svc.pd with nums := [(objKey 0x7800 1 0, some 1), (objKey 0x7800 2 0, some 5), (objKey 0x7800 3 0, some 1),
    (objKey 0x7900 2 0, some 22)] }
  xl := { svc.xl with
    ports := [(0, f { cfg := 0x80000000, state := .up, partner := 2 })]
    routes := [(1, 0xC0000000), (2, 0x80000000), (1023, 0x80000000)] }
  clock := 2000000000 }
def hdr (vc : Nat) : LinkHdr :=
  { port := 0, vc := vc, wentDown := false, creditVc := 0, creditCount := 0, dest := 1, src := 2, seq := 1, length := 0, reqId := 4
    tagOk := true }
def aHelloX : HelloFields := { unitId := 22, fleetId := 5, memberId := 2, certOk := true, signed := true, sigOk := true, ephemeral := basePoint }

/-- A request of this member to member 2 that waits. -/
def aRequest (type : Nat) : LinkReq := { reqId := 4, dest := 2, type := type, payload := [1], sent := 0 }

theorem witness_FleetLinks :
    mapWf {} (linked id).xl.ports = true
    ∧ (let s := linked fun q => { q with state := .training }
       (s.port 0).state = .training ∧ s.portMay 0 = true ∧ s.serdes = true ∧ s.coreEntropyBlock = none
         ∧ (s.port 0).since + 100000000 ≤ s.clock)
    ∧ (let s := linked fun q => { q with state := .keying, helloSigned := true }
       (s.port 0).state = .keying ∧ s.unarchived + 1 < 16320 ∧ (s.port 0).since + 5000000 ≤ s.clock
         ∧ s.helloAccepted aHelloX = true ∧ aHelloX.signed = true ∧ (s.port 0).helloSigned = true
         ∧ s.memberId < aHelloX.memberId ∧ s.helloAccepted { aHelloX with memberId := 1 } = false)
    ∧ (let s := linked fun q => { q with state := .keying, helloSigned := true }
       let s : State := { s with pd := { s.pd with nums := [(objKey 0x7800 1 0, some 1), (objKey 0x7800 2 0, some 5),
         (objKey 0x7800 3 0, some 1023), (objKey 0x7900 2 0, some 22)] } }
       (s.port 0).state = .keying ∧ s.helloAccepted aHelloX = true ∧ (s.port 0).helloSigned = true
         ∧ aHelloX.memberId < s.memberId)
    ∧ (let s := linked fun q => { q with state := .keying }
       { aHelloX with signed := false }.signed = false ∧ (s.port 0).helloSigned = false)
    ∧ (let s := linked fun q => { q with state := .down, retryAt := some 2000000000 }
       (s.port 0).state = .down ∧ (s.port 0).retryAt = some 2000000000 ∧ 2000000000 ≤ s.clock)
    ∧ (let s := linked id
       (s.port 0).state = .up ∧ (s.port 0).lastFrame + 100000 ≤ s.clock ∧ (hdr 3).tagOk = true ∧ 2 ≠ (s.port 0).rxSeq + 1
         ∧ s.unarchived + 1 < 16320 ∧ (s.port 0).lastSent + 10000 ≤ s.clock ∧ (s.port 0).queue = [] ∧ 1 ≤ (s.port 0).credit 3)
    ∧ (let s := linked fun q => { q with stalledSince := [(2, some 0)] }
       mapGet none (s.port 0).stalledSince 2 = some 0 ∧ 0 + 1000000 < s.clock)
    ∧ (let s := linked id
       Arrives s (hdr 3) 3 ∧ Arrives s (hdr 3) 2 ∧ Arrives s (hdr 0) 0x12 ∧ Arrives s (hdr 1) 0x22 ∧ mapWf 64 (s.port 0).credits = true
         ∧ mapWf 0 (s.port 0).owed = true ∧ mapWf 0 s.xl.memberSeen = true ∧ vcOf 3 ≠ some 0 ∧ vcOf 0x10 = some (hdr 0).vc)
    ∧ (let u := ((linked id).frameIn { hdr 0 with dest := 1022 }).1
       (u.route 0 1022).valid = false)
    ∧ (let u := ((linked id).frameIn { hdr 0 with dest := 1023 }).1
       let r := u.route 0 1023
       r.valid = true ∧ r.isLocal = false ∧ r.up = false ∧ (u.port r.out).state = .up ∧ (u.port r.out).queue = []
         ∧ frameUnits 1 ≤ (u.port r.out).credit 0)
    ∧ (let s := linked id
       let u := { s with xl := { s.xl with routes := [(1023, 0x80000004)] } }
       let w := (u.frameIn { hdr 0 with dest := 1023, wentDown := true }).1
       (w.route 0 1023).valid = true ∧ (w.route 0 1023).isLocal = false ∧ (w.route 0 1023).up = true)
    ∧ (let s := linked id
       s.dirFree ∧ s.fresh (hdr 0) ∧ (let u := (s.frameIn (hdr 0)).1
         let r := parseRequest (.peer 0) (.peer (hdr 0)) 4088 []
         let y := (u.served (.peer 0)).runEntries {} r.entries r
         y.2.2 = false ∧ y.1.sp.closing = false))
    ∧ (let s : State := { linked id with xl := { (linked id).xl with answered := [⟨2, 4, 0x22, []⟩], requests := [aRequest 0x12] } }
       (s.frameIn (hdr 0)).1.xl.answered.find? (fun a => a.src = (hdr 0).src && a.reqId = (hdr 0).reqId) = some ⟨2, 4, 0x22, []⟩
         ∧ (s.frameIn (hdr 1)).1.asked (hdr 1) 0x12 (aRequest 0x12)
         ∧ s.xl.requests.find? (fun r => r.reqId = 4) = some (aRequest 0x12) ∧ (aRequest 0x12).sent + 1000000 ≤ s.clock
         ∧ s.sends 2 0 1 0 false)
    ∧ ((linked id).fleetEnable = true ∧ (linked id).xl.lastHeartbeat + 500000 ≤ (linked id).clock ∧ (linked id).partners = [])
    ∧ (let s : State := { linked id with lg := { svc.lg with slots := [(9, { home := 1, mirror := 2, flags := 1 })] } }
       s.partners = [2] ∧ s.sends 2 3 0 0 false)
    ∧ (let c := regd (inMode .ceremony)
       Writable c .regulator (0x7900 + 1023 / 256) (1023 % 256) (5 : BitVec 64).toNat)
    ∧ (let c := regd (inMode .ceremony)
       Writable c .regulator 0x7800 1 1 ∧ Writable c .regulator 0x7800 1 0 ∧ c.lc.staged = none) := by
  refine ⟨by decide, by decide, by decide, by decide, by decide, by decide, by decide, by decide,
    ⟨⟨by decide, by decide, by decide, by decide, .inr (by decide)⟩, ⟨by decide, by decide, by decide, by decide, .inr (by decide)⟩,
      ⟨by decide, by decide, by decide, by decide, .inr (by decide)⟩, ⟨by decide, by decide, by decide, by decide, .inr (by decide)⟩,
      by decide⟩, by decide, by decide, by decide, ⟨by decide, (by intro a h; cases h), by decide, by decide⟩,
    ⟨by decide, rfl, rfl, by decide, ⟨rfl, rfl, rfl, by decide⟩⟩, by decide, ⟨by decide, ⟨rfl, rfl, rfl, by decide⟩⟩,
    writable (by decide), ⟨writable (by decide), writable (by decide), by decide⟩⟩

/-- `linked` with slot 9 in a role, its window owned by tenant 0, and more of the Fleet's state. -/
def roled (x : Slot) (f : Xl → Xl) : State :=
  let s := linked id
  { s with lg := { s.lg with slots := [(9, x)], windows := [(0, { owner := 0 })] }, xl := f s.xl }
/-- LEASED at home here, LEASED at home with member 2, MIRRORED here, MIRRORED at home here. -/
def leasedHere : Slot := { state := 1, tenant := 0, serial := 40, home := 1, flags := 2 }
def leasedThere : Slot := { leasedHere with home := 2 }
def mirrorHere : Slot := { state := 2, tenant := 0, serial := 40, home := 2, mirror := 1, flags := 1 }
def mirrorThere : Slot := { mirrorHere with state := 1, home := 1, mirror := 2 }
def roles (home mirror : Nat) : RoleFields :=
  { slot := 9, roleEpoch := 0, home := home, mirror := mirror, leased := false, mirrored := true, serial := 50, leases := [] }

/-- A Directory request of one WRITE that waits. -/
def waitingWrite (v : Viewer) (index sub : Nat) : DirReq :=
  { viewer := v, sink := .single, tenant := 0, cap := 2 ^ 20, entries := [{ index := index, sub := sub, op := 2 }] }
def withWrite (v : Viewer) (index sub : Nat) (s : State) : State :=
  { s with pd := { s.pd with deferred := some (waitingWrite v index sub) } }
def anOffer : RoleChange := { slot := 9, mirror := 2, leased := false, start := 0, reqId := 4 }
/-- A Ceremony's claim by the session of the regulator that waits for member 2. -/
def claiming (w : List Nat) : State :=
  let r := regd (inMode .standby)
  let s := linked id
  withWrite .regulator 0x1100 2 { r with
    xl := { s.xl with claim := some { start := 0, waiting := w }, requests := [aRequest 0x13] }
    pd := { r.pd with nums := [(objKey 0x7800 1 0, some 1), (objKey 0x7800 2 0, some 5), (objKey 0x7800 3 0, some 1), (objKey 0xA000 1 0, some 1)] }
    clock := s.clock }

theorem arrives {s : State} {h : LinkHdr} {type : Nat} (h1 : (s.port h.port).state = .up) (h2 : h.tagOk = true)
    (h3 : h.seq = (s.port h.port).rxSeq + 1) (h4 : vcOf type = some h.vc)
    (h5 : (s.route h.port h.dest).valid = true ∧ (s.route h.port h.dest).isLocal = true) : Arrives s h type :=
  ⟨h1, h2, h3, h4, .inr h5⟩

theorem witness_FleetRoles :
    (let s := roled leasedHere id
     s.roomy ∧ mapWf {} s.lg.slots = true ∧ mapWf 0 s.xl.grantLimit = true ∧ Arrives s (hdr 0) 0x10 ∧ s.fresh (hdr 0)
       ∧ leasedHere.fleet = true ∧ leasedHere.authority = s.memberId ∧ leasedHere.leased = true ∧ leasedHere.mirrored = false
       ∧ s.xl.takeover = [] ∧ (s.frameIn (hdr 0)).1.sends 2 1 28 0 false
       ∧ max (mapGet 0 s.xl.grantLimit 9) leasedHere.serial < 2 ^ 64 - 1)
    ∧ (let s := roled { leasedHere with serial := 2 ^ 64 - 1 } id
       2 ^ 64 - 1 ≤ max (mapGet 0 s.xl.grantLimit 9) (s.slot 9).serial)
    ∧ (let s := roled leasedThere fun x => { x with requests := [{ aRequest 0x10 with payload := be 8 4 ++ be 4 9 }] }
       Arrives s (hdr 1) 0x20 ∧ (∃ q, s.asked (hdr 1) 0x10 q ∧ beAt q.payload 8 4 = 9) ∧ leasedThere.fleet = true
         ∧ leasedThere.authority = 2)
    ∧ (let s := roled {} id
       Arrives s (hdr 0) 0x11 ∧ s.fresh (hdr 0) ∧ s.slotInFlight 9 = false ∧ (roles 2 1).mirror = s.memberId
         ∧ (s.window (9 / 1024)).owner = 0 ∧ (s.window (9 / 1024)).reassigning = false ∧ (s.slot 9).fleet = false)
    ∧ (let s : State := { roled {} id with td := { svc.td with inflight := [{ aTake with slot := 9 }] } }
       s.slotInFlight 9 = true)
    ∧ (let s := roled {} id
       let s : State := { s with pd := { s.pd with nums := (s.pd.nums.take 3) ++ [(objKey 0x7820 1 0, some 9)] } }
       s.roleSlot = 9 ∧ (s.window (9 / 1024)).owner ≠ 0xFF ∧ s.slotInFlight 9 = false ∧ s.xl.offer = none
         ∧ ((s.slot 9).leased && s.lentOut 9) = false ∧ Writable s (.tenant 0) 0x7820 4 1 ∧ s.roleLeased = false
         ∧ s.roleMirror = 0xFFFF ∧ (s.slot 9).mirrored = false)
    ∧ (let s := roled {} id
       let s : State := { s with pd := { s.pd with nums := (s.pd.nums.take 3) ++ [(objKey 0x7820 1 0, some 9), (objKey 0x7820 2 0, some 2)] } }
       Writable s (.tenant 0) 0x7820 4 1 ∧ s.roleMirror ≠ s.memberId ∧ s.roleMirror ≠ 0xFFFF ∧ s.reachable s.roleMirror = true)
    ∧ (let s := withWrite (.tenant 0) 0x7820 4 (roled {} fun x => { x with offer := some anOffer, requests := [aRequest 0x11] })
       s.xl.offer = some anOffer ∧ s.waitsAlone (.tenant 0) 0x7820 4 ∧ Arrives s (hdr 1) 0x21 ∧ s.asked (hdr 1) 0x11 (aRequest 0x11)
         ∧ (aRequest 0x11).reqId = anOffer.reqId ∧ anOffer.start + 1000000 ≤ s.clock ∧ anOffer.mirror ≠ 0xFFFF
         ∧ anOffer.mirror ≠ s.memberId ∧ s.memberId ≠ 0xFFFF)
    ∧ (let s := roled leasedHere fun x => { x with leases := [⟨9, 2, 41, 50⟩] }
       Arrives s (hdr 2) 0x33 ∧ leasedHere.authority = s.memberId ∧ s.xl.leases.find? (fun l => l.slot = 9 && l.holder = 2
         && l.first = 41 && l.last = 50) = some ⟨9, 2, 41, 50⟩)
    ∧ (let s := linked id
       Arrives s (hdr 0) 0x13 ∧ s.fresh (hdr 0) ∧ s.pwr.mode ≠ .ceremony ∧ s.xl.ceremonyHolder = 0xFFFF ∧ s.xl.claim = none
         ∧ (s.frameIn (hdr 0)).1.sends 2 1 9 0 false)
    ∧ (let s := roled {} fun x => { x with ceremonyHolder := 2 }
       Arrives s (hdr 3) 5 ∧ s.xl.ceremonyHolder = 2)
    ∧ (let s := claiming [2]
       s.xl.claim = some { start := 0, waiting := [2] } ∧ s.waitsAlone .regulator 0x1100 2 ∧ Arrives s (hdr 1) 0x23
         ∧ s.asked (hdr 1) 0x13 (aRequest 0x13) ∧ s.mayHoldCeremony = true ∧ 0 + 10000000 ≤ s.clock)
    ∧ [3, 2].filter (· ≠ (hdr 1).src) = [3] := by
  refine ⟨⟨⟨by decide, by decide⟩, by decide, by decide, arrives (by decide) (by decide) (by decide) (by decide) (by decide),
      (by intro a h; cases h), by decide, by decide, by decide, by decide, by decide, ⟨by decide, by decide, by decide, by decide⟩, by decide⟩, by decide,
    ⟨arrives (by decide) (by decide) (by decide) (by decide) (by decide), ⟨_, rfl, by decide⟩, by decide, by decide⟩,
    ⟨arrives (by decide) (by decide) (by decide) (by decide) (by decide), (by intro a h; cases h), by decide⟩, by decide,
    ⟨by decide, by decide, by decide, by decide, by decide, writable (by decide), by decide, by decide, by decide⟩,
    ⟨writable (by decide), by decide, by decide, by decide⟩,
    ⟨by decide, ⟨rfl, rfl, _, _, rfl, rfl, rfl, rfl, rfl, rfl, rfl, rfl, rfl, rfl⟩, arrives (by decide) (by decide) (by decide) (by decide) (by decide), rfl, by decide⟩,
    ⟨arrives (by decide) (by decide) (by decide) (by decide) (by decide), by decide, by decide⟩,
    ⟨arrives (by decide) (by decide) (by decide) (by decide) (by decide), (by intro a h; cases h), by decide, by decide, by decide,
      ⟨by decide, by decide, by decide, by decide⟩⟩,
    ⟨arrives (by decide) (by decide) (by decide) (by decide) (by decide), by decide⟩,
    ⟨by decide, ⟨rfl, rfl, _, _, rfl, rfl, rfl, rfl, rfl, rfl, rfl, rfl, rfl, rfl⟩, arrives (by decide) (by decide) (by decide) (by decide) (by decide), rfl, by decide, by decide⟩, by decide⟩

def aRecord (epoch serial : Nat) : MirrorFields := { slot := 9, roleEpoch := epoch, ownerEpoch := 0, serial := serial, continuity := [5] }
/-- A take of slot 9 that waits for its mirror. -/
def mirrored9 : Take := { aTake with slot := 9, serial := 41, phase := .mirror, mirrorSent := some 0 }
def mirroring : State := { roled mirrorThere id with td := { svc.td with inflight := [mirrored9] } }

theorem witness_FleetLandings :
    (let s := roled leasedHere fun x => { x with leases := [⟨9, 2, 41, 50⟩] }
     s.roomy ∧ mapWf {} s.lg.slots = true ∧ mapWf 0 s.xl.acked = true ∧ Arrives s (hdr 2) 0x30 ∧ leasedHere.fleet = true
       ∧ leasedHere.authority = s.memberId ∧ leasedHere.roleEpoch = (aRecord 0 41).roleEpoch ∧ s.xl.takeover = []
       ∧ nextLeased (mapGet 0 s.xl.acked (State.ackKey 9 2)) (s.xl.leases.filter fun l => l.slot = 9 && l.holder = 2) = some 41
       ∧ (leasedHere.leased && leasedHere.mirrored) = false ∧ (s.frameIn (hdr 2)).1.sends 2 1 22 0 false
       ∧ leasedHere.roleEpoch ≠ (aRecord 1 41).roleEpoch)
    ∧ (let x : Slot := { leasedHere with flags := 3, home := 2, mirror := 1 }
       let s := roled x fun x => { x with leases := [⟨9, 2, 41, 50⟩], routes := x.routes }
       x.leased = true ∧ x.mirrored = true ∧ x.mirror = s.memberId ∧ x.home = (hdr 2).src ∧ (hdr 2).src ≠ s.memberId
         ∧ x.roleEpoch = (aRecord 0 41).roleEpoch ∧ (s.frameIn (hdr 2)).1.sends (hdr 2).src 1 22 0 false
         ∧ s.holderOf 9 41 (hdr 2).src = 2)
    ∧ (let x : Slot := { leasedHere with flags := 3, mirror := 3 }
       let s := roled x fun y => { y with leases := [⟨9, 2, 41, 50⟩], routes := [(1, 0xC0000000), (2, 0x80000000), (3, 0x80000000)] }
       x.authority = s.memberId ∧ (x.leased && x.mirrored) = true ∧ (s.frameIn (hdr 2)).1.sends 3 2 48 0 false)
    ∧ (mirroring.waitingTake 9 41 = some mirrored9 ∧ mirrorThere.authority = 2 ∧ mirroring.xl.forwarded = []
      ∧ Arrives mirroring (hdr 1) 0x24 ∧ Arrives mirroring (hdr 1) 0x25 ∧ mirroring.lands = true ∧ mirrored9.roleEpoch = 0
      ∧ mirrored9.failure = none)
    ∧ (let k : Take := { mirrored9 with failure := some 1 }
       let s : State := { mirroring with td := { svc.td with inflight := [k] } }
       s.waitingTake 9 41 = some k ∧ k.failure ≠ none ∧ s.lands = true)
    ∧ (mirroring.takeById 7 = some mirrored9 ∧ mirrored9.mirrorSent = some 0 ∧ mirrored9.phase = .mirror
      ∧ 0 + mirroring.mirrorTimeout ≤ mirroring.clock)
    ∧ (let s : State := { mirroring with lg := { mirroring.lg with suspended := [9] } }
       9 ∈ s.lg.suspended ∧ s.xl.requests = [])
    ∧ (let s := roled mirrorHere id
       Arrives s (hdr 0) 0x14 ∧ s.fresh (hdr 0) ∧ mirrorHere.fleet = true ∧ mirrorHere.authority = s.memberId
         ∧ mirrorHere.roleEpoch = (roles 2 1).roleEpoch)
    ∧ (let s := roled mirrorThere id
       Arrives s (hdr 1) 0x26 ∧ mirrorThere.mirror ≠ s.memberId ∧ mirrorThere.authority = 2
         ∧ mirrorThere.roleEpoch = (roles 1 2).roleEpoch)
    ∧ (let x : Slot := { mirrorThere with flags := 3 }
       x.leased = true ∧ x.mirrored = true ∧ x.home = (roled x id).memberId ∧ x.mirror = (hdr 1).src
         ∧ (hdr 1).src ≠ (roled x id).memberId ∧ x.roleEpoch = (roles 1 2).roleEpoch)
    ∧ (let s := roled mirrorHere id
       Arrives s (hdr 1) 0x26 ∧ Arrives s (hdr 2) 0x31 ∧ mirrorHere.mirror = s.memberId ∧ mirrorHere.home = 2
         ∧ mirrorHere.mirrored = true ∧ epochAhead 1 mirrorHere.roleEpoch = true)
    ∧ (let s := roled mirrorThere id
       epochAhead 1 mirrorThere.roleEpoch = true ∧ s.serves 9 = true ∧ Arrives s (hdr 3) 4 ∧ Arrives s (hdr 1) 0x25
         ∧ s.waitingTake 9 41 = none ∧ Arrives s (hdr 2) 0x32 ∧ mirrorThere.leased = false ∧ mirrorThere.home = s.memberId
         ∧ mirrorThere.mirrored = true ∧ s.memberId ≠ 0xFFFF)
    ∧ (let s := roled {} fun x => { x with ceremonyHolder := 2 }
       let a := s.applyNum 0x7800 6 0
       s.fleetEnable = true ∧ 2 ∉ s.xl.lost ∧ mapGet 0 s.xl.memberSeen 2 + a.memberLossLimit ≤ s.clock ∧ s.roleSlots = []
         ∧ s.xl.ceremonyHolder = 2 ∧ 2 ≠ s.memberId)
    ∧ (let s := roled mirrorHere id
       s.roleSlots = [9] ∧ s.partners = [2] ∧ s.xl.ceremonyHolder ≠ 2 ∧ mirrorHere.home = 2)
    ∧ (let s := roled { mirrorHere with flags := 3 } fun x => { x with takeover := [⟨9, 2, 1⟩], leases := [⟨9, 2, 41, 140⟩] }
       s.xl.takeover.find? (fun t => t.slot = 9) = some ⟨9, 2, 1⟩
         ∧ (((s.xl.leases.filter fun l => l.slot = 9).map (·.holder)).eraseDups.flatMap fun g => s.voidedSerials 9 g).length = 100) := by
  have ar := @arrives
  refine ⟨⟨⟨by decide, by decide⟩, by decide, by decide, ar (by decide) (by decide) (by decide) (by decide) (by decide),
      by decide, by decide, by decide, by decide, by decide, by decide, ⟨by decide, by decide, by decide, by decide⟩, by decide⟩,
    ⟨by decide, by decide, by decide, by decide, by decide, by decide, ⟨by decide, by decide, by decide, by decide⟩, by decide⟩,
    ⟨by decide, by decide, ⟨by decide, by decide, by decide, by decide⟩⟩,
    ⟨by decide, by decide, by decide, ar (by decide) (by decide) (by decide) (by decide) (by decide),
      ar (by decide) (by decide) (by decide) (by decide) (by decide), by decide⟩, by decide, by decide, by decide,
    ⟨ar (by decide) (by decide) (by decide) (by decide) (by decide), (by intro a h; cases h), by decide⟩,
    ⟨ar (by decide) (by decide) (by decide) (by decide) (by decide), by decide⟩, by decide,
    ⟨ar (by decide) (by decide) (by decide) (by decide) (by decide), ar (by decide) (by decide) (by decide) (by decide) (by decide), by decide⟩,
    ⟨by decide, by decide, ar (by decide) (by decide) (by decide) (by decide) (by decide),
      ar (by decide) (by decide) (by decide) (by decide) (by decide), by decide,
      ar (by decide) (by decide) (by decide) (by decide) (by decide), by decide⟩,
    by decide, by decide, by decide⟩

/-- A slice past the first part of a string. -/
theorem slice_past (b c : Bytes) {k off n : Nat} (h : off = b.length + k) : slice (b ++ c) off n = slice c k n := by
  subst h
  simp only [slice, List.drop_length_add_append]

/-- A label and the copies of record slot 5 of card 0, empty, with a version. -/
def labelHead : Bytes := be 8 labelMagic ++ be 2 1 ++ be 2 64 ++ be 4 0
def goodLabel : Bytes := (labelHead ++ zeros 464) ++ Config.sha256 (labelHead ++ zeros 464)
def copyHead (v : Nat) : Bytes := be 8 recordMagic ++ be 2 1 ++ be 2 5 ++ be 4 0 ++ be 8 v ++ be 8 0
def copyBody (v : Nat) : Bytes := copyHead v ++ zeros 4544
def copyOf (v : Nat) : Bytes := copyBody v ++ Config.sha256 (copyBody v)

theorem sha256_length (m : Bytes) : (Config.sha256 m).length = 32 := (List.length_map _).trans List.length_range

theorem slice_all (b : Bytes) {n : Nat} (h : b.length = n) : slice b 0 n = b := by
  subst h; simp [slice]

theorem goodLabel_ok : labelOk goodLabel = true := by
  have hl : (labelHead ++ zeros 464).length = 480 := by rw [List.length_append, zeros_length]; decide
  have low : ∀ off n, off + n ≤ 16 → slice goodLabel off n = (labelHead.drop off).take n := fun off n h => by
    rw [goodLabel, List.append_assoc, slice_within _ _ (Nat.le_trans h (by decide))]
  have high : ∀ k n, k + n ≤ 464 → slice goodLabel (16 + k) n = zeros n := fun k n h => by
    rw [goodLabel, List.append_assoc, slice_past labelHead _ (k := k) (by rfl), slice_zeros _ h]
  have hd : slice goodLabel 480 32 = Config.sha256 (labelHead ++ zeros 464) := by
    rw [goodLabel, slice_past _ _ (k := 0) (by rw [hl]), slice_all _ (sha256_length _)]
  have ht : goodLabel.take 480 = labelHead ++ zeros 464 := by rw [goodLabel, List.take_left' hl]
  have h0 : beAt goodLabel 0 8 = labelMagic := by rw [beAt, low 0 8 (by decide)]; decide
  have h1 : beAt goodLabel 8 2 = 1 := by rw [beAt, low 8 2 (by decide)]; decide
  have h2 : beAt goodLabel 10 2 = 64 := by rw [beAt, low 10 2 (by decide)]; decide
  have h3 : slice goodLabel 12 4 = List.replicate 4 0 := by rw [low 12 4 (by decide)]; decide
  have h4 : slice goodLabel 40 440 = List.replicate 440 0 := high 24 440 (by decide)
  have h5 : goodLabel.length = 512 := by rw [goodLabel, List.length_append, hl, sha256_length]
  simp only [labelOk, zerosAt, h0, h1, h2, h3, h4, h5, hd, ht, decide_true, Bool.and_self]

theorem copyOf_ok {v : Nat} (hv : v < 2) : copyOk 5 0 (copyOf v) = true ∧ copyVersion (copyOf v) = v
    ∧ beAt (copyOf v) 12 4 = 0 := by
  have hl : (copyBody v).length = 4576 := by rw [copyBody, List.length_append, zeros_length]; rfl
  have hh : (copyHead v).length = 32 := rfl
  have low : ∀ off n, off + n ≤ 32 → slice (copyOf v) off n = ((copyHead v).drop off).take n := fun off n h => by
    rw [copyOf, copyBody, List.append_assoc, slice_within _ _ (by rw [hh]; exact h)]
  have high : ∀ k n, k + n ≤ 4544 → slice (copyOf v) (32 + k) n = zeros n := fun k n h => by
    rw [copyOf, copyBody, List.append_assoc, slice_past (copyHead v) _ (k := k) (by rfl), slice_zeros _ h]
  have hd : slice (copyOf v) 4576 32 = Config.sha256 (copyBody v) := by
    rw [copyOf, slice_past _ _ (k := 0) (by rw [hl]), slice_all _ (sha256_length _)]
  have ht : (copyOf v).take 4576 = copyBody v := by rw [copyOf, List.take_left' hl]
  have h0 : beAt (copyOf v) 0 8 = recordMagic := by rw [beAt, low 0 8 (by decide)]; rfl
  have h1 : beAt (copyOf v) 8 2 = 1 := by rw [beAt, low 8 2 (by decide)]; rfl
  have h2 : beAt (copyOf v) 10 2 = 5 := by rw [beAt, low 10 2 (by decide)]; rfl
  have h3 : beAt (copyOf v) 12 4 = 0 := by rw [beAt, low 12 4 (by decide)]; rfl
  have h4 : beAt (copyOf v) 24 8 = 0 := by rw [beAt, low 24 8 (by decide)]; rfl
  have h5 : beAt (copyOf v) 16 8 = v := by
    rw [beAt, low 16 8 (by decide)]; obtain rfl | rfl : v = 0 ∨ v = 1 := by omega
    all_goals decide
  have h6 : slice (copyOf v) 59 5 = List.replicate 5 0 := high 27 5 (by decide)
  have h7 : slice (copyOf v) 64 4096 = List.replicate 4096 0 := high 32 4096 (by decide)
  have h8 : slice (copyOf v) 4160 416 = List.replicate 416 0 := high 4128 416 (by decide)
  have h9 : (copyOf v).length = 4608 := by rw [copyOf, List.length_append, hl, sha256_length]
  refine ⟨?_, h5, h3⟩
  simp only [copyOk, zerosAt, h0, h1, h2, h3, h4, h6, h7, h8, h9, hd, ht, Nat.add_zero, Nat.sub_zero, decide_true, Bool.and_self,
    Nat.zero_le]

set_option maxRecDepth 16384 in
/-- Runs of eight and of seven passing taps (R353). -/
theorem runs : longestRun (tapsOf 0x1FE 0) = (1, 8) ∧ longestRun (tapsOf 0 0xFE) = (33, 7) := ⟨rfl, rfl⟩

/-- A card in the slot of an enabled host, no label, in a state of the host. -/
def carded (f : Ch → Ch) : State := { svc with
  ch := f { svc.ch with cfg := 0x80000070, facts := some aCard, present := true, mode := 5, powered := true }
  clock := 4000000000 }
def onCard (kind : CardKind) (step : Nat) (a : Bytes) : State := carded fun c => { c with
  op := some { kind := kind, step := step, slot := 5, copyA := a } }
/-- The same with the Regulator's session. -/
def asked (f : Ch → Ch) : State := { regd (carded f) with pwr := { svc.pwr with mode := .ceremony }, pd := { svc.pd with
  nums := [(objKey 0x8010 9 0, none), (objKey 0xA000 1 0, some 1)] } }

theorem witness_CardHost :
    (svc.powered = true ∧ svc.pwr.mode = .service ∧ svc.ch.facts = none ∧ svc.lc.tapInstr ≠ 0 ∧ svc.lc.tapInstr ≠ 3
      ∧ svc.ch.enabled = false ∧ ({ svc.ch with cfg := 0x80000070 } : Ch).enabled = true)
    ∧ (aCard.ready = true ∧ aCard.ccs = true ∧ aCard.s18a = true ∧ ∀ n ∈ [3, 4, 9, 11],
      (carded fun c => { c with initStep := n }).ch.facts = some aCard ∧ (carded fun c => { c with initStep := n }).ch.initStep = n
        ∧ 3 ≤ (carded fun c => { c with initStep := n }).ch.maxMode)
    ∧ (∀ k ∈ [CardKind.read, .write, .format], ∀ n < 8, let s := onCard k n []
      s.ch.facts = some aCard ∧ s.ch.initStep = 0 ∧ s.ch.retune = none ∧ s.ch.op = some { kind := k, step := n, slot := 5 })
    ∧ (∀ v < 2, let s := onCard .read 1 (copyOf v)
      (∃ o, s.ch.op = some o ∧ o.step = 1 ∧ copyOk o.slot s.cardId o.copyA = true ∧ copyVersion o.copyA = v)
      ∧ copyOk 5 s.cardId (copyOf 1) = true ∧ copyVersion (copyOf 1) = 1 ∧ mapWf [] s.pd.octets = true)
    ∧ (copyOk 5 (onCard .read 1 []).cardId [] = false)
    ∧ (let s := carded id
      s.tunes = true ∧ s.ch.lastTune + 4000000000 ≤ s.clock ∧ s.ch.op = none ∧ s.ch.mode = 5
        ∧ (onCard .read 0 []).tunes = true ∧ (onCard .read 0 []).ch.lastTune + 4000000000 ≤ (onCard .read 0 []).clock
        ∧ (onCard .read 0 []).ch.op.isSome = true
        ∧ s.powered = true ∧ ((-14 : Int) - s.ch.tuneTemp).natAbs < 15 ∧ 15 ≤ ((15 : Int) - s.ch.tuneTemp).natAbs)
    ∧ (8 ≤ (longestRun (tapsOf 0x1FE 0)).2 ∧ middleTap (tapsOf 0x1FE 0) = 4 ∧ (longestRun (tapsOf 0 0xFE)).2 < 8)
    ∧ (let s := asked fun c => { c with label := goodLabel }
      Writable s .regulator 0x8010 2 0xCA4D ∧ Writable s .regulator 0x8010 3 0xCA57 ∧ s.ch.op = none ∧ s.ch.present = true
        ∧ s.cardLabelOk = true ∧ s.shareOk = true ∧ s.cardProtected = false)
    ∧ (let s := asked fun c => { c with label := goodLabel, cfg := 0x80000072 }
      Writable s .regulator 0x8010 3 0xCA57 ∧ s.ch.op = none ∧ s.ch.present = true
        ∧ s.cardLabelOk = true ∧ s.shareOk = true ∧ s.cardProtected = true)
    ∧ (let a := asked fun c => { c with label := goodLabel }
      let s : State := { a with pd := { a.pd with nums := [(objKey 0x8010 9 0, some 1), (objKey 0xA000 1 0, some 1)] } }
      Writable s .regulator 0x8010 3 0xCA57 ∧ s.ch.op = none ∧ s.ch.present = true ∧ s.cardLabelOk = true ∧ s.shareOk = false)
    ∧ (let s := asked fun c => { c with op := some { kind := .read, step := 0, slot := 5 } }
      Writable s .regulator 0x8010 2 0xCA4D ∧ s.ch.op.isSome = true)
    ∧ (let s := asked fun c => { c with present := false, facts := none }
      Writable s .regulator 0x8010 2 0xCA4D ∧ s.ch.op = none ∧ s.ch.present = false)
    ∧ (let s := asked id
      Writable s .regulator 0x8010 4 0xCAF0 ∧ s.ch.op = none ∧ s.ch.present = true ∧ s.cardProtected = false
        ∧ s.coreEntropyBlock = none)
    ∧ (let x : BitVec 32 := 0x80000010
      Reaches svc (.bar2 0xC0008) .chCfg ∧ svc.ch.enabled = false ∧ bitOf svc.hg.blockLock 12 = false ∧ bitsOf x.toNat 6 4 ≠ 0
        ∧ Reaches (carded id) (.bar2 0xC0008) .chCfg ∧ (carded id).ch.enabled = true ∧ x.getLsbD 31 = true
        ∧ (0 : BitVec 32).getLsbD 31 = false) := by
  have lab : ∀ s : State, s.ch.present = true → s.ch.label = goodLabel → s.cardLabelOk = true := fun s h1 h2 => by
    rw [State.cardLabelOk, h1, h2, goodLabel_ok]; rfl
  refine ⟨by decide, ⟨rfl, rfl, rfl, fun n _ => ⟨rfl, rfl, (by decide : 3 ≤ ({ svc.ch with cfg := 0x80000070 } : Ch).maxMode)⟩⟩, fun k _ n _ => ⟨rfl, rfl, rfl, rfl⟩, ?_, by decide, by decide,
    by rw [middleTap, runs.1, runs.2]; decide, ⟨writable (by decide), writable (by decide), rfl, rfl,
      lab _ rfl rfl, by decide, by decide⟩, ⟨writable (by decide), rfl, rfl, lab _ rfl rfl, by decide, by decide⟩,
    ⟨writable (by decide), rfl, rfl, lab _ rfl rfl, by decide⟩, ⟨writable (by decide), rfl⟩, ⟨writable (by decide), rfl, rfl⟩,
    ⟨writable (by decide), rfl, rfl, by decide, by decide⟩, ⟨?_, by decide, by decide, by decide, ?_, by decide, by decide,
      by decide⟩⟩
  · intro v hv
    exact ⟨⟨_, rfl, rfl, (copyOf_ok hv).1, (copyOf_ok hv).2.1⟩, (copyOf_ok (by decide)).1, (copyOf_ok (by decide)).2.1, rfl⟩
  · refine ⟨?_, ?_, false, ?_⟩ <;> decide
  · refine ⟨?_, ?_, false, ?_⟩ <;> decide

/-- A shield net acts as ERASE, the Anchor's temperature as HOLD and with a warning. -/
def guarded (w : Option AlarmWindow) : State := { svc with tg := { svc.tg with window := w }, clock := 60000001000 }
def aWindow (erase : Bool) : AlarmWindow :=
  { sources := 2 ^ 10, first := 0x6000, count := 1, perSource := [(10, 1)], erase := erase, time := 0, start := 60000000000 }
/-- Quarantine after an erase. -/
def erasedS : State := { guarded none with
  pwr := { svc.pwr with mode := .quarantine, causes := [.eraseAlarm] }
  tg := { (guarded none).tg with erased := true, rootKey := none } }
/-- Ceremony entered from Quarantine, with the Regulator's session. -/
def reprovisioner (f : State → State) : State := f { regd erasedS with
  pwr := { erasedS.pwr with mode := .ceremony, ceremonyFrom := some .quarantine } }
def maintained (l : Nat) : State := { svc with lc := { svc.lc with maint := true, state := l, rights := 0xFF } }

/-- A shield net that differs; a temperature past its alarm, on the main rails and on battery, and one past its warning. -/
def cutNet : MonitorReading := ⟨0x9000, .net true⟩
def hot (celsius : Int) : MonitorReading := ⟨0x6000, .temperature celsius⟩

theorem witness_Tamper :
    (∀ s ∈ [guarded none, guarded (some (aWindow true)), guarded (some (aWindow false)), erasedS, reprovisioner id, maintained 2,
      inMode .vault], s.unarchived + 1 < 16320 ∧ s.tg.queue.length < 8)
    ∧ (let s := guarded none
       s.powered = true ∧ s.tg.window = none ∧ s.tg.erased = false ∧ s.pwr.mode = .service ∧ s.lc.state ≠ 5
         ∧ s.outputs cutNet = true ∧ s.outputs (hot 116) = true ∧ s.outputs (hot 115) = false
         ∧ s.monitorArmed 0x9000 = true ∧ sourceOf 0x9000 = some 0 ∧ s.isErase 0 = true
         ∧ s.monitorArmed 0x6000 = true ∧ sourceOf 0x6000 = some 10 ∧ s.isErase 10 = false ∧ s.stands .holdAlarm = false
         ∧ warns (hot 111) = true ∧ warns (hot 110) = false ∧ rateDue s.tg.warnLast 10 s.clock = true
         ∧ mapGet 0 s.tg.outside 10 + 10000000 ≤ s.clock ∧ s.clock < mapGet 0 [(10, s.clock)] 10 + 10000000)
    ∧ (let s : State := { guarded none with tg := { (guarded none).tg with warnLast := [(10, some 60000000000)] } }
       s.monitorArmed 0x6000 = true ∧ rateDue s.tg.warnLast 10 s.clock = false)
    ∧ (∀ m ∈ [Mode.wake, .selfTest, .standby, .held, .quarantine, .retired], let s := inMode m
       s.powered = true ∧ s.outputs (hot 116) = true ∧ s.monitorArmed 0x6000 = true ∧ s.isErase 10 = false ∧ s.tg.erased = false ∧ s.tg.window = none)
    ∧ (erasedS.powered = true ∧ erasedS.monitorArmed 0x6000 = true ∧ erasedS.isErase 10 = false ∧ erasedS.tg.erased = true
      ∧ erasedS.pwr.mode = .quarantine ∧ erasedS.tg.window = none)
    ∧ (∀ e ∈ [true, false], (guarded (some (aWindow e))).powered = true ∧ (guarded (some (aWindow e))).tg.window = some (aWindow e)
      ∧ (aWindow e).start + 1000 ≤ (guarded (some (aWindow e))).clock)
    ∧ ((inMode .vault).pwr.mode = .vault ∧ (inMode .vault).outputs ⟨0x6007, .temperature 96⟩ = true
      ∧ (inMode .vault).outputs ⟨0x6007, .temperature 95⟩ = false ∧ (inMode .vault).monitorArmed 0x6007 = true ∧ (inMode .vault).outputs cutNet = true ∧ (inMode .vault).monitorArmed 0x9000 = true ∧ (inMode .vault).tg.erased = false)
    ∧ (svc.pwr.mode ≠ .dark ∧ svc.fusedOff 0 = false)
    ∧ (svc.powered = true ∧ 6 ≤ svc.pwr.wakeStep ∧ 12 ∈ svc.tg.gangwaysKeyed ∧ svc.fusedOff 3 = false ∧ svc.stands .integrityStop = false
      ∧ (let s : State := { svc with tg := { svc.tg with gangwaysKeyed := [] } }
         12 ∉ s.tg.gangwaysStopped ∧ 12 ∉ s.tg.gangwaysKeyed)
      ∧ (let s : State := { svc with tg := { svc.tg with groupsFused := 255 } }
         12 ∈ s.tg.gangwaysKeyed ∧ s.fusedOff 3 = true ∧ s.stands .integrityStop = false))
    ∧ (let s : State := { svc with tg := { svc.tg with queue := [(16384, [1])] } }
       s.tg.queue = (16384, [1]) :: [] ∧ s.pwr.mode ≠ .dark ∧ mapWf [] s.tg.log = true)
    ∧ (let s : State := { regd svc with tg := { svc.tg with nextSeq := 20, mark := 3 } }
       (Writable s .regulator 0x9100 2 (3 : BitVec 32).toNat ∧ s.tg.mark ≤ 3 ∧ s.tg.suppressed = 0)
       ∧ (Writable s .regulator 0x9100 2 (20 : BitVec 32).toNat ∧ 20 ≤ s.tg.nextSeq)
       ∧ (Writable s .regulator 0x9100 2 (2 : BitVec 32).toNat ∧ 2 < s.tg.mark)
       ∧ (Writable s .regulator 0x9100 2 (21 : BitVec 32).toNat ∧ s.tg.nextSeq < 21)
       ∧ Readable s .regulator 0x9100 6)
    ∧ (let s : State := { regd svc with tg := { svc.tg with nextSeq := 15363, mark := 3, suppressed := 1 } }
       Writable s .regulator 0x9100 2 (3 : BitVec 32).toNat ∧ s.tg.suppressed ≠ 0 ∧ s.tg.nextSeq - 3 ≤ 15360)
    ∧ (let s := regd (inMode .ceremony)
       (Writable s .regulator 0x9000 1 (0x20 : BitVec 32).toNat ∧ 0x20 &&& s.tg.eraseFused = s.tg.eraseFused
         ∧ (0x20 : Nat) &&& 0xFE0 = 0x20 ∧ 0x20 ≠ s.tg.eraseFused)
       ∧ (Writable s .regulator 0x9000 1 (0x1000 : BitVec 32).toNat ∧ (0x1000 : Nat) &&& 0xFE0 ≠ 0x1000))
    ∧ (let s := reprovisioner fun s => { s with tb := { s.tb with dtValid := false } }
       Writable s .regulator 0x9200 1 0x9A1E ∧ s.pwr.mode = .ceremony ∧ s.tg.erased = true ∧ s.tg.reprovisioning = false
         ∧ s.unarchived ≤ 15360 ∧ s.tb.dtValid = false)
    ∧ (let s := reprovisioner fun s => { s with tg := { s.tg with erased := false }, pwr := { s.pwr with causes := [.vaultLost] } }
       Writable s .regulator 0x9200 1 0x9A1E ∧ s.stands .vaultLost = true)
    ∧ (let s := reprovisioner fun s => { s with tg := { s.tg with reprovisioning := true } }
       Writable s .regulator 0x9200 1 0x9A1E ∧ s.tg.reprovisioning = true ∧ s.pwr.mode = .ceremony ∧ s.unarchived ≤ 15360)
    ∧ (let s := reprovisioner fun s => { s with tg := { s.tg with nextSeq := 15361 } }
       Writable s .regulator 0x9200 1 0x9A1E ∧ 15360 < s.unarchived ∧ s.unarchived + 1 < 16320)
    ∧ (let s := reprovisioner id
       Writable s .regulator 0x9200 1 0x9A1E ∧ s.tb.dtValid = true ∧ s.en.firstSeed = true)
    ∧ (let s := reprovisioner fun s => { s with en := { s.en with firstSeed := false } }
       Writable s .regulator 0x9200 1 0x9A1E ∧ s.tb.dtValid = true ∧ s.en.firstSeed = false)
    ∧ (∀ l ∈ [1, 2], Writable (maintained l) .maker 0x9000 2 (255 : BitVec 32).toNat ∧ (maintained l).lc.maint = true
      ∧ bitOf (maintained l).lc.rights 5 = true ∧ (255 : BitVec 32).toNat ≤ 255)
    ∧ Writable (maintained 4) .maker 0x9000 2 (255 : BitVec 32).toNat := by
  refine ⟨by decide, by decide, by decide, by decide, by decide, by decide, by decide, by decide, by decide, by decide,
    ⟨⟨writable (by decide), by decide, by decide⟩, ⟨writable (by decide), by decide⟩, ⟨writable (by decide), by decide⟩,
      ⟨writable (by decide), by decide⟩, by decide, by decide, _, rfl, by decide⟩,
    ⟨writable (by decide), by decide, by decide⟩, ⟨⟨writable (by decide), by decide⟩, ⟨writable (by decide), by decide⟩⟩,
    ⟨writable (by decide), by decide⟩, ⟨writable (by decide), by decide⟩, ⟨writable (by decide), by decide⟩, ⟨writable (by decide), by decide, by decide⟩,
    ⟨writable (by decide), by decide⟩, ⟨writable (by decide), by decide⟩, ?_, writable (by decide)⟩
  intro l hl
  simp only [List.mem_cons, List.not_mem_nil, or_false] at hl
  rcases hl with rfl | rfl <;> exact ⟨writable (by decide), by decide⟩

/-- Standby in a life-cycle state, under maintenance with rights or without. -/
def living (l : Nat) (rights : Option Nat) : State := { inMode .standby with lc := { svc.lc with
  state := l, maint := rights.isSome, rights := rights.getD 0 } }
/-- Service with the debugger's rights. -/
def tapped (f : State → State) : State := f { living 1 (some 0xFF) with pwr := svc.pwr }
/-- The same where tenant 0's DRAW-kind applet holds a claim on core 0. -/
def drawnCore : State := tapped fun s => { s with sz := { s.sz with
  slots := [(0, { state := .running, owner := 0, cores := [0] })], draw := some { slot := 0, seq := 1 } } }
def coreRun (r : CoreRun) : State := tapped fun s => { s with sz := { s.sz with cores := [(191, { run := r })] } }
/-- A write of the debugger's data register that reads the register at an offset. -/
def regRead (off : Nat) : BitVec 97 := BitVec.ofNat 97 (off * 2 ^ 64)

theorem witness_LifeCycle :
    (∀ l ∈ [1, 2, 3, 4], (living l none).unarchived + 2 < 16320 ∧ (living l none).lc.burning = none)
    ∧ ((∀ r ∈ [0xFF, 0xF7], Writable (living 1 (some r)) .maker 0x9800 2 (2 : BitVec 8).toNat)
      ∧ (living 1 (some 0xFF)).pwr.mode = .standby ∧ (living 1 (some 0xFF)).lc.maint = true
      ∧ bitOf (living 1 (some 0xFF)).lc.rights 3 = true ∧ bitOf (living 1 (some 0xF7)).lc.rights 3 = false
      ∧ ∀ l ∈ [1, 2, 4], Writable (living l (some 0xFF)) .maker 0x9800 2 (5 : BitVec 8).toNat
        ∧ (living l (some 0xFF)).el.state = .idle ∧ (living l (some 0xFF)).fleetEnable = false
        ∧ bitOf (living l (some 0xFF)).lc.rights 4 = true)
    ∧ (Writable (living 2 none) (.tenant 0) 0x9800 2 (3 : BitVec 8).toNat ∧ (living 2 none).lc.maint = false)
    ∧ (∀ x ∈ [4#8, 5#8], let s : State := { regd (inMode .ceremony) with lc := { svc.lc with state := 3 } }
      Writable s .regulator 0x9800 2 x.toNat ∧ s.el.state = .idle ∧ s.fleetEnable = false)
    ∧ (Writable (living 2 none) (.tenant 0) 0x9800 2 (2 : BitVec 8).toNat ∧ (2 : BitVec 8).toNat ≤ (living 2 none).lc.state)
    ∧ (let s : State := { living 2 none with lc := { (living 2 none).lc with burning := some (3, 2) } }
       Writable s (.tenant 0) 0x9800 2 (3 : BitVec 8).toNat ∧ s.lc.burning ≠ none)
    ∧ (let s := inMode .quarantine
       let x : BitVec 32 := 0x5C4A0005
       Reaches s (.bar2 0xE0008) .lcXfer ∧ x.toNat / 65536 = 0x5C4A ∧ x.toNat % 16 = 5 ∧ s.pwr.mode = .quarantine
         ∧ s.lc.burning = none ∧ s.lc.state ≠ 5)
    ∧ (Reaches svc (.bar2 0xE0008) .lcXfer ∧ svc.pwr.mode ≠ .quarantine)
    ∧ (∀ d ∈ [2, 3, 4, 5], let s : State := { living 1 none with lc := { svc.lc with burning := some (d, 2) } }
       s.lc.burning = some (d, 2) ∧ s.pwr.mode = .standby)
    ∧ (let s : State := { inMode .selfTest with lc := { svc.lc with certBuffer := [0x44] } }
       s.certDue = true ∧ s.certFailure s.lc.certBuffer = some 0x10 ∧ s.el.state ≠ .running)
    ∧ (let s : State := { inMode .standby with pwr := { (inMode .standby).pwr with causes := [.debugScan] } }
       let x : BitVec 32 := 0x80000000
       Reaches (s.applyEnv {}) (.bar2 0xE0018) .lcCertCtrl ∧ x.getLsbD 31 = true ∧ s.pwr.mode = .standby ∧ s.pwr.causes ≠ []
         ∧ (s.applyEnv {}).dmaOk 0 s.lc.certAddr 4851 = true ∧ s.el.state ≠ .running
         ∧ (s.applyEnv { failing := some [(0, 4851)] }).dmaOk 0 s.lc.certAddr 4851 = false
         ∧ Reaches (s.applyEnv { failing := some [(0, 4851)] }) (.bar2 0xE0018) .lcCertCtrl ∧ Reaches (svc.applyEnv {}) (.bar2 0xE0018) .lcCertCtrl
         ∧ svc.pwr.mode ≠ .standby)
    ∧ (Writable (living 3 none) (.tenant 0) 0x9810 2 0xD3B6 ∧ (living 3 none).lc.state = 3
      ∧ (living 3 none).pwr.mode = .standby ∧ (living 3 none).coreEntropyBlock = none)
    ∧ (∀ s ∈ [svc, living 3 none], let u := s.applyEnv {}
       let w := s.applyEnv { failing := some [(0, 4787)] }
       Writable u (.tenant 0) 0x9810 5 0xD3C7 ∧ u.dmaOk 0 (s.num 0x9810 4 0 0) 4787 = true
         ∧ Writable w (.tenant 0) 0x9810 5 0xD3C7 ∧ w.dmaOk 0 (s.num 0x9810 4 0 0) 4787 = false
         ∧ (∃ code, ∀ r, u.responseFailure r = some code) ∧ s.lc.maint = false ∧ s.el.state ≠ .running)
    ∧ (svc.powered = true ∧ svc.pwr.mode ≠ .retired ∧ (inMode .retired).powered = true ∧ svc.boundaryFree = false
      ∧ (inMode .standby).boundaryFree = true ∧ (inMode .standby).ch.facts = none ∧ svc.lc.maint = false)
    ∧ ((∀ r ∈ [CoreRun.running, .debug], (coreRun r).lc.maint = true ∧ bitOf (coreRun r).lc.rights 0 = true
        ∧ bitOf (coreRun r).lc.rights 1 = true ∧ bitOf (coreRun r).lc.rights 7 = true ∧ (coreRun r).pwr.mode ≠ .retired
        ∧ ({ (coreRun r) with lc := { (coreRun r).lc with tapInstr := 0x22 } } : State).drawHolds 191 = false
        ∧ ((coreRun r).seen 191).run = r ∧ ((coreRun r).seen 191).resumeTo = .running ∧ mapWf {} (coreRun r).sz.cores = true)
      ∧ ({ drawnCore with lc := { drawnCore.lc with tapInstr := 0x22 } } : State).drawHolds 0 = true)
    ∧ (∀ e ∈ [(0x40, Reg.modeStat), (0x808, .blockLock)],
      let u : State := { (tapped id) with lc := { (tapped id).lc with tapInstr := 0x20 } }
      let x := regRead e.1
      let off := bitsOf x.toNat 95 64
      x.getLsbD 96 = false ∧ off % 4 = 0 ∧ off < 0x100000 ∧ u.openWord (.bar2 off) 0 = some (e.2, false)
        ∧ u.mayAccess .maker (.bar2 off) = true ∧ u.regField .maker 0 e.2 false < 2 ^ 32)
    ∧ (let s := tapped id
       let u : State := { s with lc := { s.lc with tapInstr := 0x21 } }
       let r := parseRequest .maker .jtag 4096 (([] : Bytes).take 4096)
       let y := (u.served .maker).runEntries {} r.entries r
       s.dirFree ∧ y.2.2 = false ∧ y.1.sp.closing = false) := by
  refine ⟨by decide, ⟨?_, rfl, rfl, by decide, by decide, ?_⟩, ⟨writable (by decide), rfl⟩, ?_, ⟨writable (by decide), by decide⟩,
    ⟨writable (by decide), by decide⟩, ⟨⟨?_, ?_, false, ?_⟩, by decide⟩, ⟨⟨?_, ?_, false, ?_⟩, by decide⟩, by decide,
    by decide, ⟨⟨?_, ?_, false, ?_⟩, by decide, by decide, by decide, by decide, by decide, by decide, ⟨?_, ?_, false, ?_⟩,
      ⟨?_, ?_, false, ?_⟩, by decide⟩,
    ⟨writable (by decide), by decide, by decide, by decide⟩, ?_, by decide, by decide, by decide, by decide⟩
  · intro r hr
    simp only [List.mem_cons, List.not_mem_nil, or_false] at hr
    rcases hr with rfl | rfl <;> exact writable (by decide)
  · intro l hl
    simp only [List.mem_cons, List.not_mem_nil, or_false] at hl
    rcases hl with rfl | rfl | rfl <;> exact ⟨writable (by decide), by decide, by decide, by decide⟩
  · intro x hx
    simp only [List.mem_cons, List.not_mem_nil, or_false] at hx
    rcases hx with rfl | rfl <;> exact ⟨writable (by decide), by decide, by decide⟩
  rotate_right
  · intro s hs
    simp only [List.mem_cons, List.not_mem_nil, or_false] at hs
    rcases hs with rfl | rfl
    · exact ⟨writable (by decide), by decide, writable (by decide), by decide, ⟨0x15, fun _ => rfl⟩, by decide, by decide⟩
    · exact ⟨writable (by decide), by decide, writable (by decide), by decide, ⟨0x10, fun _ => rfl⟩, by decide, by decide⟩
  all_goals decide

theorem witness_ZeroLength :
    svc.mayAccess (.tenant 0) (.window 0 0) = true ∧ svc.configOpen (.tenant 0) 0 = true
      ∧ ({} : HostEnv).poisoned = false := by decide

theorem witness_DrainLimit :
    (((regd svc).applyEnv {}).viewerActive .regulator = true ∧ (regd svc).dirFree
      ∧ ∀ n ∈ [2099, 2100, 10000, 10001, 2 ^ 32 - 1], ∀ o, findObj 0x1100 9 = some o →
        ((regd svc).applyEnv {}).entryDenied .regulator o 0x1100 9 2 n = false)
    ∧ (let s : State := { svc with pd := { svc.pd with staged := [(objKey 0x1100 9 0, some 2100)] } }
       s.numWritten 0x1100 9 0 3000 = 2100 ∧ s.inTransition = false ∧ s.pwr.mode = .service
         ∧ Writable s (.tenant 0) 0x1100 2 4) := by
  refine ⟨⟨by decide, by decide, fun n hn o ho => ?_⟩, by decide, by decide, by decide, writable (by decide)⟩
  obtain rfl := Option.some.inj (ho.symm.trans (show findObj 0x1100 9 = some _ from rfl))
  simp only [List.mem_cons, List.not_mem_nil, or_false] at hn
  rcases hn with rfl | rfl | rfl | rfl | rfl <;> decide

theorem witness_StepRunsFrontCommand : svc.pending = [] := rfl

/-- A state that meets the invariant, with a command in its queue. -/
theorem witness_StepKeepsInvariant : let s : State := { svc with pending := [.perstRelease] }
    Inv s ∧ ∃ t, step s = .next t := ⟨⟨by decide, by decide, by decide, by decide⟩, _, rfl⟩

/-! ### Results the manual works out -/

/-- Table 9.3: EXT.I at sh = 2, the accumulator over 4 in modes 0 to 3. -/
theorem test_rounding : ([10, 14, -10, -11, 9] : List Int).map (fun x => [0, 1, 2, 3].map fun m => rnd m x 4)
    = [[2, 3, 2, 2], [3, 4, 4, 3], [-2, -3, -2, -3], [-2, -3, -3, -3], [2, 2, 2, 2]] := by decide

/-- A core with three operands and a MODE, which runs one instruction. -/
def alu (mode : Word) (x y : Word) : State := sez 0 0 { w := #v[0, x, y, 0, 0, 0, 0, 0, 0, 0, 0, 0, 0, 0, 0, 0], mode := mode }
def after (o : Host.Outcome State Fault Refusal) (k : Nat) : Option SCore :=
  match o with
  | .next t => some ((List.range k).foldl (fun c _ => c.retire 2 .seq) (t.core 0)).settle
  | _ => none
def rd1 (o : Host.Outcome State Fault Refusal) (k : Nat) : Option (Word × Word) := (after o k).map fun c => (c.w[1], c.flags)

/-- Table 9.4. -/
theorem test_fadd_saturates : (rd1 (exec (.fadd 0 (.rr 1 2)) (alu 1 0x70000000 0x20000000)) 0).map (·.1) = some 0x7FFFFFFF := by decide
theorem test_fadd_wraps : (rd1 (exec (.fadd 0 (.rr 1 2)) (alu 0 0x70000000 0x20000000)) 0).map (·.1) = some 0x90000000 := by decide
theorem test_fmul_saturates : (rd1 (exec (.fmul 0 (.rr 1 2)) (alu 1 0x80000000 0x80000000)) 1).map (·.1) = some 0x7FFFFFFF := by decide
theorem test_fmul : (rd1 (exec (.fmul 0 (.rr 1 2)) (alu 1 0x40000000 0x60000000)) 1).map (·.1) = some 0x30000000 := by decide

/-- R219 and R220: p0 wraps in a buffer of ten words; p1 visits eight words in bit-reversed order. -/
theorem test_circular : ({ p := #v[0x10000124, 0, 0, 0, 0, 0, 0, 0], m := #v[40, 0, 0, 0, 0, 0, 0, 0] } : SCore).stepped 0 4
    = 0x10000100 := by decide
theorem test_bit_reversed :
    let c := fun p => ({ p := #v[0, p, 0, 0, 0, 0, 0, 0], m := #v[0, 32, 0, 0, 0, 0, 0, 0], brev := 2 } : SCore)
    ([0, 16, 8, 24, 4, 20, 12] : List Word).map (fun p => (c p).stepped 1 16) = [16, 8, 24, 4, 20, 12, 28] := by decide

/-- The example of R20 (slot 0x0001_2345). -/
theorem test_affinity : sealDie 74565 = 4 := by decide

/-- Table 3.16: the descriptor of a take. -/
theorem test_descriptor :
    let t := parseDescriptor (le 8 0x0A17000100000101 ++ le 8 0x0001234501020200 ++ le 8 0x0000001234000000
      ++ le 8 0x0000001235000200 ++ le 8 0x0000000000987654 ++ List.replicate 24 0) 0 5 2
    (t.commandId, t.slot, t.gate, t.length) = (0x0A17, 0x12345, 0x102, 512) ∧ t.receipt = 0x0000001235000200
      ∧ t.clientTag = 0x987654 ∧ t.irq = true ∧ t.noReceipt = false ∧ t.malformed = false := by decide

/-- The margins of the example after Table 2.8: 11 mV and 17 mV over a guard band of 12 mV (monitor 0x1004). -/
theorem test_margin_ratio : ratios [(0x1004, 11000), (0x1004, 17000)] = [(0x1004, 916), (0x1004, 1416)] := by decide

/-- The settlement after R261: takeout toward zero, the dividend down. -/
theorem test_settlement : rnd 0 (128475635 * 1725) 10000 = 22162047 ∧ rnd 3 (106313588 * 100) 23417900 = 453
    ∧ rnd 3 453 10 * 10 = 450 := by decide

/-- Table 16.15: the sources of sensor 800 and of the glitch monitor of VDD_CORE_S4, and the record's Data. -/
theorem test_alarm_data : sourceOf 0x8320 = some 2 ∧ sourceOf 0x3005 = some 9
    ∧ alarmData (2 ^ 2 ||| 2 ^ 9) 0x8320 2 = [0, 0, 2, 4, 0x83, 0x20, 0, 2] := by decide

/-- Table 12.8: HG_MODE_STAT in Held with cause 0x06, and after the pair's repair. -/
theorem test_mode_stat :
    let s := fun c : List Cause => ({ sealable with pwr := { svc.pwr with mode := .held, causes := c } } : State)
    (s [.blockParity]).modeStat = 0x00070606 ∧ (s []).modeStat = 0x00070006 := by decide

/-- What the host places at a pair's SQ is read from there: the bytes of one descriptor word, low byte first (R4). -/
theorem test_host_order : (Memory.writeBytes [] 0x1000 (le 4 0x12345678)).readBytes 0x1000 5 = [0x78, 0x56, 0x34, 0x12, 0] := by
  decide

/-- SlewLimit accepts 1 to 500 ppm (03, the objects from 0xC000 on). -/
theorem test_slew_limit : ([0, 1, 500, 501] : List Nat).map (fun n => canWrite (regd svc) .regulator 0xC000 2 n)
    = [false, true, true, false] := by decide

end Sys2Proof.Tests
end

section
/-! PROOF. The register statement (R9, R292 to R300): what the shared operations on latches, locations, words, parity
units and MSI-X vectors do, and its clauses from them. -/

namespace Sys2Proof.Machine

/-! ### Latches (R9, R301) -/

/-- A viewer's latch keeps the bits it has, and takes those set at its own key. -/
theorem testBit_setLatch {m : List (Nat × Nat)} {j k b i : Nat}
    (h : (mapGet 0 m k).testBit i = true ∨ j = k ∧ b.testBit i = true) :
    (mapGet 0 (setLatch b j m) k).testBit i = true := by
  by_cases hjk : k = j
  · subst hjk
    have hb : (mapGet 0 m k ||| b).testBit i = true := by
      rw [Nat.testBit_or, Bool.or_eq_true]
      exact h.imp id And.right
    have hne : mapGet 0 m k ||| b ≠ 0 := fun h0 => by simp [h0] at hb
    rwa [setLatch, mapGet_mapSet_listed 0 hne]
  · rw [setLatch, mapGet_mapSet_ne 0 m j k _ hjk]
    exact h.resolve_right fun e => hjk e.1.symm

/-- A bit set in the latch of each of some viewers stands in the latch of every one of them, whatever else each of these
writes sets. -/
theorem testBit_latchEach (r : RcReg) {bits : List (Nat × Nat) → Nat → Nat} {i : Nat}
    (hb : ∀ m k, (bits m k).testBit i = true) : ∀ (vs : List Viewer) (m : List (Nat × Nat)) (v : Viewer),
    v ∈ vs ∨ (mapGet 0 m (latchKey r v)).testBit i = true →
    (mapGet 0 (vs.foldl (fun m w => setLatch (bits m (latchKey r w)) (latchKey r w) m) m) (latchKey r v)).testBit i = true
  | [], _, _, h => h.resolve_left List.not_mem_nil
  | w :: ws, m, v, h => testBit_latchEach r hb ws _ v <| by
    rcases h with h | h
    · rcases List.mem_cons.1 h with rfl | h
      · exact .inr (testBit_setLatch (.inr ⟨rfl, hb _ _⟩))
      · exact .inl h
    · exact .inr (testBit_setLatch (.inl h))

theorem State.testBit_latch {s : State} {r : RcReg} {v : Viewer} {b i : Nat} (hv : v ∈ s.rcViewers r)
    (hb : b.testBit i = true) : ((s.latch r b).latched r v).testBit i = true :=
  testBit_latchEach r (fun _ _ => hb) _ _ v (.inl hv)

theorem State.viewer_mem_rcViewers (s : State) (loc : Loc) : loc.viewer ∈ s.rcViewers (.fnStat loc.fn) := by
  simp only [State.rcViewers, Loc.viewer]
  split <;> simp_all

/-- A read clears the latch for its viewer. -/
theorem State.clearLatch_self {s : State} (h : mapWf 0 s.latches = true) (r : RcReg) (v : Viewer) :
    (s.clearLatch r v).latched r v = 0 :=
  mapGet_mapSet_self _ _ _ _ ((MapWf_iff _ _).1 h)

/-- A read leaves every other viewer's latch. -/
theorem State.clearLatch_other (s : State) (r : RcReg) {v w : Viewer} (h : viewerCode w ≠ viewerCode v) :
    (s.clearLatch r v).latched r w = s.latched r w :=
  mapGet_mapSet_ne _ _ _ _ _ fun hk => h (Nat.add_left_cancel hk)

/-! ### The way to a register (R292, R293) -/

theorem State.reaches_config (s : State) (v : Viewer) (n : Nat) (r : ConfigReg) : s.reaches v (.config n r) = false := by
  cases v <;> rfl

/-- Only the memory windows have registers. -/
theorem State.openWord_memory {s : State} {loc : Loc} {d : Nat} {x : Reg × Bool} (h : s.openWord loc d = some x) :
    (∀ n o, loc ≠ .bar4 n o) ∧ ∀ n r, loc ≠ .config n r :=
  ⟨fun _ _ e => by simp [e, State.openWord] at h, fun _ _ e => by simp [e, State.openWord] at h⟩

/-- What a function's own access reaches, the function takes. -/
theorem State.fnReached_of_reaches {s : State} {loc : Loc} (h : s.reaches loc.viewer loc = true) :
    s.fnReached loc.fn = true := by
  cases loc with
  | window _ _ | bar2 _ | bar4 _ _ => simp_all [State.reaches, Loc.viewer, Loc.fn]
  | config n r => simp [State.reaches_config] at h

theorem State.supported_of_reaches {s : State} {loc : Loc} (h : s.reaches loc.viewer loc = true) (v : Viewer) :
    s.unsupported v loc = false := by
  simp [State.unsupported, State.fnReached_of_reaches h]

theorem State.mayAccess_of_reaches {s : State} {loc : Loc} (h : s.reaches loc.viewer loc = true) :
    s.mayAccess loc.viewer loc = true := by
  rw [State.mayAccess, h]
  rfl

/-! ### Writes -/

/-- A write that is not poisoned acts on what the host environment leaves (R303). -/
theorem exec_registerWrite_next {env : HostEnv} (h : env.poisoned = false) {s t : State} {v : Viewer} {loc : Loc} {size : Nat}
    {x : BitVec 64} (ht : (s.applyEnv env).writeReg v loc size x.toNat = t) :
    exec (.registerWrite v loc size x env) s = .next t := by
  show execRegisterWrite v loc size x env s = _
  simp [execRegisterWrite, h, ht]

/-- R292: a size that is neither 4 nor 8 is refused. -/
theorem State.writeReg_badSize {s : State} {loc : Loc} (h : s.reaches loc.viewer loc = true) {size : Nat} (h0 : size ≠ 0)
    (h4 : size ≠ 4) (h8 : size ≠ 8) (x : Nat) : s.writeReg loc.viewer loc size x = s.badSize loc := by
  have hm := State.mayAccess_of_reaches h
  cases loc with
  | window _ _ | bar2 _ => simp [State.writeReg, hm, h0, h4, h8]
  | bar4 _ _ => simp [State.writeReg, State.bar4Write, h, h0, h4, h8]
  | config n r => simp [State.reaches_config] at h

/-- R293: a write to a word that is reserved or closed is a bus error. -/
theorem State.writeReg_reserved {s : State} {loc : Loc} (h : s.reaches loc.viewer loc = true) (ha : loc.offset % 4 = 0)
    (hb : ∀ n o, loc ≠ .bar4 n o) (hw : s.openWord loc 0 = none) (x : Nat) :
    s.writeReg loc.viewer loc 4 x = s.discardWrite loc.viewer loc := by
  have hm := State.mayAccess_of_reaches h
  cases loc with
  | window _ _ | bar2 _ => simp [State.writeReg, hm, ha, State.wordsAt, hw]
  | bar4 n o => exact absurd rfl (hb n o)
  | config n r => simp [State.reaches_config] at h

/-- A four-byte write that reaches a register acts on its word. -/
theorem State.writeReg_word {s : State} {loc : Loc} {r : Reg} (h : Reaches s loc r) (x : Nat) :
    ∃ upper, s.writeReg loc.viewer loc 4 x = s.regWrite loc.viewer loc.fn r upper (x % 2 ^ 32) := by
  obtain ⟨hr, ha, upper, hw⟩ := h
  have hm := State.mayAccess_of_reaches hr
  obtain ⟨hb, hc⟩ := State.openWord_memory hw
  refine ⟨upper, ?_⟩
  cases loc with
  | window _ _ | bar2 _ => simp [State.writeReg, hm, ha, State.wordsAt, hw]
  | bar4 n o => exact absurd rfl (hb n o)
  | config n r => exact absurd rfl (hc n r)

/-- R9: the registers of the statement that a write leaves alone. -/
theorem State.regWrite_readOnly {r : Reg} (h : r ∈ [.modeStat, .wrIgn, .parErr, .parAddr, .lgStat, .bankStat, .spLink, .elReel,
    .elBacklog, .chStat, .tgState, .tgNext, .tgUnarch, .lcStat, .tbRef]) (s : State) (v : Viewer) (t : Nat) (upper : Bool)
    (x : Nat) : s.regWrite v t r upper x = s := by
  simp only [List.mem_cons, List.not_mem_nil, or_false] at h
  rcases h with rfl | rfl | rfl | rfl | rfl | rfl | rfl | rfl | rfl | rfl | rfl | rfl | rfl | rfl | rfl <;> rfl

/-- A message that may go out changes the outbox alone. -/
theorem State.emitIf_eq (s : State) (c : Bool) (o : Out) :
    ∃ out, (if c = true then s.emit o else s) = { s with outbox := out } := by
  cases c <;> exact ⟨_, rfl⟩

/-- AER's registers and its message are all that an error a function logs changes. -/
theorem State.aerLog_eq (s : State) (fn bit : Nat) :
    ∃ fns out, s.aerLog fn bit = { s with hg := { s.hg with fns := fns }, outbox := out } :=
  (State.emitIf_eq _ _ _).elim fun out h => ⟨_, out, h⟩

/-- A discarded write latches what its bus error does; the rest of it is the function's count and its AER. -/
theorem State.discardWrite_eq (s : State) (v : Viewer) (loc : Loc) : ∃ fns out, s.discardWrite v loc =
    { s with latches := (s.busError loc).latches, hg := { s.hg with fns := fns }, outbox := out } := by
  simp only [State.discardWrite]
  split
  · exact ⟨_, _, rfl⟩
  · obtain ⟨fns, out, h⟩ := State.aerLog_eq (s.busError loc) loc.fn aerCompleterAbort
    exact ⟨fns, out, h⟩

/-- What a bus error latches has BUS_ERR, bit 3, with or without the offset above it. -/
theorem busErr_testBit (c : Bool) (b off : Nat) :
    (if c = true then 8 else 8 + (b * 0x40000000 + off * 0x1000)).testBit 3 = true := by
  split
  · rfl
  · rw [Nat.testBit_eq_decide_div_mod_eq, decide_eq_true_eq]
    omega

/-- R293: a bus error sets BUS_ERR in the latch of the function. -/
theorem State.testBit_busError (s : State) (loc : Loc) :
    ((s.busError loc).latched (.fnStat loc.fn) loc.viewer).testBit 3 = true :=
  testBit_latchEach (.fnStat loc.fn) (bits := fun m k => if (mapGet 0 m k).testBit 3 then 8 else
      8 + (b2n loc.isBar2 * 0x40000000 + loc.offset / 4 * 0x1000))
    (fun _ _ => busErr_testBit _ _ _) _ _ _ (.inl (s.viewer_mem_rcViewers loc))

/-- The word of TB_CFG that a write of `x` sets. -/
theorem tbCfg_word (x : Nat) : BitVec.ofNat 32 (x % 2 ^ 32 &&& 0x801F0000) = BitVec.ofNat 32 x &&& 0x801F0000#32 := by
  apply BitVec.eq_of_toNat_eq
  simp

/-! ### Reads -/

/-- A four-byte read of a register with a clear-on-read latch: its fields with the viewer's latch, which falls. -/
theorem State.readReg_word {s : State} {loc : Loc} {r : Reg} {upper : Bool} {c : RcReg}
    (h : s.reaches loc.viewer loc = true) (ha : loc.offset % 4 = 0) (hw : s.openWord loc 0 = some (r, upper))
    (hc : rcOf r = some c) (hx : s.regField loc.viewer loc.fn r upper + s.latched c loc.viewer < 2 ^ 32) :
    s.readReg loc.viewer loc 4 = (s.clearLatch c loc.viewer).emit
      (.readData loc.viewer loc (s.regField loc.viewer loc.fn r upper + s.latched c loc.viewer)) := by
  have hu := State.supported_of_reaches h loc.viewer
  have hm := State.mayAccess_of_reaches h
  have hd : ∀ t, r ≠ .rngData t := fun t e => by subst e; exact nomatch hc
  have hv : ofBe (be 4 (s.regWord loc.viewer loc.fn r upper))
      = s.regField loc.viewer loc.fn r upper + s.latched c loc.viewer := by
    rw [ofBe_be, State.regWord, hc]
    exact Nat.mod_eq_of_lt hx
  obtain ⟨hb, hcf⟩ := State.openWord_memory hw
  cases loc with
  | window _ _ | bar2 _ =>
    simp [State.readReg, hu, hm, ha, State.wordsAt, hw, hd, hv, State.regRead, hc]
  | bar4 n o => exact absurd rfl (hb n o)
  | config n r => exact absurd rfl (hcf n r)

/-! ### The Evidence Log outside Service and Draw (R27, R388)

There a record, and the cause that a full log or a mismatch raises, change the log and the standing causes alone. -/

theorem State.evidence_eq (s : State) (kind code time : Nat) (data : Bytes) (e : Bool) :
    ∃ tg, s.evidence kind code time data e = { s with tg := tg } := by
  simp only [State.evidence]
  split <;> exact ⟨_, rfl⟩

/-- `t` is `s` but for the Evidence Log and for causes that stand in addition. -/
def State.Recorded (s t : State) : Prop :=
  ∃ tg cs, t = { s with tg := tg, pwr := { s.pwr with causes := s.pwr.causes ++ cs } }

theorem State.Recorded.trans {s t u : State} (h : s.Recorded t) (h' : t.Recorded u) : s.Recorded u := by
  obtain ⟨_, cs, rfl⟩ := h
  obtain ⟨tg, cs', rfl⟩ := h'
  exact ⟨tg, cs ++ cs', by simp⟩

theorem State.Recorded.hg {s t : State} (h : s.Recorded t) : t.hg = s.hg := by
  obtain ⟨_, _, rfl⟩ := h
  rfl

theorem State.Recorded.latches {s t : State} (h : s.Recorded t) : t.latches = s.latches := by
  obtain ⟨_, _, rfl⟩ := h
  rfl

theorem State.Recorded.mode {s t : State} (h : s.Recorded t) : t.pwr.mode = s.pwr.mode := by
  obtain ⟨_, _, rfl⟩ := h
  rfl

theorem State.Recorded.sealing {s t : State} (h : s.Recorded t) : t.sealing = s.sealing := by
  rw [State.sealing, h.mode, State.sealing]

theorem State.Recorded.causes {s t : State} (h : s.Recorded t) {c : Cause} (hc : c ∈ s.pwr.causes) :
    c ∈ t.pwr.causes := by
  obtain ⟨_, cs, rfl⟩ := h
  exact List.mem_append_left cs hc

theorem State.recorded_tg (s : State) (tg : Tg) : s.Recorded { s with tg := tg } := ⟨tg, [], by simp⟩

theorem State.evidence_recorded (s : State) (kind code time : Nat) (data : Bytes) (e : Bool) :
    s.Recorded (s.evidence kind code time data e) := by
  obtain ⟨tg, h⟩ := State.evidence_eq s kind code time data e
  exact h ▸ s.recorded_tg tg

theorem State.addCause_recorded (s : State) {c : Cause} (hc : c ≠ .entropyLatch) : s.Recorded (s.addCause c) := by
  simp only [State.addCause, hc, if_false]
  split
  · exact s.recorded_tg s.tg
  · exact ⟨s.tg, [c], rfl⟩

theorem State.mem_addCause (s : State) (c : Cause) : c ∈ (s.addCause c).pwr.causes := by
  simp only [State.addCause]
  split
  · rename_i h
    simpa [State.stands] using h
  · simp

theorem State.noteEvidence_recorded (s : State) : s.Recorded s.noteEvidence := by
  simp only [State.noteEvidence]
  split
  · exact s.recorded_tg s.tg
  · exact (s.addCause_recorded (by decide)).trans (State.recorded_tg _ _)

theorem State.afterEvidence_recorded {s : State} (h : s.sealing = false) : s.Recorded s.afterEvidence := by
  have hn := s.noteEvidence_recorded
  simpa [State.afterEvidence, hn.sealing, h] using hn

theorem State.logEvent_recorded {s : State} (h : s.sealing = false) (code : Nat) (data : Bytes) :
    s.Recorded (s.logEvent code data) := by
  have he : s.Recorded (s.event code data) := s.evidence_recorded ..
  exact he.trans (State.afterEvidence_recorded (he.sealing.trans h))

/-- The states that raising a cause passes through where takes are not sealed. -/
theorem State.raiseCause_eq {s : State} (h : s.sealing = false) {c : Cause} (hs : s.stands c = false)
    (ha : c ≠ .holdAlarm) (he : c ≠ .eraseAlarm) :
    s.raiseCause c = ((s.addCause c).causeRecord c s.pwr.mode s.pwr.mode).afterEvidence := by
  simp [State.raiseCause, State.raiseCauseWith, hs, State.modeAfter, h, ha, he]

theorem State.raiseCause_recorded {s : State} (h : s.sealing = false) {c : Cause} (ha : c ≠ .holdAlarm)
    (he : c ≠ .eraseAlarm) (hl : c ≠ .entropyLatch) :
    s.Recorded (s.raiseCause c) ∧ c ∈ (s.raiseCause c).pwr.causes := by
  cases hs : s.stands c with
  | true =>
    have hr : s.raiseCause c = s := by simp [State.raiseCause, State.raiseCauseWith, hs]
    rw [hr]
    exact ⟨s.recorded_tg s.tg, by simpa [State.stands] using hs⟩
  | false =>
    have hc := s.addCause_recorded hl
    have hr : (s.addCause c).Recorded ((s.addCause c).causeRecord c s.pwr.mode s.pwr.mode) :=
      State.evidence_recorded ..
    have hn := State.afterEvidence_recorded ((hc.trans hr).sealing.trans h)
    rw [State.raiseCause_eq h hs ha he]
    exact ⟨hc.trans (hr.trans hn), (hr.trans hn).causes (s.mem_addCause c)⟩

/-! ### Parity (R299, R300) -/

/-- The unit that HG_Q_CFG of a queue pair belongs to. -/
theorem parityUnit_qCfg {n q : Nat} (hn : n < 64) (hq : q < 8) : ∃ addr < 2 ^ 31,
    parityUnit (.queue n q 0x10) = some ⟨0, queueUnit n q, addr, [0, 8, 0x10]⟩ := by
  refine ⟨_, ?_, rfl⟩
  simp only [Nat.lt_irrefl, if_false]
  split <;> omega

/-- A mismatch of a queue pair faults it: its block is none of the security blocks, and it has no shadow. -/
theorem State.parityMismatch_queue (s : State) {x : ParityUnit} (hb : x.block = 0) (hu : x.unit < 512) (copy : ParityCopy) :
    s.parityMismatch x copy = (s.latch .parErr 1).faultUnit x := by
  have h1 : x.unit ≠ 0x2100 := by omega
  have h2 : x.unit ≠ elUnit ∧ x.unit ≠ tbUnit := by simp only [elUnit, tbUnit]; omega
  simp [State.parityMismatch, hb, h1, h2]

theorem State.disableUnit_queue (s : State) {u : Nat} (hu : u < 512) :
    s.disableUnit u = s.onQ (u / 8) (u % 8) fun p => { p with cfg := p.cfg &&& 0x7FFFFFFF#32 } := by
  simp [State.disableUnit, hu]

theorem QPair.enabled_cleared (p : QPair) : { p with cfg := p.cfg &&& 0x7FFFFFFF#32 : QPair }.enabled = false := by
  simp [QPair.enabled]

/-- The gateway once a queue pair is faulted: its ENABLE is cleared, it is faulted, and its address stands in HG_PAR_ADDR. -/
def Hg.faultQueue (x : ParityUnit) (h : Hg) : Hg :=
  { h with
    queues := mapSet {} h.queues x.unit { mapGet {} h.queues x.unit with
      cfg := (mapGet {} h.queues x.unit).cfg &&& 0x7FFFFFFF#32 }
    faulted := h.faulted.filter (·.1 ≠ x.unit) ++ [(x.unit, x.regs)]
    parAddr := 2 ^ 31 + x.addr }

/-- A faulted queue pair is disabled. -/
theorem State.qpair_faultQueue {s : State} (hw : mapWf {} s.hg.queues = true) {n q : Nat} {x : ParityUnit}
    (hx : x.unit = queueUnit n q) : ((s.onHg (Hg.faultQueue x)).qpair n q).enabled = false := by
  have hq : (s.onHg (Hg.faultQueue x)).qpair n q = { s.qpair n q with cfg := (s.qpair n q).cfg &&& 0x7FFFFFFF#32 } := by
    obtain ⟨_, _, _, _⟩ := x
    cases hx
    exact mapGet_mapSet_self _ _ _ _ ((MapWf_iff _ _).1 hw)
  rw [hq, QPair.enabled_cleared]

/-- Where takes are not sealed, the fault of a queue pair changes the gateway so, is recorded, and has its cause stand. -/
theorem State.faultUnit_queue {s : State} (h : s.sealing = false) {x : ParityUnit} (hx : x.regs ≠ []) (hu : x.unit < 512) :
    (s.onHg (Hg.faultQueue x)).Recorded (s.faultUnit x) ∧ .blockParity ∈ (s.faultUnit x).pwr.causes := by
  have hd : (s.disableUnit x.unit).onHg (fun h => { h with
      faulted := if x.regs = [] then h.faulted else h.faulted.filter (·.1 ≠ x.unit) ++ [(x.unit, x.regs)]
      parAddr := if x.regs = [] then h.parAddr else 2 ^ 31 + x.addr }) = s.onHg (Hg.faultQueue x) := by
    have hk : x.unit / 8 * 8 + x.unit % 8 = x.unit := by omega
    simp only [State.disableUnit_queue s hu, State.onQ, hk, hx, if_false]
    rfl
  simp only [State.faultUnit, hd]
  have he := State.logEvent_recorded (s := s.onHg (Hg.faultQueue x)) h 0x0001
    (be 4 (s.onHg (Hg.faultQueue x)).hg.parAddr ++ be 1 x.block ++ be 3 0)
  obtain ⟨hr, hc⟩ := State.raiseCause_recorded (he.sealing.trans h) (c := .blockParity) (by decide) (by decide) (by decide)
  exact ⟨he.trans hr, hc⟩

theorem exec_parityScan_found {s : State} {loc : Loc} {copy : ParityCopy} {x : ParityUnit} (hp : s.powered = true)
    (hw : 4 ≤ s.pwr.wakeStep) (hx : s.unitAt loc = some x) :
    exec (.parityScan (some (loc, copy))) s = .next (s.parityMismatch x copy) := by
  show execParityScan (some (loc, copy)) s = _
  simp [execParityScan, hp, Nat.not_lt.2 hw, hx]

/-! ### MSI-X (R295) -/

/-- A function that does not read as an unlisted one is read back. -/
theorem State.fn_onFn (s : State) {n : Nat} {f : PciFn → PciFn} (h : f (s.fn n) ≠ {}) : (s.onFn n f).fn n = f (s.fn n) :=
  mapGet_mapSet_listed ({} : PciFn) h s.hg.fns n

theorem PciFn.ne_default {f : PciFn} (h : f.msixEnable = true) : f ≠ {} := fun e => by simp [e] at h

/-- The function once the mask bit of a vector is cleared. -/
def PciFn.unmask (k : Nat) (f : PciFn) : PciFn :=
  { f with unmasked := if f.unmasked.contains k then f.unmasked else f.unmasked ++ [k] }

theorem PciFn.mem_unmask (k : Nat) (f : PciFn) : k ∈ (f.unmask k).unmasked := by
  simp only [PciFn.unmask]
  split
  · rename_i h
    simpa using h
  · simp

/-- The function once the vectors that are not masked are pending no more. -/
def PciFn.fire (f : PciFn) : PciFn := { f with pba := f.pba.filter fun k => !f.unmasked.contains k }

theorem PciFn.pba_fire {f : PciFn} {k : Nat} (hp : f.pba = [k]) (hk : k ∈ f.unmasked) : f.fire.pba = [] := by
  simp [PciFn.fire, hp, hk]

/-- While the function sends messages, its pending vectors that are not masked go out in turn. -/
theorem State.firePending_open {s : State} {n : Nat} (he : (s.fn n).msixEnable = true)
    (hm : (s.fn n).msixMaskAll = false) : s.firePending n =
      ((s.fn n).pba.filter (s.fn n).unmasked.contains).foldl (fun s k => s.message n k) (s.onFn n PciFn.fire) := by
  simp only [State.firePending, he, hm]
  rfl

/-- Clearing the mask bit of the one vector that is pending sends its message and ends its pending. -/
theorem State.unmask_pending {s : State} {n k : Nat} (hk : k < 32) (he : (s.fn n).msixEnable = true)
    (hm : (s.fn n).msixMaskAll = false) (hp : (s.fn n).pba = [k]) :
    s.unmask n k = ((s.onFn n (PciFn.unmask k)).onFn n PciFn.fire).message n k := by
  have hf : (s.onFn n (PciFn.unmask k)).fn n = (s.fn n).unmask k :=
    State.fn_onFn s (PciFn.ne_default he)
  have hu : s.unmask n k = (s.onFn n (PciFn.unmask k)).firePending n := if_neg (Nat.not_le.2 hk)
  have hpba : ((s.fn n).unmask k).pba = [k] := hp
  rw [hu, State.firePending_open (hf ▸ he) (hf ▸ hm), hf, hpba]
  simp [PciFn.mem_unmask]

/-- The function after that: nothing pends, the vector is not masked, and its table is as it was. -/
theorem State.fn_unmask_fire {s : State} {n : Nat} (k : Nat) (he : (s.fn n).msixEnable = true) :
    ((s.onFn n (PciFn.unmask k)).onFn n PciFn.fire).fn n = ((s.fn n).unmask k).fire := by
  have hf : (s.onFn n (PciFn.unmask k)).fn n = (s.fn n).unmask k :=
    State.fn_onFn s (PciFn.ne_default he)
  have he' : (((s.onFn n (PciFn.unmask k)).fn n).fire).msixEnable = true := hf ▸ he
  rw [State.fn_onFn _ (PciFn.ne_default he'), hf]

end Sys2Proof.Machine
end

section
open Sys2Proof Sys2Proof.Machine

/-- Settles O47: each clause is what the operation its command reaches does, by the lemmas above. -/
theorem registers : Obligations.Registers := by
  unfold Obligations.Registers
  intro s loc env u v hpoison
  refine ⟨fun hr x => ⟨fun size h0 h4 h8 => ?_, fun ha hw hb => ?_⟩, fun r x hr hro => ?_, fun x hr _ => ?_,
    fun x hr _ => ?_, fun r c upper hw hr hc _ hwf hx => ?_, rfl, fun n q hn hq hwf hp hk hu hs _ => ?_,
    fun n k hr hk he hm hp => ?_⟩
  · exact ⟨_, exec_registerWrite_next hpoison (State.writeReg_badSize (s := u) hr h0 h4 h8 _), rfl,
      State.testBit_latch (u.viewer_mem_rcViewers loc) rfl⟩
  · obtain ⟨fns, out, ht⟩ := State.discardWrite_eq u v loc
    exact ⟨_, exec_registerWrite_next hpoison ((State.writeReg_reserved (s := u) hr ha hb hw _).trans ht), rfl,
      u.testBit_busError loc⟩
  · obtain ⟨upper, hx⟩ := State.writeReg_word (s := u) hr x.toNat
    exact exec_registerWrite_next hpoison (hx.trans (State.regWrite_readOnly hro ..))
  · obtain ⟨upper, hx⟩ := State.writeReg_word (s := u) hr x.toNat
    refine ⟨_, exec_registerWrite_next hpoison hx, ?_⟩
    simp only [State.regWrite, State.tbCfgWrite, tbCfg_word]
    rfl
  · obtain ⟨upper, hx⟩ := State.writeReg_word hr x.toNat
    rw [Nat.mod_eq_of_lt x.isLt] at hx
    exact ⟨_, congrArg Host.Outcome.next hx, rfl, rfl⟩
  · exact ⟨_, congrArg Host.Outcome.next (State.readReg_word hr.1 hr.2.1 hw hc hx), rfl, State.clearLatch_self hwf c v,
      fun w hv => State.clearLatch_other s c hv⟩
  · obtain ⟨addr, haddr, hx⟩ := parityUnit_qCfg hn hq
    have hu512 : queueUnit n q < 512 := by simp only [queueUnit]; omega
    rw [exec_parityScan_found hp hk (hu.trans hx), State.parityMismatch_queue s rfl hu512]
    obtain ⟨hrec, hcause⟩ := State.faultUnit_queue (s := s.latch .parErr 1) hs
      (x := ⟨0, queueUnit n q, addr, [0, 8, 0x10]⟩) (by simp) hu512
    refine ⟨_, rfl, ?_, ?_, ?_, hcause, ?_⟩
    · rw [State.qpair, hrec.hg]
      exact State.qpair_faultQueue (s := s.latch .parErr 1) hwf rfl
    · rw [hrec.hg]
      show (2 ^ 31 + addr) / 2 ^ 31 = 1
      omega
    · rw [hrec.hg]
      exact List.mem_append_right _ (List.mem_singleton.2 rfl)
    · rw [State.latched, hrec.latches]
      exact State.testBit_latch (by simp [State.rcViewers]) rfl
  · have hx : exec (.msixUnmask n k) s = .next (s.unmask n k) := congrArg Host.Outcome.next (if_pos hr)
    have hfn := State.fn_unmask_fire k he
    refine ⟨_, hx.trans (congrArg _ (State.unmask_pending hk he hm hp)), ?_, ?_, ?_⟩
    · rw [State.message, hfn]
      rfl
    · exact (congrArg PciFn.pba hfn).trans (PciFn.pba_fire hp (PciFn.mem_unmask k _))
    · exact (congrArg PciFn.unmasked hfn) ▸ PciFn.mem_unmask k _
end

section
/-! PROOF. The landing statement (R21, R75, R78, R80, R119): what a commit does to the journal, the slot image, the
In-Flight Table and the rest of the state, and its clauses from that. -/

namespace Sys2Proof.Machine

/-! ### Which takes land (R21, R75, R80, R81) -/

theorem State.lands_of_mode {s : State} (hs : s.pwr.stowed = false)
    (hm : s.pwr.mode ∉ [.dark, .vault, .quarantine, .retired]) : s.lands = true := by
  cases h : s.pwr.mode <;> simp_all [State.lands, State.powered]

theorem State.turnToLand_of_lowest {s : State} {t : Take}
    (h : ∀ u ∈ s.td.inflight, u.slot = t.slot → t.serial ≤ u.serial) : s.turnToLand t = true := by
  simp only [State.turnToLand, List.all_eq_true, Bool.or_eq_true, decide_eq_true_eq]
  intro u hu
  by_cases hs : u.slot = t.slot
  · exact .inr (h u hu hs)
  · exact .inl hs

theorem State.takeById_id {s : State} {id : Nat} {t : Take} (h : s.takeById id = some t) : t.id = id := by
  simpa using List.find?_some h

/-- A take of a slot that is no Fleet slot waits for no mirror (R336). -/
theorem State.hopOrCommit_local {s : State} {t : Take} (h : (s.slot t.slot).fleet = false) :
    s.hopOrCommit t = s.commitTake t := by
  have hn : s.hopNeeded t = none := by
    simp only [State.hopNeeded, State.landingHop, h]
    split <;> rfl
  simp only [State.hopOrCommit, hn]

theorem State.recordTake_sealed {s : State} {t : Take} (hn : t.failure = none) (hf : (s.slot t.slot).fleet = false) :
    s.recordTake t = s.commitTake t := by
  simp only [State.recordTake, hn]
  exact State.hopOrCommit_local hf

theorem State.landingCode_sealed {s : State} {t : Take} (hf : t.failure = none)
    (he : (s.window (t.slot / 1024)).epoch = t.epoch) (hl : (s.slot t.slot).fleet = false)
    (hs : t.slot ∉ s.lg.suspended) : s.landingCode t = none := by
  simp [State.landingCode, hf, he, hl, hs]

theorem State.landingCode_void {s : State} {t : Take} {code : Status} (h : t.failure = some code
    ∨ t.failure = none ∧ (s.window (t.slot / 1024)).epoch ≠ t.epoch ∧ code = stStaleOwner) :
    s.landingCode t = some code := by
  rcases h with hf | ⟨hf, he, rfl⟩
  · simp [State.landingCode, hf]
  · simp [State.landingCode, hf, he]

theorem exec_takeLanding_due {s : State} {id : Nat} {t : Take} (ht : s.takeById id = some t) (hp : t.phase = .returned)
    (hl : s.lands = true) (hu : s.turnToLand t = true) :
    exec (.takeLanding id true) s = .next (s.recordTake { t with failure := s.landingCode t }) := by
  show execTakeLanding id true s = _
  simp [execTakeLanding, ht, hp, hl, hu]

theorem exec_journalSignComplete_due {s : State} {id : Nat} {t : Take} (ht : s.takeById id = some t)
    (hp : t.phase = .journalSign) (hl : s.lands = true) (hu : s.turnToLand t = true) :
    exec (.journalSignComplete id) s = .next (s.hopOrCommit t) := by
  show execJournalSignComplete id s = _
  simp [execJournalSignComplete, ht, hp, hl, hu]

/-! ### The hedge of a VOID record's signature (R75 step 5, R194) -/

/-- `u` is `s` but for what a request to the DRBG Bank changes. -/
def State.Drew (s u : State) : Prop :=
  ∃ en pd c l, u = { s with en := en, pd := pd, freeCtr := c, latches := l }

theorem State.Drew.refl (s : State) : s.Drew s := ⟨_, _, _, _, rfl⟩

theorem State.Drew.trans {s t u : State} (h : s.Drew t) (h' : t.Drew u) : s.Drew u := by
  obtain ⟨_, _, _, _, rfl⟩ := h
  obtain ⟨_, _, _, _, rfl⟩ := h'
  exact ⟨_, _, _, _, rfl⟩

theorem State.applyNum_drew (s : State) (index sub inst : Nat) : s.Drew (s.applyNum index sub inst) := by
  simp only [State.applyNum]
  split <;> exact ⟨_, _, _, _, rfl⟩

theorem State.takeBlock_drew (s : State) : s.Drew s.takeBlock.2 := by
  simp only [State.takeBlock]
  split <;> exact ⟨_, _, _, _, rfl⟩

theorem State.noteReseed_drew (s : State) (i : Nat) : s.Drew (s.noteReseed i) := by
  simp only [State.noteReseed]
  split <;> exact ⟨_, _, _, _, rfl⟩

theorem State.reseed_drew (s : State) (i : Nat) : s.Drew (s.reseed i) :=
  (((s.applyNum_drew ..).trans (State.applyNum_drew ..)).trans (State.takeBlock_drew _)).trans
    (.trans ⟨_, _, _, _, rfl⟩ (State.noteReseed_drew _ i))

theorem State.generate_drew (s : State) (i n : Nat) (resist : Bool) : s.Drew (s.generate i n resist).2 := by
  simp only [State.generate]
  split
  · exact (s.reseed_drew i).trans ⟨_, _, _, _, rfl⟩
  · exact ⟨_, _, _, _, rfl⟩

theorem State.journalSignature_drew (s : State) (covered : Bytes) : s.Drew (s.journalSignature covered).2 := by
  simp only [State.journalSignature, State.journalHedge]
  split
  · exact s.generate_drew ..
  · exact ⟨_, _, _, _, rfl⟩

theorem State.recordTail_drew (s : State) (t : Take) (body : Bytes) : s.Drew (s.recordTail t body).2 := by
  simp only [State.recordTail]
  split
  · exact s.journalSignature_drew _
  · exact .refl s

/-- A SEALED record needs no signature of the journal key (R78). -/
theorem State.recordTail_sealed (s : State) {t : Take} (h : t.failure = none) (body : Bytes) :
    s.recordTail t body = (if t.sealMode = 0 then slice t.signature 0 64 else [], s) := by
  simp [State.recordTail, h]

theorem State.recordTail_void (s : State) {t : Take} (h : t.failure ≠ none) (body : Bytes) :
    s.recordTail t body = s.journalSignature (body ++ chain s.lg.continuity body) := if_pos h

/-! ### The sizes of a record (Table 3.10) -/

theorem slice_length (b : Bytes) (off n : Nat) : (slice b off n).length = n := by
  simp only [slice, List.length_append, List.length_replicate, List.length_take]
  omega

theorem chain_length (prev body : Bytes) : (chain prev body).length = 32 := by simp [chain, Config.sha256, Config.out]

theorem Take.record_length (t : Take) (time : Nat) : (t.record time).length = 96 := by
  simp [Take.record, slice_length]

theorem p256Sign_length_le (key m extra : Bytes) : (p256Sign key m extra).length ≤ 64 := by
  simp only [p256Sign]
  split <;> simp

theorem State.recordTail_length_le (s : State) (t : Take) (body : Bytes) : (s.recordTail t body).1.length ≤ 64 := by
  by_cases h : t.failure = none
  · rw [s.recordTail_sealed h]
    dsimp only
    split
    · exact Nat.le_of_eq (slice_length ..)
    · exact Nat.zero_le _
  · rw [s.recordTail_void h]
    exact p256Sign_length_le ..

/-! ### Host writes and the tap (R123, R303) -/

/-- `u` is `s` but for what host writes change. -/
def State.Sent (s u : State) : Prop := ∃ m c l, u = { s with hostMem := m, freeCtr := c, latches := l }

theorem State.Sent.trans {s t u : State} (h : s.Sent t) (h' : t.Sent u) : s.Sent u := by
  obtain ⟨_, _, _, rfl⟩ := h
  obtain ⟨_, _, _, rfl⟩ := h'
  exact ⟨_, _, _, rfl⟩

theorem State.dmaWrite_sent (s : State) (fn addr : Nat) (b : Bytes) : s.Sent (s.dmaWrite fn addr b) := by
  simp only [State.dmaWrite]
  split
  · exact ⟨_, _, _, rfl⟩
  · split <;> exact ⟨_, _, _, rfl⟩

theorem State.dmaSend_sent (fn : Nat) : ∀ (ps : List (Nat × Bytes)) (s : State), s.Sent (s.dmaSend fn ps).1
  | [], s => ⟨_, _, _, rfl⟩
  | p :: ps, s => by
    have hw := s.dmaWrite_sent fn p.1 p.2
    simp only [State.dmaSend]
    split
    · exact hw.trans (State.dmaSend_sent fn ps _)
    · exact hw

/-- The copy of a record in the tap ring is a host write, and is counted. -/
theorem State.tapCopy_eq (s : State) (b : Bytes) : ∃ v w f, s.Sent v
    ∧ s.tapCopy b = v.onLg fun g => { g with tapWritten := w, tapFailed := f } := by
  have hs : s.Sent s := ⟨_, _, _, rfl⟩
  simp only [State.tapCopy]
  split
  · exact ⟨s, _, _, hs, rfl⟩
  · split
    · exact ⟨s, _, _, hs, rfl⟩
    · exact ⟨_, _, _, s.dmaSend_sent .., rfl⟩

/-- What a journal record leaves of the state: the chain goes on, the record waits for the reel, its copy is sent (R78). -/
theorem State.journal_eq (s : State) (body tail : Bytes) : ∃ m c l a n w f, s.journal body tail = { s with
    hostMem := m
    freeCtr := c
    latches := l
    lg := { s.lg with
      journalCount := s.lg.journalCount + 1
      continuity := chain s.lg.continuity body
      anchor := a
      reel := s.lg.reel ++ [{ bytes := body ++ chain s.lg.continuity body ++ tail, last := s.lg.journalCount + 1 }]
      reelWritten := n
      tapWritten := w
      tapFailed := f } } := by
  simp only [State.journal]
  obtain ⟨v, w, f, ⟨_, _, _, rfl⟩, h⟩ := State.tapCopy_eq _ _
  exact ⟨_, _, _, _, _, w, f, h⟩

/-! ### The ledger cache (R117, R118) -/

/-- `u` is `s` but for which lines the ledger cache holds, and the versions of those written back. -/
def State.Cached (s u : State) : Prop := ∃ c r n d dn tree, u = { s with
  freeCtr := c
  lg := { s.lg with resident := r, nodes := n, dirty := d, dirtyNodes := dn, tree := tree } }

theorem State.Cached.refl (s : State) : s.Cached s := ⟨_, _, _, _, _, _, rfl⟩

theorem State.Cached.trans {s t u : State} (h : s.Cached t) (h' : t.Cached u) : s.Cached u := by
  obtain ⟨_, _, _, _, _, _, rfl⟩ := h
  obtain ⟨_, _, _, _, _, _, rfl⟩ := h'
  exact ⟨_, _, _, _, _, _, rfl⟩

theorem State.Cached.ite {s t u : State} (c : Prop) [Decidable c] (ht : s.Cached t) (hu : s.Cached u) :
    s.Cached (if c then t else u) := by
  split
  · exact ht
  · exact hu

theorem State.evictSlot_cached (s : State) (n : Nat) : s.Cached (s.evictSlot n) :=
  .ite _ ⟨_, _, _, _, _, _, rfl⟩ ⟨_, _, _, _, _, _, rfl⟩

theorem State.makeRoom_cached : ∀ (fuel : Nat) (s : State), s.Cached (s.makeRoom fuel)
  | 0, s => .refl s
  | fuel + 1, s => by
    simp only [State.makeRoom]
    split
    · exact .refl s
    · split
      · exact .refl s
      · exact .trans (.trans ⟨_, _, _, _, _, _, rfl⟩ (State.evictSlot_cached _ _)) (State.makeRoom_cached fuel _)

theorem State.makeResident_cached (s : State) (n : Nat) : s.Cached (s.makeResident n) := by
  simp only [State.makeResident]
  split
  · exact .refl s
  · exact (s.makeRoom_cached 4).trans ⟨_, _, _, _, _, _, rfl⟩

/-- A slot's line changes in the cache: it is among the dirty ones from then on. -/
theorem State.soil_eq (s : State) (k : Nat) : ∃ c r n d dn tree, k ∈ d ∧ s.soil k = { s with
    freeCtr := c
    lg := { s.lg with resident := r, nodes := n, dirty := d, dirtyNodes := dn, tree := tree } } := by
  have hd : k ∈ (s.soil k).lg.dirty := by
    simp only [State.soil, State.onLg_lg]
    split
    · rename_i h
      simpa using h
    · exact List.mem_cons_self ..
  have hc : s.Cached (s.soil k) := (s.makeResident_cached k).trans ⟨_, _, _, _, _, _, rfl⟩
  obtain ⟨_, _, _, _, _, _, hc⟩ := hc
  rw [hc] at hd
  exact ⟨_, _, _, _, _, _, hd, hc⟩

/-! ### The record, the slot image and the release of the entry (R75 step 7, R119) -/

/-- The state once a take's record is in the journal, its image in the slot, and its entry out of the In-Flight Table. -/
def State.landed (t : Take) (s : State) : State :=
  let body := t.record s.tb.deviceTime
  let tail := s.recordTail t body
  ((tail.2.journal body tail.1).landImage t).onTd fun d => { d with inflight := d.inflight.filter fun u => u.id ≠ t.id }

theorem State.commitTake_eq (s : State) (t : Take) :
    s.commitTake t = (((s.landed t).finishTake t).retireManifest t.manifest).afterJournal.admitSeals := rfl

/-- The image that a landing leaves in its slot, the Continuity of its record being `cont` (R119). -/
def Slot.land (t : Take) (time : Nat) (cont : Bytes) (x : Slot) : Slot :=
  { x with serial := t.serial, official := t.officialTime, landing := time, digest := cont.take 16 }

/-- The ledger `g` is `g₀` with the record of `t` in its journal and its image in its slot. -/
structure Lg.Landed (g₀ : Lg) (t : Take) (time : Nat) (tail : Bytes) (g : Lg) : Prop where
  journalCount : g.journalCount = g₀.journalCount + 1
  continuity : g.continuity = chain g₀.continuity (t.record time)
  reel : g.reel = g₀.reel ++ [{
    bytes := t.record time ++ chain g₀.continuity (t.record time) ++ tail
    last := g₀.journalCount + 1 }]
  slots : g.slots = mapSet {} g₀.slots t.slot
    ((mapGet {} g₀.slots t.slot).land t time (chain g₀.continuity (t.record time)))
  dirty : t.slot ∈ g.dirty
  tapLog2 : g.tapLog2 = g₀.tapLog2

theorem State.landImage_eq (s : State) (t : Take) : ∃ c r n d dn tree, t.slot ∈ d ∧ s.landImage t = { s with
    freeCtr := c
    lg := { s.lg with
      slots := mapSet {} s.lg.slots t.slot ((s.slot t.slot).land t s.tb.deviceTime s.lg.continuity)
      resident := r
      nodes := n
      dirty := d
      dirtyNodes := dn
      tree := tree } } :=
  (s.onSlot t.slot (Slot.land t s.tb.deviceTime s.lg.continuity)).soil_eq t.slot

theorem State.landed_eq (s : State) (t : Take) : ∃ v m c l g, s.Drew v ∧ (t.failure = none → v = s)
    ∧ s.lg.Landed t s.tb.deviceTime (s.recordTail t (t.record s.tb.deviceTime)).1 g
    ∧ s.landed t = { v with
        hostMem := m
        freeCtr := c
        latches := l
        lg := g
        td := { s.td with inflight := s.td.inflight.filter fun u => u.id ≠ t.id } } := by
  have hd := s.recordTail_drew t (t.record s.tb.deviceTime)
  have hs : t.failure = none → (s.recordTail t (t.record s.tb.deviceTime)).2 = s := fun h => by
    rw [s.recordTail_sealed h]
  simp only [State.landed]
  generalize s.recordTail t (t.record s.tb.deviceTime) = tail at hd hs ⊢
  obtain ⟨tail, v⟩ := tail
  obtain ⟨_, _, _, _, rfl⟩ := hd
  obtain ⟨_, _, _, _, _, _, _, hj⟩ := State.journal_eq _ (t.record s.tb.deviceTime) tail
  rw [hj]
  obtain ⟨_, _, _, _, _, _, hdirty, hi⟩ := State.landImage_eq _ t
  rw [hi]
  refine ⟨_, _, _, _, _, ⟨_, _, _, _, rfl⟩, hs, ?_, rfl⟩
  exact ⟨rfl, rfl, rfl, rfl, hdirty, rfl⟩

/-! ### The end of a landed take: completion, manifest, and what waits for its entry (R55, R56, R75 step 7) -/

/-- `u` is `s` but for what the end of a take changes: neither the ledger nor the In-Flight Table nor the
DRBG Bank. -/
def State.Finished (s u : State) : Prop := ∃ f ms cs d h m c l o z, u = { s with
  td := { s.td with fetched := f, manifests := ms, counts := cs, device := d }
  hg := h
  hostMem := m
  freeCtr := c
  latches := l
  outbox := o
  sz := z }

theorem State.Finished.refl (s : State) : s.Finished s := ⟨_, _, _, _, _, _, _, _, _, _, rfl⟩

theorem State.Finished.trans {s t u : State} (h : s.Finished t) (h' : t.Finished u) : s.Finished u := by
  obtain ⟨_, _, _, _, _, _, _, _, _, _, rfl⟩ := h
  obtain ⟨_, _, _, _, _, _, _, _, _, _, rfl⟩ := h'
  exact ⟨_, _, _, _, _, _, _, _, _, _, rfl⟩

theorem State.Sent.finished {s u : State} (h : s.Sent u) : s.Finished u := by
  obtain ⟨_, _, _, rfl⟩ := h
  exact ⟨_, _, _, _, _, _, _, _, _, _, rfl⟩

theorem State.Sent.sz {s u : State} (h : s.Sent u) : u.sz = s.sz := by
  obtain ⟨_, _, _, rfl⟩ := h
  rfl

theorem State.msix_finished (s : State) (fn v : Nat) : s.Finished (s.msix fn v) := by
  simp only [State.msix]
  split
  · exact .refl s
  · split <;> exact ⟨_, _, _, _, _, _, _, _, _, _, rfl⟩

theorem State.msix_sz (s : State) (fn v : Nat) : (s.msix fn v).sz = s.sz := by
  simp only [State.msix]
  split
  · rfl
  · split <;> rfl

theorem State.serviceEnd_finished (s : State) (core : Nat) (status : Status) : s.Finished (s.serviceEnd core status) := by
  simp only [State.serviceEnd]
  split <;> exact ⟨_, _, _, _, _, _, _, _, _, _, rfl⟩

theorem State.writeResult_finished (s : State) (core space offset : Nat) (b : Bytes) :
    s.Finished (s.writeResult core space offset b) := by
  simp only [State.writeResult]
  split <;> exact ⟨_, _, _, _, _, _, _, _, _, _, rfl⟩

theorem State.countTake_finished (s : State) (tenant outcome : Nat) : s.Finished (s.countTake tenant outcome) :=
  ⟨_, _, _, _, _, _, _, _, _, _, rfl⟩

theorem State.onQ_finished (s : State) (n q : Nat) (f : QPair → QPair) : s.Finished (s.onQ n q f) :=
  ⟨_, _, _, _, _, _, _, _, _, _, rfl⟩

theorem State.completeTake_finished (s : State) (t : Take) (status : Status) (outcome : Nat) :
    s.Finished (s.completeTake t status outcome) := by
  have hc := s.countTake_finished t.tenant outcome
  simp only [State.completeTake]
  split
  · split
    · split
      · exact hc.trans ((State.writeResult_finished ..).trans (State.serviceEnd_finished ..))
      · exact hc
    · exact hc
  · split
    · exact hc
    · split
      · exact hc.trans (State.onQ_finished ..)
      · split
        · exact hc.trans ((State.dmaWrite_sent ..).finished.trans ((State.onQ_finished ..).trans (State.msix_finished ..)))
        · exact hc.trans ((State.dmaWrite_sent ..).finished.trans (State.onQ_finished ..))

/-- The completion of a take that came from a queue leaves the Sezel processor alone (R56). -/
theorem State.completeTake_queue_sz (s : State) {t : Take} {q : Nat} (h : t.source = .queue q) (status : Status)
    (outcome : Nat) : (s.completeTake t status outcome).sz = s.sz := by
  simp only [State.completeTake, h]
  split
  · rfl
  · split
    · rfl
    · split
      · exact (State.msix_sz ..).trans (State.dmaWrite_sent ..).sz
      · exact (State.dmaWrite_sent ..).sz

theorem State.finishTake_finished (s : State) (t : Take) : s.Finished (s.finishTake t) := by
  simp only [State.finishTake]
  split
  · exact s.completeTake_finished ..
  · split
    · exact s.completeTake_finished ..
    · exact (s.dmaWrite_sent ..).finished.trans (State.completeTake_finished ..)

theorem State.finishTake_queue_sz (s : State) {t : Take} {q : Nat} (h : t.source = .queue q) :
    (s.finishTake t).sz = s.sz := by
  simp only [State.finishTake]
  split
  · exact s.completeTake_queue_sz h ..
  · split
    · exact s.completeTake_queue_sz h ..
    · exact (State.completeTake_queue_sz _ h ..).trans (s.dmaWrite_sent ..).sz

theorem State.retireManifest_finished (s : State) (mid : Nat) : s.Finished (s.retireManifest mid) := by
  simp only [State.retireManifest]
  split
  · exact ⟨_, _, _, _, _, _, _, _, _, _, rfl⟩
  · exact .refl s

theorem State.retireManifest_sz (s : State) (mid : Nat) : (s.retireManifest mid).sz = s.sz := by
  simp only [State.retireManifest]
  split <;> rfl

/-- `u` is `s` but for the takes that are fetched and the calls that wait: a waiting take of an applet is fetched. -/
def State.Admitted (s u : State) : Prop := ∃ f o, u = { s with
  td := { s.td with fetched := f }
  sz := { s.sz with outstanding := o } }

theorem State.Admitted.trans {s t u : State} (h : s.Admitted t) (h' : t.Admitted u) : s.Admitted u := by
  obtain ⟨_, _, rfl⟩ := h
  obtain ⟨_, _, rfl⟩ := h'
  exact ⟨_, _, rfl⟩

theorem State.Admitted.finished {s u : State} (h : s.Admitted u) : s.Finished u := by
  obtain ⟨_, _, rfl⟩ := h
  exact ⟨_, _, _, _, _, _, _, _, _, _, rfl⟩

theorem State.admitSeal_admitted (s : State) (core : Nat) : s.Admitted (s.admitSeal core) := by
  simp only [State.admitSeal]
  split
  · split <;> exact ⟨_, _, rfl⟩
  · exact ⟨_, _, rfl⟩

theorem State.admitSeals_admitted (s : State) : s.Admitted s.admitSeals :=
  List.foldlRecOn (motive := s.Admitted) _ _ ⟨_, _, rfl⟩ fun _ hs e _ => hs.trans (State.admitSeal_admitted _ e.1)

/-! ### What any end of a landing keeps: the journal grows, the In-Flight Table holds the takes it held (R27, R28, R77) -/

/-- From `s` to `u` no journal record goes, and no take enters or leaves the In-Flight Table. -/
def State.Onward (s u : State) : Prop :=
  s.lg.journalCount ≤ u.lg.journalCount ∧ u.td.inflight.map Take.id = s.td.inflight.map Take.id

theorem State.Onward.refl (s : State) : s.Onward s := ⟨Nat.le_refl _, rfl⟩

theorem State.Onward.trans {s t u : State} (h : s.Onward t) (h' : t.Onward u) : s.Onward u :=
  ⟨Nat.le_trans h.1 h'.1, h'.2.trans h.2⟩

theorem State.Onward.of_eq {s u : State} (hl : u.lg = s.lg) (ht : u.td.inflight = s.td.inflight) : s.Onward u :=
  ⟨Nat.le_of_eq (congrArg Lg.journalCount hl.symm), congrArg _ ht⟩

theorem State.Onward.foldl {α : Type} {f : State → α → State} (h : ∀ (s : State) (a : α), s.Onward (f s a)) (l : List α)
    (s : State) : s.Onward (l.foldl f s) :=
  List.foldlRecOn (motive := s.Onward) l f (.refl s) fun _ hs a _ => hs.trans (h _ a)

theorem State.Finished.onward {s u : State} (h : s.Finished u) : s.Onward u := by
  obtain ⟨_, _, _, _, _, _, _, _, _, _, rfl⟩ := h
  exact .of_eq rfl rfl

theorem State.Finished.lg {s u : State} (h : s.Finished u) : u.lg = s.lg := by
  obtain ⟨_, _, _, _, _, _, _, _, _, _, rfl⟩ := h
  rfl

theorem State.Recorded.onward {s u : State} (h : s.Recorded u) : s.Onward u := by
  obtain ⟨_, _, rfl⟩ := h
  exact .of_eq rfl rfl

theorem State.latch_onward (s : State) (r : RcReg) (bits : Nat) : s.Onward (s.latch r bits) := .of_eq rfl rfl

theorem State.onDrbg_onward (s : State) (i : Nat) (f : Instance → Instance) : s.Onward (s.onDrbg i f) := .of_eq rfl rfl

theorem State.onEn_onward (s : State) (f : En → En) : s.Onward (s.onEn f) := .of_eq rfl rfl

theorem State.onCounts_onward (s : State) (n : Nat) (f : TakeCounts → TakeCounts) : s.Onward (s.onCounts n f) :=
  .of_eq rfl rfl

theorem State.onCore_onward (s : State) (n : Nat) (f : SCore → SCore) : s.Onward (s.onCore n f) := .of_eq rfl rfl

theorem State.journal_onward (s : State) (body tail : Bytes) : s.Onward (s.journal body tail) := by
  obtain ⟨_, _, _, _, _, _, _, h⟩ := s.journal_eq body tail
  rw [h]
  exact ⟨Nat.le_succ _, rfl⟩

theorem State.failTakes_onward (s : State) (p : Take → Bool) (code : Status) : s.Onward (s.failTakes p code) := by
  refine ⟨Nat.le_refl _, ?_⟩
  simp only [State.failTakes, State.onTd_td, List.map_map]
  refine List.map_congr_left fun t _ => ?_
  simp only [Function.comp]
  split <;> rfl

theorem State.abandonManifests_onward (s : State) (p : Manifest → Bool) (code : Status) :
    s.Onward (s.abandonManifests p code) := by
  unfold State.abandonManifests
  extract_lets gone counted failed released
  have hc : s.Onward counted := .foldl (fun s (m : Manifest) => s.onCounts_onward m.tenant _) gone s
  have hf : counted.Onward failed := counted.failTakes_onward ..
  exact hc.trans (hf.trans (.of_eq rfl rfl))

theorem State.discardHeld_onward (s : State) (a : Nat) : s.Onward (s.discardHeld a) := by
  simp only [State.discardHeld]
  split
  · exact .refl s
  · split <;> exact .of_eq rfl rfl

theorem State.wakeSlot_onward (s : State) (a : Nat) : s.Onward (s.wakeSlot a) :=
  .foldl (fun s c => s.onCore_onward c _) _ s

theorem State.drawEnd_onward (s : State) (reason : Option Nat) (pending : Option Status) :
    s.Onward (s.drawEnd reason pending) := by
  unfold State.drawEnd
  split
  · exact .refl s
  · extract_lets journaled discarded returned wiped ended
    have hj : s.Onward journaled := by
      unfold journaled
      split
      · exact .refl s
      · exact s.journal_onward ..
    have hd : journaled.Onward discarded := by
      unfold discarded
      split
      · exact journaled.discardHeld_onward _
      · exact .refl journaled
    have hr : discarded.Onward returned := by
      unfold returned
      split
      · exact (discarded.serviceEnd_finished ..).onward
      · exact .refl discarded
    have hw : returned.Onward ended := .of_eq rfl rfl
    exact hj.trans (hd.trans (hr.trans (hw.trans (ended.wakeSlot_onward _))))

theorem State.noteCause_onward (s : State) {c : Cause} (hc : c ≠ .entropyLatch) : s.Onward (s.noteCause c) := by
  simp only [State.noteCause]
  split
  · exact .refl s
  · exact ((s.addCause_recorded hc).trans ((State.evidence_recorded ..).trans (State.noteEvidence_recorded _))).onward

theorem State.noteFull_onward (s : State) : s.Onward s.noteFull := by
  unfold State.noteFull
  extract_lets reel
  have hr : s.Onward reel := by
    unfold reel
    split
    · exact (s.latch_onward ..).trans (State.noteCause_onward _ nofun)
    · exact .refl s
  split
  · exact hr.trans ((reel.latch_onward ..).trans (State.noteCause_onward _ nofun))
  · exact hr

theorem State.enterHeld_onward (s : State) (code : Status) : s.Onward (s.enterHeld code) := by
  unfold State.enterHeld
  extract_lets held abandoned failed ended returned
  have hh : s.Onward held := .of_eq rfl rfl
  have hf : held.Onward failed := (held.abandonManifests_onward ..).trans (abandoned.failTakes_onward ..)
  have he : failed.Onward ended := by
    unfold ended
    split
    · exact failed.drawEnd_onward ..
    · exact failed.onDrbg_onward ..
  have hr : ended.Onward returned := by
    unfold returned
    split
    · exact (ended.onEn_onward _).trans (State.serviceEnd_finished ..).onward
    · exact .refl ended
  exact hh.trans (hf.trans (he.trans (hr.trans returned.noteFull_onward)))

theorem State.afterEvidence_onward (s : State) : s.Onward s.afterEvidence := by
  have hn := s.noteEvidence_recorded.onward
  simp only [State.afterEvidence]
  split
  · exact hn.trans (State.enterHeld_onward ..)
  · exact hn

theorem State.raiseCause_onward (s : State) {c : Cause} (hc : c ≠ .entropyLatch) : s.Onward (s.raiseCause c) := by
  unfold State.raiseCause State.raiseCauseWith
  split
  · exact .refl s
  · extract_lets before after added recorded held
    have hr : added.Onward recorded := by
      unfold recorded
      split
      · exact .refl added
      · exact (added.evidence_recorded ..).onward
    have hh : recorded.Onward held := by
      unfold held
      split
      · exact recorded.enterHeld_onward _
      · exact .refl recorded
    exact (s.addCause_recorded hc).onward.trans (hr.trans (hh.trans held.afterEvidence_onward))

theorem State.afterJournal_onward (s : State) : s.Onward s.afterJournal := by
  unfold State.afterJournal
  extract_lets reel
  have hr : s.Onward reel := by
    unfold reel
    split
    · exact (s.latch_onward ..).trans (State.raiseCause_onward _ nofun)
    · exact .refl s
  split
  · exact hr.trans ((reel.latch_onward ..).trans (State.raiseCause_onward _ nofun))
  · exact hr

/-- A landed take's record is in the journal for good, and its entry is gone. -/
theorem State.commitTake_lands (s : State) (t : Take) :
    s.lg.journalCount < (s.commitTake t).lg.journalCount ∧ (s.commitTake t).takeById t.id = none := by
  obtain ⟨_, _, _, _, _, -, -, hg, hl⟩ := s.landed_eq t
  have ho : (s.landed t).Onward (s.commitTake t) :=
    ((State.finishTake_finished _ t).trans (State.retireManifest_finished ..)).onward.trans
      ((State.afterJournal_onward _).trans (State.admitSeals_admitted _).finished.onward)
  obtain ⟨hj, hi⟩ := ho
  rw [hl] at hj hi
  have hlt := Nat.lt_of_lt_of_eq (Nat.lt_succ_self s.lg.journalCount) hg.journalCount.symm
  refine ⟨Nat.lt_of_lt_of_le hlt hj, List.find?_eq_none.2 fun u hu => ?_⟩
  · obtain ⟨w, hw, he⟩ := List.mem_map.1 (hi ▸ List.mem_map_of_mem hu)
    simpa [he] using (List.mem_filter.1 hw).2

/-! ### A commit with the tap off and room in the reel buffer (R77, R123) -/

theorem State.afterJournal_roomy {s : State} (ht : s.lg.tapLog2 = 0) (hr : s.reelFill + 2 ^ 20 ≤ 2 ^ 30) :
    s.afterJournal = s := by
  have h1 : s.reelShort = false := by
    have h : ¬ 2 ^ 30 - s.reelFill < 2 ^ 20 := by omega
    simp only [State.reelShort, h, decide_false, Bool.false_and]
  have h2 : s.tapShort = false := by simp [State.tapShort, ht]
  simp [State.afterJournal, h1, h2]

theorem Lg.Landed.fill {g₀ g : Lg} {t : Take} {time : Nat} {tail : Bytes} (h : g₀.Landed t time tail g)
    (hl : tail.length ≤ 64) :
    (g.reel.map fun r => r.bytes.length).sum ≤ (g₀.reel.map fun r => r.bytes.length).sum + 192 := by
  simp only [h.reel, List.map_append, List.map_cons, List.map_nil, List.sum_append, List.sum_cons, List.sum_nil,
    List.length_append, Take.record_length, chain_length]
  omega

/-- A record of 192 bytes at most fits into the room left, so that no cause follows it (R77, R123). -/
theorem State.commitTake_roomy {s : State} (t : Take) (ht : s.lg.tapLog2 = 0)
    (hr : s.reelFill + 4096 + 2 ^ 20 ≤ 2 ^ 30) :
    s.commitTake t = (((s.landed t).finishTake t).retireManifest t.manifest).admitSeals := by
  obtain ⟨_, _, _, _, _, -, -, hg, hl⟩ := s.landed_eq t
  have hlg : (((s.landed t).finishTake t).retireManifest t.manifest).lg = (s.landed t).lg :=
    ((State.finishTake_finished _ t).trans (State.retireManifest_finished ..)).lg
  have hfill := hg.fill (s.recordTail_length_le ..)
  rw [State.commitTake_eq, State.afterJournal_roomy]
  · rw [hlg, hl, ← ht]
    exact hg.tapLog2
  · rw [State.reelFill, hlg, hl]
    rw [State.reelFill] at hr
    exact Nat.le_trans (Nat.add_le_add_right hfill _) (by omega)

theorem State.commitTake_finished {s : State} (t : Take) (ht : s.lg.tapLog2 = 0)
    (hr : s.reelFill + 4096 + 2 ^ 20 ≤ 2 ^ 30) : (s.landed t).Finished (s.commitTake t) :=
  State.commitTake_roomy t ht hr ▸ (State.finishTake_finished _ t).trans
    ((State.retireManifest_finished ..).trans (State.admitSeals_admitted _).finished)

/-- Of the Sezel processor, the commit of a take from a queue changes the calls that wait alone. -/
theorem State.commitTake_sz {s : State} {t : Take} {q : Nat} (hq : t.source = .queue q) (ht : s.lg.tapLog2 = 0)
    (hr : s.reelFill + 4096 + 2 ^ 20 ≤ 2 ^ 30) :
    ∃ o, (s.commitTake t).sz = { (s.landed t).sz with outstanding := o } := by
  rw [State.commitTake_roomy t ht hr]
  obtain ⟨_, o, h⟩ := State.admitSeals_admitted (((s.landed t).finishTake t).retireManifest t.manifest)
  rw [h]
  exact ⟨o, by rw [State.retireManifest_sz, State.finishTake_queue_sz _ hq]⟩

/-- R119: the image of a landing is read back, since its serial is not that of an unlisted slot. -/
theorem Lg.Landed.slot {g₀ g : Lg} {t : Take} {time : Nat} {tail : Bytes} (h : g₀.Landed t time tail g)
    (hs : 0 < t.serial) : mapGet {} g.slots t.slot =
      (mapGet {} g₀.slots t.slot).land t time (chain g₀.continuity (t.record time)) := by
  rw [h.slots]
  exact mapGet_mapSet_listed _ (fun e => Nat.ne_of_gt hs (congrArg Slot.serial e)) _ _

theorem Lg.Landed.slot_other {g₀ g : Lg} {t : Take} {time : Nat} {tail : Bytes} (h : g₀.Landed t time tail g) {n : Nat}
    (hn : n ≠ t.slot) : mapGet {} g.slots n = mapGet {} g₀.slots n := by
  rw [h.slots]
  exact mapGet_mapSet_ne _ _ _ _ _ hn

end Sys2Proof.Machine
end

section
open Sys2Proof Sys2Proof.Machine

/-- Settles O29: what a due landing comes to, and then what its commit leaves, by the lemmas above. -/
theorem landingAndCommit : Obligations.LandingAndCommit := by
  unfold Obligations.LandingAndCommit
  refine ⟨fun s id t ht hs hm hu hf => ?_, fun s t q hq _ htap hserial _ hroom => ?_⟩
  · have hl := State.lands_of_mode hs hm
    have hturn := State.turnToLand_of_lowest hu
    have hcommit := s.commitTake_lands t
    rw [State.takeById_id ht] at hcommit
    refine ⟨fun hp hn he hsus => ⟨_, ?_, rfl, hcommit⟩, fun code hp hc => ?_, fun hp => ⟨_, ?_, rfl, hcommit⟩⟩
    · have hcode : { t with failure := s.landingCode t } = t := by rw [State.landingCode_sealed hn he hf hsus, ← hn]
      rw [exec_takeLanding_due ht hp hl hturn, hcode, State.recordTake_sealed hn hf]
    · rw [exec_takeLanding_due ht hp hl hturn, State.landingCode_void hc]
      rfl
    · rw [exec_journalSignComplete_due ht hp hl hturn, State.hopOrCommit_local hf]
  · obtain ⟨v, _, _, _, g, hv, hsealed, hg, hl⟩ := s.landed_eq t
    obtain ⟨_, _, _, _, _, _, _, _, _, z, hu⟩ := State.commitTake_finished t htap hroom
    obtain ⟨o, hz⟩ := State.commitTake_sz hq htap hroom
    obtain ⟨_, _, _, _, rfl⟩ := hv
    rw [hl] at hu hz
    rw [hu] at hz
    obtain rfl : z = { s.sz with outstanding := o } := hz
    dsimp only
    rw [hu]
    refine ⟨hg.journalCount, hg.continuity, ⟨_, hg.reel, fun hn h1 => ?_, fun hn h0 => ?_, fun hn => ?_⟩, hg.slot hserial,
      fun n hn => hg.slot_other hn, hg.dirty, rfl, rfl, fun hn => ?_⟩
    · rw [s.recordTail_sealed hn, h1]
      rfl
    · rw [s.recordTail_sealed hn, h0]
      rfl
    · rw [s.recordTail_void hn]
      rfl
    · exact ⟨(congrArg State.en (hsealed hn) :), (congrArg State.pd (hsealed hn) :)⟩
end

section
/-! PROOF. The audit path (R93, R94): one level up, a node and the sibling its path names make the parent; and so up to
the root. -/

namespace Sys2Proof.Machine

/-- The parent that a node makes with the sibling on its path: the bit of its index names the side (R94). -/
def parentOf (i : Nat) (node sibling : Bytes) : Bytes :=
  if i % 2 = 0 then Config.sha256 (0x01 :: node ++ sibling) else Config.sha256 (0x01 :: sibling ++ node)

/-- The sibling of node `i` in a level; an odd node's is the filler (R93). -/
def siblingOf (level i : Nat) (l : List Bytes) : Bytes :=
  l[if i % 2 = 0 then i + 1 else i - 1]?.getD (filler level)

theorem climb_cons (i : Nat) (node sibling : Bytes) (path : List Bytes) :
    climb i node (sibling :: path) = climb (i / 2) (parentOf i node sibling) path := rfl

theorem pathOf_succ {l : List Bytes} (h : 1 < l.length) (fuel level i : Nat) :
    pathOf (fuel + 1) level i l = siblingOf level i l :: pathOf fuel (level + 1) (i / 2) (pairUp level l) :=
  if_neg (Nat.not_le.2 h)

/-- Two nodes further on, the sibling is that of the rest of the level. -/
theorem siblingOf_cons_cons (level i : Nat) (a b : Bytes) (l : List Bytes) :
    siblingOf level (i + 2) (a :: b :: l) = siblingOf level i l := by
  simp only [siblingOf, Nat.add_mod_right]
  split
  · rfl
  · obtain ⟨j, rfl⟩ : ∃ j, i = j + 1 := ⟨i - 1, by omega⟩
    rfl

theorem parentOf_add_two (i : Nat) (node sibling : Bytes) : parentOf (i + 2) node sibling = parentOf i node sibling := by
  simp only [parentOf, Nat.add_mod_right]

/-- The level above holds, at half the index, the parent of each node and its sibling. -/
theorem pairUp_getElem? (level : Nat) : ∀ (l : List Bytes) (i : Nat) {node : Bytes}, l[i]? = some node →
    (pairUp level l)[i / 2]? = some (parentOf i node (siblingOf level i l))
  | [_], 0, _, rfl => rfl
  | _ :: _ :: _, 0, _, rfl => rfl
  | _ :: _ :: _, 1, _, rfl => rfl
  | a :: b :: l, i + 2, node, h => by
    rw [siblingOf_cons_cons, parentOf_add_two, Nat.add_div_right i Nat.two_pos]
    exact pairUp_getElem? level l i h

theorem pairUp_length (level : Nat) : ∀ l : List Bytes, (pairUp level l).length = (l.length + 1) / 2
  | [] => rfl
  | [_] => by simp only [pairUp, List.length_cons, List.length_nil]
  | _ :: _ :: l => by
    simp only [pairUp, List.length_cons, pairUp_length level l]
    omega

theorem rootOf_succ {l : List Bytes} (h : 1 < l.length) (fuel level : Nat) :
    rootOf (fuel + 1) level l = rootOf fuel (level + 1) (pairUp level l) := by
  match l, h with
  | _ :: _ :: _, _ => rfl

/-- A level of one node is the root, and its path is empty. -/
theorem climb_pathOf_single (fuel level : Nat) {i : Nat} {l : List Bytes} {node : Bytes} (hl : l.length ≤ 1)
    (h : l[i]? = some node) : climb i node (pathOf fuel level i l) = rootOf fuel level l := by
  match l, i, hl, h with
  | [_], 0, _, rfl => cases fuel <;> rfl

/-- The climb along a node's path, through the levels that `fuel` allows for, ends at their root. -/
theorem climb_pathOf : ∀ (fuel level i : Nat) {l : List Bytes} {node : Bytes}, l.length ≤ 2 ^ fuel →
    l[i]? = some node → climb i node (pathOf fuel level i l) = rootOf fuel level l
  | 0, level, _, _, _, hl, h => climb_pathOf_single 0 level hl h
  | fuel + 1, level, i, l, node, hl, h => by
    by_cases h1 : l.length ≤ 1
    · exact climb_pathOf_single _ level h1 h
    · have hup : (pairUp level l).length ≤ 2 ^ fuel := by
        rw [pairUp_length]
        omega
      rw [pathOf_succ (Nat.not_le.1 h1), climb_cons, rootOf_succ (Nat.not_le.1 h1)]
      exact climb_pathOf fuel (level + 1) (i / 2) hup (pairUp_getElem? level l i h)

theorem leafNodes_length : ∀ (k : Nat) (ls : List (Nat × Nat × Bytes)), (leafNodes k ls).length = ls.length
  | _, [] => rfl
  | k, _ :: ls => congrArg (· + 1) (leafNodes_length (k + 1) ls)

/-- The node of a leaf is its hash under its index (R93). -/
theorem leafNodes_getElem? : ∀ (k : Nat) (ls : List (Nat × Nat × Bytes)) (i : Nat) {leaf : Nat × Nat × Bytes},
    ls[i]? = some leaf → (leafNodes k ls)[i]? = some (leafHash (k + i) leaf.2.2)
  | _, _ :: _, 0, _, rfl => rfl
  | k, _ :: ls, i + 1, leaf, h => by
    rw [show k + (i + 1) = k + 1 + i by omega]
    exact leafNodes_getElem? (k + 1) ls i h

end Sys2Proof.Machine
end

section
open Sys2Proof Sys2Proof.Machine

/-- Settles O28, by induction on the levels of the tree: the eight that the root allows for hold 256 leaves. -/
theorem auditPathReachesRoot : Obligations.AuditPathReachesRoot := by
  unfold Obligations.AuditPathReachesRoot
  intro m i leaf hlen hleaf
  have hnode := leafNodes_getElem? 0 m.leaves i hleaf
  rw [Nat.zero_add] at hnode
  exact climb_pathOf 8 0 i (Nat.le_trans (Nat.le_of_eq (leafNodes_length 0 m.leaves)) hlen) hnode
end

section
/-! PROOF. The manifest statement (R87 to R99): what a leaf, a close and a root do; which engines and units take a manifest
up; what slating it does to the journal and its takes; and the statement's clauses from that. -/

namespace Sys2Proof.Machine

/-! ### One manifest of the table (R87) -/

theorem State.manifest_id {s : State} {id : Nat} {m : Manifest} (h : s.manifest id = some m) : m.id = id := by
  simpa using List.find?_some h

/-- A change of a manifest that keeps its id is what is found under the id afterwards. -/
theorem State.manifest_onManifest {s : State} {id : Nat} {m : Manifest} (h : s.manifest id = some m)
    {f : Manifest → Manifest} (hf : ∀ n, (f n).id = n.id) : (s.onManifest id f).manifest id = some (f m) := by
  have hid : ∀ n : Manifest, (if n.id = id then f n else n).id = n.id := fun n => by
    split
    · exact hf n
    · rfl
  have hcomp : (fun n : Manifest => decide (n.id = id)) ∘ (fun n => if n.id = id then f n else n)
      = fun n => decide (n.id = id) := funext fun n => by simp only [Function.comp_apply, hid]
  have hm := State.manifest_id h
  rw [State.manifest] at h
  simp only [State.manifest, State.onManifest, State.onTd_td]
  rw [List.find?_map, hcomp, h]
  exact congrArg some (if_pos hm)

/-! ### A leaf, the deadline and the root (R87, R88, R90, R93, R95) -/

/-- A leaf that fills neither its manifest nor a lane leaves the manifest open, Drain apart. -/
theorem State.enterLeaf_open {s : State} {t : Take} {digest : Bytes} {m : Manifest} (h : s.manifest m.id = some m)
    (hs : s.pwr.mode = .service) (hn : m.leaves.length + 1 < m.maxLeaves)
    (hl : ((m.leaves ++ [(t.slot, t.officialTime, digest)]).filter (fun l => l.1 % 4 = t.slot % 4)).length < 96) :
    s.enterLeaf t digest m.id
      = (s.onManifest m.id fun _ => { m with leaves := m.leaves ++ [(t.slot, t.officialTime, digest)] }).onTake t.id fun u =>
          { u with phase := .inManifest, digest := some digest, manifest := m.id, leaf := m.leaves.length } := by
  have hd : s.pwr.mode ≠ .drain := by simp [hs]
  simp only [State.enterLeaf, h]
  exact (if_neg (Nat.not_le.2 hn)).trans ((if_neg (Nat.not_le.2 hl)).trans (if_neg hd))

theorem exec_takeDigestComplete_leaf {s : State} {id : Nat} {t : Take} (ht : s.takeById id = some t)
    (hp : t.phase = .hashing) (hm : t.sealMode = 1) (hw : s.leafWaits t = false) :
    exec (.takeDigestComplete id) s = .next (s.joinManifest t t.digestOf) := by
  show execTakeDigestComplete id s = _
  simp [execTakeDigestComplete, ht, hp, hm, hw]

theorem State.joinManifest_open {s : State} {t : Take} {m : Manifest} (digest : Bytes)
    (h : s.td.manifests.find? (fun m => m.phase = .opened && m.die = t.die && m.handle = t.handle) = some m) :
    s.joinManifest t digest = s.enterLeaf t digest m.id := by
  simp only [State.joinManifest, h]

theorem exec_manifestDeadline_due {s : State} {id : Nat} {m : Manifest} (h : s.manifest id = some m)
    (hp : m.phase = .opened) (hd : m.openClock + m.deadline ≤ s.clock) :
    exec (.manifestDeadline id) s = .next (s.closeManifest id 3) := by
  show execManifestDeadline id s = _
  simp [execManifestDeadline, h, hp, hd]

theorem exec_manifestRootComplete_closed {s : State} {id : Nat} {m : Manifest} (h : s.manifest id = some m)
    (hp : m.phase = .closed) : exec (.manifestRootComplete id) s = .next
      (s.onManifest id fun n => { n with phase := .signing, root := n.rootValue }).assignWork := by
  show execManifestRootComplete id s = _
  simp [execManifestRootComplete, h, hp]

/-! ### How a manifest's signing ends (R96, R97, R99) -/

theorem exec_manifestSigningComplete_verified {s : State} {id : Nat} {m : Manifest} (h : s.manifest id = some m)
    (hp : m.phase = .signing) (he : m.engine.isSome = true) (hv : m.mlVerified = true) :
    exec (.manifestSigningComplete id 0 0) s
      = .next (((s.slateManifest m).sealRefill m.engine).sealRefill m.verifier).assignWork := by
  show execManifestSigningComplete id 0 0 s = _
  simp [execManifestSigningComplete, h, hp, he, hv]

/-- A check that fails is no fault of the engine. -/
theorem State.sealFault_signatureCheck (s : State) (e : Option Nat) : s.sealFault e stSignatureCheckFailed = s := by
  cases e <;> rfl

theorem exec_manifestSigningComplete_failed {s : State} {id : Nat} {m : Manifest} (h : s.manifest id = some m)
    (hp : m.phase = .signing) (he : m.engine.isSome = true) :
    exec (.manifestSigningComplete id stSignatureCheckFailed 0) s
      = .next (s.abandonManifests (fun n => n.id = id) stSignatureCheckFailed).assignWork := by
  have hc : stSignatureCheckFailed ≠ 0#16 := by decide
  show execManifestSigningComplete id stSignatureCheckFailed 0 s = _
  simp [execManifestSigningComplete, h, hp, he, hc, State.sealFault_signatureCheck]

/-! ### The draws of engines and units (R173, R194, R196) -/

theorem State.applyNum_latches (s : State) (index sub inst : Nat) : (s.applyNum index sub inst).latches = s.latches := by
  simp only [State.applyNum]
  split <;> rfl

theorem State.takeBlock_latches (s : State) : s.takeBlock.2.latches = s.latches := by
  simp only [State.takeBlock]
  split <;> rfl

/-- `u` is `s` but for what a request to a pool's generator changes: no tenant's latch is among it. -/
def State.PoolDrew (s u : State) : Prop := ∃ en pd c, u = { s with en := en, pd := pd, freeCtr := c }

/-- RESEEDED is a latch of the tenants' generators alone, those below 64 (R194). -/
theorem State.reseed_latches (s : State) {i : Nat} (h : 64 ≤ i) : (s.reseed i).latches = s.latches := by
  simp only [State.reseed, State.noteReseed, if_neg (Nat.not_lt.2 h)]
  exact (State.takeBlock_latches _).trans ((State.applyNum_latches ..).trans (s.applyNum_latches ..))

theorem State.Drew.pool {s u : State} (h : s.Drew u) (hl : u.latches = s.latches) : s.PoolDrew u := by
  obtain ⟨_, _, _, _, rfl⟩ := h
  obtain rfl := hl
  exact ⟨_, _, _, rfl⟩

theorem State.generate_poolDrew (s : State) {i : Nat} (h : 64 ≤ i) (n : Nat) (resist : Bool) :
    s.PoolDrew (s.generate i n resist).2 := by
  refine (s.generate_drew i n resist).pool ?_
  simp only [State.generate]
  split
  · exact s.reseed_latches h
  · rfl

theorem State.reseed_poolDrew (s : State) {i : Nat} (h : 64 ≤ i) : s.PoolDrew (s.reseed i) :=
  (s.reseed_drew i).pool (s.reseed_latches h)

/-- `u` is `s` but for what a draw of a Long-Integer Engine changes. -/
def State.EngineDrew (s u : State) : Prop := ∃ li en pd c, u = { s with li := li, en := en, pd := pd, freeCtr := c }

theorem State.EngineDrew.refl (s : State) : s.EngineDrew s := ⟨_, _, _, _, rfl⟩

theorem State.EngineDrew.trans {s t u : State} (h : s.EngineDrew t) (h' : t.EngineDrew u) : s.EngineDrew u := by
  obtain ⟨_, _, _, _, rfl⟩ := h
  obtain ⟨_, _, _, _, rfl⟩ := h'
  exact ⟨_, _, _, _, rfl⟩

theorem State.onEngine_engineDrew (s : State) (e : Nat) (f : Engine → Engine) : s.EngineDrew (s.onEngine e f) :=
  ⟨_, _, _, _, rfl⟩

theorem State.PoolDrew.engine {s u : State} (h : s.PoolDrew u) : s.EngineDrew u := by
  obtain ⟨_, _, _, rfl⟩ := h
  exact ⟨_, _, _, _, rfl⟩

theorem State.engineInstance_pool (s : State) (e : Nat) : 64 ≤ s.engineInstance e := by
  simp only [State.engineInstance]
  split <;> omega

theorem State.fillEngine_engineDrew (s : State) (e : Nat) : s.EngineDrew (s.fillEngine e) := by
  simp only [State.fillEngine]
  split
  · exact .refl s
  · exact (s.generate_poolDrew (s.engineInstance_pool e) ..).engine.trans (State.onEngine_engineDrew ..)

theorem State.engineDraw_engineDrew (e : Nat) : ∀ (fuel n : Nat) (s : State), s.EngineDrew (s.engineDraw e fuel n).2
  | 0, _, s => .refl s
  | fuel + 1, n, s => by
    unfold State.engineDraw
    extract_lets filled b drawn r
    have hf : s.EngineDrew filled := by
      unfold filled
      split
      · exact s.fillEngine_engineDrew e
      · exact .refl s
    have hd : s.EngineDrew drawn := hf.trans (filled.onEngine_engineDrew e _)
    split
    · exact hd
    · exact hd.trans (State.engineDraw_engineDrew e fuel (n - 512) drawn)

theorem State.engineBytes_engineDrew (s : State) (e n : Nat) : s.EngineDrew (s.engineBytes e n false).2 :=
  State.engineDraw_engineDrew e _ _ s

/-- `u` is `s` but for what a draw of a Lattice Unit and the start of its operation change. -/
def State.UnitDrew (s u : State) : Prop := ∃ lh en pd c, u = { s with lh := lh, en := en, pd := pd, freeCtr := c }

theorem State.UnitDrew.refl (s : State) : s.UnitDrew s := ⟨_, _, _, _, rfl⟩

theorem State.UnitDrew.trans {s t u : State} (h : s.UnitDrew t) (h' : t.UnitDrew u) : s.UnitDrew u := by
  obtain ⟨_, _, _, _, rfl⟩ := h
  obtain ⟨_, _, _, _, rfl⟩ := h'
  exact ⟨_, _, _, _, rfl⟩

theorem State.PoolDrew.unit {s u : State} (h : s.PoolDrew u) : s.UnitDrew u := by
  obtain ⟨_, _, _, rfl⟩ := h
  exact ⟨_, _, _, _, rfl⟩

theorem State.onUnit_unitDrew (s : State) (u : Nat) (f : LatticeUnit → LatticeUnit) : s.UnitDrew (s.onUnit u f) :=
  ⟨_, _, _, _, rfl⟩

theorem State.startUnit_unitDrew (s : State) (u : Nat) (o : UnitOp) : s.UnitDrew (s.startUnit u o) :=
  s.onUnit_unitDrew u _

theorem unitInstance_pool (u : Nat) (direct : Bool) : 64 ≤ unitInstance u direct := by
  simp only [unitInstance]
  split <;> omega

theorem State.fillUnit_unitDrew (s : State) (u : Nat) (direct : Bool) : s.UnitDrew (s.fillUnit u direct) := by
  simp only [State.fillUnit]
  split
  · exact .refl s
  · exact (s.generate_poolDrew (unitInstance_pool u direct) ..).unit.trans (State.onUnit_unitDrew ..)

theorem State.unitBytes_unitDrew (s : State) (u n : Nat) (direct resist : Bool) :
    s.UnitDrew (s.unitBytes u n direct resist).2 := by
  unfold State.unitBytes
  extract_lets seeded filled b
  have hs : s.UnitDrew seeded := by
    unfold seeded
    split
    · exact (s.reseed_poolDrew (unitInstance_pool u direct)).unit.trans (State.onUnit_unitDrew ..)
    · exact .refl s
  have hf : seeded.UnitDrew filled := by
    unfold filled
    split
    · exact seeded.fillUnit_unitDrew u direct
    · exact .refl seeded
  exact hs.trans (hf.trans (filled.onUnit_unitDrew u fun l => l.setBuffer direct (b.drop n)))

/-! ### A manifest goes to idle engines and an idle unit (R96, R142, R169) -/

/-- The engine that is found is not the one that signed (R142). -/
theorem State.sealEngine_ne {s : State} {die e v : Nat} (h : s.sealEngine die (some e) = some v) : e ≠ v := by
  rintro rfl
  simpa using List.find?_some h

/-- The ECDSA half is signed with a hedge that the first engine has drawn; the second has drawn to verify it. -/
theorem State.assignEc_idle {s : State} {m : Manifest} {e v : Nat} (hn : m.engine = none)
    (he : s.sealEngine m.die none = some e) (hv : s.sealEngine m.die (some e) = some v) :
    ∃ x rnd, s.assignEc m = x.onManifest m.id (fun n => { n with
      engine := some e
      verifier := some v
      ecSig := p256Sign (slice (s.privateOf m.handle) 0 32) m.head rnd }) ∧ s.EngineDrew x := by
  simp only [State.assignEc, hn, he, hv]
  exact ⟨_, _, rfl, (s.engineBytes_engineDrew ..).trans (State.engineBytes_engineDrew ..)⟩

theorem State.latticeUnit_startUnit (s : State) (u : Nat) (o : UnitOp) :
    ((s.startUnit u o).latticeUnit u).running = some { o with start := s.clock } := by
  simp only [State.latticeUnit, State.startUnit, State.onUnit, State.onLh_lh]
  rw [mapGet_mapSet_listed]
  exact fun h => nomatch congrArg LatticeUnit.running h

/-- The operation that signs the ML-DSA half of a manifest (R96). -/
structure UnitOp.SignsManifest (s : State) (m : Manifest) (o : UnitOp) : Prop where
  op : o.op = 2
  param : o.param = 2
  user : o.user = .manifestSign m.id
  message : o.message = m.head
  key : o.key = s.manifestKey m.handle

theorem State.assignMl_idle {s : State} {m : Manifest} {u : Nat} (hv : m.mlVerified = false)
    (hw : s.unitWorks m.id = false) (hn : m.mlUnit = none) (hu : s.idleUnit m.die none = some u) :
    ∃ x o, s.assignMl m = x.onManifest m.id (fun n => { n with mlUnit := some u }) ∧ s.UnitDrew x
      ∧ (x.latticeUnit u).running = some o ∧ UnitOp.SignsManifest s m o := by
  simp only [State.assignMl, hv, hw, hn, hu, Bool.or_self, Bool.false_eq_true, if_false, Option.isNone_none, if_true]
  refine ⟨_, _, rfl, ?_, State.latticeUnit_startUnit .., ⟨rfl, rfl, rfl, rfl, by dsimp only⟩⟩
  exact (s.unitBytes_unitDrew u 32 false false).trans (State.startUnit_unitDrew ..)

theorem State.assignManifest_delivered {s : State} {m : Manifest} (hp : m.phase = .signing) (hb : s.entropyBlock = none) :
    s.assignManifest m = (s.assignEc m).assignMl m := by
  simp [State.assignManifest, hp, hb]

/-- A manifest that two idle engines and an idle unit take up: both halves are begun, and only the Seal die's work and the
draws change. -/
theorem State.assignManifest_idle {s : State} {m : Manifest} {e v u : Nat} (hm : s.manifest m.id = some m)
    (hp : m.phase = .signing) (hengine : m.engine = none) (hunit : m.mlUnit = none) (hml : m.mlVerified = false)
    (hw : s.unitWorks m.id = false) (hb : s.entropyBlock = none) (he : s.sealEngine m.die none = some e)
    (hv : s.sealEngine m.die (some e) = some v) (hu : s.idleUnit m.die none = some u) :
    ∃ rnd o, (s.assignManifest m).manifest m.id = some { m with
        engine := some e
        verifier := some v
        ecSig := p256Sign (slice (s.privateOf m.handle) 0 32) m.head rnd
        mlUnit := some u }
      ∧ ((s.assignManifest m).latticeUnit u).running = some o ∧ UnitOp.SignsManifest s m o
      ∧ ∃ td li lh en pd c, s.assignManifest m = { s with td := td, li := li, lh := lh, en := en, pd := pd, freeCtr := c } := by
  obtain ⟨y, rnd, hec, _, _, _, _, rfl⟩ := State.assignEc_idle hengine he hv
  have hfound : (s.assignEc m).manifest m.id = some { m with
      engine := some e
      verifier := some v
      ecSig := p256Sign (slice (s.privateOf m.handle) 0 32) m.head rnd } := by
    rw [hec]
    exact State.manifest_onManifest hm fun _ => rfl
  have hworks : (s.assignEc m).unitWorks m.id = false := by rw [hec]; exact hw
  have hidle : (s.assignEc m).idleUnit m.die none = some u := by rw [hec]; exact hu
  obtain ⟨x, o, hx, ⟨_, _, _, _, rfl⟩, hrun, ho⟩ := State.assignMl_idle hml hworks hunit hidle
  rw [State.assignManifest_delivered hp hb, hx]
  refine ⟨rnd, o, State.manifest_onManifest hfound fun _ => rfl, hrun, ⟨ho.op, ho.param, ho.user, ho.message, ?_⟩, ?_⟩
  · rw [ho.key, hec]
    rfl
  · rw [hec]
    exact ⟨_, _, _, _, _, _, rfl⟩

/-! ### No take enters a manifest where none is digested (R88, R97) -/

/-- Each take of `u` that waits in a manifest waited in the same one in `s`. -/
def State.NoJoin (s u : State) : Prop :=
  ∀ x ∈ u.td.inflight, x.phase = .inManifest → ∃ y ∈ s.td.inflight, y.phase = .inManifest ∧ y.manifest = x.manifest

theorem State.NoJoin.of_inflight {s u : State} (h : u.td.inflight = s.td.inflight) : s.NoJoin u :=
  fun x hx hp => ⟨x, h ▸ hx, hp, rfl⟩

theorem State.NoJoin.of_td {s u : State} (h : u.td = s.td) : s.NoJoin u := .of_inflight (congrArg Td.inflight h)

theorem State.NoJoin.refl (s : State) : s.NoJoin s := .of_td rfl

theorem State.NoJoin.trans {s t u : State} (h : s.NoJoin t) (h' : t.NoJoin u) : s.NoJoin u := fun x hx hp => by
  obtain ⟨y, hy, hyp, hym⟩ := h' x hx hp
  obtain ⟨z, hz, hzp, hzm⟩ := h y hy hyp
  exact ⟨z, hz, hzp, hzm.trans hym⟩

/-- A change of takes that brings none into a manifest. -/
theorem State.NoJoin.of_map {s u : State} (f : Take → Take) (hu : u.td.inflight = s.td.inflight.map f)
    (hf : ∀ t, (f t).phase = .inManifest → t.phase = .inManifest ∧ (f t).manifest = t.manifest) : s.NoJoin u :=
  fun x hx hp => by
    obtain ⟨y, hy, rfl⟩ := List.mem_map.1 (hu ▸ hx)
    obtain ⟨hyp, hym⟩ := hf y hp
    exact ⟨y, hy, hyp, hym.symm⟩

theorem State.onTake_noJoin (s : State) (id : Nat) {f : Take → Take}
    (hf : ∀ t, (f t).phase = .inManifest → t.phase = .inManifest ∧ (f t).manifest = t.manifest) :
    s.NoJoin (s.onTake id f) := by
  refine .of_map (fun t => if t.id = id then f t else t) rfl fun t ht => ?_
  split at ht
  · rw [if_pos ‹_›]
    exact hf t ht
  · rw [if_neg ‹_›]
    exact ⟨ht, rfl⟩

theorem State.failTakes_noJoin (s : State) (p : Take → Bool) (code : Status) : s.NoJoin (s.failTakes p code) := by
  refine .of_map _ rfl fun t ht => ?_
  split at ht
  · simp only at ht
    split at ht <;> cases ht
  · rw [if_neg ‹_›]
    exact ⟨ht, rfl⟩

theorem State.Recorded.td {s u : State} (h : s.Recorded u) : u.td = s.td := by
  obtain ⟨_, _, rfl⟩ := h
  rfl

/-- `u` is `s` in its ledger, and no take has entered a manifest. -/
def State.Worked (s u : State) : Prop := u.lg = s.lg ∧ s.NoJoin u

theorem State.Worked.of_eq {s u : State} (hl : u.lg = s.lg) (ht : u.td.inflight = s.td.inflight) : s.Worked u :=
  ⟨hl, .of_inflight ht⟩

theorem State.Worked.refl (s : State) : s.Worked s := ⟨rfl, .refl s⟩

theorem State.Worked.trans {s t u : State} (h : s.Worked t) (h' : t.Worked u) : s.Worked u :=
  ⟨h'.1.trans h.1, h.2.trans h'.2⟩

theorem State.Worked.foldl {α : Type} {f : State → α → State} (h : ∀ (s : State) (a : α), s.Worked (f s a)) (l : List α)
    (s : State) : s.Worked (l.foldl f s) :=
  List.foldlRecOn (motive := s.Worked) l f (.refl s) fun _ hs a _ => hs.trans (h _ a)

theorem State.Drew.worked {s u : State} (h : s.Drew u) : s.Worked u := by
  obtain ⟨_, _, _, _, rfl⟩ := h
  exact .of_eq rfl rfl

theorem State.EngineDrew.worked {s u : State} (h : s.EngineDrew u) : s.Worked u := by
  obtain ⟨_, _, _, _, rfl⟩ := h
  exact .of_eq rfl rfl

theorem State.UnitDrew.worked {s u : State} (h : s.UnitDrew u) : s.Worked u := by
  obtain ⟨_, _, _, _, rfl⟩ := h
  exact .of_eq rfl rfl

theorem State.Finished.worked {s u : State} (h : s.Finished u) : s.Worked u := by
  obtain ⟨_, _, _, _, _, _, _, _, _, _, rfl⟩ := h
  exact .of_eq rfl rfl

theorem State.onCounts_worked (s : State) (n : Nat) (f : TakeCounts → TakeCounts) : s.Worked (s.onCounts n f) :=
  .of_eq rfl rfl

theorem State.onTake_worked (s : State) (id : Nat) {f : Take → Take}
    (hf : ∀ t, (f t).phase = .inManifest → t.phase = .inManifest ∧ (f t).manifest = t.manifest) :
    s.Worked (s.onTake id f) := ⟨rfl, s.onTake_noJoin id hf⟩

theorem State.abandonManifests_worked (s : State) (p : Manifest → Bool) (code : Status) :
    s.Worked (s.abandonManifests p code) := by
  unfold State.abandonManifests
  extract_lets gone counted failed released
  have hc : s.Worked counted := .foldl (fun s (m : Manifest) => s.onCounts_worked m.tenant _) gone s
  have hf : counted.Worked failed := ⟨rfl, counted.failTakes_noJoin _ code⟩
  exact hc.trans (hf.trans (.of_eq rfl rfl))

/-! ### The causes that a journal record can bring (R27, R77, R123) -/

theorem State.journal_td (s : State) (body tail : Bytes) : (s.journal body tail).td = s.td := by
  obtain ⟨_, _, _, _, _, _, _, h⟩ := s.journal_eq body tail
  rw [h]

theorem State.serviceEnd_td (s : State) (core : Nat) (status : Status) : (s.serviceEnd core status).td = s.td := by
  simp only [State.serviceEnd]
  split <;> rfl

theorem State.discardHeld_td (s : State) (a : Nat) : (s.discardHeld a).td = s.td := by
  simp only [State.discardHeld]
  split
  · rfl
  · split <;> rfl

theorem State.wakeSlot_td (s : State) (a : Nat) : (s.wakeSlot a).td = s.td :=
  List.foldlRecOn (motive := fun u : State => u.td = s.td) _ _ rfl fun _ hs _ _ => hs

theorem State.drawEnd_td (s : State) (reason : Option Nat) (pending : Option Status) :
    (s.drawEnd reason pending).td = s.td := by
  unfold State.drawEnd
  split
  · rfl
  · extract_lets journaled discarded returned wiped ended
    have hj : journaled.td = s.td := by
      unfold journaled
      split
      · rfl
      · exact s.journal_td ..
    have hd : discarded.td = journaled.td := by
      unfold discarded
      split
      · exact journaled.discardHeld_td _
      · rfl
    have hr : returned.td = discarded.td := by
      unfold returned
      split
      · exact discarded.serviceEnd_td ..
      · rfl
    exact (ended.wakeSlot_td _).trans (hr.trans (hd.trans hj))

theorem State.noteCause_recorded (s : State) {c : Cause} (hc : c ≠ .entropyLatch) : s.Recorded (s.noteCause c) := by
  simp only [State.noteCause]
  split
  · exact s.recorded_tg s.tg
  · exact (s.addCause_recorded hc).trans ((State.evidence_recorded ..).trans (State.noteEvidence_recorded _))

theorem State.noteFull_td (s : State) : s.noteFull.td = s.td := by
  unfold State.noteFull
  extract_lets reel
  have hr : reel.td = s.td := by
    unfold reel
    split
    · exact (State.noteCause_recorded (c := .reelBufferFull) _ nofun).td
    · rfl
  split
  · exact (State.noteCause_recorded (c := .tapFull) _ nofun).td.trans hr
  · exact hr

theorem State.enterHeld_noJoin (s : State) (code : Status) : s.NoJoin (s.enterHeld code) := by
  unfold State.enterHeld
  extract_lets held abandoned failed ended returned
  have hf : held.NoJoin failed := (held.abandonManifests_worked ..).2.trans (abandoned.failTakes_noJoin _ code)
  have he : ended.td = failed.td := by
    unfold ended
    split
    · exact failed.drawEnd_td ..
    · rfl
  have hr : returned.td = ended.td := by
    unfold returned
    split
    · exact State.serviceEnd_td ..
    · rfl
  exact .trans (.of_inflight rfl) (hf.trans (.of_td (returned.noteFull_td.trans (hr.trans he))))

theorem State.afterEvidence_noJoin (s : State) : s.NoJoin s.afterEvidence := by
  have hn : s.NoJoin s.noteEvidence := .of_td s.noteEvidence_recorded.td
  simp only [State.afterEvidence]
  split
  · exact hn.trans (State.enterHeld_noJoin _ _)
  · exact hn

theorem State.raiseCause_noJoin (s : State) {c : Cause} (hc : c ≠ .entropyLatch) : s.NoJoin (s.raiseCause c) := by
  unfold State.raiseCause State.raiseCauseWith
  split
  · exact .refl s
  · extract_lets before after added recorded held
    have ha : s.NoJoin added := .of_td (s.addCause_recorded hc).td
    have hr : added.NoJoin recorded := by
      unfold recorded
      split
      · exact .refl added
      · exact .of_td (added.evidence_recorded ..).td
    have hh : recorded.NoJoin held := by
      unfold held
      split
      · exact recorded.enterHeld_noJoin _
      · exact .refl recorded
    exact ha.trans (hr.trans (hh.trans held.afterEvidence_noJoin))

theorem State.latch_raiseCause_noJoin (s : State) (r : RcReg) (bits : Nat) {c : Cause} (hc : c ≠ .entropyLatch) :
    s.NoJoin ((s.latch r bits).raiseCause c) := by
  have hl : s.NoJoin (s.latch r bits) := .of_td rfl
  exact hl.trans (State.raiseCause_noJoin _ hc)

theorem State.afterJournal_noJoin (s : State) : s.NoJoin s.afterJournal := by
  unfold State.afterJournal
  extract_lets reel
  have hr : s.NoJoin reel := by
    unfold reel
    split
    · exact s.latch_raiseCause_noJoin .elReel 8 nofun
    · exact .refl s
  split
  · exact hr.trans (reel.latch_raiseCause_noJoin .lgStat 0x10 nofun)
  · exact hr

/-! ### Work goes to what is idle: the ledger and the manifests' takes stay (log entry 18) -/

theorem State.returnTake_worked (s : State) (id : Nat) (code : Option Status) : s.Worked (s.returnTake id code) := by
  unfold State.returnTake
  refine s.onTake_worked id fun t h => ?_
  cases h

theorem State.beginSeal_worked (s : State) (e : Nat) (t : Take) : s.Worked (s.beginSeal e t) := by
  simp only [State.beginSeal]
  split
  · exact s.returnTake_worked ..
  · exact (s.engineBytes_engineDrew ..).worked.trans (State.onTake_worked _ t.id fun _ h => ⟨h, rfl⟩)

theorem State.assignTake_worked (s : State) (t : Take) : s.Worked (s.assignTake t) := by
  simp only [State.assignTake]
  split
  · exact .refl s
  · split
    · exact s.beginSeal_worked ..
    · exact .refl s

theorem State.assignEc_worked (s : State) (m : Manifest) : s.Worked (s.assignEc m) := by
  simp only [State.assignEc]
  split
  · exact .refl s
  · split
    · exact .refl s
    · split
      · exact .refl s
      · exact ((s.engineBytes_engineDrew ..).trans (State.engineBytes_engineDrew ..)).worked.trans (.of_eq rfl rfl)

theorem State.assignMl_worked (s : State) (m : Manifest) : s.Worked (s.assignMl m) := by
  simp only [State.assignMl]
  split
  · exact .refl s
  · split
    · exact .refl s
    · split
      · exact ((s.unitBytes_unitDrew ..).trans (State.startUnit_unitDrew ..)).worked.trans (.of_eq rfl rfl)
      · exact (s.startUnit_unitDrew ..).worked

theorem State.assignManifest_worked (s : State) (m : Manifest) : s.Worked (s.assignManifest m) := by
  simp only [State.assignManifest]
  split
  · exact .refl s
  · split
    · exact s.abandonManifests_worked ..
    · exact (s.assignEc_worked m).trans (State.assignMl_worked _ m)

theorem State.assignKeyEngine_worked (s : State) : s.Worked s.assignKeyEngine := by
  simp only [State.assignKeyEngine]
  split
  · split
    · exact .refl s
    · exact .of_eq rfl rfl
  · exact .refl s

theorem State.assignVerify_worked (s : State) (e : Nat × UnitOp) : s.Worked (s.assignVerify e) := by
  simp only [State.assignVerify]
  split
  · exact .refl s
  · exact .of_eq rfl rfl

theorem State.assignAnchor_worked (s : State) (j : AnchorJob) : s.Worked (s.assignAnchor j) := by
  simp only [State.assignAnchor]
  split
  · split
    · exact .refl s
    · split
      · exact (s.startUnit_unitDrew ..).worked
      · split
        · exact .of_eq rfl rfl
        · exact (s.generate_drew ..).worked.trans (State.startUnit_unitDrew ..).worked
  · exact .refl s

theorem State.awaits_worked (s : State) (n : Nat) (o : Outstanding) : s.Worked (s.awaits n o) := .of_eq rfl rfl

theorem State.beginService_worked (s : State) (core u : Nat) (o : UnitOp) : s.Worked (s.beginService core u o) := by
  simp only [State.beginService]
  split
  · exact (s.serviceEnd_finished ..).worked
  · exact ((s.unitBytes_unitDrew ..).trans (State.startUnit_unitDrew ..)).worked.trans (State.awaits_worked ..)

theorem State.assignService_worked (s : State) (core : Nat) : s.Worked (s.assignService core) := by
  simp only [State.assignService]
  split
  · split
    · exact s.beginService_worked ..
    · exact .refl s
  · exact .refl s

theorem State.assignWork_worked (s : State) : s.Worked s.assignWork := by
  unfold State.assignWork
  extract_lets takes manifests verified anchored
  have ht : s.Worked takes := .foldl State.assignTake_worked _ s
  have hm : takes.Worked manifests := .foldl State.assignManifest_worked _ takes
  have hv : manifests.Worked verified := manifests.assignKeyEngine_worked.trans (.foldl State.assignVerify_worked _ _)
  have ha : verified.Worked anchored := .foldl State.assignAnchor_worked _ verified
  refine ht.trans (hm.trans (hv.trans (ha.trans ?_)))
  exact .foldl (fun s (e : Nat × Option Outstanding) => s.assignService_worked e.1) _ anchored

theorem State.sealRefill_worked (s : State) (e : Option Nat) : s.Worked (s.sealRefill e) := by
  cases e with
  | none => exact .refl s
  | some e => exact (s.fillEngine_engineDrew e).worked

/-! ### The slate (R97, R101, Table 4.7) -/

/-- The state once a manifest's slate is in the journal and its takes may land. -/
def State.slated (m : Manifest) (s : State) : State :=
  let m : Manifest := { m with phase := .slated }
  let s := s.onManifest m.id fun _ => m
  let body := m.slate
  let s := (s.journal body []).slateCopy m (body ++ chain s.lg.continuity body)
  let s := s.onCounts m.tenant fun c => { c with manifestsSigned := c.manifestsSigned + 1 }
  s.onTd fun d => { d with inflight := d.inflight.map fun t =>
    if t.manifest = m.id && t.phase = .inManifest then { t with phase := .returned } else t }

theorem State.slateManifest_eq (s : State) (m : Manifest) : s.slateManifest m = (s.slated m).afterJournal := rfl

/-- No take waits in a manifest any more that is slated. -/
theorem State.slated_inflight (s : State) (m : Manifest) : ∀ x ∈ (s.slated m).td.inflight,
    x.manifest = m.id → x.phase ≠ .inManifest := by
  simp only [State.slated, State.onTd_td]
  intro x hx
  obtain ⟨t, -, rfl⟩ := List.mem_map.1 hx
  split
  · exact fun _ => nofun
  · rename_i h
    exact fun hm hp => h (by simp [hm, hp])

theorem State.slateCopy_lg (s : State) (m : Manifest) (b : Bytes) : (s.slateCopy m b).lg = s.lg := by
  simp only [State.slateCopy]
  split
  · rfl
  · split <;> exact (s.dmaWrite_sent ..).finished.lg

theorem Manifest.slate_length (m : Manifest) : m.slate.length = 3480 := by
  simp [Manifest.slate, slice_length]

/-- The ledger `g` is `g₀` with one journal record of `n` bytes more. -/
structure Lg.Appended (g₀ : Lg) (n : Nat) (g : Lg) : Prop where
  journalCount : g.journalCount = g₀.journalCount + 1
  slots : g.slots = g₀.slots
  tapLog2 : g.tapLog2 = g₀.tapLog2
  fill : (g.reel.map fun r => r.bytes.length).sum = (g₀.reel.map fun r => r.bytes.length).sum + n

theorem State.journal_appended (s : State) (body tail : Bytes) :
    s.lg.Appended (body.length + 32 + tail.length) (s.journal body tail).lg := by
  obtain ⟨_, _, _, _, _, _, _, h⟩ := s.journal_eq body tail
  rw [h]
  exact ⟨rfl, rfl, rfl, by simp [chain_length, Nat.add_assoc]⟩

theorem State.slated_appended (s : State) (m : Manifest) : s.lg.Appended 3512 (s.slated m).lg := by
  have hj := State.journal_appended (s.onManifest m.id fun _ => { m with phase := .slated })
    (Manifest.slate { m with phase := .slated }) []
  have hl : (s.slated m).lg = _ := State.slateCopy_lg ..
  rw [Manifest.slate_length, ← hl] at hj
  exact hj

/-- With the tap off and room in the reel buffer no cause follows a slate (R77, R123). -/
theorem State.slateManifest_roomy {s : State} (m : Manifest) (ht : s.lg.tapLog2 = 0)
    (hr : s.reelFill + 4096 + 2 ^ 20 ≤ 2 ^ 30) : s.slateManifest m = s.slated m := by
  have ha := s.slated_appended m
  have hfill : (s.slated m).reelFill = s.reelFill + 3512 := ha.fill
  have hroom : (s.slated m).reelFill + 2 ^ 20 ≤ 2 ^ 30 := by omega
  rw [State.slateManifest_eq]
  exact State.afterJournal_roomy (ha.tapLog2.trans ht) hroom

/-- The step that slates a manifest: the engines that have signed and verified refill, and waiting work is taken up. -/
theorem State.slateManifest_worked (s : State) (m : Manifest) : (s.slateManifest m).Worked
    (((s.slateManifest m).sealRefill m.engine).sealRefill m.verifier).assignWork :=
  (State.sealRefill_worked ..).trans ((State.sealRefill_worked ..).trans (State.assignWork_worked _))

/-- What follows a slate brings no take back into its manifest. -/
theorem State.slateManifest_leaves (s : State) (m : Manifest) {u : State} (hu : (s.slateManifest m).Worked u) :
    ∀ x ∈ u.td.inflight, x.manifest = m.id → x.phase ≠ .inManifest := fun x hx hm hp => by
  rw [State.slateManifest_eq] at hu
  obtain ⟨y, hy, hyp, hym⟩ := (s.slated m).afterJournal_noJoin.trans hu.2 x hx hp
  exact s.slated_inflight m y hy (hym.trans hm) hyp

end Sys2Proof.Machine
end

section
open Sys2Proof Sys2Proof.Machine

/-- Settles O27: each clause is what the operation its command reaches does, by the lemmas above. -/
theorem manifests : Obligations.Manifests := by
  unfold Obligations.Manifests
  intro s
  refine ⟨fun id t m ht hp hmode hs hw hfind hm hn hl => ?_, fun id m hm hp hd => exec_manifestDeadline_due hm hp hd,
    fun id m hm hp => exec_manifestRootComplete_closed hm hp,
    fun m e v u hm hp hengine hunit hml hw hb he hv hu => ⟨State.sealEngine_ne hv, ?_⟩,
    fun id m hm hp he hml => ⟨_, exec_manifestSigningComplete_verified hm hp he hml, rfl, ?_, fun htap hroom => ?_⟩,
    fun id m hm hp he => exec_manifestSigningComplete_failed hm hp he⟩
  · rw [exec_takeDigestComplete_leaf ht hp hmode hw, State.joinManifest_open _ hfind, State.enterLeaf_open hm hs hn hl]
    rfl
  · obtain ⟨rnd, o, hfound, hrun, ho, _, _, _, _, _, _, hframe⟩ :=
      State.assignManifest_idle hm hp hengine hunit hml hw hb he hv hu
    refine ⟨_, rnd, o, rfl, hfound, hrun, ho.op, ho.param, ho.user, ho.message, ho.key, ?_⟩
    rw [hframe]
  · exact s.slateManifest_leaves m (s.slateManifest_worked m)
  · have hl := (s.slateManifest_worked m).1
    rw [State.slateManifest_roomy m htap hroom] at hl
    rw [State.slateManifest_roomy m htap hroom, hl]
    exact ⟨(s.slated_appended m).journalCount, (s.slated_appended m).slots⟩
end

section
/-! PROOF. The checkpoint statement (R120 to R123, R135): what the writes of an area leave of host memory, what the commit
leaves of the ledger, what the staged ring and a bad line come to, and its clauses from that. -/

namespace Sys2Proof.Machine

/-! ### Staged values that come into force (R263) -/

theorem State.applyNum_eq (s : State) (index sub inst : Nat) : ∃ pd, s.applyNum index sub inst = { s with pd := pd } := by
  simp only [State.applyNum]
  split <;> exact ⟨_, rfl⟩

theorem State.num_applyNum_self {s : State} {index sub inst x : Nat}
    (h : mapGet none s.pd.staged (objKey index sub inst) = some x) (d : Nat) :
    (s.applyNum index sub inst).num index sub inst d = x := by
  simp [State.applyNum, h, State.num, State.setNum, mapGet_mapSet_listed]

/-- What is staged and in force of another object stays. -/
theorem State.applyNum_other (s : State) {index sub inst k : Nat} (hk : k ≠ objKey index sub inst) :
    mapGet none (s.applyNum index sub inst).pd.staged k = mapGet none s.pd.staged k
      ∧ mapGet none (s.applyNum index sub inst).pd.nums k = mapGet none s.pd.nums k := by
  simp only [State.applyNum]
  split <;> simp [State.setNum, mapGet_mapSet_ne, hk]

/-! ### The start of a checkpoint (R121 step 1) -/

theorem exec_checkpointStart_due {s : State} (hc : s.canCheckpoint = true)
    (hd : s.lg.lastCheckpoint + 1000000 * s.numWritten 0x4000 3 0 2000 ≤ s.clock) :
    exec .checkpointStart s = .next s.startCheckpoint := by
  show execCheckpointStart s = _
  simp [execCheckpointStart, hc, hd]

theorem State.startCheckpoint_eq (s : State) : ∃ pd, s.startCheckpoint = { s with
    pd := pd
    lg := { s.lg with
      sweep := some { startCount := s.lg.journalCount, startContinuity := s.lg.continuity, startTime := s.tb.deviceTime }
      lastCheckpoint := s.clock
      checkpointDue := false } } := by
  obtain ⟨pd, h⟩ := s.applyNum_eq 0x4000 3 0
  rw [State.startCheckpoint, h]
  exact ⟨pd, rfl⟩

/-! ### Host writes that land (R302, R303) -/

/-- A write inside a range that may be written lands. -/
theorem State.dmaLands_inside {s : State} {fn a n b m : Nat} (h : s.dmaLands fn a n = true) (hb : a ≤ b)
    (hm : b + m ≤ a + n) : s.dmaLands fn b m = true := by
  simp only [State.dmaLands, State.dmaCan, Bool.or_eq_true, Bool.and_eq_true, decide_eq_true_eq] at h ⊢
  rcases h with h | ⟨h, ha⟩
  · left
    omega
  · right
    exact ⟨h, by omega⟩

/-- Where every write lands, all have succeeded, and host memory alone changes, no byte of it outside the writes. -/
theorem State.dmaSend_lands {fn : Nat} : ∀ (ps : List (Nat × Bytes)) (s : State),
    (∀ p ∈ ps, s.dmaLands fn p.1 p.2.length = true) →
    ∃ m, s.dmaSend fn ps = ({ s with hostMem := m }, true)
      ∧ ∀ a, (∀ p ∈ ps, a < p.1 ∨ p.1 + p.2.length ≤ a) → m.read a = s.hostMem.read a
  | [], s, _ => ⟨s.hostMem, rfl, fun _ _ => rfl⟩
  | p :: ps, s, h => by
    have hp := h p (List.mem_cons_self ..)
    have hw : s.dmaWrite fn p.1 p.2 = { s with hostMem := s.hostMem.writeBytes p.1 p.2 } := if_pos hp
    obtain ⟨m, hm, hread⟩ := State.dmaSend_lands (fn := fn) ps { s with hostMem := s.hostMem.writeBytes p.1 p.2 }
      fun q hq => h q (List.mem_cons_of_mem _ hq)
    refine ⟨m, by rw [State.dmaSend, if_pos hp, hw, hm], fun a ha => ?_⟩
    rw [hread a fun q hq => ha q (List.mem_cons_of_mem _ hq)]
    exact Memory.read_writeBytes_outside p.2 _ p.1 a (ha p (List.mem_cons_self ..))

/-! ### A journal record with the tap off and room in the reel buffer (R77, R123) -/

theorem State.journal_untapped {s : State} (ht : s.lg.tapLog2 = 0) (body tail : Bytes) :
    s.journal body tail = s.onLg fun g => { g with
      journalCount := g.journalCount + 1
      continuity := chain g.continuity body
      anchor := if s.pwr.stowed then g.anchor else g.anchor.pastStow
      reel := g.reel ++ [{ bytes := body ++ chain g.continuity body ++ tail, last := g.journalCount + 1 }]
      reelWritten := g.reelWritten + (body ++ chain g.continuity body ++ tail).length } :=
  if_pos ht

theorem State.append_roomy {s : State} (ht : s.lg.tapLog2 = 0) (hr : s.reelFill + 4096 + 2 ^ 20 ≤ 2 ^ 30)
    {body tail : Bytes} (hl : body.length + 32 + tail.length ≤ 4096) : s.append body tail = s.journal body tail := by
  have ha := s.journal_appended body tail
  have hfill : (s.journal body tail).reelFill = s.reelFill + (body.length + 32 + tail.length) := ha.fill
  exact State.afterJournal_roomy (ha.tapLog2.trans ht) (by omega)

/-! ### The area of a checkpoint (R120, Table 5.8) -/

theorem Slot.image_length (x : Slot) : x.image.length = 64 := by simp [Slot.image, slice_length]

theorem flatMap_length {f : Nat → Bytes} {n : Nat} (h : ∀ i, (f i).length = n) :
    ∀ l : List Nat, (l.flatMap f).length = l.length * n
  | [] => (Nat.zero_mul n).symm
  | i :: l => by
    rw [List.flatMap_cons, List.length_append, h, flatMap_length h l, List.length_cons, Nat.succ_mul, Nat.add_comm]

theorem State.chunk_length (s : State) (c : Nat) : (s.chunk c).length = 65536 := by
  rw [State.chunk, flatMap_length fun i => Slot.image_length _, List.length_range]

theorem State.windowTable_length (s : State) : s.windowTable.length = 8192 := by
  have h : ∀ w, (be 1 (s.window w).owner ++ [0] ++ be 2 (s.window w).epoch).length = 4 := fun w => by simp
  rw [State.windowTable, flatMap_length h, List.length_range]

theorem sha256_length (m : Bytes) : (Config.sha256 m).length = 32 := by simp [Config.sha256, Config.out]

theorem State.checkpointHeader_length (s : State) (seq : Nat) (w : Sweep) : (s.checkpointHeader seq w).length = 131072 := by
  have hd : ∀ c, (Config.sha256 (s.chunk c)).length = 32 := fun c => sha256_length _
  simp only [State.checkpointHeader, List.length_append, List.length_cons, List.length_nil, be_length, slice_length,
    List.length_replicate, State.windowTable_length, flatMap_length hd, List.length_range]

/-- Where the next area begins (R120). -/
def State.nextArea (s : State) : Nat := areaAddress s.checkpointAddress (s.lg.checkpointSeq + 1)

/-- The header that the commit of a sweep writes (Table 5.8). -/
def State.nextHeader (s : State) (w : Sweep) : Bytes := s.checkpointHeader (s.lg.checkpointSeq + 1) w

/-- What the commit of a sweep writes, the header last (R121 steps 2 and 3). -/
def State.areaWrites (s : State) (w : Sweep) : List (Nat × Bytes) :=
  (List.range 2048).map (fun c => (s.nextArea + 131072 + c * 65536, s.chunk c)) ++ [(s.nextArea, s.nextHeader w)]

theorem State.areaWrites_inside (s : State) (w : Sweep) :
    ∀ p ∈ s.areaWrites w, s.nextArea ≤ p.1 ∧ p.1 + p.2.length ≤ s.nextArea + 0x08020000 := by
  intro p hp
  rcases List.mem_append.1 hp with hp | hp
  · obtain ⟨c, hc, rfl⟩ := List.mem_map.1 hp
    have hc := List.mem_range.1 hc
    rw [State.chunk_length]
    omega
  · obtain rfl := List.mem_singleton.1 hp
    rw [State.nextHeader, State.checkpointHeader_length]
    omega

/-! ### The commit of a checkpoint (R121 steps 4 and 5) -/

/-- The CHECKPOINT record up to its Continuity. -/
def State.checkpointRecord (s : State) (w : Sweep) : Bytes :=
  [0x31] ++ List.replicate 7 0 ++ be 8 (s.lg.checkpointSeq + 1) ++ be 8 w.startCount ++ be 8 s.lg.journalCount
    ++ slice w.startContinuity 0 32 ++ Config.sha256 (s.nextHeader w)

theorem State.checkpointRecord_length (s : State) (w : Sweep) : (s.checkpointRecord w).length = 96 := by
  simp [State.checkpointRecord, slice_length, sha256_length]

/-- The anchor names the checkpoint that the sweep `w` has written (R122). -/
def Anchor.checkpointed (seq : Nat) (header : Bytes) (w : Sweep) (a : Anchor) : Anchor :=
  { a with
    state := .checkpointed
    seq := seq
    headerDigest := Config.sha256 header
    startCount := w.startCount
    startContinuity := w.startContinuity }

/-- The ledger's registers name the checkpoint that the sweep `w` has written. -/
def Lg.checkpointed (seq : Nat) (header : Bytes) (w : Sweep) (g : Lg) : Lg :=
  { g with checkpointSeq := seq, anchor := g.anchor.checkpointed seq header w }

/-- The state once the area is written, which leaves host memory `m`, and the sweep is over. -/
def State.areaWritten (m : Memory) (s : State) : State := { s with hostMem := m, lg := { s.lg with sweep := none } }

theorem State.commitCheckpoint_eq (s : State) (w : Sweep) : s.commitCheckpoint w =
    let r := s.dmaSend 0 (s.areaWrites w)
    let written := r.1.onLg fun g => { g with sweep := none }
    if !r.2 then written.latch .lgStat 4
    else ((written.append (s.checkpointRecord w) []).onLg
      (Lg.checkpointed (s.lg.checkpointSeq + 1) (s.nextHeader w) w)).latch .lgStat 2 := rfl

theorem State.commitCheckpoint_lands {s : State} (w : Sweep) (h : s.dmaLands 0 s.nextArea 0x08020000 = true) :
    ∃ m : Memory, (∀ a, a < s.nextArea ∨ s.nextArea + 0x08020000 ≤ a → m.read a = s.hostMem.read a)
      ∧ s.commitCheckpoint w = (((s.areaWritten m).append (s.checkpointRecord w) []).onLg
          (Lg.checkpointed (s.lg.checkpointSeq + 1) (s.nextHeader w) w)).latch .lgStat 2 := by
  have hp := s.areaWrites_inside w
  obtain ⟨m, hs, hm⟩ := State.dmaSend_lands (fn := 0) (s.areaWrites w) s fun p hmem =>
    State.dmaLands_inside h (hp p hmem).1 (hp p hmem).2
  refine ⟨m, fun a ha => hm a fun p hmem => ?_, by rw [State.commitCheckpoint_eq, hs]; rfl⟩
  obtain ⟨hlo, hhi⟩ := hp p hmem
  exact ha.imp (Nat.lt_of_lt_of_le · hlo) (Nat.le_trans hhi)

theorem Anchor.checkpointed_pastStow (c : Prop) [Decidable c] (seq : Nat) (header : Bytes) (w : Sweep) (a : Anchor) :
    (if c then a else a.pastStow).checkpointed seq header w = a.checkpointed seq header w := by
  simp only [Anchor.pastStow]
  split
  · rfl
  · split <;> rfl

/-- With the tap off and room in the reel buffer, the commit changes the area, LG_STAT and the ledger alone. -/
theorem State.commitCheckpoint_roomy {s : State} (w : Sweep) (ht : s.lg.tapLog2 = 0)
    (hr : s.reelFill + 4096 + 2 ^ 20 ≤ 2 ^ 30) (h : s.dmaLands 0 s.nextArea 0x08020000 = true) :
    ∃ (m : Memory) (l : List (Nat × Nat)) (c : Bytes) (r : List JournalRec) (n : Nat),
      (∀ a, a < s.nextArea ∨ s.nextArea + 0x08020000 ≤ a → m.read a = s.hostMem.read a)
      ∧ s.commitCheckpoint w = { s with
        hostMem := m
        latches := l
        lg := { s.lg with
          sweep := none
          journalCount := s.lg.journalCount + 1
          continuity := c
          reel := r
          reelWritten := n
          checkpointSeq := s.lg.checkpointSeq + 1
          anchor := s.lg.anchor.checkpointed (s.lg.checkpointSeq + 1) (s.nextHeader w) w } } := by
  obtain ⟨m, hm, hc⟩ := State.commitCheckpoint_lands w h
  have hl : (s.checkpointRecord w).length + 32 + ([] : Bytes).length ≤ 4096 := by
    rw [State.checkpointRecord_length]
    decide
  have hfill : (s.areaWritten m).reelFill = s.reelFill := rfl
  rw [hc, State.append_roomy (s := s.areaWritten m) ht (hfill ▸ hr) hl,
    State.journal_untapped (s := s.areaWritten m) ht, ← Anchor.checkpointed_pastStow (s.pwr.stowed = true)]
  exact ⟨m, _, _, _, _, hm, rfl⟩

/-! ### The tap (R123) -/

theorem exec_tapWriteFault_alone {s : State} (hf : s.lg.tapFailed = true) (hc : s.canCheckpoint = false) :
    exec .tapWriteFault s =
      .next ((s.onLg fun g => { g with tapFailed := false, checkpointDue := true }).latch .lgStat 8) := by
  have hc' : ((s.onLg fun g => { g with tapFailed := false, checkpointDue := true }).latch .lgStat 8).canCheckpoint = false := hc
  show execTapWriteFault s = _
  simp only [execTapWriteFault, hf, hc', if_true, Bool.false_eq_true, if_false]

/-- Both objects of the ring apply, and its counts restart. -/
theorem exec_tapRingApply_staged {s : State} {a n : Nat} (ha : mapGet none s.pd.staged (objKey 0x4000 5 0) = some a)
    (hn : mapGet none s.pd.staged (objKey 0x4000 6 0) = some n) : ∃ pd, exec .tapRingApply s = .next { s with
      pd := pd
      lg := { s.lg with tapAddress := a, tapLog2 := n, tapWritten := 0, tapConsumed := 0 } } := by
  have hstaged : s.tapStaged = true := by simp [State.tapStaged, ha]
  have hn' := ((s.applyNum_other (k := objKey 0x4000 6 0) (show _ ≠ objKey 0x4000 5 0 by decide)).1).trans hn
  have h6 := State.num_applyNum_self hn' 0
  have h5 : ((s.applyNum 0x4000 5 0).applyNum 0x4000 6 0).num 0x4000 5 0 0 = a := by
    rw [State.num, ((State.applyNum_other _ (k := objKey 0x4000 5 0) (show _ ≠ objKey 0x4000 6 0 by decide)).2)]
    exact State.num_applyNum_self ha 0
  obtain ⟨_, hp5⟩ := s.applyNum_eq 0x4000 5 0
  obtain ⟨pd, hp6⟩ := (s.applyNum 0x4000 5 0).applyNum_eq 0x4000 6 0
  refine ⟨pd, ?_⟩
  show execTapRingApply s = _
  simp only [execTapRingApply, hstaged, if_true, h5, h6]
  rw [hp6, hp5]
  rfl

/-- A WRITE of TapConsumed between what is consumed and what is written (R123). -/
theorem exec_tapConsumedWrite_inside {s : State} {v : Viewer} {x : BitVec 64} (h : Writable s v 0x4000 7 x.toNat)
    (hlo : s.lg.tapConsumed ≤ x.toNat) (hhi : x.toNat ≤ s.lg.tapWritten) :
    Wrote (.tapConsumedWrite v x) s v stOk { s with lg := { s.lg with tapConsumed := x.toNat } } := by
  have hact : tapConsumed x.toNat (s.served v) =
      (({ s with lg := { s.lg with tapConsumed := x.toNat } } : State).served v, stOk) := if_pos ⟨hlo, hhi⟩
  have hw := State.writeNum_acts (w := {}) (tenant := ownTenant) h rfl (k := 8) rfl x.isLt rfl rfl rfl
    (by rw [hact]; exact (show stOk ≠ stWaits by decide)) (by rw [hact]; exact h.2.1.2.2)
  rw [hact] at hw
  exact congrArg Host.Outcome.next hw

/-! ### Bad lines (R114, R115, R135) -/

theorem exec_memoryScrub_one {s : State} (hp : s.powered = true) (b : BadLine) :
    exec (.memoryScrub [b]) s = .next (s.badLine b) := congrArg Host.Outcome.next (if_pos hp)

theorem channelOf_line (a : Nat) : channelOf (a / 64 * 64) = a / 64 % 4 := by
  rw [channelOf, Nat.mul_div_cancel _ (by decide)]

theorem regionOf_reel {a : Nat} (hlo : 0x10000000 ≤ a) (hhi : a < 0x50000000) : regionOf (a / 64 * 64) = .reel := by
  have h1 : ¬ a / 64 * 64 < 0x08000000 := by omega
  have h2 : 0x10000000 ≤ a / 64 * 64 := by omega
  have h3 : a / 64 * 64 < 0x50000000 := by omega
  simp only [regionOf, h1, h2, h3, if_true, if_false]

theorem State.badLine_corrected (s : State) {a : Nat} (h : regionOf (a / 64 * 64) ≠ .reserved) :
    s.badLine { address := a, fault := .corrected } =
      (s.onLg fun g => { g with eccCorrected := g.eccCorrected + 1 }).latch (.chanStat (a / 64 % 4)) 4 := by
  simp only [State.badLine, h, if_false, channelOf_line]

theorem State.badLine_reel_uncorrectable (s : State) {a : Nat} (h : regionOf (a / 64 * 64) = .reel) :
    s.badLine { address := a, fault := .uncorrectable } =
      ((s.onLg fun g => { g with eccUncorrected := g.eccUncorrected + 1 }).latch (.chanStat (a / 64 % 4)) 8).lineFailed
        (a / 64 * 64) := by
  simp only [State.badLine, h, channelOf_line, State.badRead, reduceCtorEq, if_false]

end Sys2Proof.Machine
end

section
open Sys2Proof Sys2Proof.Machine

/-- Settles O32: each clause is what the operation its command reaches does, by the lemmas above. -/
theorem checkpoints : Obligations.Checkpoints := by
  unfold Obligations.Checkpoints
  intro s
  refine ⟨fun hc hd => ?_, fun w hw ht hr hlands => ?_, fun v x h hlo hhi => exec_tapConsumedWrite_inside h hlo hhi,
    fun hf hc => exec_tapWriteFault_alone hf hc, fun a n ha hn => ?_, fun a hp hregion => ?_, fun a hp hlo hhi => ?_⟩
  · obtain ⟨pd, h⟩ := s.startCheckpoint_eq
    exact ⟨_, exec_checkpointStart_due hc hd, by rw [h]⟩
  · have hx : exec .checkpointCommit s = .next (s.commitCheckpoint w) := by
      show execCheckpointCommit s = _
      simp only [execCheckpointCommit, hw]
    obtain ⟨m, l, c, r, n, hm, h⟩ := State.commitCheckpoint_roomy w ht hr hlands
    rw [h] at hx
    exact ⟨_, hx, rfl, rfl, rfl, rfl, rfl, hm⟩
  · obtain ⟨pd, h⟩ := exec_tapRingApply_staged ha hn
    exact ⟨_, h, rfl⟩
  · rw [exec_memoryScrub_one hp, State.badLine_corrected s hregion]
    rfl
  · rw [exec_memoryScrub_one hp, State.badLine_reel_uncorrectable s (regionOf_reel hlo hhi)]
    rfl
end

section
/-! PROOF. Why the statement about stows and recoveries does not hold: the Wake after a stow begins with main power lost, and
there the Vault closes an erase window that is open (R377). In Draw, where that record fills the Evidence Log, the GX8 enters
Held (R388), the draw ends, and the copy of its DRAW_END record goes to the tap ring in host memory (R123, R259). -/

namespace Sys2Proof.Machine

/-! ### A Wake writes nothing to host memory (Table 2.6) -/

theorem State.Recorded.hostMem {s t : State} (h : s.Recorded t) : t.hostMem = s.hostMem := by
  obtain ⟨_, _, rfl⟩ := h
  rfl

theorem State.addCause_hostMem (s : State) (c : Cause) : (s.addCause c).hostMem = s.hostMem := by
  simp only [State.addCause]
  split <;> rfl

theorem State.zeroLedger_hostMem (s : State) : s.zeroLedger.hostMem = s.hostMem := rfl

theorem State.loseVol_hostMem (s : State) : s.loseVol.hostMem = s.hostMem := rfl

theorem State.loseWrm_hostMem (s : State) : s.loseWrm.hostMem = s.hostMem := rfl

theorem State.enterRetired_hostMem (s : State) : s.enterRetired.hostMem = s.hostMem := rfl

theorem State.wakeErased_hostMem (s : State) : s.wakeErased.hostMem = s.hostMem := by
  simp only [State.wakeErased, State.onPwr_hostMem, State.addCause_hostMem, State.loseWrm_hostMem, State.loseVol_hostMem,
    State.zeroLedger_hostMem]

theorem State.wakeReport_hostMem {s : State} (h : s.pwr.mode = .wake) : s.wakeReport.hostMem = s.hostMem := by
  unfold State.wakeReport
  extract_lets counted keyed timed invalid checked
  have ht : timed.sealing = false := by simp [timed, keyed, counted, State.sealing, h]
  have hi : timed.hostMem = invalid.hostMem ∧ invalid.sealing = false := by
    unfold invalid
    split
    · exact ⟨rfl, ht⟩
    · have hr := (State.raiseCause_recorded (s := timed.onPwr fun p => { p with vaultLost := true }) ht
        (c := .vaultLost) (by decide) (by decide) (by decide)).1
      exact ⟨hr.hostMem.symm, hr.sealing.trans ht⟩
  have hc : checked.hostMem = s.hostMem := by
    unfold checked
    split
    · exact (State.afterEvidence_recorded hi.2).hostMem.trans hi.1.symm
    · exact hi.1.symm
  split
  · exact checked.wakeErased_hostMem.trans hc
  · exact hc

theorem State.wakeNoise_hostMem {s : State} (h : s.pwr.mode = .wake) : (s.wakeNoise []).hostMem = s.hostMem :=
  State.wakeReport_hostMem (s := s.onEn _) h

theorem State.wakeOn_hostMem {s : State} (h : s.pwr.mode = .wake) : (s.wakeOn []).hostMem = s.hostMem := by
  unfold State.wakeOn
  extract_lets sensed fused stepped
  split
  · rw [State.onTg_hostMem, State.enterRetired_hostMem]
    rfl
  · exact State.wakeNoise_hostMem (s := stepped) h

/-- Whatever state a Wake begins in, host memory stays as it was then. -/
theorem State.startWake_hostMem (s : State) (kind : ResetKind) : (s.startWake kind []).hostMem = s.hostMem := by
  unfold State.startWake
  extract_lets begun
  split
  · rfl
  · exact State.wakeOn_hostMem (s := begun) rfl

/-- A stowed GX8 at the release of PWRFAIL_N, as its Wake begins (R126). -/
def State.released (s : State) : State :=
  ((s.onPwr fun p => { p with pwrfail := false, stowed := false }).losePower.onPwr fun p =>
    { p with perst := s.pwr.perst }).onHg fun h => { h with linkUp := !s.pwr.perst }

theorem exec_pwrfailRelease_stowed {s : State} (hp : s.powered = true) (hf : s.pwr.pwrfail = true)
    (hs : s.pwr.stowed = true) : exec .pwrfailRelease s = .next (s.released.startWake .powerOn []) := by
  show execPwrfailRelease s = _
  simp only [execPwrfailRelease, hp, hf, hs, Bool.not_true, Bool.or_self, Bool.false_eq_true, if_false, if_true,
    State.released]

/-! ### A stowed GX8 whose Wake writes to host memory -/

/-- Stowed in Draw, the tap on, an erase window open, and one record short of a full Evidence Log. An ERASE alarm leaves Draw
at once (R377), so that a run need not come here; the statement ranges over every state. -/
def stowedDraw : State := {
  pwr := { mode := .draw, perst := false, pwrfail := true, stowed := true }
  hg := { linkUp := true, fns := [(0, { busMaster := true })] }
  lg := { tapAddress := 0x10000, tapLog2 := 20 }
  sz := { draw := some { slot := 0 } }
  tg := { nextSeq := 16319, window := some {
    sources := 2, first := 0x8320, count := 1, perSource := [(2, 1)], erase := true, time := 0, start := 0 } } }

/-- At its release the ring holds the first byte of a DRAW_END record, 0x41. -/
theorem stowedDraw_released_ring : stowedDraw.released.hostMem.read 0x10000 = 0x41 := by decide

end Sys2Proof.Machine
end

section
open Sys2Proof Sys2Proof.Machine

/-- Refutes O33: the clause on the release of PWRFAIL_N has host memory stay, for every stowed state; from `stowedDraw` the
release writes the DRAW_END record to the tap ring, and no Wake undoes it. -/
theorem not_stowAndRecovery : ¬ Obligations.StowAndRecovery := by
  unfold Obligations.StowAndRecovery
  intro h
  obtain ⟨-, -, hrelease, -⟩ := h stowedDraw
  obtain ⟨u, hu, -, -, hmem, -⟩ := hrelease rfl rfl rfl
  rw [exec_pwrfailRelease_stowed rfl rfl rfl] at hu
  have hwake := Host.Outcome.next.inj hu
  have hsame : stowedDraw.released.hostMem = stowedDraw.hostMem :=
    calc stowedDraw.released.hostMem
      _ = (u.startWake .powerOn []).hostMem := by rw [← hwake, State.startWake_hostMem]
      _ = stowedDraw.hostMem := by rw [State.startWake_hostMem, hmem]
  have hbyte := stowedDraw_released_ring
  rw [hsame] at hbyte
  exact absurd hbyte (by decide)
end

section
/-! PROOF. The start of a command on a Long-Integer Engine (R148, R158, R159, R196): what a draw for one engine leaves of the
state, what the running command takes over from its block, and how a GO on an idle engine comes to it. -/

namespace Sys2Proof.Machine

/-! ### One engine of the table -/

theorem State.engine_onEngine_ne (s : State) {e f : Nat} (h : f ≠ e) (g : Engine → Engine) :
    (s.onEngine e g).engine f = s.engine f :=
  mapGet_mapSet_ne _ _ _ _ _ h

/-- An engine that a tenant owns does not read as an unlisted one, and is read back. -/
theorem State.engine_onEngine_owned (s : State) {e : Nat} {g : Engine → Engine} (h : (g (s.engine e)).owner ≠ 0xFF) :
    (s.onEngine e g).engine e = g (s.engine e) :=
  mapGet_mapSet_listed ({} : Engine) (fun hd => h (congrArg Engine.owner hd)) s.li.engines e

/-! ### A draw for one engine (R195, R196) -/

/-- `u` is `s` but for what a draw for engine `e` changes: the DRBG Bank, and the buffer of that engine. -/
structure State.DrewFor (s : State) (e : Nat) (u : State) : Prop where
  rest : ∃ es en pd c, u = { s with li := { s.li with engines := es }, en := en, pd := pd, freeCtr := c }
  others : ∀ f, f ≠ e → u.engine f = s.engine f
  own : (s.engine e).owner ≠ 0xFF → ∃ buffer, u.engine e = { s.engine e with buffer := buffer }

theorem State.DrewFor.refl (s : State) (e : Nat) : s.DrewFor e s :=
  ⟨⟨_, _, _, _, rfl⟩, fun _ _ => rfl, fun _ => ⟨_, rfl⟩⟩

theorem State.DrewFor.trans {s t u : State} {e : Nat} (h : s.DrewFor e t) (h' : t.DrewFor e u) : s.DrewFor e u where
  rest := by
    obtain ⟨_, _, _, _, rfl⟩ := h.rest
    obtain ⟨_, _, _, _, rfl⟩ := h'.rest
    exact ⟨_, _, _, _, rfl⟩
  others f hf := (h'.others f hf).trans (h.others f hf)
  own ho := by
    obtain ⟨_, ht⟩ := h.own ho
    obtain ⟨buffer, hu⟩ := h'.own (by rwa [ht])
    exact ⟨buffer, by rw [hu, ht]⟩

theorem State.PoolDrew.drewFor {s u : State} (h : s.PoolDrew u) (e : Nat) : s.DrewFor e u := by
  obtain ⟨_, _, _, rfl⟩ := h
  exact ⟨⟨_, _, _, _, rfl⟩, fun _ _ => rfl, fun _ => ⟨_, rfl⟩⟩

theorem State.setBuffer_drewFor (s : State) (e : Nat) (f : Engine → Bytes) :
    s.DrewFor e (s.onEngine e fun g => { g with buffer := f g }) where
  rest := ⟨_, _, _, _, rfl⟩
  others _ hf := s.engine_onEngine_ne hf _
  own ho := ⟨_, s.engine_onEngine_owned ho⟩

theorem State.fillEngine_drewFor (s : State) (e : Nat) : s.DrewFor e (s.fillEngine e) := by
  simp only [State.fillEngine]
  split
  · exact .refl s e
  · exact ((s.generate_poolDrew (s.engineInstance_pool e) ..).drewFor e).trans (State.setBuffer_drewFor _ e _)

theorem State.engineDraw_drewFor (e : Nat) : ∀ (fuel n : Nat) (s : State), s.DrewFor e (s.engineDraw e fuel n).2
  | 0, _, s => .refl s e
  | fuel + 1, n, s => by
    unfold State.engineDraw
    extract_lets filled b drawn r
    have hf : s.DrewFor e filled := by
      unfold filled
      split
      · exact s.fillEngine_drewFor e
      · exact .refl s e
    have hd : s.DrewFor e drawn := hf.trans (filled.setBuffer_drewFor e _)
    split
    · exact hd
    · exact hd.trans (State.engineDraw_drewFor e fuel (n - 512) drawn)

theorem State.engineBytes_drewFor (s : State) (e n : Nat) (resist : Bool) : s.DrewFor e (s.engineBytes e n resist).2 := by
  unfold State.engineBytes
  extract_lets seeded
  have hs : s.DrewFor e seeded := by
    unfold seeded
    split
    · exact ((s.reseed_poolDrew (s.engineInstance_pool e)).drewFor e).trans (State.setBuffer_drewFor _ e _)
    · exact .refl s e
  exact hs.trans (State.engineDraw_drewFor e _ _ seeded)

/-! ### The command as it runs (R158) -/

/-- What a running command takes over from its block, whatever it will end with. -/
theorem State.lieCommand_eq (s : State) (b : LieBlock) (user : LieUser) (t : Nat) (operand key rnd : Bytes) :
    ∃ status detail writes load, s.lieCommand b user t operand key rnd = {
      opcode := b.op, user := user, tenant := t, epoch := b.epoch, status := status, detail := detail, writes := writes
      nominal := b.nominal, start := s.clock, curve := if b.isRsa then 0 else b.curve, load := load
      guarded := b.isPrivate
      handle := if b.isPrivate && !b.poolKey then b.handle else 0 } := by
  unfold State.lieCommand
  extract_lets base curve defect
  split
  · split <;> exact ⟨_, _, _, _, rfl⟩
  · split <;> exact ⟨_, _, _, _, rfl⟩

section
variable {s : State} {b : LieBlock} {t : Nat} {operand key rnd : Bytes}

/-- A CURVE_LOAD whose curve passes the sanity checks of R145. -/
theorem State.lieCommand_saneCurve {user : LieUser} (hop : b.op = 10) (hd : (b.curveLoaded t operand).sanity rnd = 0) :
    let c := s.lieCommand b user t operand key rnd
    c.writes = [] ∧ c.status = stOk ∧ c.load = some (b.curveLoaded t operand) := by
  simp only [State.lieCommand, if_pos hop, if_pos hd, and_self]

/-- One whose curve does not: DETAIL says which check has failed. -/
theorem State.lieCommand_badCurve {user : LieUser} (hop : b.op = 10) (hd : (b.curveLoaded t operand).sanity rnd ≠ 0) :
    let c := s.lieCommand b user t operand key rnd
    c.writes = [] ∧ c.status = stCurveRejected ∧ c.detail = (b.curveLoaded t operand).sanity rnd ∧ c.load = none := by
  simp only [State.lieCommand, if_pos hop, if_neg hd, and_self]

/-- A command with a value defect ends with its status and writes nothing (R160, R161). -/
theorem State.lieCommand_error {user : LieUser} {st : Status} (hop : b.op ≠ 10)
    (hr : lieRun b ((s.curveOf b.curve t).getD noCurve) operand key rnd = .error st) :
    let c := s.lieCommand b user t operand key rnd
    c.load = none ∧ c.status = st ∧ c.writes = [] := by
  simp only [State.lieCommand, if_neg hop, hr, and_self]

/-- A direct command with a result: it goes to the host or to the tenant's pool, a new key to the pool (Table 6.8). -/
theorem State.lieCommand_ok {r k : Bytes} (hop : b.op ≠ 10)
    (hr : lieRun b ((s.curveOf b.curve t).getD noCurve) operand key rnd = .ok (r, k)) :
    let c := s.lieCommand b .direct t operand key rnd
    c.load = none ∧ c.status = stOk
      ∧ c.writes = [(b2n b.resPool, b.result, r), (1, b.keyAddr, k)].filter (·.2.2 ≠ []) := by
  simp only [State.lieCommand, if_neg hop, hr, true_and]
  rfl

end

/-! ### GO (R148, R159) -/

theorem State.fn_lt_of_reaches {s : State} {loc : Loc} (h : s.reaches loc.viewer loc = true) : loc.fn < 64 := by
  have hp : s.fnPresent loc.fn = true := by
    have hr := State.fnReached_of_reaches h
    simp only [State.fnReached, Bool.and_eq_true] at hr
    exact hr.1.1.2
  simp only [State.fnPresent, Bool.or_eq_true, Bool.and_eq_true, decide_eq_true_eq] at hp
  omega

theorem State.hostWrite_reached {s : State} {loc : Loc} {r : Reg} (h : Reaches s loc r) (f : Reg → Option State) :
    s.hostWrite loc f = (f r).getD s := by
  obtain ⟨hr, ha, upper, hw⟩ := h
  simp only [State.hostWrite, hr, ha, hw, Bool.not_true, Bool.false_eq_true, if_false, ne_eq, not_true]

/-- The command block in the frame of engine `e` (Table 6.7). -/
def State.frameBlock (s : State) (e : Nat) : LieBlock := ⟨(List.range 8).map fun i => mapGet 0 (s.engine e).cmd i⟩

theorem State.frameBlock_op (s : State) (e : Nat) : (s.frameBlock e).op = mapGet 0 (s.engine e).cmd 0 % 256 := by
  simp [LieBlock.op, LieBlock.word, State.frameBlock, bitsOf]

/-- Engine `e` once it has taken a GO, before the checks. -/
def State.goTaken (s : State) (e : Nat) : State := s.onEngine e fun g => { g with
  status := 0, detail := 0, nominal := 0, stale := false, irq := (s.frameBlock e).irq, vector := (s.frameBlock e).vector }

theorem State.goTaken_engine {s : State} {e : Nat} (h : (s.engine e).owner ≠ 0xFF) : (s.goTaken e).engine e = { s.engine e with
    status := 0, detail := 0, nominal := 0, stale := false, irq := (s.frameBlock e).irq, vector := (s.frameBlock e).vector } :=
  s.engine_onEngine_owned h

/-- The rows of the opcodes of Table 6.7. -/
def lieRows (loc : Loc) (env : HostEnv) : List (Nat × Instr) :=
  [(1, .ecdsaSign loc env), (2, .ecdsaVerify loc env), (3, .eddsaSign loc env), (4, .eddsaVerify loc env),
    (5, .ecdh loc env), (6, .ecKeygen loc env), (7, .ecPointCheck loc env), (8, .rsaPrivate loc env),
    (9, .rsaPublic loc env), (10, .curveLoad loc env), (11, .curveUnload loc env)]

theorem exec_lieRows {loc : Loc} {env : HostEnv} {row : Nat × Instr} (h : row ∈ lieRows loc env) (s : State) :
    exec row.2 s = .next ((s.applyEnv env).lieRow row.1 loc) := by
  simp only [lieRows, List.mem_cons, List.not_mem_nil, or_false] at h
  rcases h with rfl | rfl | rfl | rfl | rfl | rfl | rfl | rfl | rfl | rfl | rfl <;> rfl

/-- The row of the opcode that LI_CMD0 names is a GO. -/
theorem State.lieRow_go {s : State} {loc : Loc} {e : Nat} (h : Reaches s loc (.frame e 0x40)) :
    s.lieRow (s.frameBlock e).op loc = s.lieGo e loc.fn := by
  rw [State.lieRow, State.hostWrite_reached h, State.frameBlock_op]
  simp only [if_true, Option.getD_some]

/-- A GO on an idle engine of the sender, whose block passes every check: the command runs. -/
theorem State.lieGo_begins {s : State} {e t : Nat} {operand key : Bytes} (hown : (s.engine e).owner = t)
    (hidle : (s.engine e).running = none) (hin : (s.engine e).retired = false) (ht : t ≠ 0xFF)
    (hchecks : (s.goTaken e).lieChecks (s.frameBlock e) .direct t (s.engine e).epoch = none)
    (hinputs : (s.goTaken e).lieInputs (s.frameBlock e) .direct t = .ok (operand, key)) :
    s.lieGo e t = (s.goTaken e).lieBegin e (s.frameBlock e) .direct t operand key := by
  have hepoch : ((s.goTaken e).engine e).epoch = (s.engine e).epoch := by rw [State.goTaken_engine (hown ▸ ht)]
  have hstart : (s.goTaken e).lieStart e (s.frameBlock e) .direct t
      = ((s.goTaken e).lieBegin e (s.frameBlock e) .direct t operand key, none) := by
    simp only [State.lieStart, hepoch, hchecks, hinputs]
  have hmay : (!s.commands e t || (s.engine e).running.isSome || (s.engine e).retired) = false := by
    simp [State.commands, hown, hidle, hin]
  simp only [State.goTaken, State.frameBlock] at hstart
  simp only [State.lieGo, hmay, Bool.false_eq_true, if_false, hstart]
  rfl

/-- What a command that begins leaves: it runs on its engine, which has drawn for it and is as it was otherwise. -/
theorem State.lieBegin_engine {s : State} {e : Nat} (h : (s.engine e).owner ≠ 0xFF) (b : LieBlock) (user : LieUser) (t : Nat)
    (operand key : Bytes) : ∃ buffer, (s.lieBegin e b user t operand key).engine e = { s.engine e with
      buffer := buffer
      running := some (s.lieCommand b user t operand key (s.engineBytes e (drawNeed b.op b.curve b.len) (b.op = 6)).1) } := by
  obtain ⟨buffer, hb⟩ := (s.engineBytes_drewFor e (drawNeed b.op b.curve b.len) (b.op = 6)).own h
  refine ⟨buffer, ?_⟩
  simp only [State.lieBegin]
  rw [State.engine_onEngine_owned _ (by rw [hb]; exact h), hb]

theorem State.lieBegin_engine_ne (s : State) {e f : Nat} (hf : f ≠ e) (b : LieBlock) (user : LieUser) (t : Nat)
    (operand key : Bytes) : (s.lieBegin e b user t operand key).engine f = s.engine f :=
  (State.engine_onEngine_ne _ hf _).trans ((s.engineBytes_drewFor e ..).others f hf)

theorem State.lieBegin_rest (s : State) (e : Nat) (b : LieBlock) (user : LieUser) (t : Nat) (operand key : Bytes) :
    ∃ es en pd c, s.lieBegin e b user t operand key =
      { s with li := { s.li with engines := es }, en := en, pd := pd, freeCtr := c } := by
  obtain ⟨_, _, _, _, h⟩ := (s.engineBytes_drewFor e (drawNeed b.op b.curve b.len) (b.op = 6)).rest
  simp only [State.lieBegin]
  rw [h]
  exact ⟨_, _, _, _, rfl⟩

end Sys2Proof.Machine
end

section
open Sys2Proof Sys2Proof.Machine

/-- Settles O34: the row is a GO that begins the block's command; the rest is what a beginning changes, and what a command
ends with by its kind. -/
theorem lieStart : Obligations.LieStart := by
  unfold Obligations.LieStart
  intro s loc env e operand key u b v hreach hown hidle hin hchecks hinputs row hrow hop rnd
  have hfn : loc.fn ≠ 0xFF := Nat.ne_of_lt (Nat.lt_trans (State.fn_lt_of_reaches hreach.1) (by decide))
  have hgo : exec row.2 s = .next (v.lieBegin e b .direct loc.fn operand key) := by
    have hsent : u.lieRow b.op loc = u.lieGo e loc.fn := State.lieRow_go (s := u) hreach
    rw [exec_lieRows hrow, ← hop]
    exact congrArg _ (hsent.trans (State.lieGo_begins (s := u) hown hidle hin hfn hchecks hinputs))
  have htaken := State.goTaken_engine (s := u) (e := e) (hown ▸ hfn)
  have howner : (v.engine e).owner = loc.fn := (congrArg Engine.owner htaken).trans hown
  have hstatus : (v.engine e).status = 0 := congrArg Engine.status htaken
  obtain ⟨buffer, hengine⟩ := State.lieBegin_engine (howner ▸ hfn) b .direct loc.fn operand key
  obtain ⟨es, en, pd, c, hrest⟩ := v.lieBegin_rest e b .direct loc.fn operand key
  obtain ⟨_, _, _, _, hcmd⟩ := v.lieCommand_eq b .direct loc.fn operand key rnd
  refine ⟨_, v.lieCommand b .direct loc.fn operand key rnd, hgo, congrArg Engine.running hengine,
    fun f hf => (v.lieBegin_engine_ne hf ..).trans (u.engine_onEngine_ne hf _), by rw [hrest]; rfl,
    (congrArg Engine.status hengine).trans hstatus, (congrArg Engine.owner hengine).trans howner, by rw [hcmd]; exact hop,
    by rw [hcmd], by rw [hcmd], by rw [hcmd], by rw [hcmd]; rfl, by rw [hcmd], fun hten => ?_, fun hne => ?_⟩
  · have hten : b.op = 10 := hop.trans hten
    by_cases hd : (b.curveLoaded loc.fn operand).sanity rnd = 0
    · obtain ⟨hw, hs⟩ := State.lieCommand_saneCurve (s := v) (user := .direct) (key := key) hten hd
      exact ⟨hw, by rw [if_pos hd]; exact hs⟩
    · obtain ⟨hw, hs⟩ := State.lieCommand_badCurve (s := v) (user := .direct) (key := key) hten hd
      exact ⟨hw, by rw [if_neg hd]; exact hs⟩
  · have hne : b.op ≠ 10 := fun h => hne (hop.symm.trans h)
    cases hr : lieRun b ((s.curveOf b.curve loc.fn).getD noCurve) operand key rnd with
    | error st => exact State.lieCommand_error (s := v) hne hr
    | ok rk => exact State.lieCommand_ok (s := v) hne hr
end

section
/-! PROOF. Why the statement about the end of an engine's command does not hold: it ranges over every state, also over those
whose list of engines is no map in canonical form. -/

namespace Sys2Proof.Machine

/-- An EC_POINT_CHECK of tenant 0 that has failed and has no time left to run. -/
def spentCommand : LieCmd := {
  opcode := 7, user := .direct, tenant := 0, epoch := 0, status := stPointNotOnCurve, detail := 0, writes := []
  nominal := 0, start := 0, curve := 1, load := none, guarded := false }

/-- Engine 0 is listed twice. The entry that is read runs the command and is otherwise as an unlisted engine, so that the end of
the command takes it out of the list, and the entry behind it, of an engine that tenant 5 owns, is read. The statement ranges
over every state, and no hypothesis of this clause asks for a canonical list. -/
def twiceListed : State := {
  li := { engines := [(0, { running := some spentCommand }), (0, { owner := 5 })] } }

theorem exec_lieCommandComplete_twiceListed : ∃ t : State, exec (.lieCommandComplete 0 false) twiceListed = .next t
    ∧ (t.engine 0).owner = 5 :=
  ⟨_, rfl, by decide⟩

/-- Where no call of a service waits, an engine that becomes idle gets none. -/
theorem State.resumeLie_id {s : State} (h : s.sz.outstanding = []) : s.resumeLie = s := by
  simp only [State.resumeLie, h, List.foldl_nil]

end Sys2Proof.Machine
end

section
open Sys2Proof Sys2Proof.Machine

/-- Refutes O36: by the clause on a command that ends with a failure its engine keeps its owner, whatever the list of engines;
from `twiceListed` engine 0, which no tenant owns, comes to be tenant 5's. -/
theorem not_lieEnd : ¬ Obligations.LieEnd := by
  unfold Obligations.LieEnd
  intro h
  obtain ⟨-, hcomplete, -⟩ := h twiceListed
  obtain ⟨hfailed, -⟩ := hcomplete 0 spentCommand rfl (by decide) rfl rfl
  obtain ⟨t, ht, hframe, hengine⟩ := hfailed false (by decide) (by decide)
  obtain ⟨u, hu, howner⟩ := exec_lieCommandComplete_twiceListed
  have hidle : t.sz.outstanding = [] := by rw [hframe]; rfl
  rw [State.resumeLie_id hidle] at ht
  have hut : u = t := Host.Outcome.next.inj (hu.symm.trans ht)
  have hkept : (t.engine 0).owner = (twiceListed.engine 0).owner := by rw [hengine]
  rw [← hut, howner] at hkept
  exact absurd hkept (by decide)
end

section
/-! PROOF. The Lattice Unit statement (R169, R171, R172, R175): one unit of the table, the three ends of a signing round, and
the end of the verification by a second unit. -/

namespace Sys2Proof.Machine

/-! ### One unit of the table -/

theorem State.latticeUnit_onUnit_ne (s : State) {u w : Nat} (h : w ≠ u) (f : LatticeUnit → LatticeUnit) :
    (s.onUnit u f).latticeUnit w = s.latticeUnit w :=
  mapGet_mapSet_ne _ _ _ _ _ h

/-- A unit that no longer is as an unlisted one is read back, whatever the table. -/
theorem State.latticeUnit_onUnit_listed {s : State} {u : Nat} {f : LatticeUnit → LatticeUnit} (h : f (s.latticeUnit u) ≠ {}) :
    (s.onUnit u f).latticeUnit u = f (s.latticeUnit u) :=
  mapGet_mapSet_listed _ h _ _

theorem State.latticeUnit_onUnit {s : State} (hw : mapWf {} s.lh.units = true) (u : Nat) (f : LatticeUnit → LatticeUnit) :
    (s.onUnit u f).latticeUnit u = f (s.latticeUnit u) :=
  mapGet_mapSet_self _ _ _ _ ((MapWf_iff _ _).1 hw)

theorem State.onUnit_wf {s : State} (hw : mapWf {} s.lh.units = true) (u : Nat) (f : LatticeUnit → LatticeUnit) :
    mapWf {} (s.onUnit u f).lh.units = true :=
  (MapWf_iff _ _).2 (((MapWf_iff _ _).1 hw).mapSet _ _)

/-- Unit `u` once round `n` of its signing has ended. -/
def State.counted (s : State) (u n : Nat) : State := s.onUnit u fun l => { l with lastRounds := n }

/-- A unit that has ended a round is listed. -/
theorem LatticeUnit.ne_default_of_lastRounds {l : LatticeUnit} {n : Nat} (h : l.lastRounds = n + 1) : l ≠ {} := by
  rintro rfl
  exact absurd h (Nat.succ_ne_zero n).symm

theorem State.latticeUnit_counted (s : State) (u n : Nat) :
    (s.counted u (n + 1)).latticeUnit u = { s.latticeUnit u with lastRounds := n + 1 } :=
  State.latticeUnit_onUnit_listed (LatticeUnit.ne_default_of_lastRounds rfl)

/-- A change after the end of a round that keeps the count of rounds. -/
theorem State.latticeUnit_counted_onUnit (s : State) (u n : Nat) {f : LatticeUnit → LatticeUnit}
    (hf : ∀ l, (f l).lastRounds = l.lastRounds) :
    ((s.counted u (n + 1)).onUnit u f).latticeUnit u = f { s.latticeUnit u with lastRounds := n + 1 } := by
  have hc := s.latticeUnit_counted u n
  rw [State.latticeUnit_onUnit_listed, hc]
  rw [hc]
  exact LatticeUnit.ne_default_of_lastRounds (hf _)

theorem State.latticeUnit_counted_onUnit_ne (s : State) {u w : Nat} (h : w ≠ u) (n : Nat) (f : LatticeUnit → LatticeUnit) :
    ((s.counted u n).onUnit u f).latticeUnit w = s.latticeUnit w :=
  (State.latticeUnit_onUnit_ne _ h f).trans (s.latticeUnit_onUnit_ne h _)

/-- The unit of a signing that has ended. -/
theorem State.latticeUnit_counted_freeUnit (s : State) (u n : Nat) : ((s.counted u (n + 1)).freeUnit u).latticeUnit u
    = { s.latticeUnit u with lastRounds := n + 1, running := none } :=
  s.latticeUnit_counted_onUnit u n fun _ => rfl

/-! ### The end of a call touches the cores alone (R256) -/

theorem State.serviceEnd_sz {s t : State} (h : t.sz = s.sz) (core : Nat) (status : Status) :
    t.serviceEnd core status = { t with sz := (s.serviceEnd core status).sz } := by
  have hc : ∀ (p : Prop) [Decidable p] (a b : Sz), (if p then ({ t with sz := a } : State) else { t with sz := b })
      = { t with sz := (if p then ({ s with sz := a } : State) else { s with sz := b }).sz } := fun p _ a b => by
    split <;> rfl
  simp only [State.serviceEnd, State.onSz, State.onCore, State.core, h]
  exact hc _ _ _

/-! ### A round of a signing (R171, R172) -/

theorem UnitOp.roundAccepts_of_candidate {o : UnitOp} {i : Nat} (hi : i < 8) (h : o.accepts (8 * o.rounds + i) = true) :
    o.roundAccepts = true :=
  List.any_eq_true.2 ⟨i, List.mem_range.2 hi, h⟩

theorem UnitOp.roundAccepts_of_none {o : UnitOp} (h : ∀ i < 8, o.accepts (8 * o.rounds + i) = false) :
    o.roundAccepts = false :=
  List.any_eq_false.2 fun i hi => by simp [h i (List.mem_range.1 hi)]

theorem exec_latticeSignRound_due {s : State} {u : Nat} {o : UnitOp} (h : (s.latticeUnit u).running = some o) (hop : o.op = 2)
    (hend : o.roundEnd ≤ s.clock) : exec (.latticeSignRound u) s = .next (s.signRoundEnd u o) := by
  show execLatticeSignRound u s = _
  simp [execLatticeSignRound, h, hop, hend]

/-- A round with an accepted candidate: the unit is free, and a service's signature waits for a second one. -/
theorem State.signRoundEnd_accepted (s : State) (u : Nat) {o : UnitOp} {core : Nat} (hu : o.user = .service core)
    (ha : o.roundAccepts = true) : s.signRoundEnd u o = (((s.counted u (o.rounds + 1)).freeUnit u).onLh fun l => { l with
      toVerify := l.toVerify ++ [(u, { o with user := .serviceVerify core, result := some o.signature })] }).assignWork := by
  simp only [State.signRoundEnd, ha, if_true, State.signatureMade, hu]
  rfl

/-- A round without one, before the twentieth: the next one begins. -/
theorem State.signRoundEnd_again (s : State) (u : Nat) {o : UnitOp} (ha : o.roundAccepts = false) (hn : o.rounds + 1 < 20) :
    s.signRoundEnd u o
      = (s.counted u (o.rounds + 1)).onUnit u fun l => { l with running := some { o with rounds := o.rounds + 1 } } := by
  simp only [State.signRoundEnd, ha, Bool.false_eq_true, if_false, hn, if_true]
  rfl

/-- Unit `u` once its signing has ended with REJECTION_LIMIT. -/
def State.rejected (s : State) (u n : Nat) : State :=
  (((s.counted u n).onLh fun l => { l with rejectionLimits := l.rejectionLimits + 1 }).latch (.unitStat u) 4).freeUnit u

/-- The twentieth round without one: the call ends with REJECTION_LIMIT. -/
theorem State.signRoundEnd_limit (s : State) (u : Nat) {o : UnitOp} {core : Nat} (hu : o.user = .service core)
    (ha : o.roundAccepts = false) (hn : o.rounds = 19) :
    s.signRoundEnd u o = ((s.rejected u 20).serviceEnd core stRejectionLimit).assignWork := by
  simp only [State.signRoundEnd, ha, Bool.false_eq_true, if_false, hn, Nat.lt_irrefl, State.unitFails, hu, State.unitEnds]
  rfl

/-! ### The verification by a second unit (R169, R175) -/

theorem exec_latticeOpComplete_verified {s : State} {u : Nat} {o : UnitOp} {core : Nat} (h : (s.latticeUnit u).running = some o)
    (hu : o.user = .serviceVerify core) (hop : o.op = 3) (hend : o.fin ≤ s.clock) (failed : Bool) :
    exec (.latticeOpComplete u failed) s = .next (s.unitComplete u o failed) := by
  show execLatticeOpComplete u failed s = _
  simp [execLatticeOpComplete, h, hop, hend, UnitOp.elsewhere, hu]

/-- The signature that verifies is written to the service's buffer. -/
theorem State.unitComplete_verified (s : State) (u : Nat) {o : UnitOp} {core : Nat} {r : Bytes}
    (hu : o.user = .serviceVerify core) (hr : o.result = some r) : s.unitComplete u o false
      = (((s.freeUnit u).bufferWrite core o.sigAddr r).serviceEnd core stOk).assignWork := by
  simp only [State.unitComplete, Bool.false_and, Bool.false_eq_true, if_false, State.unitSucceeds, hu, hr, Option.getD_some]

/-- One that does not releases nothing: the call ends with INTERNAL_FAULT, and the unit has a fault. -/
theorem State.unitComplete_failed (s : State) (u : Nat) {o : UnitOp} {core : Nat} (hu : o.user = .serviceVerify core) :
    s.unitComplete u o true = (((s.freeUnit u).unitFault u).serviceEnd core stInternalFault).assignWork := by
  simp only [State.unitComplete, Bool.true_and, UnitOp.checked, hu, if_true, State.unitFails, State.unitEnds]

/-- Unit `u` after a failed check, where it has had none within the hour. -/
def State.firstFault (s : State) (u : Nat) : State :=
  ((s.onLh fun l => { l with faultChecks := l.faultChecks + 1 }).latch (.unitStat u) 2).onUnit u fun l =>
    { l with faults := [s.clock] }

theorem State.firstFault_rest (s : State) (u : Nat) :
    s.firstFault u = { s with lh := (s.firstFault u).lh, latches := (s.firstFault u).latches } := rfl

theorem State.latticeUnit_firstFault {s : State} (hw : mapWf {} s.lh.units = true) (u : Nat) :
    (s.firstFault u).latticeUnit u = { s.latticeUnit u with faults := [s.clock] } :=
  State.latticeUnit_onUnit (s := (s.onLh fun l => { l with faultChecks := l.faultChecks + 1 }).latch (.unitStat u) 2) hw u _

/-- A first fault retires nothing (R175). -/
theorem State.unitFault_first {s : State} {u : Nat} (hw : mapWf {} s.lh.units = true)
    (hf : (s.latticeUnit u).faults = []) (hr : (s.latticeUnit u).retired = false) : s.unitFault u = s.firstFault u := by
  have hcounted : (((s.onLh fun l => { l with faultChecks := l.faultChecks + 1 }).latch (.unitStat u) 2).latticeUnit u).faults
      = [] := hf
  have hkept : ((s.firstFault u).latticeUnit u).retired = false := by rw [State.latticeUnit_firstFault hw]; exact hr
  simp only [State.unitFault, hcounted, List.filter_nil, List.length_singleton, show decide (3 ≤ 1) = false from rfl,
    Bool.or_false]
  exact if_neg (by simp only [Bool.and_eq_true, not_and]; exact fun h => absurd (h.symm.trans hkept) (by decide))

end Sys2Proof.Machine
end

section
open Sys2Proof Sys2Proof.Machine

/-- Settles O37: the three ends of a round, and the two ends of a verification. -/
theorem latticeUnits : Obligations.LatticeUnits := by
  unfold Obligations.LatticeUnits
  intro s u core o hrun
  refine ⟨fun huser hop hend hrounds => ?_, fun r huser hop hres hend => ⟨?_, fun hw hf hr => ?_⟩⟩
  · have hround := exec_latticeSignRound_due hrun hop hend
    have hothers := fun w (hw : w ≠ u) => s.latticeUnit_counted_onUnit_ne hw (o.rounds + 1)
    refine ⟨fun i hi ha => ?_, fun hnone hn => ?_, fun hnone hn => ?_⟩
    · rw [State.signRoundEnd_accepted s u huser (UnitOp.roundAccepts_of_candidate hi ha)] at hround
      exact ⟨_, hround, rfl, fun w hw => hothers w hw fun l => { l with running := none },
        s.latticeUnit_counted_freeUnit u o.rounds, rfl⟩
    · rw [State.signRoundEnd_again s u (UnitOp.roundAccepts_of_none hnone) (by omega)] at hround
      exact ⟨_, hround, rfl, fun w hw => hothers w hw _, s.latticeUnit_counted_onUnit u o.rounds fun _ => rfl⟩
    · rw [State.signRoundEnd_limit s u huser (UnitOp.roundAccepts_of_none hnone) hn] at hround
      refine ⟨_, hround, ?_⟩
      rw [State.serviceEnd_sz (s := s) (t := s.rejected u 20) rfl]
      exact ⟨rfl, s.latticeUnit_counted_freeUnit u 19, rfl⟩
  · rw [exec_latticeOpComplete_verified hrun huser hop hend, State.unitComplete_verified s u huser hres]
  · have hfree : (s.freeUnit u).latticeUnit u = { s.latticeUnit u with running := none } := State.latticeUnit_onUnit hw u _
    have hwf : mapWf {} (s.freeUnit u).lh.units = true := State.onUnit_wf hw u _
    have hfault : (s.freeUnit u).unitFault u = (s.freeUnit u).firstFault u :=
      State.unitFault_first hwf (by rw [hfree]; exact hf) (by rw [hfree]; exact hr)
    have hdone := exec_latticeOpComplete_verified hrun huser hop hend true
    rw [State.unitComplete_failed s u huser, hfault] at hdone
    refine ⟨_, hdone, ?_⟩
    rw [State.serviceEnd_sz (s := s) (t := (s.freeUnit u).firstFault u) rfl]
    refine ⟨?_, (State.latticeUnit_firstFault hwf u).trans (by rw [hfree]; rfl), rfl⟩
    rw [(s.freeUnit u).firstFault_rest u]
    rfl
end

section
/-! PROOF. The statement about the services of SVC (R168, R227, R256): the state in which a call reads its arguments, how a
call that returns or waits ends the instruction, and what each call does where its checks pass. -/

namespace Sys2Proof.Machine

/-! ### The core of a call -/

theorem State.core_onCore_listed (s : State) {n : Nat} {c : SCore} (h : c ≠ {}) : (s.onCore n fun _ => c).core n = c :=
  mapGet_mapSet_listed _ h _ _

/-- LOOP_END moves PC and the loop counts alone (R237). -/
theorem SCore.loopEnd_eq (succ : Word) : ∀ (ks : List (Fin 3)) (c : SCore), ∃ lc pc,
    SCore.loopEnd succ ks c = { c with lc := lc, pc := pc }
  | [], c => ⟨c.lc, succ, rfl⟩
  | k :: ks, c => by
    unfold SCore.loopEnd
    split
    · split
      · obtain ⟨lc, pc, h⟩ := SCore.loopEnd_eq succ ks { c with lc := c.lc.set k 0 }
        exact ⟨lc, pc, h⟩
      · exact ⟨_, _, rfl⟩
    · exact SCore.loopEnd_eq succ ks c

/-- An instruction that retires and goes on leaves the registers, the memories and the slot of its core. -/
theorem SCore.retire_seq_eq (size : Nat) (c : SCore) : ∃ i p r d lc pc, c.retire size .seq =
    { c with instret := i, pend := p, run := r, delay := d, lc := lc, pc := pc } := by
  have hloop : ∀ succ (k : SCore), (∃ i p r d, k = { c with instret := i, pend := p, run := r, delay := d }) →
      ∃ i p r d lc pc, SCore.loopEnd succ [0, 1, 2] k =
        { c with instret := i, pend := p, run := r, delay := d, lc := lc, pc := pc } := fun succ k ⟨_, _, _, _, hk⟩ => by
    obtain ⟨_, _, h⟩ := SCore.loopEnd_eq succ [0, 1, 2] k
    rw [h, hk]
    exact ⟨_, _, _, _, _, _, rfl⟩
  match hd : c.delay with
  | some (some t) =>
    simp only [SCore.retire, hd]
    exact ⟨_, _, _, _, _, _, rfl⟩
  | some none | none =>
    simp only [SCore.retire, hd]
    exact hloop _ _ ⟨_, _, _, _, rfl⟩

/-- Core `n` as a service that it calls leaves it waiting (R256). -/
def State.callingCore (s : State) (n : Nat) : SCore := { (s.seen n).retire 2 .seq with run := .service }

/-- The state in which the call of a service by core `n` reads its arguments. -/
def State.calledBy (s : State) (n : Nat) : State := s.onCore n fun _ => s.callingCore n

theorem State.callingCore_listed (s : State) (n : Nat) : s.callingCore n ≠ {} := fun h => nomatch congrArg SCore.run h

theorem State.core_calledBy (s : State) (n : Nat) : (s.calledBy n).core n = s.callingCore n :=
  s.core_onCore_listed (s.callingCore_listed n)

theorem State.callingCore_keeps (s : State) (n : Nat) : (s.callingCore n).slot = (s.seen n).slot
    ∧ (s.callingCore n).w = (s.seen n).w ∧ (s.callingCore n).dmem = (s.seen n).dmem := by
  obtain ⟨_, _, _, _, _, _, h⟩ := (s.seen n).retire_seq_eq 2
  simp only [State.callingCore, h, and_self]

theorem State.slot_calledBy (s : State) (n : Nat) : ((s.calledBy n).core n).slot = (s.seen n).slot := by
  rw [State.core_calledBy]
  exact (s.callingCore_keeps n).1

theorem State.arg_calledBy (s : State) (n : Nat) (i : Fin 16) : (s.calledBy n).arg n i = (s.seen n).w[i].toNat := by
  obtain ⟨-, hw, -⟩ := s.callingCore_keeps n
  rw [State.arg, State.core_calledBy, hw]

/-- A buffer is read by the core's slot and data memory alone. -/
theorem State.bufferRead_onCore (s : State) {n : Nat} {c c' : SCore} (hc : c ≠ {}) (hc' : c' ≠ {}) (hslot : c.slot = c'.slot)
    (hdmem : c.dmem = c'.dmem) (addr len : Nat) :
    (s.onCore n fun _ => c).bufferRead n addr len = (s.onCore n fun _ => c').bufferRead n addr len := by
  simp only [State.bufferRead, State.bufferPlace, s.core_onCore_listed hc, s.core_onCore_listed hc', hslot, hdmem]
  rfl

/-! ### How a call ends the instruction (R227, R256) -/

section
variable {s : State} {n num : Nat} {call : Call} {t : State} (h : Turn s n 2)
include h

theorem State.service_granted (hg : (s.applet (s.seen n).slot).granted num = true) :
    s.service n num call = match call (s.calledBy n) with
      | (t, some st) => t.serviceEnd n st
      | (t, none) => t := by
  obtain ⟨hn, hactive, hfetch⟩ := h
  simp only [State.seen] at hg
  simp only [State.service, hn, hactive, hfetch, hg, and_self, if_true, Bool.not_true, Bool.false_eq_true, if_false]
  rfl

/-- A service that the image does not grant is a fault. -/
theorem State.service_ungranted (hg : (s.applet (s.seen n).slot).granted num = false) :
    s.service n num call = s.coreFault n ⟨causeSvcInvalid, 0⟩ := by
  obtain ⟨hn, hactive, hfetch⟩ := h
  simp only [State.seen] at hg
  simp only [State.service, hn, hactive, hfetch, hg, and_self, if_true, Bool.not_false]

theorem State.service_returns (hg : (s.applet (s.seen n).slot).granted num = true) {st : Status}
    (hc : call (s.calledBy n) = (t, some st)) : s.service n num call = t.serviceEnd n st := by
  rw [State.service_granted h hg, hc]

theorem State.service_waits (hg : (s.applet (s.seen n).slot).granted num = true) (hc : call (s.calledBy n) = (t, none)) :
    s.service n num call = t := by
  rw [State.service_granted h hg, hc]

end

/-- The services that one command each names. -/
def serviceRows (n : Nat) : List (Nat × Instr) :=
  [(0x01, .random n), (0x02, .hash n), (0x03, .lie n), (0x10, .drawClaim n), (0x11, .drawCommit n), (0x12, .drawRelease n),
    (0x20, .sealRecord n), (0x30, .statsPublish n)]

theorem exec_serviceRows {n : Nat} {row : Nat × Instr} (h : row ∈ serviceRows n) (s : State) :
    exec row.2 s = .next (s.service n row.1 (callOf n row.1))
      ∧ exec (.svc n (BitVec.ofNat 8 row.1)) s = .next (s.service n row.1 (callOf n row.1)) := by
  simp only [serviceRows, List.mem_cons, List.not_mem_nil, or_false] at h
  rcases h with rfl | rfl | rfl | rfl | rfl | rfl | rfl | rfl <;> exact ⟨rfl, rfl⟩

/-! ### HASH (R168, Table 7.4) -/

/-- The algorithms of service 0x02 and the digest that each makes of a message. -/
def digestRows (m : Bytes) : List (Nat × Bytes) :=
  [(1, Config.sha256 m), (2, Config.sha384 m), (3, Config.sha512 m), (4, Config.out .sha3x256 32 [] [m]),
    (5, Config.out .sha3x512 64 [] [m])]

theorem out_length (f : Config.Fn) (n : Nat) (params : List Nat) (args : List Bytes) :
    (Config.out f n params args).length = n := by
  simp [Config.out]

theorem digestOf_row {m : Bytes} {row : Nat × Bytes} (h : row ∈ digestRows m) :
    (row.1 = 0 || 5 < row.1 : Bool) = false ∧ digestOf row.1 m = row.2 ∧ digestBytes row.1 = row.2.length := by
  simp only [digestRows, List.mem_cons, List.not_mem_nil, or_false] at h
  rcases h with rfl | rfl | rfl | rfl | rfl <;> exact ⟨rfl, rfl, (out_length ..).symm⟩

theorem hashCall_digest {x : State} {n len out : Nat} {m : Bytes} {row : Nat × Bytes} (hrow : row ∈ digestRows m)
    (halg : x.arg n 1 = row.1) (hlen : x.arg n 3 = len) (hout : x.arg n 4 = out) (hle : len ≤ 2 ^ 24)
    (hok : x.bufferOk n out row.2.length = true) (hseed : x.en.firstSeed = true)
    (hm : x.bufferRead n (x.arg n 2) len = some m) : hashCall n x = (x.bufferWrite n out row.2, some stOk) := by
  obtain ⟨hknown, hdigest, hbytes⟩ := digestOf_row hrow
  simp only [hashCall, halg, hlen, hout, hknown, hbytes, hok, hseed, hm, hdigest, Nat.not_lt.2 hle, Bool.not_true,
    Bool.false_eq_true, if_false]

theorem hashCall_tooLong {x : State} {n : Nat} (halg : x.arg n 1 = 1) (hlen : 2 ^ 24 < x.arg n 3) :
    hashCall n x = (x.latch (.laneStat (x.applet (x.core n).slot).die) 1, some stLenTooLong) := by
  have hknown : (x.arg n 1 = 0 || 5 < x.arg n 1 : Bool) = false := by rw [halg]; rfl
  simp only [hashCall, hknown, hlen, Bool.false_eq_true, if_false, if_true, returns]

/-! ### RANDOM (R193, R256, R258) -/

section
variable {x : State} {n addr len : Nat} (haddr : x.arg n 1 = addr) (hlen : x.arg n 2 = len) (hpos : 0 < len)
  (hle : len ≤ 4096) (hok : x.bufferOk n addr len = true) (hblock : x.entropyBlock = none)
include haddr hlen hpos hle hok hblock

theorem randomCall_unclaimed (hclaim : x.claimOf n = none) (hlive : (x.drbg (80 + (x.core n).slot)).live = true) :
    randomCall n x = x.randomFrom n addr len := by
  simp only [randomCall, haddr, hlen, Nat.ne_of_gt hpos, Nat.not_lt.2 hle, hok, hblock, hclaim, hlive, Option.isSome_none,
    Bool.false_and, Bool.not_true, Bool.or_self, Bool.false_eq_true, if_false, if_true]

theorem randomCall_claimed {d : DrawClaim} (hclaim : x.claimOf n = some d) (hdata : x.inDataMemory n addr len = true) :
    ∃ y b, randomCall n x = (State.bufferWrite n addr b y, some stOk)
      ∧ (if d.uncommitted then x else x.uncommit (x.core n).slot).PoolDrew y := by
  simp only [randomCall, haddr, hlen, Nat.ne_of_gt hpos, Nat.not_lt.2 hle, hok, hblock, hclaim, hdata, Option.isSome_some,
    Bool.true_and, Bool.not_true, Bool.or_self, Bool.false_eq_true, if_false]
  exact ⟨_, _, rfl, State.generate_poolDrew _ (by decide) ..⟩

end

/-- The slot's generator delivers by the epoch that the applet holds. -/
theorem State.randomFrom_current {x : State} {n : Nat} (addr len : Nat)
    (h : (x.drbg (80 + (x.core n).slot)).epoch = (x.applet (x.core n).slot).rngEpoch) :
    ∃ y b, x.randomFrom n addr len = (State.bufferWrite n addr b y, some stOk) ∧ b.length = len ∧ x.PoolDrew y := by
  simp only [State.randomFrom, State.generateFor, h, if_true]
  exact ⟨_, _, rfl, out_length .., x.generate_poolDrew (by omega) ..⟩

theorem State.randomFrom_stale {x : State} {n : Nat} (addr len : Nat)
    (h : (x.drbg (80 + (x.core n).slot)).epoch ≠ (x.applet (x.core n).slot).rngEpoch) :
    x.randomFrom n addr len = (x, some stStaleOwner) := by
  simp only [State.randomFrom, State.generateFor, h, if_false]

theorem State.PoolDrew.sz {s u : State} (h : s.PoolDrew u) : u.sz = s.sz := by
  obtain ⟨_, _, _, rfl⟩ := h
  rfl

theorem State.draw_of_claimOf {x : State} {n : Nat} {d : DrawClaim} (h : x.claimOf n = some d) : x.sz.draw = some d := by
  obtain ⟨e, he, hd⟩ := Option.bind_eq_some_iff.1 h
  split at hd
  · exact he.trans hd
  · cases hd

theorem State.wakeSlot_draw (s : State) (a : Nat) : (s.wakeSlot a).sz.draw = s.sz.draw :=
  List.foldlRecOn (motive := fun u : State => u.sz.draw = s.sz.draw) _ _ rfl fun _ hs _ _ => hs

theorem State.uncommit_draw (s : State) (a : Nat) :
    (s.uncommit a).sz.draw = s.sz.draw.map fun (d : DrawClaim) => { d with uncommitted := true } :=
  State.wakeSlot_draw _ a

theorem State.bufferWrite_draw (s : State) (n addr : Nat) (b : Bytes) : (s.bufferWrite n addr b).sz.draw = s.sz.draw := by
  have hw : ∀ space off, (s.writeResult n space off b).sz.draw = s.sz.draw := fun space off => by
    simp only [State.writeResult]
    split <;> rfl
  simp only [State.bufferWrite]
  split
  · exact hw ..
  · exact hw ..
  · rfl

theorem State.serviceEnd_draw (s : State) (core : Nat) (status : Status) :
    (s.serviceEnd core status).sz.draw = s.sz.draw := by
  simp only [State.serviceEnd]
  split <;> rfl

/-- After a RANDOM of a slot that holds the claim its phase is uncommitted, whether or not it was before. -/
theorem State.uncommitted_draw {x : State} {d : DrawClaim} (h : x.sz.draw = some d) (a : Nat) :
    (if d.uncommitted then x else x.uncommit a).sz.draw = some { d with uncommitted := true } := by
  split
  next hu => rw [h, ← hu]
  next => rw [State.uncommit_draw, h]; rfl

/-! ### LIE and STATS_PUBLISH (R256) -/

theorem lieCall_idle {x : State} {n e addr : Nat} {b : Bytes} (haddr : x.arg n 1 = addr) (hbar : x.barred n = false)
    (hb : x.bufferRead n addr 64 = some b)
    (he : (x.directEngines (x.applet (x.core n).slot).die (x.applet (x.core n).slot).owner).find?
      (fun e => (x.engine e).running.isNone) = some e) :
    let r := x.lieStart e ⟨(List.range 8).map fun i => leAt b (8 * i) 8⟩ (.service n) (x.applet (x.core n).slot).owner
    (r.2 = none → lieCall n x = (r.1.awaits n (.lie e), none))
      ∧ ∀ st d, r.2 = some (st, d) → lieCall n x = (r.1, some st) := by
  have hown : x.directEngines (x.applet (x.core n).slot).die (x.applet (x.core n).slot).owner ≠ [] := fun h => by
    rw [h] at he
    cases he
  intro r
  have hr : x.lieStart e ⟨(List.range 8).map fun i => leAt b (8 * i) 8⟩ (.service n) (x.applet (x.core n).slot).owner
      = (r.1, r.2) := rfl
  simp only [lieCall, haddr, hbar, hb, hown, he, hr, Bool.false_eq_true, if_false]
  refine ⟨fun h => ?_, fun st d h => ?_⟩ <;> rw [h]

theorem statsPublishCall_empty {x : State} {n : Nat} (hbar : x.barred n = false) (hlen : x.arg n 2 = 0) :
    statsPublishCall n x = (x, some stLenZero) := by
  simp only [statsPublishCall, hbar, hlen, Bool.false_eq_true, if_false, if_true, returns]

theorem statsPublishCall_tooLong {x : State} {n : Nat} (hbar : x.barred n = false) (hlen : 4096 < x.arg n 2) :
    statsPublishCall n x = (x, some stLenTooLong) := by
  simp only [statsPublishCall, hbar, Nat.ne_of_gt (Nat.zero_lt_of_lt hlen), hlen, Bool.false_eq_true, if_false, if_true, returns]

theorem statsPublishCall_body {x : State} {n : Nat} {body : Bytes} (hbar : x.barred n = false) (hpos : 0 < x.arg n 2)
    (hle : x.arg n 2 ≤ 4096) (hbody : x.bufferRead n (x.arg n 1) (x.arg n 2) = some body) :
    statsPublishCall n x = (x.append (x.appletRecord 0x42 0 (x.core n).slot 0 0 body) [], some stOk) := by
  simp only [statsPublishCall, hbar, Nat.ne_of_gt hpos, Nat.not_lt.2 hle, hbody, Bool.false_eq_true, if_false]

/-! ### LATTICE (R168, R170, R173, R177) -/

/-- A service's operation begins on unit `u` with what the unit has drawn, zeros for deterministic signing (R177). -/
theorem State.beginService_delivered {x : State} {core u : Nat} {o : UnitOp} (h : x.unitBlock o = none) :
    ∃ y rnd, x.beginService core u o = (y.startUnit u { o with rnd := rnd }).awaits core (.lattice u) ∧ x.UnitDrew y
      ∧ (o.fixed = true → rnd = List.replicate 32 0) := by
  simp only [State.beginService, h]
  exact ⟨_, _, rfl, x.unitBytes_unitDrew .., fun hf => if_pos hf⟩

/-- It runs there, and the call waits for it; the draw and the unit apart, nothing changes. -/
theorem State.beginService_runs {x : State} {core u : Nat} {o : UnitOp} (h : x.unitBlock o = none) :
    ∃ t p, x.beginService core u o = t ∧ t = { x with lh := t.lh, sz := t.sz, en := t.en, pd := t.pd, freeCtr := t.freeCtr }
      ∧ (t.latticeUnit u).running = some p ∧ mapGet none t.sz.outstanding core = some (.lattice u)
      ∧ p = { o with rnd := p.rnd, start := x.clock } ∧ (o.fixed = true → p.rnd = List.replicate 32 0) := by
  obtain ⟨_, rnd, hbegin, ⟨_, _, _, _, rfl⟩, hrnd⟩ := State.beginService_delivered (core := core) (u := u) h
  exact ⟨_, _, hbegin, rfl, State.latticeUnit_startUnit .., mapGet_mapSet_listed _ (by simp) _ _, rfl, hrnd⟩

theorem State.unitBlock_delivers {x : State} (h : x.entropyBlock = none) (o : UnitOp) : x.unitBlock o = none := by
  simp only [State.unitBlock, h, ite_self]

/-- A block that passes every check goes to the unit that is free for it. -/
theorem latticeCall_begins {x : State} {n k addr owner : Nat} {raw : Bytes} {b : LatticeBlock} (haddr : x.arg n 1 = addr)
    (howner : (x.applet (x.core n).slot).owner = owner) (hbar : x.barred n = false) (hraw : x.bufferRead n addr 40 = some raw)
    (hb : latticeBlock raw = b) (hvalid : b.valid = true) (hmaint : b.fixedRnd raw = true → x.lc.maint = true)
    (hlens : b.op = 2 ∨ b.op = 3 → b.inLen ≤ 16384 ∧ b.ctxLen ≤ 255) (hbuffers : x.latticeBuffers n b = true)
    (hhandle : b.handle ≠ 0 → (x.latticeHandle b owner).isSome = true) (hblock : x.entropyBlock = none)
    (hunit : x.clientUnit (n / 32) = some k) : latticeCall n x
      = (x.beginService n k (x.latticeInputs n b (x.latticeHandle b owner) (b.fixedRnd raw)), none) := by
  have hfixed : (b.fixedRnd raw && !x.lc.maint) = false := by
    cases hf : b.fixedRnd raw with
    | false => rfl
    | true => rw [hmaint hf]; rfl
  have hshort : ((b.op = 2 || b.op = 3) && (16384 < b.inLen || 255 < b.ctxLen) : Bool) = false := by
    by_cases hop : b.op = 2 ∨ b.op = 3
    · have := hlens hop
      simp; omega
    · simp; omega
  have hkey : (b.handle ≠ 0 && (x.latticeHandle b owner).isNone : Bool) = false := by
    by_cases h0 : b.handle = 0
    · simp [h0]
    · rw [Option.isNone_eq_false_iff.2 (hhandle h0), Bool.and_false]
  simp only [latticeCall, haddr, howner, hbar, hraw, hb, hvalid, State.latticeInputs, hfixed, hshort, hbuffers, hkey,
    State.unitBlock_delivers hblock, hunit, Bool.not_true, Bool.or_self, Bool.false_eq_true, if_false]

/-- The rows of the operations of service 0x04. -/
def latticeRows (n : Nat) : List (Nat × Instr) :=
  [(1, .latticeKeygen n), (2, .latticeSign n), (3, .latticeVerify n), (4, .latticeEncaps n), (5, .latticeDecaps n)]

theorem exec_latticeRows {n : Nat} {row : Nat × Instr} (h : row ∈ latticeRows n) (s : State) :
    exec row.2 s = .next (s.latticeRow n row.1) := by
  simp only [latticeRows, List.mem_cons, List.not_mem_nil, or_false] at h
  rcases h with rfl | rfl | rfl | rfl | rfl <;> rfl

/-- The row of the operation that the block names is the service. -/
theorem State.latticeRow_named {s : State} {n : Nat} {raw : Bytes} (h : (s.seen n).active = true)
    (hraw : (s.calledBy n).bufferRead n (s.seen n).w[1].toNat 40 = some raw) :
    s.latticeRow n (latticeBlock raw).op = s.service n 0x04 (latticeCall n) := by
  have hseen : s.seen n ≠ {} := fun hd => by rw [hd] at h; exact absurd h (by decide)
  obtain ⟨hslot, -, hdmem⟩ := s.callingCore_keeps n
  have hread : (s.onCore n fun _ => s.seen n).bufferRead n (s.seen n).w[1].toNat 40 = some raw :=
    (s.bufferRead_onCore hseen (s.callingCore_listed n) hslot.symm hdmem.symm ..).trans hraw
  simp only [State.seen] at hread
  simp only [State.latticeRow, hread, if_true]

end Sys2Proof.Machine
end

section
open Sys2Proof Sys2Proof.Machine

/-- Settles O42: each clause is what its call does on the arguments as the call reads them. -/
theorem services : Obligations.Services := by
  unfold Obligations.Services
  intro s n hturn c u ap w
  have harg : ∀ i, u.arg n i = w i := s.arg_calledBy n
  have hslot : (u.core n).slot = c.slot := s.slot_calledBy n
  have happlet : u.applet (u.core n).slot = ap := congrArg u.applet hslot
  refine ⟨fun row hrow => ?rows, fun hg m hm hle hseed row hrow halg hok => ?hash, fun hg halg hlen => ?long,
    fun hg hpos hle hok hblock hclaim hlive => ?random, fun hg hpos hle hok hblock d hclaim hdata hlive => ?draw, ?lie,
    ?lattice, fun hg hbar => ?stats⟩
  case rows =>
    obtain ⟨hrow, hsvc⟩ := exec_serviceRows hrow s
    exact ⟨hsvc.trans hrow.symm, fun hg => by rw [hrow, State.service_ungranted hturn hg]⟩
  case hash =>
    have hcall := hashCall_digest (x := u) hrow ((harg 1).trans halg) (harg 3) (harg 4) hle hok hseed (by rw [harg 2]; exact hm)
    exact congrArg _ (State.service_returns hturn hg hcall)
  case long =>
    have hcall := hashCall_tooLong (x := u) ((harg 1).trans halg) (by rw [harg 3]; exact hlen)
    rw [happlet] at hcall
    exact congrArg _ (State.service_returns hturn hg hcall)
  case random =>
    have hcall := randomCall_unclaimed (x := u) (harg 1) (harg 2) hpos hle hok hblock hclaim (by rw [hslot]; exact hlive)
    refine ⟨fun hepoch => ?_, fun hepoch => ?_⟩
    · obtain ⟨y, bytes, hfrom, hlen, _, _, _, rfl⟩ := State.randomFrom_current (x := u) (n := n) (w 1) (w 2)
        (by rw [happlet, hslot]; exact hepoch)
      exact ⟨_, bytes, hlen, congrArg _ (State.service_returns hturn hg (hcall.trans hfrom)), rfl⟩
    · have hfrom := State.randomFrom_stale (x := u) (n := n) (w 1) (w 2) (by rw [happlet, hslot]; exact hepoch)
      exact congrArg _ (State.service_returns hturn hg (hcall.trans hfrom))
  case draw =>
    obtain ⟨y, bytes, hcall, hdrew⟩ := randomCall_claimed (x := u) (harg 1) (harg 2) hpos hle hok hblock hclaim hdata
    refine ⟨_, congrArg Host.Outcome.next (State.service_returns hturn hg hcall), ?_⟩
    rw [State.serviceEnd_draw, State.bufferWrite_draw, hdrew.sz]
    exact State.uncommitted_draw (State.draw_of_claimOf hclaim) _
  case lie =>
    intro hg hbar b e hb he r
    obtain ⟨hwaits, hends⟩ := lieCall_idle (x := u) (harg 1) hbar hb (by rw [happlet]; exact he)
    rw [happlet] at hwaits hends
    exact ⟨fun hr => congrArg _ (State.service_waits hturn hg (hwaits hr)),
      fun st d hr => congrArg _ (State.service_returns hturn hg (hends st d hr))⟩
  case lattice =>
    intro hg hbar raw k hraw b hvalid hmaint hlens hbuffers hhandle hblock hunit row hrow hop
    obtain ⟨-, hactive, -⟩ := id hturn
    have hservice : exec row.2 s = .next (s.service n 0x04 (latticeCall n)) := by
      rw [exec_latticeRows hrow, ← hop]
      exact congrArg _ (State.latticeRow_named hactive hraw)
    have hcall := latticeCall_begins (x := u) (harg 1) (congrArg AppletSlot.owner happlet) hbar hraw rfl hvalid hmaint hlens
      hbuffers hhandle hblock hunit
    obtain ⟨t, o, hbegin, hrest, hrun, hwait, ho, hzero⟩ := State.beginService_runs (x := u) (core := n) (u := k)
      (State.unitBlock_delivers hblock (u.latticeInputs n b (s.latticeHandle b ap.owner) (b.fixedRnd raw)))
    refine ⟨hservice.symm, t, o, ?_, hrest, hrun, hwait, ho, hzero⟩
    rw [hservice, ← hbegin]
    exact congrArg _ (State.service_waits hturn hg hcall)
  case stats =>
    refine ⟨fun hlen => ?_, fun hlen => ?_, fun body hpos hle hbody => ?_⟩
    · exact congrArg _ (State.service_returns hturn hg (statsPublishCall_empty (x := u) hbar ((harg 2).trans hlen)))
    · exact congrArg _ (State.service_returns hturn hg (statsPublishCall_tooLong (x := u) hbar (by rw [harg 2]; exact hlen)))
    · have hcall := statsPublishCall_body (x := u) hbar (by rw [harg 2]; exact hpos) (by rw [harg 2]; exact hle)
        (by rw [harg 1, harg 2]; exact hbody)
      rw [hslot] at hcall
      exact congrArg _ (State.service_returns hturn hg hcall)
end

section
/-! PROOF. The DRBG Bank (R193, R194, R199 to R203): one element of the Bank's tables, the block that a seed takes from the
reserve, what a reseed and a generate leave of the Bank, the register pair, and the draw seed. -/

namespace Sys2Proof.Machine

/-! ### One element of the Bank's tables -/

theorem State.drbg_onDrbg_ne (s : State) {i j : Nat} (h : j ≠ i) (f : Instance → Instance) :
    (s.onDrbg i f).drbg j = s.drbg j :=
  mapGet_mapSet_ne _ _ _ _ _ h

/-- A live generator is listed. -/
theorem State.drbg_onDrbg_live {s : State} {i : Nat} {f : Instance → Instance} (h : (f (s.drbg i)).live = true) :
    (s.onDrbg i f).drbg i = f (s.drbg i) :=
  mapGet_mapSet_listed _ (fun e => by rw [State.drbg, e] at h; cases h) _ _

theorem State.drbg_onDrbg {s : State} (hw : mapWf {} s.en.instances = true) (i : Nat) (f : Instance → Instance) :
    (s.onDrbg i f).drbg i = f (s.drbg i) :=
  mapGet_mapSet_self _ _ _ _ ((MapWf_iff _ _).1 hw)

theorem State.fifo_onFifo_ne (s : State) {n m : Nat} (h : m ≠ n) (f : List (BitVec 64) → List (BitVec 64)) :
    (s.onFifo n f).fifo m = s.fifo m :=
  mapGet_mapSet_ne _ _ _ _ _ h

/-- A FIFO that holds a word is listed. -/
theorem State.fifo_onFifo_filled {s : State} {n : Nat} {f : List (BitVec 64) → List (BitVec 64)} (h : f (s.fifo n) ≠ []) :
    (s.onFifo n f).fifo n = f (s.fifo n) :=
  mapGet_mapSet_listed _ h _ _

/-! ### What a seed takes from the reserve (R188, R194) -/

theorem State.takeBlock_stocked {s : State} {b : Bytes} {bs : List Bytes} (h : s.en.reserve = b :: bs) :
    s.takeBlock = (b, s.onEn fun e => { e with reserve := bs }) := by
  simp only [State.takeBlock, h]

/-- A generator as the block `b` reseeds it at the time `now`, with the limits in force in state `t` (R194, R209). -/
def Instance.reseeded (b : Bytes) (now : Nat) (t : State) (d : Instance) : Instance := { d with
  secret := Config.out .drbgReseed 48 [] [d.secret, b]
  requests := 0
  lastReseed := now
  maxRequests := t.reseedRequests
  maxInterval := t.reseedInterval }

theorem State.reseed_stocked {s : State} {b : Bytes} {bs : List Bytes} (h : s.en.reserve = b :: bs) (n : Nat) :
    ∃ pd, s.reseed n = ((({ s with pd := pd } : State).onEn fun e => { e with reserve := bs }).onDrbg n
      (Instance.reseeded b s.clock { s with pd := pd })).noteReseed n := by
  obtain ⟨_, h8⟩ := s.applyNum_eq 0x4800 8 0
  obtain ⟨pd, h9⟩ := (s.applyNum 0x4800 8 0).applyNum_eq 0x4800 9 0
  rw [h8] at h9
  refine ⟨pd, ?_⟩
  rw [State.reseed, h8, h9, State.takeBlock_stocked (s := { s with pd := pd }) h]
  rfl

theorem State.noteReseed_eq (s : State) (n : Nat) : ∃ l, s.noteReseed n = { s with latches := l } := by
  simp only [State.noteReseed]
  split <;> exact ⟨_, rfl⟩

theorem State.live_of_delivers {s : State} {n : Nat} (h : s.delivers n = true) : (s.drbg n).live = true := by
  rw [State.delivers, Bool.and_eq_true] at h
  exact h.1

/-- A reseed of a live generator changes that generator, the reserve, the two EDGE objects and RESEEDED alone. -/
theorem State.reseed_live {s : State} {n : Nat} {b : Bytes} {bs : List Bytes} (hlive : (s.drbg n).live = true)
    (h : s.en.reserve = b :: bs) : ∃ t, s.reseed n = t ∧ t = { s with en := t.en, pd := t.pd, latches := t.latches }
      ∧ t.en.reserve = bs ∧ (∀ m, m ≠ n → t.drbg m = s.drbg m) ∧ t.drbg n = (s.drbg n).reseeded b s.clock t := by
  obtain ⟨pd, hreseed⟩ := State.reseed_stocked h n
  obtain ⟨l, hl⟩ := State.noteReseed_eq ((({ s with pd := pd } : State).onEn fun e => { e with reserve := bs }).onDrbg n
    (Instance.reseeded b s.clock { s with pd := pd })) n
  refine ⟨_, hreseed.trans hl, rfl, rfl, fun m hm => State.drbg_onDrbg_ne _ hm _, ?_⟩
  exact State.drbg_onDrbg_live (s := ({ s with pd := pd } : State).onEn fun e => { e with reserve := bs }) hlive

theorem exec_drbgReseedCount_due {s : State} {n : Nat} (hd : s.delivers n = true)
    (h : (s.drbg n).maxRequests ≤ (s.drbg n).requests) : exec (.drbgReseedCount n) s = .next (s.reseed n) := by
  show execDrbgReseedCount n s = _
  simp only [execDrbgReseedCount, State.reseedIf, hd, h, decide_true, Bool.and_self, if_true]

theorem exec_drbgReseedInterval_due {s : State} {n : Nat} (hd : s.delivers n = true)
    (h : (s.drbg n).lastReseed + (s.drbg n).maxInterval * 1000000 ≤ s.clock) :
    exec (.drbgReseedInterval n) s = .next (s.reseed n) := by
  show execDrbgReseedInterval n s = _
  simp only [execDrbgReseedInterval, State.reseedIf, hd, h, decide_true, Bool.and_self, if_true]

/-! ### A generator starts (R193, R194) -/

/-- What an instantiation from the entropy input `e` makes of a generator: its epoch stays. -/
theorem State.drbg_seedInstance (s : State) (n : Nat) (e : Bytes) : (s.seedInstance n e).drbg n = { s.drbg n with
    live := true
    secret := Config.out .drbgInstantiate 48 [] [e, s.personalisation n]
    requests := 0
    lastReseed := s.clock
    maxRequests := s.reseedRequests
    maxInterval := s.reseedInterval } :=
  State.drbg_onDrbg_live rfl

/-- The personalisation string is of the boot count and the generator's epoch. -/
theorem State.personalisation_congr {s t : State} {n : Nat} (hb : t.pwr.bootCount = s.pwr.bootCount)
    (he : (t.drbg n).epoch = (s.drbg n).epoch) : t.personalisation n = s.personalisation n := by
  rw [State.personalisation, hb, he, State.personalisation]

theorem State.instantiate_stocked {s : State} {b : Bytes} {bs : List Bytes} (h : s.en.reserve = b :: bs) (n : Nat) :
    s.instantiate n = (s.onEn fun e => { e with reserve := bs }).seedInstance n b := by
  rw [State.instantiate, State.takeBlock_stocked h]

theorem State.mem_instancesNow {s : State} {n : Nat} (hn : n < 256) (hdraw : n ≠ 76) (hlatch : s.en.latch = false) :
    n ∈ s.instancesNow := by
  simp [State.instancesNow, hn, hdraw, hlatch]

theorem exec_drbgReinstantiate_due {s : State} {n : Nat} (hseed : s.en.firstSeed = true) (hstop : s.en.stopped = false)
    (hlive : (s.drbg n).live = false) (hnow : n ∈ s.instancesNow) (hmode : s.pwr.mode ≠ .quarantine) :
    exec (.drbgReinstantiate n) s = .next (((s.instantiate n).noteReseed n).resumeRandoms n) := by
  show execDrbgReinstantiate n s = _
  simp [execDrbgReinstantiate, hseed, hstop, hlive, hnow, hmode]

/-! ### What the Bank's requests leave of it -/

/-- The Bank `f` is `e` but for its generators and for blocks of the reserve that are gone. -/
def En.Drawn (e f : En) : Prop := ∃ r m, f = { e with reserve := r, instances := m } ∧ r.length ≤ e.reserve.length

theorem En.Drawn.refl (e : En) : e.Drawn e := ⟨_, _, rfl, Nat.le_refl _⟩

theorem En.Drawn.trans {e f g : En} (h : e.Drawn f) (h' : f.Drawn g) : e.Drawn g := by
  obtain ⟨_, _, rfl, hr⟩ := h
  obtain ⟨_, _, rfl, hr'⟩ := h'
  exact ⟨_, _, rfl, Nat.le_trans hr' hr⟩

theorem State.applyNum_en (s : State) (index sub inst : Nat) : (s.applyNum index sub inst).en = s.en := by
  obtain ⟨_, h⟩ := s.applyNum_eq index sub inst
  rw [h]

theorem State.takeBlock_drawn (s : State) : s.en.Drawn s.takeBlock.2.en := by
  unfold State.takeBlock
  split
  next b bs h => exact ⟨bs, _, rfl, by rw [h]; exact Nat.le_succ _⟩
  next => exact .refl s.en

theorem State.onDrbg_drawn (s : State) (i : Nat) (f : Instance → Instance) : s.en.Drawn (s.onDrbg i f).en :=
  ⟨_, _, rfl, Nat.le_refl _⟩

theorem State.noteReseed_en (s : State) (i : Nat) : (s.noteReseed i).en = s.en := by
  obtain ⟨_, h⟩ := s.noteReseed_eq i
  rw [h]

theorem State.reseed_drawn (s : State) (i : Nat) : s.en.Drawn (s.reseed i).en := by
  have hb := State.takeBlock_drawn ((s.applyNum 0x4800 8 0).applyNum 0x4800 9 0)
  rw [State.applyNum_en, State.applyNum_en] at hb
  rw [State.reseed, State.noteReseed_en]
  exact hb.trans (State.onDrbg_drawn ..)

theorem State.generate_drawn (s : State) (i n : Nat) (resist : Bool) : s.en.Drawn (s.generate i n resist).2.en := by
  simp only [State.generate]
  split
  · exact (s.reseed_drawn i).trans (State.onDrbg_drawn ..)
  · exact s.onDrbg_drawn ..

/-! ### The register pair (R199 to R201) -/

theorem exec_rngDataRead_aligned {s : State} {loc : Loc} {n size : Nat} {upper : Bool}
    (h : s.reaches loc.viewer loc = true) (hw : s.openWord loc 0 = some (.rngData n, upper)) (hs : size = 4 ∨ size = 8)
    (ha : loc.offset % size = 0) : exec (.rngDataRead loc size) s = .next (s.rngRead loc.viewer loc n size) := by
  have hok : ((size ≠ 4 && size ≠ 8) || loc.offset % size ≠ 0 : Bool) = false := by
    rcases hs with rfl | rfl <;> simp [ha]
  show execRngDataRead loc size s = _
  simp only [execRngDataRead, h, hok, hw, Bool.not_true, Bool.false_eq_true, if_false]

/-- An 8-byte read of a pair that holds words gives the oldest. -/
theorem State.rngRead_word {s : State} {n : Nat} {w : BitVec 64} {ws : List (BitVec 64)} (hf : s.fifo n = w :: ws)
    (hb : s.entropyBlock = none) (hl : (s.drbg n).live = true) (v : Viewer) (loc : Loc) :
    s.rngRead v loc n 8 = (s.onFifo n fun _ => ws).emit (.readData v loc w.toNat) := by
  have hc : s.rngCause n 8 = 0 := by simp [State.rngCause, hb, hl, hf]
  simp [State.rngRead, hc, hf]

/-- A read of another size is an error of cause 4. -/
theorem State.rngRead_size {size : Nat} (h : size ≠ 8) (s : State) (v : Viewer) (loc : Loc) (n : Nat) :
    s.rngRead v loc n size = (s.rngError n 4).emit (.readData v loc 0) := by
  have hc : s.rngCause n size = 4 := by simp [State.rngCause, h]
  simp [State.rngRead, hc]

theorem State.tenant_mem_rcViewers_rngStat (s : State) (n : Nat) : .tenant n ∈ s.rcViewers (.rngStat n) := by
  simp only [State.rcViewers]
  split <;> simp_all

/-- ERR stands for the tenant whose pair it is (Table 8.6). -/
theorem State.testBit_rngError (s : State) (n cause : Nat) :
    ((s.rngError n cause).latched (.rngStat n) (.tenant n)).testBit 0 = true := by
  refine testBit_latchEach (.rngStat n) (bits := fun m k => if bitsOf (mapGet 0 m k) 7 4 = 0 then 1 + 16 * cause else 1)
    (fun m k => ?_) _ _ (.tenant n) (.inl (s.tenant_mem_rcViewers_rngStat n))
  split
  · simp [Nat.testBit_zero]
    omega
  · rfl

theorem rngWords_length (b : Bytes) : (rngWords b).length = b.length / 8 := by simp [rngWords]

/-- A refill of a pair that is half empty: the Bank's request, and 16 words more. -/
theorem exec_rngFifoRefill_due {s : State} {n : Nat} (hn : n < 64) (hd : s.delivers n = true)
    (hl : (s.fifo n).length ≤ 16) : exec (.rngFifoRefill n) s
      = .next ((s.generate n 128 false).2.onFifo n fun f => f ++ rngWords (s.generate n 128 false).1) := by
  show execRngFifoRefill n s = _
  simp only [execRngFifoRefill, hn, hd, hl, decide_true, Bool.and_self, if_true]

theorem State.generate_fifo (s : State) (i n : Nat) (resist : Bool) (m : Nat) :
    (s.generate i n resist).2.fifo m = s.fifo m := by
  obtain ⟨_, _, h, -⟩ := s.generate_drawn i n resist
  rw [State.fifo, h]
  rfl

theorem State.generate_length (s : State) (i n : Nat) (resist : Bool) : (s.generate i n resist).1.length = n :=
  out_length ..

/-! ### The draw seed (R202) -/

theorem State.wakeSlot_eq (s : State) (a : Nat) : ∃ cs, s.wakeSlot a = { s with sz := { s.sz with cores := cs } } :=
  List.foldlRecOn (motive := fun u : State => ∃ cs, u = { s with sz := { s.sz with cores := cs } }) _ _ ⟨_, rfl⟩
    fun u hu _ _ => by
      obtain ⟨_, rfl⟩ := hu
      exact ⟨_, rfl⟩

theorem State.serviceEnd_eq (s : State) (core : Nat) (status : Status) :
    ∃ cs o, s.serviceEnd core status = { s with sz := { s.sz with cores := cs, outstanding := o } } := by
  simp only [State.serviceEnd]
  split <;> exact ⟨_, _, rfl⟩

theorem State.wakeSlot_serviceEnd_eq (s : State) (a core : Nat) (status : Status) : ∃ cs o,
    (s.wakeSlot a).serviceEnd core status = { s with sz := { s.sz with cores := cs, outstanding := o } } := by
  obtain ⟨_, hwake⟩ := s.wakeSlot_eq a
  obtain ⟨_, _, hend⟩ := (s.wakeSlot a).serviceEnd_eq core status
  rw [hend, hwake]
  exact ⟨_, _, rfl⟩

/-- The Bank once the generator for draws has started from an Anchor block, whose rest is `bs`, and the Vault block. -/
def State.drawSeeded (anchor vault : Bytes) (bs : List Bytes) (s : State) : State :=
  (((s.advanceInstance 76).onEn fun e => { e with reserve := bs }).onEn fun e =>
    { e with drawWait := none, vaultBlock := none }).seedInstance 76 (drawSeed anchor vault)

/-- The generator for draws starts under its next epoch. -/
theorem State.drbg_drawSeeded {s : State} (hw : mapWf {} s.en.instances = true) (anchor vault : Bytes) (bs : List Bytes) :
    let t := s.drawSeeded anchor vault bs
    (t.drbg 76).live = true ∧ (t.drbg 76).epoch = ((s.drbg 76).epoch + 1) % 65536
      ∧ (t.drbg 76).secret = Config.out .drbgInstantiate 48 [] [drawSeed anchor vault, t.personalisation 76] := by
  let x := ((s.advanceInstance 76).onEn fun e => { e with reserve := bs }).onEn fun e =>
    { e with drawWait := none, vaultBlock := none }
  have hx : x.drbg 76 = { epoch := ((s.drbg 76).epoch + 1) % 65536 } :=
    State.drbg_onDrbg hw 76 fun d => { epoch := (d.epoch + 1) % 65536 }
  have ht := x.drbg_seedInstance 76 (drawSeed anchor vault)
  intro t
  have ht : t.drbg 76 = _ := ht
  have hp : t.personalisation 76 = x.personalisation 76 := State.personalisation_congr rfl (by rw [ht])
  rw [hp, ht, hx]
  exact ⟨rfl, rfl, rfl⟩

/-- The Sezel processor once the claim of slot `a` has become a draw, with the next number (R202, R258). -/
def Sz.drawBegun (a : Nat) (z : Sz) : Sz := { z with
  drawCount := z.drawCount + 1
  draw := some { slot := a, seq := z.drawCount + 1 } }

/-- DRAW_SEED_READY while a claim waits: the claim proceeds into Draw. -/
theorem exec_drawSeedReady_claimed {s : State} {c : Nat} {v b : Bytes} {bs : List Bytes} (hc : s.en.drawWait = some c)
    (hv : s.en.vaultBlock = some v) (hb : s.en.reserve = b :: bs) (hm : s.pwr.mode = .service)
    (he : s.entropyBlock = none) : ∃ cs o, exec .drawSeedReady s = .next { s with
      en := (s.drawSeeded b v bs).en
      sz := { s.sz.drawBegun (s.core c).slot with cores := cs, outstanding := o }
      pwr := { s.pwr with mode := .draw } } := by
  have hblock : (s.advanceInstance 76).takeBlock = _ := State.takeBlock_stocked hb
  have hgo : (decide (s.pwr.mode = .service) && decide (s.entropyBlock = none)) = true := by simp [hm, he]
  obtain ⟨e, hseeded⟩ : ∃ e, s.drawSeeded b v bs = { s with en := e } := ⟨_, rfl⟩
  obtain ⟨cs, o, hend⟩ := State.wakeSlot_serviceEnd_eq { s with
    en := e
    sz := s.sz.drawBegun (s.core c).slot
    pwr := { s.pwr with mode := .draw } } (s.core c).slot c stOk
  refine ⟨cs, o, ?_⟩
  rw [hseeded]
  rw [State.drawSeeded] at hseeded
  show execDrawSeedReady s = _
  simp only [execDrawSeedReady, hc, hv, hgo, if_true, hblock, hseeded]
  exact congrArg Host.Outcome.next hend

end Sys2Proof.Machine
end

section
open Sys2Proof Sys2Proof.Machine

/-- Settles O39: each clause is what its command does where what it waits for has come. -/
theorem drbgBank : Obligations.DrbgBank := by
  unfold Obligations.DrbgBank
  intro s
  refine ⟨fun n b bs hd hb => ?reseed, fun n b bs hn hdraw hseed hstop hlatch hlive hb hmode => ?start,
    fun loc n upper w ws hr hw hf hblock hlive => ⟨fun ha => ?word, fun ha => ?half⟩, fun n hn hd hl => ?refill,
    fun c v b bs hwf hc hm hblock hv hb => ?draw⟩
  case reseed =>
    obtain ⟨t, rfl, hseeded⟩ := State.reseed_live (State.live_of_delivers hd) hb
    exact ⟨fun hdue => ⟨_, exec_drbgReseedCount_due hd hdue, hseeded⟩,
      fun hdue => ⟨_, exec_drbgReseedInterval_due hd hdue, hseeded⟩⟩
  case start =>
    have hexec := exec_drbgReinstantiate_due hseed hstop hlive (State.mem_instancesNow hn hdraw hlatch) hmode
    have hinst := State.drbg_seedInstance (s.onEn fun e => { e with reserve := bs }) n b
    obtain ⟨_, hnote⟩ := State.noteReseed_eq ((s.onEn fun e => { e with reserve := bs }).seedInstance n b) n
    rw [State.instantiate_stocked hb, hnote] at hexec
    refine ⟨_, hexec, rfl, rfl, ?_⟩
    exact ⟨(congrArg Instance.live hinst :), (congrArg Instance.secret hinst :), (congrArg Instance.epoch hinst :),
      (congrArg Instance.requests hinst :)⟩
  case word =>
    rw [exec_rngDataRead_aligned hr hw (.inr rfl) ha, State.rngRead_word hf hblock hlive]
  case half =>
    refine ⟨s.rngError n 4, ?_, rfl, s.testBit_rngError n 4⟩
    rw [exec_rngDataRead_aligned hr hw (.inl rfl) ha, State.rngRead_size (by decide)]
  case refill =>
    have hlen : (rngWords (s.generate n 128 false).1).length = 16 := by rw [rngWords_length, State.generate_length]
    have hfifo := s.generate_fifo n 128 false
    obtain ⟨_, _, _, _, hdrew⟩ := s.generate_drew n 128 false
    refine ⟨_, rngWords (s.generate n 128 false).1, exec_rngFifoRefill_due hn hd hl, by rw [hdrew]; rfl, hlen, ?_,
      fun m hm => (State.fifo_onFifo_ne _ hm _).trans (hfifo m)⟩
    rw [State.fifo_onFifo_filled, hfifo]
    exact List.append_ne_nil_of_right_ne_nil _ (List.ne_nil_of_length_eq_add_one hlen)
  case draw =>
    obtain ⟨hlive, hepoch, hsecret⟩ := State.drbg_drawSeeded hwf b v bs
    obtain ⟨_, _, hexec⟩ := exec_drawSeedReady_claimed hc hv hb hm hblock
    exact ⟨_, hexec, rfl, rfl, rfl, rfl, rfl, rfl, hlive, hepoch,
      hsecret.trans (congrArg (fun p => Config.out .drbgInstantiate 48 [] [_, p]) (State.personalisation_congr rfl rfl))⟩
end

section
/-! PROOF. The noise sources (R187 to R191, R204, R206, R207): what follows a failure leaves the Bank stopped, how the
sources and delivery start again, and what 1,152 samples come to. -/

namespace Sys2Proof.Machine

/-! ### The table of sources -/

theorem State.source_onSource_ne (s : State) {i j : Nat} (h : j ≠ i) (f : Source → Source) :
    (s.onSource i f).source j = s.source j :=
  mapGet_mapSet_ne _ _ _ _ _ h

/-- A source that is not idle is listed. -/
theorem State.source_onSource_listed {s : State} {i : Nat} {f : Source → Source} (h : (f (s.source i)).state ≠ .idle) :
    (s.onSource i f).source i = f (s.source i) :=
  mapGet_mapSet_listed _ (fun e => h (congrArg Source.state e)) _ _

/-- A map whose every value changes by an `f` that keeps what unlisted keys read as. -/
theorem mapGet_map {α : Type} {d : α} {f : α → α} (hf : f d = d) : ∀ (m : List (Nat × α)) (k : Nat),
    mapGet d (m.map fun e => (e.1, f e.2)) k = f (mapGet d m k)
  | [], _ => hf.symm
  | (a, v) :: t, k => by
    simp only [List.map_cons, mapGet]
    split
    · rfl
    · exact mapGet_map hf t k

/-- A change at each of some keys, which a second time does nothing more and leaves no key unlisted. -/
theorem mapGet_foldl_mapSet {α : Type} [DecidableEq α] {d : α} {g : α → α} (hg : ∀ x, g x ≠ d)
    (hi : ∀ x, g (g x) = g x) : ∀ (is : List Nat) (m : List (Nat × α)) (k : Nat),
    mapGet d (is.foldl (fun m i => mapSet d m i (g (mapGet d m i))) m) k
      = if k ∈ is then g (mapGet d m k) else mapGet d m k
  | [], _, _ => rfl
  | i :: is, m, k => by
    rw [List.foldl_cons, mapGet_foldl_mapSet hg hi is]
    by_cases hk : k = i
    · subst hk
      simp only [mapGet_mapSet_listed d (hg _), hi, ite_self, List.mem_cons_self, if_true]
    · simp only [mapGet_mapSet_ne d m i k _ hk, List.mem_cons, hk, false_or]

/-! ### What follows a failure: the Bank stays stopped (R27, R191, R204) -/

/-- From `s` to `u` the Bank stays but for its generators and the claim that waits, no standing cause goes, and the key
handles stay. -/
structure State.Upheld (s u : State) : Prop where
  bank : ∃ m w, u.en = { s.en with instances := m, drawWait := w }
  causes : ∀ c ∈ s.pwr.causes, c ∈ u.pwr.causes
  handles : u.krf.handles = s.krf.handles

theorem State.Upheld.of_eq {s u : State} (he : u.en = s.en) (hp : u.pwr = s.pwr) (hk : u.krf.handles = s.krf.handles) :
    s.Upheld u :=
  ⟨⟨_, _, he⟩, fun _ hc => hp ▸ hc, hk⟩

theorem State.Upheld.refl (s : State) : s.Upheld s := .of_eq rfl rfl rfl

theorem State.Upheld.trans {s t u : State} (h : s.Upheld t) (h' : t.Upheld u) : s.Upheld u := by
  obtain ⟨⟨_, _, he⟩, hc, hk⟩ := h
  obtain ⟨⟨_, _, he'⟩, hc', hk'⟩ := h'
  exact ⟨⟨_, _, by rw [he', he]⟩, fun c h => hc' c (hc c h), hk'.trans hk⟩

theorem State.Upheld.foldl {α : Type} {f : State → α → State} (h : ∀ (s : State) (a : α), s.Upheld (f s a)) (l : List α)
    (s : State) : s.Upheld (l.foldl f s) :=
  List.foldlRecOn (motive := s.Upheld) l f (.refl s) fun _ hs a _ => hs.trans (h _ a)

theorem State.Finished.upheld {s u : State} (h : s.Finished u) : s.Upheld u := by
  obtain ⟨_, _, _, _, _, _, _, _, _, _, rfl⟩ := h
  exact .of_eq rfl rfl rfl

theorem State.Recorded.upheld {s u : State} (h : s.Recorded u) : s.Upheld u := by
  have hc : ∀ c ∈ s.pwr.causes, c ∈ u.pwr.causes := fun _ => h.causes
  obtain ⟨_, _, rfl⟩ := h
  exact ⟨⟨_, _, rfl⟩, hc, rfl⟩

theorem State.serviceEnd_upheld (s : State) (core : Nat) (status : Status) : s.Upheld (s.serviceEnd core status) :=
  (s.serviceEnd_finished core status).upheld

theorem State.latch_upheld (s : State) (r : RcReg) (bits : Nat) : s.Upheld (s.latch r bits) := .of_eq rfl rfl rfl

theorem State.onDrbg_upheld (s : State) (i : Nat) (f : Instance → Instance) : s.Upheld (s.onDrbg i f) :=
  ⟨⟨_, _, rfl⟩, fun _ h => h, rfl⟩

theorem State.journal_upheld (s : State) (body tail : Bytes) : s.Upheld (s.journal body tail) := by
  obtain ⟨_, _, _, _, _, _, _, h⟩ := s.journal_eq body tail
  rw [h]
  exact .of_eq rfl rfl rfl

theorem State.failTakes_upheld (s : State) (p : Take → Bool) (code : Status) : s.Upheld (s.failTakes p code) :=
  .of_eq rfl rfl rfl

theorem State.onCounts_upheld (s : State) (n : Nat) (f : TakeCounts → TakeCounts) : s.Upheld (s.onCounts n f) :=
  .of_eq rfl rfl rfl

theorem State.abandonManifests_upheld (s : State) (p : Manifest → Bool) (code : Status) :
    s.Upheld (s.abandonManifests p code) := by
  unfold State.abandonManifests
  extract_lets gone counted failed released
  have hc : s.Upheld counted := .foldl (fun s (m : Manifest) => s.onCounts_upheld m.tenant _) gone s
  have hf : counted.Upheld failed := counted.failTakes_upheld ..
  exact hc.trans (hf.trans (.of_eq rfl rfl rfl))

theorem State.discardHeld_upheld (s : State) (a : Nat) : s.Upheld (s.discardHeld a) := by
  simp only [State.discardHeld]
  split
  · exact .refl s
  · split <;> exact .of_eq rfl rfl rfl

theorem State.wakeSlot_upheld (s : State) (a : Nat) : s.Upheld (s.wakeSlot a) := by
  obtain ⟨_, h⟩ := s.wakeSlot_eq a
  rw [h]
  exact .of_eq rfl rfl rfl

theorem State.drawEnd_upheld (s : State) (reason : Option Nat) (pending : Option Status) :
    s.Upheld (s.drawEnd reason pending) := by
  unfold State.drawEnd
  split
  · exact .refl s
  · extract_lets journaled discarded returned wiped ended
    have hj : s.Upheld journaled := by
      unfold journaled
      split
      · exact .refl s
      · exact s.journal_upheld ..
    have hd : journaled.Upheld discarded := by
      unfold discarded
      split
      · exact journaled.discardHeld_upheld _
      · exact .refl journaled
    have hr : discarded.Upheld returned := by
      unfold returned
      split
      · exact discarded.serviceEnd_upheld ..
      · exact .refl discarded
    have he : wiped.Upheld ended := .of_eq rfl rfl rfl
    exact hj.trans (hd.trans (hr.trans ((returned.onDrbg_upheld 76 _).trans (he.trans (ended.wakeSlot_upheld _)))))

theorem State.noteFull_upheld (s : State) : s.Upheld s.noteFull := by
  unfold State.noteFull
  extract_lets reel
  have hr : s.Upheld reel := by
    unfold reel
    split
    · exact (s.latch_upheld ..).trans (State.noteCause_recorded (c := .reelBufferFull) _ nofun).upheld
    · exact .refl s
  split
  · exact hr.trans ((reel.latch_upheld ..).trans (State.noteCause_recorded (c := .tapFull) _ nofun).upheld)
  · exact hr

/-- A claim that waits returns. -/
theorem State.claimReturns_upheld (s : State) (c : Nat) (code : Status) :
    s.Upheld ((s.onEn fun e => { e with drawWait := none }).serviceEnd c code) := by
  have hw : s.Upheld (s.onEn fun e => { e with drawWait := none }) := ⟨⟨_, _, rfl⟩, fun _ h => h, rfl⟩
  exact hw.trans (State.serviceEnd_upheld ..)

theorem State.enterHeld_upheld (s : State) (code : Status) : s.Upheld (s.enterHeld code) := by
  unfold State.enterHeld
  extract_lets held abandoned failed ended returned
  have hh : s.Upheld held := ⟨⟨_, _, rfl⟩, fun _ h => h, rfl⟩
  have hf : held.Upheld failed := (held.abandonManifests_upheld ..).trans (abandoned.failTakes_upheld ..)
  have he : failed.Upheld ended := by
    unfold ended
    split
    · exact failed.drawEnd_upheld ..
    · exact failed.onDrbg_upheld ..
  have hr : ended.Upheld returned := by
    unfold returned
    split
    · exact ended.claimReturns_upheld ..
    · exact .refl ended
  exact hh.trans (hf.trans (he.trans (hr.trans returned.noteFull_upheld)))

theorem State.afterEvidence_upheld (s : State) : s.Upheld s.afterEvidence := by
  have hn := s.noteEvidence_recorded.upheld
  simp only [State.afterEvidence]
  split
  · exact hn.trans (State.enterHeld_upheld ..)
  · exact hn

/-- A cause that is raised stands (R27). -/
theorem State.raiseCause_upheld (s : State) {c : Cause} (hc : c ≠ .entropyLatch) :
    s.Upheld (s.raiseCause c) ∧ c ∈ (s.raiseCause c).pwr.causes := by
  unfold State.raiseCause State.raiseCauseWith
  split
  next hs => exact ⟨.refl s, by simpa [State.stands] using hs⟩
  next =>
    extract_lets before after added recorded held
    have hr : added.Upheld recorded := by
      unfold recorded
      split
      · exact .refl added
      · exact (added.evidence_recorded ..).upheld
    have hh : recorded.Upheld held := by
      unfold held
      split
      · exact recorded.enterHeld_upheld _
      · exact .refl recorded
    have ha : added.Upheld held.afterEvidence := hr.trans (hh.trans held.afterEvidence_upheld)
    exact ⟨(s.addCause_recorded hc).upheld.trans ha, ha.causes c (s.mem_addCause c)⟩

theorem State.failureRecord_upheld (s : State) (source test : Nat) : s.Upheld (s.failureRecord source test) :=
  .trans (s.evidence_recorded ..).upheld (State.afterEvidence_upheld _)

/-! ### Delivery stops (Table 8.7 steps 1 and 2) -/

/-- Delivery stopped, before what waits or runs is ended: the Bank holds no block, no word and no buffered byte. -/
def State.emptied (s : State) : State :=
  (s.onEn fun e => { e with
    stopped := true
    reserve := []
    vaultBlock := none
    fifos := []
    sources := e.sources.map fun x => (x.1, { x.2 with candidate := none }) }).dropBuffers.latch .bankStat 1

theorem State.failKeyOp_upheld (s : State) (code : Status) : s.Upheld (s.failKeyOp code) := by
  simp only [State.failKeyOp]
  split <;> exact .of_eq rfl rfl rfl

theorem State.unitEnds_upheld (s : State) (o : UnitOp) (code : Status) : s.Upheld (s.unitEnds o code) := by
  simp only [State.unitEnds]
  split
  · exact s.serviceEnd_upheld ..
  · exact s.serviceEnd_upheld ..
  · exact s.failKeyOp_upheld _
  · exact .of_eq rfl rfl rfl
  · exact .refl s
  · exact .refl s
  · exact .refl s

theorem State.onLh_upheld (s : State) (f : Lh → Lh) : s.Upheld (s.onLh f) := .of_eq rfl rfl rfl

theorem State.abortUnits_upheld (s : State) (p : UnitOp → Bool) (code : Status) : s.Upheld (s.abortUnits p code) := by
  unfold State.abortUnits
  extract_lets freed gone
  have hf : s.Upheld freed := .foldl (fun x u => by
    split
    · split
      · exact (x.onLh_upheld _).trans (State.unitEnds_upheld ..)
      · exact .refl x
    · exact .refl x) _ s
  exact hf.trans ((freed.onLh_upheld _).trans (.foldl (fun x (e : Nat × UnitOp) => x.unitEnds_upheld e.2 code) gone _))

theorem State.endEngine_upheld (s : State) (e : Nat) (code : Option Status) : s.Upheld (s.endEngine e code) := by
  have hl (x : State) (f : Engine → Engine) : x.Upheld ((x.onEngine e f).latch (.liStat e) 0x40000000) := .of_eq rfl rfl rfl
  simp only [State.endEngine]
  split
  · exact .refl s
  · refine .trans (t := s.onEngine e fun g => { g with running := none }) (.of_eq rfl rfl rfl) ?_
    split
    · exact .refl _
    · exact State.serviceEnd_upheld ..
    · split
      · exact (hl ..).trans (State.msix_finished ..).upheld
      · exact hl ..

theorem State.abortEngines_upheld (s : State) (p : Nat → LieCmd → Bool) (code : Option Status) :
    s.Upheld (s.abortEngines p code) :=
  .foldl (fun x e => by
    split
    · split
      · exact x.endEngine_upheld ..
      · exact .refl x
    · exact .refl x) _ s

theorem State.endRandoms_upheld (s : State) (code : Status) : s.Upheld (s.endRandoms code) :=
  .foldl (fun x e => by
    split
    · exact x.serviceEnd_upheld ..
    · exact .refl x) _ s

theorem State.stopDelivery_upheld (s : State) : s.emptied.Upheld s.stopDelivery := by
  unfold State.stopDelivery
  extract_lets emptied returned ended aborted idle abandoned
  have hr : emptied.Upheld returned := by
    unfold returned
    split
    · exact emptied.claimReturns_upheld ..
    · exact .refl emptied
  have hi : aborted.Upheld idle := (aborted.abortUnits_upheld ..).trans (State.failKeyOp_upheld ..)
  exact hr.trans ((returned.endRandoms_upheld _).trans ((ended.abortEngines_upheld ..).trans (hi.trans
    ((idle.abandonManifests_upheld ..).trans (abandoned.failTakes_upheld ..)))))

/-! ### The first failure (R191, R204) -/

/-- Source `i` is isolated, and its failure is the one the history holds. -/
def State.failedFirst (i test : Nat) (s : State) : State := (s.isolate test i).rememberFailure i test

theorem State.failedFirst_history {s : State} (hl : s.en.latch = false) (hh : s.en.history = []) (i test : Nat) :
    (s.failedFirst i test).en.history = [s.tb.rtc] := by
  have hl' : (s.isolate test i).en.latch = false := hl
  have hh' : (s.isolate test i).en.history = [] := hh
  simp [State.failedFirst, State.rememberFailure, hl', hh']
  rfl

theorem State.source_isolate (s : State) (i test : Nat) : (s.isolate test i).source i = { s.source i with
    state := .isolated
    since := s.clock
    health := (s.source i).health.failed test
    candidate := none } :=
  State.source_onSource_listed (s := s) (f := fun x => { x with
    state := .isolated, since := s.clock, health := x.health.failed test, candidate := none }) nofun

theorem State.source_emptied (s : State) (i : Nat) : s.emptied.source i = { s.source i with candidate := none } :=
  mapGet_map (f := fun x : Source => { x with candidate := none }) rfl _ _

/-- After the first seed, with no failure in the history, no latch follows. -/
theorem State.entropyFailure_first {s : State} (hf : s.en.firstSeed = true) (hl : s.en.latch = false)
    (hh : s.en.history = []) (i test : Nat) : s.entropyFailure [i] test
      = ((s.failedFirst i test).stopDelivery.raiseCause .entropyFail).failureRecord i test := by
  have hl' : (s.isolate test i).en.latch = false := hl
  have hthird : ¬ 3 ≤ ((s.isolate test i).rememberFailure i test).recentFailures := by
    have h := s.failedFirst_history hl hh i test
    have hle := List.length_filter_le (fun t => decide ((s.failedFirst i test).tb.rtc < t + 86400000000000))
      (s.failedFirst i test).en.history
    rw [h, List.length_singleton] at hle
    exact fun h3 => absurd (Nat.le_trans h3 (h ▸ hle)) (by decide)
  have hnamed : ([i] = ([] : List Nat)) = False := eq_false (List.cons_ne_nil i [])
  simp only [State.entropyFailure, List.headD_cons, List.foldl_cons, List.foldl_nil, hf, hl', hthird, hnamed, Bool.not_true,
    Bool.not_false, Bool.true_and, Bool.false_and, Bool.false_eq_true, decide_false, if_false]
  rfl

theorem exec_entropyHealthFail_running {s : State} {i : Nat} (hi : i < 5) (hp : s.powered = true)
    (hr : (s.source i).state = .running) (hs : s.en.stopped = false) :
    exec (.entropyHealthFail [i] 1) s = .next (s.entropyFailure [i] 1) := by
  have hone : ∀ j < 5, (List.range 5).filter (· == j) = [j] := by decide
  have hnow : (List.range 5).filter (fun k => [i].contains k && s.samples k) = [i] := by
    rw [← hone i hi]
    refine List.filter_congr fun k _ => ?_
    by_cases hk : k = i
    · simp [hk, hi, State.samples, hr]
    · simp [hk]
  have htest : (1 : BitVec 8).toNat = 1 := rfl
  show execEntropyHealthFail [i] 1 s = _
  simp only [execEntropyHealthFail, hnow, htest, State.healthFail, hs, Bool.false_and, Bool.false_eq_true, if_false]
  simp [hp]

/-- Where delivery has not stopped before, that failure leaves the Bank emptied, with the cause standing. -/
theorem State.entropyFailure_first_upheld {s : State} (hf : s.en.firstSeed = true) (hl : s.en.latch = false)
    (hh : s.en.history = []) (i test : Nat) :
    (s.failedFirst i test).emptied.Upheld (s.entropyFailure [i] test)
      ∧ .entropyFail ∈ (s.entropyFailure [i] test).pwr.causes := by
  rw [State.entropyFailure_first hf hl hh]
  obtain ⟨hraise, hcause⟩ := (s.failedFirst i test).stopDelivery.raiseCause_upheld (c := .entropyFail) nofun
  have hrecord := ((s.failedFirst i test).stopDelivery.raiseCause .entropyFail).failureRecord_upheld i test
  exact ⟨(State.stopDelivery_upheld _).trans (hraise.trans hrecord), hrecord.causes _ hcause⟩

/-! ### Sources and delivery start again (Table 8.7 steps 5 and 6, R207) -/

/-- A source that starts at `now` after its isolation. -/
def Source.restarted (now : Nat) (x : Source) : Source := { x with state := .startup, since := now, health := {} }

/-- The Bank once the sources `is` have started again at `now`. -/
def En.restarted (now : Nat) (is : List Nat) (e : En) : En :=
  { e with sources := is.foldl (fun m i => mapSet {} m i ((mapGet {} m i).restarted now)) e.sources }

theorem En.restarted_sources (now : Nat) (is : List Nat) (e : En) (i : Nat) : mapGet {} (e.restarted now is).sources i
    = if i ∈ is then (mapGet {} e.sources i).restarted now else mapGet {} e.sources i :=
  mapGet_foldl_mapSet (d := ({} : Source)) (g := Source.restarted now) (fun _ h => nomatch congrArg Source.state h) (fun _ => rfl)
    is e.sources i

theorem State.restart_foldl : ∀ (is : List Nat) (s : State),
    is.foldl (fun s i => s.onSource i fun x => { x with state := .startup, since := s.clock, health := {} }) s
      = s.onEn (En.restarted s.clock is)
  | [], _ => rfl
  | i :: is, s => by
    rw [List.foldl_cons, State.restart_foldl is]
    rfl

theorem exec_sourceRestart_due {s : State} (h : s.restartDue = true) :
    exec (.sourceRestart []) s = .next (s.onEn (En.restarted s.clock s.restarting)) := by
  have hbad : s.restarting.filter ([] : List Nat).contains = [] := List.filter_eq_nil_iff.2 fun _ _ => nofun
  show execSourceRestart [] s = _
  simp only [execSourceRestart, h, hbad, if_true, State.restart_foldl]

/-- Blocks of fresh noise join the reserve. -/
theorem State.addBlocks_eq : ∀ (n : Nat) (s : State), ∃ c r,
    s.addBlocks n = { s with freeCtr := c, en := { s.en with reserve := r } } ∧ r.length = s.en.reserve.length + n
  | 0, _ => ⟨_, _, rfl, rfl⟩
  | n + 1, s => by
    obtain ⟨c, r, h, hr⟩ := State.addBlocks_eq n (s.noiseBlock.2.onEn fun e =>
      { e with reserve := e.reserve ++ [s.noiseBlock.1] })
    refine ⟨c, r, h, ?_⟩
    rw [hr, State.onEn_en, List.length_append, List.length_singleton, Nat.add_right_comm]
    rfl

/-- A refill leaves 64 blocks in the reserve, and of the Bank changes the reserve and the Vault block alone (R188). -/
theorem State.fillReserve_eq {s : State} (h : s.en.reserve.length ≤ 64) : ∃ c r v,
    s.fillReserve = { s with freeCtr := c, en := { s.en with reserve := r, vaultBlock := v } } ∧ r.length = 64 := by
  obtain ⟨_, r, hadd, hr⟩ := s.addBlocks_eq (64 - s.en.reserve.length)
  have hlen : r.length = 64 := by omega
  simp only [State.fillReserve, hadd]
  split
  · exact ⟨_, _, _, rfl, hlen⟩
  · exact ⟨_, _, _, rfl, hlen⟩

/-- The sources that started now run, and delivery resumes. -/
def En.resumed (now : Nat) (e : En) : En := { e with
  stopped := false
  sources := e.sources.map fun x =>
    if x.2.state = .startup then (x.1, { x.2 with state := .running, since := now }) else x }

theorem State.reseedEach_drew (is : List Nat) (s : State) : s.Drew (is.foldl (fun s i => State.reseed i s) s)
    ∧ s.en.Drawn (is.foldl (fun s i => State.reseed i s) s).en :=
  List.foldlRecOn (motive := fun u : State => s.Drew u ∧ s.en.Drawn u.en) _ _ ⟨.refl s, .refl s.en⟩ fun u hu i _ =>
    ⟨hu.1.trans (u.reseed_drew i), hu.2.trans (u.reseed_drawn i)⟩

theorem exec_entropyDeliveryResume_stopped {s : State} (hp : s.powered = true) (hs : s.en.stopped = true)
    (hf : s.en.firstSeed = true) (hr : s.restarting = []) (ha : s.anchorSource = true) :
    ∃ is : List Nat, exec .entropyDeliveryResume s
      = .next (is.foldl (fun s i => State.reseed i s) (s.onEn (En.resumed s.clock))).fillReserve := by
  refine ⟨(List.range 256).filter fun i => ((s.onEn (En.resumed s.clock)).drbg i).live, ?_⟩
  show execEntropyDeliveryResume s = _
  simp only [execEntropyDeliveryResume, hp, hs, hf, hr, ha, ne_eq, not_true_eq_false, decide_false, Bool.not_true,
    Bool.and_false, Bool.or_self, Bool.false_eq_true, if_false, if_true]
  rfl

/-- `u` is `s` but for what starts of generators change. -/
def State.Started (s u : State) : Prop := ∃ e c l, u = { s with en := e, freeCtr := c, latches := l } ∧ s.en.Drawn e

theorem State.Started.refl (s : State) : s.Started s := ⟨_, _, _, rfl, .refl s.en⟩

theorem State.Started.trans {s t u : State} (h : s.Started t) (h' : t.Started u) : s.Started u := by
  obtain ⟨_, _, _, rfl, he⟩ := h
  obtain ⟨_, _, _, rfl, he'⟩ := h'
  exact ⟨_, _, _, rfl, he.trans he'⟩

theorem State.takeBlock_started (s : State) : s.Started s.takeBlock.2 := by
  have h := s.takeBlock_drawn
  unfold State.takeBlock at h ⊢
  split at h <;> exact ⟨_, _, _, rfl, h⟩

theorem State.instantiate_started (s : State) (i : Nat) : s.Started (s.instantiate i) :=
  s.takeBlock_started.trans ⟨_, _, _, rfl, _, _, rfl, Nat.le_refl _⟩

theorem State.noteReseed_started (s : State) (i : Nat) : s.Started (s.noteReseed i) := by
  obtain ⟨_, h⟩ := s.noteReseed_eq i
  exact ⟨_, _, _, h, .refl s.en⟩

/-- Generators that start one after the other, and the refill of the reserve. -/
theorem State.instantiateEach_eq {s : State} (h : s.en.reserve.length ≤ 64) (is : List Nat) : ∃ m r v c l,
    (is.foldl (fun s i => State.noteReseed i (State.instantiate i s)) s).fillReserve = { s with
      en := { s.en with instances := m, reserve := r, vaultBlock := v }
      freeCtr := c
      latches := l } ∧ r.length = 64 := by
  have hstart : s.Started (is.foldl (fun s i => State.noteReseed i (State.instantiate i s)) s) :=
    List.foldlRecOn (motive := s.Started) _ _ (.refl s) fun u hu i _ =>
      hu.trans ((u.instantiate_started i).trans (State.noteReseed_started _ i))
  obtain ⟨_, _, _, hu, _, m, rfl, hle⟩ := hstart
  obtain ⟨_, r, v, hfill, hlen⟩ := State.fillReserve_eq
    (s := is.foldl (fun s i => State.noteReseed i (State.instantiate i s)) s) (by rw [hu]; exact Nat.le_trans hle h)
  rw [hu] at hfill ⊢
  exact ⟨m, r, v, _, _, hfill, hlen⟩

/-- The Bank once the five sources have passed their start-up tests at `now` (R207). -/
def En.cleared (now : Nat) (e : En) : En := { e with
  latch := false
  stopped := false
  history := []
  sources := (List.range 5).foldl (fun m i => mapSet {} m i { state := .running, since := now }) e.sources }

theorem En.cleared_sources (now : Nat) (e : En) {i : Nat} (hi : i < 5) :
    mapGet {} (e.cleared now).sources i = { state := .running, since := now } := by
  have h := mapGet_foldl_mapSet (d := ({} : Source)) (g := fun _ => { state := .running, since := now }) (fun _ => nofun)
    (fun _ => rfl) (List.range 5) e.sources i
  rwa [if_pos (List.mem_range.2 hi)] at h

/-- The generators start again, the reserve is full, and the cause stands no more. -/
theorem enLatchClear_passed {s : State} (h : s.en.reserve.length ≤ 64) : ∃ m r v c l,
    enLatchClear 0xE7A1#32 [] s = ({ s with
      en := { s.en.cleared s.clock with instances := m, reserve := r, vaultBlock := v }
      freeCtr := c
      latches := l
      pwr := { s.pwr with causes := s.pwr.causes.filter (· ≠ .entropyLatch) } }, stOk) ∧ r.length = 64 := by
  obtain ⟨m, r, v, c, l, hfill, hlen⟩ := State.instantiateEach_eq
    (s := State.clearCause .entropyLatch (s.onEn (En.cleared s.clock))) h
    (State.clearCause .entropyLatch (s.onEn (En.cleared s.clock))).instancesNow
  have hbad : (List.range 5).filter ([] : List Nat).contains = [] := rfl
  refine ⟨m, r, v, c, l, ?_, hlen⟩
  simp only [enLatchClear, hbad, ne_eq, not_true, if_false]
  exact congrArg (·, stOk) hfill

/-- A WRITE of EnLatchClear whose start-up tests all pass (R207). -/
theorem exec_enLatchClear_passed {s : State} {v : Viewer} (h : Writable s v 0x4800 0xA 0xE7A1)
    (hr : s.en.reserve.length ≤ 64) : ∃ m r b c l, Wrote (.enLatchClear v 0xE7A1#32 []) s v stOk { s with
      en := { s.en.cleared s.clock with instances := m, reserve := r, vaultBlock := b }
      freeCtr := c
      latches := l
      pwr := { s.pwr with causes := s.pwr.causes.filter (· ≠ .entropyLatch) } } ∧ r.length = 64 := by
  obtain ⟨m, r, b, c, l, hact, hlen⟩ := enLatchClear_passed (s := s.served v) hr
  have hw := State.writeNum_acts (w := {}) (tenant := ownTenant) (act := enLatchClear 0xE7A1#32 []) h rfl (k := 4) rfl
    (by decide) rfl rfl rfl (by rw [hact]; exact (show stOk ≠ stWaits by decide)) (by rw [hact]; exact h.2.1.2.2)
  rw [hact] at hw
  exact ⟨m, r, b, c, l, congrArg Host.Outcome.next hw, hlen⟩

/-! ### 1,152 samples (R187 to R190) -/

/-- The continuous tests of source `i` have seen the samples. -/
def State.sampled (i : Nat) (h : HealthTest) (s : State) : State := s.onSource i fun x => { x with health := h }

theorem State.source_sampled {s : State} {i : Nat} (hr : (s.source i).state = .running) (h : HealthTest) :
    (s.sampled i h).source i = { s.source i with health := h } :=
  State.source_onSource_listed (f := fun x => { x with health := h }) fun e => by
    have e : (s.source i).state = .idle := e
    rw [hr] at e
    cases e

theorem State.releaseCandidate_none {s : State} {i : Nat} (h : (s.source i).candidate = none) :
    s.releaseCandidate i = s := by
  simp only [State.releaseCandidate, h]

/-- A healthy block is kept where the Bank has room for one of its kind (R188). -/
theorem State.keepBlock_eq (s : State) {i : Nat} (hi : i ≤ 4) (b : Bytes) : s.keepBlock i b = s.onEn fun e => { e with
    reserve := if i < 4 ∧ e.reserve.length < 64 then e.reserve ++ [b] else e.reserve
    vaultBlock := if i = 4 ∧ e.vaultBlock = none then some b else e.vaultBlock } := by
  by_cases h4 : i = 4
  · subst h4
    cases hv : s.en.vaultBlock <;> simp [State.keepBlock, State.onEn, hv]
  · have hlt : i < 4 := by omega
    by_cases hfull : 64 ≤ s.en.reserve.length
    · simp [State.keepBlock, State.onEn, h4, hfull, Nat.not_lt.2 hfull]
    · simp [State.keepBlock, State.onEn, h4, hfull, hlt, Nat.not_le.1 hfull]

/-- The source after `i` in the rotation is next, where source `i` is of the Anchor (R187). -/
def State.rotated (i : Nat) (s : State) : State :=
  s.onEn fun e => { e with nextSource := if i = 4 then e.nextSource else (i + 1) % 4 }

section
variable {s : State} {b : NoiseSamples} {r : HealthTest × Nat} (hp : s.powered = true) (hi : b.source ≤ 4)
  (hl : b.packed.length = 144) (hr : (s.source b.source).state = .running)
  (hpass : (s.source b.source).health.pass (samplesOf b.packed) = r)
include hp hi hl hr hpass

/-- Samples that fail a test are a failure of their source. -/
theorem exec_conditioningBlock_failed (hf : r.2 ≠ 0) :
    exec (.conditioningBlock b) s = .next ((s.sampled b.source r.1).healthFail [b.source] r.2) := by
  show execConditioningBlock b s = _
  simp only [execConditioningBlock, hp, Nat.not_lt.2 hi, hl, hr, hpass, hf, ne_eq, not_true_eq_false, not_false_eq_true,
    decide_false, Bool.not_true, Bool.or_self, Bool.false_eq_true, if_false, if_true]
  rfl

/-- Samples that pass give a block, which is kept once the window of its last sample has closed (R190). -/
theorem exec_conditioningBlock_passed (hf : r.2 = 0) (hc : (s.source b.source).candidate = none)
    (ht : b.source = 4 ∨ s.turn = some b.source) (hs : s.en.stopped = false) : exec (.conditioningBlock b) s
      = .next (if r.1.seen = 0 then ((s.sampled b.source r.1).rotated b.source).keepBlock b.source (conditioned b.packed)
        else ((s.sampled b.source r.1).rotated b.source).onSource b.source fun x =>
          { x with candidate := some (conditioned b.packed) }) := by
  have hturn : (decide (b.source = 4) || decide (s.turn = some b.source)) = true := by simpa using ht
  have hrelease : (s.sampled b.source r.1).releaseCandidate b.source = s.sampled b.source r.1 :=
    State.releaseCandidate_none (by rw [State.source_sampled hr]; exact hc)
  have hstop : (s.sampled b.source r.1).en.stopped = false := hs
  simp only [State.sampled] at hrelease hstop
  show execConditioningBlock b s = _
  simp only [execConditioningBlock, hp, Nat.not_lt.2 hi, hl, hr, hpass, hf, hturn, hrelease, hstop, ne_eq, not_true_eq_false,
    decide_false, Bool.not_true, Bool.or_self, Bool.false_eq_true, if_false]
  rfl

end

end Sys2Proof.Machine
end

section
open Sys2Proof Sys2Proof.Machine

/-- Settles O38: each clause is what its command does where its source runs or its time has come. -/
theorem noiseSources : Obligations.NoiseSources := by
  unfold Obligations.NoiseSources
  intro s
  refine ⟨fun i hi hp hr hf hs hl hh => ?failure, fun hdue => ?restart, fun hp hs hf hr ha hle => ?resume,
    fun v hw hle => ?clear, fun b => ?block⟩
  case failure =>
    obtain ⟨⟨⟨_, _, hbank⟩, -, hhandles⟩, hcause⟩ := State.entropyFailure_first_upheld hf hl hh i 1
    refine ⟨_, exec_entropyHealthFail_running hi hp hr hs, ?_⟩
    have hsource : ∀ k, (s.entropyFailure [i] 1).source k = (s.failedFirst i 1).emptied.source k := fun k => by
      rw [State.source, hbank]
      rfl
    have hblock : (s.entropyFailure [i] 1).entropyBlock = (s.failedFirst i 1).emptied.entropyBlock := by
      rw [State.entropyBlock, hbank]
      rfl
    rw [hsource, State.source_emptied, hblock]
    simp only [State.fifo, hbank]
    refine ⟨rfl, ?_, hl, rfl, rfl, s.failedFirst_history hl hh i 1, fun _ => rfl, hcause, ?_, hhandles⟩
    · exact congrArg Source.state (s.source_isolate i 1)
    · have hseed : (s.failedFirst i 1).emptied.en.firstSeed = true := hf
      have hstop : (s.failedFirst i 1).emptied.en.stopped = true := rfl
      simp only [State.entropyBlock, hseed, hstop, Bool.not_true, Bool.true_or, Bool.false_eq_true, if_false, if_true]
  case restart =>
    refine ⟨_, exec_sourceRestart_due hdue, rfl, fun i _ => ?_⟩
    exact s.en.restarted_sources s.clock s.restarting i
  case resume =>
    obtain ⟨is, hexec⟩ := exec_entropyDeliveryResume_stopped hp hs hf hr ha
    obtain ⟨⟨e, pd, _, _, hdrew⟩, _, _, hen, hle'⟩ := State.reseedEach_drew is (s.onEn (En.resumed s.clock))
    obtain ⟨_, _, _, hfill, hlen⟩ := State.fillReserve_eq
      (s := is.foldl (fun s i => State.reseed i s) (s.onEn (En.resumed s.clock))) (by rw [hen]; exact Nat.le_trans hle' hle)
    rw [hfill, hen, hdrew] at hexec
    exact ⟨_, hexec, rfl, rfl, hlen, rfl, rfl⟩
  case clear =>
    obtain ⟨_, _, _, _, _, hwrote, hlen⟩ := exec_enLatchClear_passed hw hle
    exact ⟨_, hwrote, rfl, rfl, rfl, rfl, hlen, fun i hi => s.en.cleared_sources s.clock hi⟩
  case block =>
    intro i r block hp hi hlen hr
    refine ⟨fun hf => exec_conditioningBlock_failed hp hi hlen hr rfl hf, fun hf hc ht hs => ?_⟩
    refine ⟨_, exec_conditioningBlock_passed hp hi hlen hr rfl hf hc ht hs, ?_⟩
    have hsampled : ((s.sampled i r.1).rotated i).source i = { s.source i with health := r.1 } := State.source_sampled hr r.1
    have hother : ∀ j, j ≠ i → ((s.sampled i r.1).rotated i).source j = s.source j := fun j hj =>
      s.source_onSource_ne hj fun x => { x with health := r.1 }
    by_cases hseen : r.1.seen = 0
    · rw [if_pos hseen, State.keepBlock_eq _ hi]
      simp only [hseen, true_and, if_true]
      refine ⟨rfl, ?_, hother⟩
      exact hsampled.trans (congrArg (fun c => ({ s.source i with health := r.1, candidate := c } : Source)) hc)
    · rw [if_neg hseen]
      simp only [hseen, false_and, and_false, if_false]
      refine ⟨rfl, ?_, fun j hj => (State.source_onSource_ne _ hj _).trans (hother j hj)⟩
      rw [State.source_onSource_listed, hsampled]
      · rfl
      · rw [hsampled]
        exact fun e => nomatch hr.symm.trans e
end

section
/-! PROOF. Draws and the takes of an applet (R202, R203, R256, R258, R259): what each call does where its checks pass, the
record that fits the reel buffer, how a draw ends, and the take of an applet that finds room. -/

namespace Sys2Proof.Machine

/-! ### DRAW_CLAIM (R202, R258) -/

theorem drawClaimCall_free {x : State} {n : Nat} (hb : x.barred n = false) (hd : x.sz.draw = none)
    (hw : x.en.drawWait = none) (hm : x.pwr.mode = .service) (he : x.entropyBlock = none) :
    drawClaimCall n x = ((x.onEn fun e => { e with drawWait := some n }).awaits n .claim, none) := by
  simp only [drawClaimCall, hb, hd, hw, hm, he, Option.isSome_none, Bool.or_self, Bool.false_eq_true, reduceCtorEq, ne_eq,
    not_true, if_false]

theorem drawClaimCall_busy {x : State} {n : Nat} {d : DrawClaim} (hb : x.barred n = false) (hd : x.sz.draw = some d)
    (hne : d.slot ≠ (x.core n).slot) : drawClaimCall n x = (x, some stDrawBusy) := by
  simp only [drawClaimCall, hb, hd, hne, ne_eq, not_false_eq_true, decide_true, Bool.true_or, Bool.false_eq_true, if_false,
    if_true, returns]

/-! ### DRAW_COMMIT (R258) -/

theorem Memory.readBytes_length (m : Memory) : ∀ (n a : Nat), (m.readBytes a n).length = n
  | 0, _ => rfl
  | n + 1, a => congrArg (· + 1) (Memory.readBytes_length m n (a + 1))

theorem State.bufferRead_length {s : State} {core addr n : Nat} {b : Bytes} (h : s.bufferRead core addr n = some b) :
    b.length = n := by
  simp only [State.bufferRead] at h
  split at h
  next h0 =>
    cases h
    exact h0.symm
  next =>
    obtain ⟨p, -, hp⟩ := Option.bind_eq_some_iff.1 h
    split at hp <;> cases hp
    · exact Memory.readBytes_length ..
    · exact Memory.readBytes_length ..

/-- An applet's record is its 56 bytes and the body, padded to a multiple of 8 (Table 10.11). -/
theorem State.appletRecord_length_le (s : State) (kind reason a commit seq : Nat) (body : Bytes) :
    (s.appletRecord kind reason a commit seq body).length ≤ body.length + 64 := by
  simp only [State.appletRecord, padTo, List.length_append, List.length_replicate, be_length]
  omega

/-- With the tap off and room in the reel buffer for the record, no cause follows it (R77, R123). -/
theorem State.append_fits {s : State} {body tail : Bytes} (ht : s.lg.tapLog2 = 0)
    (hr : s.reelFill + (body.length + 32 + tail.length) + 2 ^ 20 ≤ 2 ^ 30) : s.append body tail = s.journal body tail := by
  have ha := s.journal_appended body tail
  have hfill : (s.journal body tail).reelFill = s.reelFill + (body.length + 32 + tail.length) := ha.fill
  exact State.afterJournal_roomy (ha.tapLog2.trans ht) (hfill ▸ hr)

/-- The next commit of claim `d` waits for the recorder, and the call of core `n` with it. -/
def State.committing (n : Nat) (d : DrawClaim) (s : State) : State :=
  (s.onSz fun z => { z with
    draw := some { d with commits := d.commits + 1, waiting := some (n, s.lg.journalCount + 1) } }).awaits n .commit

theorem drawCommitCall_unclaimed {x : State} {n : Nat} (h : x.claimOf n = none) : drawCommitCall n x = (x, some stDrawOrder) := by
  simp only [drawCommitCall, h, returns]

theorem drawCommitCall_body {x : State} {n : Nat} {d : DrawClaim} {body : Bytes} (hc : x.claimOf n = some d)
    (hw : d.waiting = none) (hpos : 0 < x.arg n 2) (hle : x.arg n 2 ≤ 4096)
    (hb : x.bufferRead n (x.arg n 1) (x.arg n 2) = some body) (ht : x.lg.tapLog2 = 0)
    (hr : x.reelFill + 8192 + 2 ^ 20 ≤ 2 ^ 30) : drawCommitCall n x
      = ((x.committing n d).journal (x.appletRecord 0x40 0 d.slot (d.commits + 1) d.seq body) [], none) := by
  have hlen := x.appletRecord_length_le 0x40 0 d.slot (d.commits + 1) d.seq body
  have hbody := State.bufferRead_length hb
  have hfill : (x.committing n d).reelFill = x.reelFill := rfl
  rw [← State.append_fits (s := x.committing n d) ht (by rw [hfill, List.length_nil]; omega)]
  simp only [drawCommitCall, hc, hw, hb, Nat.ne_of_gt hpos, Nat.not_lt.2 hle, Option.isSome_none, Bool.false_eq_true, if_false]
  rfl

/-! ### The end of a draw (R203, R258, R259) -/

theorem State.discardHeld_eq (s : State) (a : Nat) :
    ∃ l m, s.discardHeld a = { s with latches := l, sz := { s.sz with slots := m } } := by
  simp only [State.discardHeld]
  split
  · exact ⟨_, _, rfl⟩
  · split <;> exact ⟨_, _, rfl⟩

/-- The record of the end of a draw. -/
def State.drawEndRecord (s : State) (reason : Nat) (d : DrawClaim) : Bytes :=
  s.appletRecord 0x41 reason d.slot d.commits d.seq []

/-- The draw of slot `a` is over: its generator is wiped under the next epoch, and the claim is gone. -/
def State.drawOver (a : Nat) (s : State) : State :=
  ((s.onDrbg 76 fun d => { epoch := (d.epoch + 1) % 65536 }).onSz fun z => { z with draw := none }).wakeSlot a

theorem State.drawOver_eq {s : State} (hw : mapWf {} s.en.instances = true) (a : Nat) :
    (s.drawOver a).sz.draw = none ∧ (s.drawOver a).pwr = s.pwr ∧ (s.drawOver a).lg = s.lg
      ∧ (s.drawOver a).drbg 76 = { epoch := ((s.drbg 76).epoch + 1) % 65536 } := by
  obtain ⟨_, h⟩ := State.wakeSlot_eq ((s.onDrbg 76 fun d => { epoch := (d.epoch + 1) % 65536 }).onSz fun z =>
    { z with draw := none }) a
  rw [State.drawOver, h]
  exact ⟨rfl, rfl, rfl, State.drbg_onDrbg hw 76 fun d => { epoch := (d.epoch + 1) % 65536 }⟩

/-- A draw ends with a record in the journal; what its phase held is discarded before it is over. -/
theorem State.drawEnd_journals {s : State} {d : DrawClaim} (hd : s.sz.draw = some d) (hwait : d.waiting = none) (reason : Nat) :
    ∃ x l m, x = s.journal (s.drawEndRecord reason d) []
      ∧ s.drawEnd (some reason) none = State.drawOver d.slot { x with latches := l, sz := { x.sz with slots := m } } := by
  obtain ⟨l, m, hdiscard⟩ := (s.journal (s.drawEndRecord reason d) []).discardHeld_eq d.slot
  simp only [State.drawEnd, hd, hwait]
  cases d.uncommitted with
  | false => exact ⟨_, _, _, rfl, rfl⟩
  | true => exact ⟨_, l, m, rfl, congrArg (State.drawOver d.slot) hdiscard⟩

theorem State.drawEnd_recorded {s : State} {d : DrawClaim} (hd : s.sz.draw = some d) (hwait : d.waiting = none)
    (hw : mapWf {} s.en.instances = true) (reason : Nat) :
    let t := s.drawEnd (some reason) none
    t.sz.draw = none ∧ t.pwr = s.pwr ∧ t.lg = (s.journal (s.drawEndRecord reason d) []).lg
      ∧ t.drbg 76 = { epoch := ((s.drbg 76).epoch + 1) % 65536 } := by
  obtain ⟨x, l, m, hx, hend⟩ := State.drawEnd_journals hd hwait reason
  obtain ⟨_, _, _, _, _, _, _, hj⟩ := s.journal_eq (s.drawEndRecord reason d) []
  have hen : x.en = s.en := by rw [hx, hj]
  have hpwr : x.pwr = s.pwr := by rw [hx, hj]
  obtain ⟨hdraw, hmode, hlg, hdrbg⟩ := State.drawOver_eq (s := { x with latches := l, sz := { x.sz with slots := m } })
    (by rw [hen]; exact hw) d.slot
  intro t
  have ht : t = _ := hend
  rw [ht]
  refine ⟨hdraw, hmode.trans hpwr, hx ▸ hlg, hdrbg.trans ?_⟩
  rw [State.drbg, hen]
  rfl

/-- Where the record of its end fits, a draw that ends in Draw mode brings the GX8 back to Service and no cause (R77, R259). -/
theorem State.drawEnd_leavesDraw {s : State} {d : DrawClaim} (hd : s.sz.draw = some d) (hwait : d.waiting = none)
    (hw : mapWf {} s.en.instances = true) (hm : s.pwr.mode = .draw) (ht : s.lg.tapLog2 = 0)
    (hr : s.reelFill + 8192 + 2 ^ 20 ≤ 2 ^ 30) (reason : Nat) :
    let t := (s.drawEnd (some reason) none).leaveDraw
    t.afterJournal = t ∧ t.sz.draw = none ∧ t.pwr = { s.pwr with mode := .service }
      ∧ t.drbg 76 = { epoch := ((s.drbg 76).epoch + 1) % 65536 } ∧ t.lg.journalCount = s.lg.journalCount + 1 := by
  obtain ⟨hdraw, hpwr, hlg, hdrbg⟩ := State.drawEnd_recorded hd hwait hw reason
  have happended := hlg ▸ s.journal_appended (s.drawEndRecord reason d) []
  have hlen : (s.drawEndRecord reason d).length ≤ 64 := s.appletRecord_length_le ..
  have hleave : (s.drawEnd (some reason) none).leaveDraw
      = (s.drawEnd (some reason) none).onPwr fun p => { p with mode := .service } := if_pos (by rw [hpwr, hm])
  have hfill : (s.drawEnd (some reason) none).reelFill = s.reelFill + ((s.drawEndRecord reason d).length + 32 + 0) :=
    happended.fill
  intro t
  have ht' : t = _ := hleave
  rw [ht']
  refine ⟨State.afterJournal_roomy (happended.tapLog2.trans ht) ?_, hdraw, congrArg (fun p => { p with mode := .service }) hpwr,
    hdrbg, happended.journalCount⟩
  show (s.drawEnd (some reason) none).reelFill + 2 ^ 20 ≤ 2 ^ 30
  omega

/-- Draw returns to Service once the draw has ended (R259). -/
theorem drawReleaseCall_claimed {x : State} {n : Nat} {d : DrawClaim} (hc : x.claimOf n = some d) (hw : d.waiting = none) :
    ∃ reason, drawReleaseCall n x = ((x.drawEnd (some reason) none).leaveDraw.afterJournal, some stOk) := by
  refine ⟨if d.uncommitted then 2 else 1, ?_⟩
  simp only [drawReleaseCall, hc, hw, Option.isSome_none, Bool.false_eq_true, if_false]

/-! ### SEAL_RECORD (R70, Table 10.10) -/

/-- A write after a write to the same key is as if it alone. -/
theorem mapSet_mapSet {α : Type} [DecidableEq α] {d : α} {v : α} (hv : v ≠ d) (w : α) :
    ∀ (m : List (Nat × α)) (k : Nat), mapSet d (mapSet d m k v) k w = mapSet d m k w
  | [], k => by simp [mapSet, hv]
  | (a, x) :: t, k => by
    rcases Nat.lt_trichotomy k a with h | h | h
    · simp [mapSet, hv, h]
    · simp [mapSet, hv, h]
    · simp [mapSet, Nat.not_lt_of_gt h, Nat.ne_of_gt h, mapSet_mapSet hv w t k]

theorem mem_of_mapGet_ne {α : Type} {d : α} : ∀ {m : List (Nat × α)} {k : Nat}, mapGet d m k ≠ d → ∃ e ∈ m, e.1 = k
  | [], _, h => absurd rfl h
  | (a, v) :: t, k, h => by
    by_cases hk : k = a
    · exact ⟨(a, v), List.mem_cons_self .., hk.symm⟩
    · simp only [mapGet, hk, if_false] at h
      obtain ⟨e, he, hek⟩ := mem_of_mapGet_ne h
      exact ⟨e, List.mem_cons_of_mem _ he, hek⟩

/-- The take of core `n`, which waited alone, is fetched. -/
def State.sealAdmitted (n : Nat) (t : Take) (space off : Nat) (s : State) : State :=
  (s.awaits n (.seal t.id space off)).onTd fun d => { d with fetched := d.fetched ++ [t] }

/-- The call of core `m` is no SEAL_RECORD that waits. -/
def State.NoSealWait (s : State) (m : Nat) : Prop := ∀ t x y, mapGet none s.sz.outstanding m ≠ some (.sealWait t x y)

theorem State.admitSeal_noWait {s : State} {m : Nat} (h : s.NoSealWait m) : s.admitSeal m = s := by
  simp only [State.admitSeal]
  split
  next ho => exact absurd ho (h _ _ _)
  next => rfl

theorem State.sealAdmitted_noSealWait {s : State} {n : Nat} (h : ∀ m, m ≠ n → s.NoSealWait m) (t : Take)
    (space off m : Nat) : (s.sealAdmitted n t space off).NoSealWait m := by
  intro t' x y
  by_cases hm : m = n
  · subst hm
    have ho : mapGet none (s.sealAdmitted m t space off).sz.outstanding m = some (.seal t.id space off) :=
      mapGet_mapSet_listed none (Option.some_ne_none _) _ _
    rw [ho]
    exact nofun
  · have ho : mapGet none (s.sealAdmitted n t space off).sz.outstanding m = mapGet none s.sz.outstanding m :=
      mapGet_mapSet_ne _ _ _ _ _ hm
    rw [ho]
    exact h m hm t' x y

theorem State.admitSeals_alone {s : State} {n : Nat} {t : Take} {space off : Nat}
    (hn : mapGet none s.sz.outstanding n = some (.sealWait t space off)) (hr : s.inflightRoom = true)
    (h : ∀ m, m ≠ n → s.NoSealWait m) : s.admitSeals = s.sealAdmitted n t space off := by
  have hfirst : s.admitSeal n = s.sealAdmitted n t space off := by
    simp only [State.admitSeal, hn, hr, if_true]
    rfl
  have hrest (l : List (Nat × Option Outstanding)) : l.foldl (fun s e => s.admitSeal e.1) (s.sealAdmitted n t space off)
      = s.sealAdmitted n t space off :=
    List.foldlRecOn (motive := fun u => u = s.sealAdmitted n t space off) l _ rfl fun u hu e _ => by
      rw [hu]
      exact State.admitSeal_noWait (State.sealAdmitted_noSealWait h t space off e.1)
  have hall : ∀ l : List (Nat × Option Outstanding), (∃ e ∈ l, e.1 = n) →
      l.foldl (fun s e => s.admitSeal e.1) s = s.sealAdmitted n t space off := by
    intro l
    induction l with
    | nil => exact fun hl => by simp at hl
    | cons e l ih =>
      intro hl
      rw [List.foldl_cons]
      by_cases he : e.1 = n
      · rw [he, hfirst, hrest]
      · rw [State.admitSeal_noWait (h e.1 he)]
        obtain ⟨f, hf, hfn⟩ := hl
        exact ih ⟨f, (List.mem_cons.1 hf).resolve_left fun hfe => he (hfe ▸ hfn), hfn⟩
  exact hall _ (mem_of_mapGet_ne (by rw [hn]; exact nofun))

/-- The take that a SEAL_RECORD makes of its 24 bytes `b` and its payload. -/
def sealTake (n owner id : Nat) (b payload : Bytes) : Take := {
  id := id, source := .applet n, tenant := owner, slot := leAt b 8 4, gate := leAt b 12 4
  length := leAt b 4 4, payload := payload, hasPayload := true, clientTag := leAt b 16 8 }

theorem sealRecordCall_admitted {x : State} {n space off : Nat} {b payload : Bytes} (hb : x.barred n = false)
    (hread : x.bufferRead n (x.arg n 1) 24 = some b) (hspace : x.bufferSpace n (x.arg n 2) 32 = some (space, off))
    (hlen : leAt b 4 4 ≤ 16384) (hpayload : x.bufferRead n (leAt b 0 4) (leAt b 4 4) = some payload)
    (hroom : x.inflightRoom = true) (hslot : leAt b 8 4 < 2 ^ 21) (hgate : leAt b 12 4 < 2 ^ 16)
    (hwait : ∀ m, m ≠ n → x.NoSealWait m) : sealRecordCall n x = (State.awaits n (.seal x.td.nextId space off) { x with
      td := { x.td with
        nextId := x.td.nextId + 1
        fetched := x.td.fetched ++ [sealTake n (x.applet (x.core n).slot).owner x.td.nextId b payload] } }, none) := by
  let t := sealTake n (x.applet (x.core n).slot).owner x.td.nextId b payload
  let y := (x.onTd fun d => { d with nextId := x.td.nextId + 1 }).awaits n (.sealWait t space off)
  have hy : ∀ m, m ≠ n → y.NoSealWait m := fun m hm t' a c => by
    have ho : mapGet none y.sz.outstanding m = mapGet none x.sz.outstanding m := mapGet_mapSet_ne _ _ _ _ _ hm
    rw [ho]
    exact hwait m hm t' a c
  have hadmit : y.admitSeals = y.sealAdmitted n t space off :=
    State.admitSeals_alone (mapGet_mapSet_listed none (Option.some_ne_none _) _ _) hroom hy
  have hawaits : mapSet none y.sz.outstanding n (some (.seal x.td.nextId space off))
      = mapSet none x.sz.outstanding n (some (.seal x.td.nextId space off)) := mapSet_mapSet (Option.some_ne_none _) _ _ _
  have hslot : leAt b 8 4 < 2097152 := hslot
  have hgate : leAt b 12 4 < 65536 := hgate
  have hnamed : (2097152 ≤ leAt b 8 4 || 65536 ≤ leAt b 12 4 : Bool) = false := by simp [hslot, hgate]
  have hslot' : leAt b 8 4 % 2097152 = leAt b 8 4 := Nat.mod_eq_of_lt hslot
  have hgate' : leAt b 12 4 % 65536 = leAt b 12 4 := Nat.mod_eq_of_lt hgate
  simp only [sealRecordCall, hb, hread, hspace, hlen, hpayload, hnamed, hslot', hgate', Bool.false_eq_true, if_false, if_true]
  refine congrArg (·, none) (hadmit.trans ?_)
  show ({ x with
    td := { x.td with nextId := x.td.nextId + 1, fetched := x.td.fetched ++ [t] }
    sz := { x.sz with outstanding := mapSet none y.sz.outstanding n (some (.seal x.td.nextId space off)) } } : State) = _
  rw [hawaits]
  rfl

/-! ### DRAW_COMMIT_ACK (R258) -/

theorem exec_drawCommitAck_held {s : State} {d : DrawClaim} {n k : Nat} (hd : s.sz.draw = some d) (hw : d.waiting = some (n, k))
    (hk : k ≤ s.lg.journalCount - s.lg.reel.length) : exec .drawCommitAck s = .next (s.commitAcked d n) := by
  show execDrawCommitAck s = _
  simp only [execDrawCommitAck, hd, hw, Nat.not_lt.2 hk, if_false]

theorem State.commitAcked_eq (s : State) (d : DrawClaim) (core : Nat) : ∃ cs o,
    s.commitAcked d core = { s with sz := { s.sz with
    slots := mapSet {} s.sz.slots d.slot { s.applet d.slot with holdFrom := none }
    draw := some { d with uncommitted := false, waiting := none }
    cores := cs
    outstanding := o } } := by
  simp only [State.commitAcked]
  split
  · exact State.wakeSlot_serviceEnd_eq ..
  · exact State.serviceEnd_eq ..

end Sys2Proof.Machine
end

section
open Sys2Proof Sys2Proof.Machine

/-- Settles O43: each clause is what its call does on the arguments as the call reads them. -/
theorem draws : Obligations.Draws := by
  unfold Obligations.Draws
  intro s
  refine ⟨fun n hturn => ?calls, fun d n k hd hw hk hwf => ?ack⟩
  case calls =>
    intro c u ap w
    have harg : ∀ i, u.arg n i = w i := s.arg_calledBy n
    have hslot : (u.core n).slot = c.slot := s.slot_calledBy n
    have happlet : u.applet (u.core n).slot = ap := congrArg u.applet hslot
    refine ⟨fun hg hbar => ⟨fun hd hw hm he => ?claim, fun d hd hne => ?busy⟩,
      fun hg => ⟨fun hc => ?order, fun d body hc hw hpos hle hb htap hroom => ?commit⟩,
      fun hg d hc hw hm htap hroom hwf => ?release,
      fun hg hbar b space off payload hread hspace hlen hpayload hroom hs hgate hwait => ?take⟩
    case claim => exact congrArg _ (State.service_waits hturn hg (drawClaimCall_free (x := u) hbar hd hw hm he))
    case busy =>
      exact congrArg _ (State.service_returns hturn hg (drawClaimCall_busy (x := u) hbar hd (by rw [hslot]; exact hne)))
    case order => exact congrArg _ (State.service_returns hturn hg (drawCommitCall_unclaimed (x := u) hc))
    case commit =>
      have hcall := drawCommitCall_body (x := u) hc hw (by rw [harg 2]; exact hpos) (by rw [harg 2]; exact hle)
        (by rw [harg 1, harg 2]; exact hb) htap hroom
      rw [State.journal_untapped (s := u.committing n d) htap] at hcall
      exact ⟨_, congrArg Host.Outcome.next (State.service_waits hturn hg hcall), rfl, rfl,
        mapGet_mapSet_listed none (Option.some_ne_none _) _ _, rfl, rfl⟩
    case release =>
      obtain ⟨reason, hcall⟩ := drawReleaseCall_claimed (x := u) hc hw
      obtain ⟨hcauses, hdraw, hpwr, hdrbg, hcount⟩ := State.drawEnd_leavesDraw (s := u) (State.draw_of_claimOf hc) hw hwf
        hm htap hroom reason
      rw [hcauses] at hcall
      obtain ⟨_, _, hend⟩ := State.serviceEnd_eq (u.drawEnd (some reason) none).leaveDraw n stOk
      have hexec := (State.service_returns hturn hg hcall).trans hend
      exact ⟨_, congrArg Host.Outcome.next hexec, hdraw, hpwr, hdrbg, hcount⟩
    case take =>
      have hcall := sealRecordCall_admitted (x := u) hbar (by rw [harg 1]; exact hread) (by rw [harg 2]; exact hspace) hlen
        hpayload hroom hs hgate fun m hm t x y => hwait m t x y hm
      rw [happlet] at hcall
      exact congrArg _ (State.service_waits hturn hg hcall)
  case ack =>
    obtain ⟨_, _, hack⟩ := s.commitAcked_eq d n
    refine ⟨_, (exec_drawCommitAck_held hd hw hk).trans (congrArg _ hack), rfl, rfl, ?_⟩
    exact mapGet_mapSet_self _ _ _ _ ((MapWf_iff _ _).1 hwf)
end

section
/-! PROOF. The mailbox of a slot (R252, R253, R255): what a write of its registers leaves, that the cells of a ring written
one after the other read back, and what the copy of one message leaves in either direction. -/

namespace Sys2Proof.Machine

/-! ### One slot of the state -/

theorem AppletSlot.ne_default {ap : AppletSlot} (h : ap.enabled = true) : ap ≠ {} := by
  rintro rfl
  exact absurd h (by decide)

/-- A slot that is not as an unlisted one reads back after its change, in any state. -/
theorem State.applet_onApplet {s : State} {a : Nat} {f : AppletSlot → AppletSlot} (h : f (s.applet a) ≠ {}) :
    (s.onApplet a f).applet a = f (s.applet a) :=
  mapGet_mapSet_listed _ h s.sz.slots a

theorem State.applet_onApplet_ne (s : State) {a b : Nat} (f : AppletSlot → AppletSlot) (h : b ≠ a) :
    (s.onApplet a f).applet b = s.applet b :=
  mapGet_mapSet_ne _ _ _ _ _ h

theorem State.wakeSlot_applet (s : State) (a b : Nat) : (s.wakeSlot a).applet b = s.applet b := by
  obtain ⟨_, h⟩ := s.wakeSlot_eq a
  rw [h]
  rfl

/-- What a change of a slot leaves of the slot also stands once its cores have woken. -/
theorem State.applet_onApplet_woken {s : State} {a : Nat} {f : AppletSlot → AppletSlot} (h : f (s.applet a) ≠ {}) :
    ((s.onApplet a f).wakeSlot a).applet a = f (s.applet a) :=
  (State.wakeSlot_applet ..).trans (State.applet_onApplet h)

/-- A change of a slot whose cores then wake stays inside the Sezel processor. -/
theorem State.onApplet_woken_eq (s : State) (a : Nat) (f : AppletSlot → AppletSlot) :
    ∃ z, (s.onApplet a f).wakeSlot a = { s with sz := z } := by
  obtain ⟨_, h⟩ := (s.onApplet a f).wakeSlot_eq a
  exact ⟨_, h⟩

/-! ### The doorbells (R253) -/

theorem exec_mbInTailDb {s : State} {loc : Loc} {a : Nat} (h : Reaches s loc (.slotFrame a 0x18)) (i : BitVec 16)
    (env : HostEnv) : exec (.mbInTailDb loc i env) s = .next ((s.applyEnv env).mbInTail a i.toNat) :=
  congrArg Host.Outcome.next (State.hostWrite_reached (s := s.applyEnv env) h _)

theorem exec_mbOutHeadDb {s : State} {loc : Loc} {a : Nat} (h : Reaches s loc (.slotFrame a 0x1C)) (i : BitVec 16) :
    exec (.mbOutHeadDb loc i) s = .next (s.mbOutHead a i.toNat) :=
  congrArg Host.Outcome.next (State.hostWrite_reached h _)

/-! ### SZ_MB_CFG (R58, R255) -/

theorem exec_mbCfgWrite {s : State} {loc : Loc} {a : Nat} (h : Reaches s loc (.slotFrame a 0x10)) (v : BitVec 32) :
    exec (.mbCfgWrite loc v) s = .next (s.mbCfg a v) :=
  congrArg Host.Outcome.next (State.hostWrite_reached h _)

theorem ofNat_qCfgFields (v : Word) : BitVec.ofNat 32 (qCfgFields v.toNat) = v &&& 0x001F1F1F#32 := by
  apply BitVec.eq_of_toNat_eq
  rw [BitVec.toNat_and, BitVec.toNat_ofNat]
  exact Nat.mod_eq_of_lt (Nat.and_lt_two_pow _ (by decide))

/-- ENABLE stands in a bit of its own beside the other fields of a configuration (Table 3.2). -/
theorem enable_add_qCfgFields (v : Word) :
    BitVec.ofNat 32 (0x80000000 + qCfgFields v.toNat) = 0x80000000#32 ||| (v &&& 0x001F1F1F#32) := by
  have hdisjoint : 0x80000000#32 &&& (v &&& 0x001F1F1F#32) = 0#32 := by
    rw [BitVec.and_comm v, ← BitVec.and_assoc]
    exact BitVec.zero_and
  rw [BitVec.ofNat_add, ofNat_qCfgFields, BitVec.add_eq_or_of_and_eq_zero _ _ hdisjoint]

theorem qCfgFields_congr {v w : Word} (h : v &&& 0x001F1F1F#32 = w &&& 0x001F1F1F#32) :
    qCfgFields v.toNat = qCfgFields w.toNat := by
  have hnat := congrArg BitVec.toNat h
  rwa [BitVec.toNat_and, BitVec.toNat_and] at hnat

/-- Valid ring exponents are not 0, so a configuration that has them is not the reset value. -/
theorem cfg_ne_zero_of_ringSizesOk {v : Word} (h : ringSizesOk v.toNat = true) : v &&& 0x001F1F1F#32 ≠ 0#32 := by
  intro hzero
  obtain ⟨-, -, hexp, -⟩ := of_decide_eq_true h
  have hlow : v.toNat &&& 31 = 0 := by
    have h31 : v &&& 31#32 = 0#32 := by
      rw [show (31#32) = 0x001F1F1F#32 &&& 31#32 from rfl, ← BitVec.and_assoc, hzero, BitVec.zero_and]
    have hnat := congrArg BitVec.toNat h31
    rwa [BitVec.toNat_and] at hnat
  have hmod : v.toNat % 32 = 0 := (Nat.and_two_pow_sub_one_eq_mod v.toNat 5).symm.trans hlow
  simp only [bitsOf, Nat.pow_zero, Nat.div_one] at hexp
  omega

/-- A mailbox as enabling it with configuration `v` leaves it: indices 0, phase 1. -/
def AppletSlot.opened (v : Word) (ap : AppletSlot) : AppletSlot :=
  { ap with
    cfg := 0x80000000#32 ||| (v &&& 0x001F1F1F#32)
    hostInTail := 0
    hostInHead := 0
    hostOutHead := 0
    hostOutTail := 0
    phase := true }

theorem AppletSlot.opened_enabled (v : Word) (ap : AppletSlot) : (ap.opened v).enabled = true := by
  simp [AppletSlot.opened, AppletSlot.enabled]

/-- Enabling a disabled mailbox with valid ring sizes, where no unit is faulted. -/
theorem State.mbCfg_enables {s : State} {a : Nat} {v : Word} (hoff : (s.applet a).enabled = false)
    (hen : v.getLsbD 31 = true) (hsizes : ringSizesOk v.toNat = true) (hf : s.hg.faulted = []) :
    s.mbCfg a v = ((s.unitWritten (slotUnit a) 0x10).onApplet a fun ap => { ap with cfg := v &&& 0x001F1F1F#32 }).onApplet a
      (AppletSlot.opened v) := by
  have hbit : v.toNat.testBit 31 = true := hen
  have hrepaired : (s.unitWritten (slotUnit a) 0x10).hg.faulted = [] := by simp [State.unitWritten, hf]
  have hunit : ∀ f, ((s.unitWritten (slotUnit a) 0x10).onApplet a f).unitFaulted (slotUnit a) = false := fun f => by
    show List.any (s.unitWritten (slotUnit a) 0x10).hg.faulted _ = false
    rw [hrepaired]
    rfl
  simp only [State.mbCfg, hoff, hbit, hsizes, hunit, ofNat_qCfgFields, enable_add_qCfgFields, Bool.not_true,
    Bool.false_eq_true, if_false]
  rfl

theorem State.applet_mbCfg_enables (s : State) (a : Nat) {v : Word} (hsizes : ringSizesOk v.toNat = true) :
    (((s.unitWritten (slotUnit a) 0x10).onApplet a fun ap => { ap with cfg := v &&& 0x001F1F1F#32 }).onApplet a
      (AppletSlot.opened v)).applet a = (s.applet a).opened v := by
  have hcfg : ({ s.applet a with cfg := v &&& 0x001F1F1F#32 } : AppletSlot) ≠ {} := fun h =>
    cfg_ne_zero_of_ringSizesOk hsizes (congrArg AppletSlot.cfg h)
  rw [State.applet_onApplet (AppletSlot.ne_default (AppletSlot.opened_enabled v _)),
    State.applet_onApplet (s := s.unitWritten (slotUnit a) 0x10) hcfg]
  rfl

/-- A write that clears ENABLE and names the fields as they stand. -/
theorem State.mbCfg_disables {s : State} {a : Nat} {v : Word} (hon : (s.applet a).enabled = true)
    (hen : v.getLsbD 31 = false) (hsame : v &&& 0x001F1F1F#32 = (s.applet a).cfg &&& 0x001F1F1F#32) :
    s.mbCfg a v = s.onApplet a fun ap => { ap with cfg := ap.cfg &&& 0x7FFFFFFF#32 } := by
  have hbit : v.toNat.testBit 31 = false := hen
  simp only [State.mbCfg, hon, hbit, qCfgFields_congr hsame, ne_eq, not_true, Bool.false_eq_true, if_false, if_true]

/-! ### Cells of a ring written one after the other -/

theorem Memory.readBytes_congr {m m' : Memory} : ∀ (n a : Nat), (∀ x, a ≤ x → x < a + n → m'.read x = m.read x) →
    m'.readBytes a n = m.readBytes a n
  | 0, _, _ => rfl
  | n + 1, a, h => by
    rw [Memory.readBytes, Memory.readBytes, h a (Nat.le_refl a) (by omega),
      Memory.readBytes_congr n (a + 1) fun x hlo hhi => h x (by omega) (by omega)]

/-- A cell written leaves every other cell alone. -/
theorem Memory.readCell_writeCell_ne (m : Memory) {b : Bytes} (hb : b.length = 64) {c d : Nat} (h : c ≠ d) :
    (m.writeBytes (64 * d) b).readBytes (64 * c) 64 = m.readBytes (64 * c) 64 :=
  Memory.readBytes_congr 64 _ fun x hlo hhi => Memory.read_writeBytes_outside b m _ x (by omega)

/-- Write these cells, each with its bytes, one after the other. -/
def Memory.writeCells (m : Memory) (l : List (Nat × Bytes)) : Memory :=
  l.foldl (fun m p => m.writeBytes (64 * p.1) p.2) m

theorem Memory.readCell_writeCells_notMem : ∀ (l : List (Nat × Bytes)) (m : Memory) {c : Nat},
    (∀ p ∈ l, p.2.length = 64) → c ∉ l.map Prod.fst → (m.writeCells l).readBytes (64 * c) 64 = m.readBytes (64 * c) 64
  | [], _, _, _, _ => rfl
  | p :: l, m, c, hlen, hc => by
    obtain ⟨hp, hl⟩ := List.forall_mem_cons.1 hlen
    obtain ⟨hne, hnot⟩ := not_or.1 (mt List.mem_cons.2 hc)
    exact (readCell_writeCells_notMem l _ hl hnot).trans (m.readCell_writeCell_ne hp hne)

/-- Cells that differ all read back. -/
theorem Memory.readCell_writeCells_mem : ∀ (l : List (Nat × Bytes)) {m : Memory}, m.wf = true →
    (∀ p ∈ l, p.2.length = 64) → (l.map Prod.fst).Nodup → ∀ p ∈ l, (m.writeCells l).readBytes (64 * p.1) 64 = p.2
  | q :: l, m, hwf, hlen, hnodup, p, hp => by
    obtain ⟨hq, hl⟩ := List.forall_mem_cons.1 hlen
    obtain ⟨hnot, hrest⟩ := List.nodup_cons.1 hnodup
    rcases List.mem_cons.1 hp with rfl | hp
    · have hback := Memory.readBytes_writeBytes p.2 hwf (64 * p.1)
      rw [hq] at hback
      exact (readCell_writeCells_notMem l _ hl hnot).trans hback
    · exact readCell_writeCells_mem l (Memory.wf_writeBytes q.2 hwf _) hl hrest p hp

/-! ### The inbound copy (R252, R253) -/

/-- The cells of an inbound message of `n` cells as they land: the cell of the applet's ring, and the bytes of the host's. -/
def AppletSlot.inCells (host : Memory) (n : Nat) (ap : AppletSlot) : List (Nat × Bytes) :=
  (List.range n).map fun j =>
    ((ap.inTail + j) % 512, host.readBytes (ap.inBase + 64 * ((ap.hostInHead + j) % ap.inSize)) 64)

/-- A slot that has taken an inbound message of `n` cells out of host memory. -/
def AppletSlot.received (host : Memory) (n : Nat) (ap : AppletSlot) : AppletSlot :=
  { ap with
    inRing := ap.inRing.writeCells (ap.inCells host n)
    inTail := (ap.inTail + n) % 512
    hostInHead := (ap.hostInHead + n) % ap.inSize }

theorem AppletSlot.inSize_pos (ap : AppletSlot) : 0 < ap.inSize := Nat.two_pow_pos _

theorem AppletSlot.inCells_length (host : Memory) (n : Nat) (ap : AppletSlot) :
    ∀ p ∈ ap.inCells host n, p.2.length = 64 := by
  intro p hp
  obtain ⟨_, -, rfl⟩ := List.mem_map.1 hp
  exact Memory.readBytes_length ..

/-- No message wraps onto itself in the applet's ring of 512 cells. -/
theorem AppletSlot.inCells_nodup (host : Memory) {n : Nat} (hn : n ≤ 512) (ap : AppletSlot) :
    ((ap.inCells host n).map Prod.fst).Nodup := by
  rw [AppletSlot.inCells, List.map_map]
  refine List.Nodup.map_on (fun i hi j hj (hij : (ap.inTail + i) % 512 = (ap.inTail + j) % 512) => ?_) List.nodup_range
  have hin := List.mem_range.1 hi
  have hjn := List.mem_range.1 hj
  omega

theorem AppletSlot.received_cell {host : Memory} {n j : Nat} {ap : AppletSlot} (hwf : ap.inRing.wf = true) (hn : n ≤ 512)
    (hj : j < n) : (ap.received host n).inRing.readBytes (64 * ((ap.inTail + j) % 512)) 64
      = host.readBytes (ap.inBase + 64 * ((ap.hostInHead + j) % ap.inSize)) 64 :=
  Memory.readCell_writeCells_mem _ hwf (ap.inCells_length host n) (ap.inCells_nodup host hn) _
    (List.mem_map.2 ⟨j, List.mem_range.2 hj, rfl⟩)

/-- Where every cell of the host's ring can be read, the message is copied whole and the slot's cores wake. -/
theorem State.copyIn_received {s : State} {a : Nat} (n : Nat)
    (hdma : ∀ c < (s.applet a).inSize, s.dmaOk (s.applet a).owner ((s.applet a).inBase + 64 * c) 64 = true) :
    s.copyIn a n = (s.onApplet a (AppletSlot.received s.hostMem n)).wakeSlot a := by
  have hcells : ((ringCells (s.applet a).inSize (s.applet a).hostInHead n).all fun c =>
      s.dmaOk (s.applet a).owner ((s.applet a).inBase + 64 * c) 64) = true := by
    refine List.all_eq_true.2 fun c hc => ?_
    obtain ⟨_, -, rfl⟩ := List.mem_map.1 hc
    exact hdma _ (Nat.mod_lt _ (s.applet a).inSize_pos)
  have hring : ((ringCells (s.applet a).inSize (s.applet a).hostInHead n).zip (ringCells 512 (s.applet a).inTail n)).foldl
      (fun (m : Memory) p => m.writeBytes (64 * p.2) (s.dmaBytes ((s.applet a).inBase + 64 * p.1) 64)) (s.applet a).inRing
      = (s.applet a).inRing.writeCells ((s.applet a).inCells s.hostMem n) := by
    rw [ringCells, ringCells, List.zip_map', List.foldl_map, Memory.writeCells, AppletSlot.inCells, List.foldl_map]
    rfl
  simp only [State.copyIn, hcells, hring, Bool.not_true, Bool.false_eq_true, if_false]
  rfl

theorem messageCells_pos (len : Nat) : 0 < messageCells len := by
  simp only [messageCells]
  omega

theorem messageCells_le {len : Nat} (h : len ≤ 4088) : messageCells len ≤ 64 := by
  simp only [messageCells]
  omega

/-- A whole message waits in the host's ring, with room for it in the applet's. -/
theorem exec_mbInboundCopy_posted {s : State} {a n : Nat} (hon : (s.applet a).enabled = true)
    (hfree : (s.applet a).state ≠ .free) (hload : (s.applet a).state ≠ .loading)
    (hn : n = messageCells (leAt (s.dmaBytes ((s.applet a).inBase + 64 * (s.applet a).hostInHead) 2) 0 2))
    (hlen : leAt (s.dmaBytes ((s.applet a).inBase + 64 * (s.applet a).hostInHead) 2) 0 2 ≤ 4088)
    (hposted : n ≤ ringUsed (s.applet a).inSize (s.applet a).hostInHead (s.applet a).hostInTail)
    (hroom : ringUsed 512 (s.applet a).inHead (s.applet a).inTail + n ≤ 511)
    (hdma : s.dmaOk (s.applet a).owner ((s.applet a).inBase + 64 * (s.applet a).hostInHead) 64 = true) :
    exec (.mbInboundCopy a) s = .next (s.copyIn a n) := by
  subst hn
  have hsome := Nat.ne_of_gt (Nat.lt_of_lt_of_le (messageCells_pos _) hposted)
  show execMbInboundCopy a s = _
  simp only [execMbInboundCopy, hon, hfree, hload, hsome, hdma, Nat.not_lt.2 hlen, Nat.not_lt.2 hposted, Nat.not_lt.2 hroom,
    Bool.not_true, decide_false, Bool.or_self, Bool.false_eq_true, if_false]

/-! ### The outbound copy (R252, R253, R258) -/

/-- The header cell of an outbound message as it lands: byte 4 carries the phase of the host's ring. -/
def AppletSlot.outHeader (ap : AppletSlot) : Bytes :=
  (ap.outRing.readBytes (64 * ap.outHead) 64).take 4 ++ [BitVec.ofNat 8 (b2n ap.phase)]
    ++ (ap.outRing.readBytes (64 * ap.outHead) 64).drop 5

/-- A slot that has posted an outbound message of one cell to the host. -/
def AppletSlot.posted (ap : AppletSlot) : AppletSlot :=
  { ap with
    outHead := (ap.outHead + 1) % 496
    hostOutTail := (ap.hostOutTail + 1) % ap.outSize
    phase := if (ap.hostOutTail + 1) % ap.outSize < ap.hostOutTail then !ap.phase else ap.phase }

/-- Host memory with the header cell in the host's ring. -/
def State.sentOut (a : Nat) (s : State) : State :=
  { s with hostMem := s.hostMem.writeBytes ((s.applet a).outBase + 64 * (s.applet a).hostOutTail) (s.applet a).outHeader }

theorem State.sentOut_applet (s : State) (a b : Nat) : (s.sentOut a).applet b = s.applet b := by
  rw [State.sentOut, State.applet]
  rfl

/-- Beside host memory, what the copy of one cell changes stays inside the Sezel processor. -/
theorem State.posted_woken_eq (s : State) (a : Nat) : ∃ z, ((s.sentOut a).onApplet a AppletSlot.posted).wakeSlot a
    = { s with
        sz := z
        hostMem := s.hostMem.writeBytes ((s.applet a).outBase + 64 * (s.applet a).hostOutTail) (s.applet a).outHeader } := by
  obtain ⟨z, h⟩ := (s.sentOut a).onApplet_woken_eq a AppletSlot.posted
  exact ⟨z, h.trans (by rw [State.sentOut])⟩

theorem AppletSlot.outHeader_length (ap : AppletSlot) : ap.outHeader.length = 64 := by
  simp [AppletSlot.outHeader, Memory.readBytes_length]

/-- In a ring of more than one cell the tail falls exactly where it wraps. -/
theorem succ_mod_lt_iff {tail size : Nat} (hsize : 1 < size) (htail : tail < size) :
    (tail + 1) % size < tail ↔ tail + 1 = size := by
  rcases Nat.lt_or_eq_of_le (Nat.succ_le_of_lt htail) with h | h
  · rw [Nat.mod_eq_of_lt h]
    omega
  · rw [show tail + 1 = size from h, Nat.mod_self]
    omega

/-- With MSI-X off an event on a vector does nothing. -/
theorem State.msix_off {s : State} {fn : Nat} (v : Nat) (h : (s.fn fn).msixEnable = false) : s.msix fn v = s := by
  simp only [State.msix, h, Bool.not_false, if_true]

/-- Where the write lands and the owner has MSI-X off, the one cell is in host memory and the slot's cores wake. -/
theorem State.copyOut_posted {s : State} {a : Nat} (hhead : (s.applet a).outHead < 496)
    (htail : (s.applet a).hostOutTail < (s.applet a).outSize)
    (hlands : s.dmaLands (s.applet a).owner ((s.applet a).outBase + 64 * (s.applet a).hostOutTail) 64 = true)
    (hmsix : (s.fn (s.applet a).owner).msixEnable = false) :
    s.copyOut a 1 = ((s.sentOut a).onApplet a AppletSlot.posted).wakeSlot a := by
  have hsrc : ringCells 496 (s.applet a).outHead 1 = [(s.applet a).outHead] :=
    congrArg ([·]) (Nat.mod_eq_of_lt hhead)
  have hdst : ringCells (s.applet a).outSize (s.applet a).hostOutTail 1 = [(s.applet a).hostOutTail] :=
    congrArg ([·]) (Nat.mod_eq_of_lt htail)
  have hsend : s.dmaSend (s.applet a).owner [((s.applet a).outBase + 64 * (s.applet a).hostOutTail, (s.applet a).outHeader)]
      = (s.sentOut a, true) := by
    simp only [State.dmaSend, State.dmaWrite, (s.applet a).outHeader_length, hlands, if_true]
    rfl
  rw [AppletSlot.outHeader] at hsend
  have hcopy : s.copyOut a 1 = (((s.sentOut a).onApplet a AppletSlot.posted).wakeSlot a).msix (s.applet a).owner
      (bitsOf (s.applet a).cfg.toNat 20 16) := by
    simp only [State.copyOut, hsrc, hdst, hsend, List.map_cons, List.map_nil, List.zip_cons_cons, List.zip_nil_right,
      List.nil_append, Bool.not_true, Bool.false_eq_true, if_false]
    rfl
  have hoff : (((s.sentOut a).onApplet a AppletSlot.posted).wakeSlot a).hg = s.hg := by
    obtain ⟨_, hwoken⟩ := s.posted_woken_eq a
    rw [hwoken]
  exact hcopy.trans (State.msix_off _ (by rw [State.fn, hoff]; exact hmsix))

/-- One whole message of one cell waits in the applet's ring, none is held, and the host's ring has room for it. -/
theorem exec_mbOutboundCopy_one {s : State} {a : Nat} (hon : (s.applet a).enabled = true)
    (hfree : (s.applet a).state ≠ .free) (hload : (s.applet a).state ≠ .loading)
    (hone : messageCells (leAt ((s.applet a).outRing.readBytes (64 * (s.applet a).outHead) 2) 0 2) = 1)
    (hheld : (s.applet a).holdFrom = none)
    (hposted : 1 ≤ ringUsed 496 (s.applet a).outHead (s.applet a).outNext)
    (hroom : ringUsed (s.applet a).outSize (s.applet a).hostOutHead (s.applet a).hostOutTail + 1 < (s.applet a).outSize) :
    exec (.mbOutboundCopy a) s = .next (s.copyOut a 1) := by
  show execMbOutboundCopy a s = _
  simp only [execMbOutboundCopy, hon, hfree, hload, hone, hheld, Option.getD_none, Nat.not_lt.2 hposted,
    Nat.not_lt.2 (Nat.le_sub_one_of_lt hroom), Bool.not_true, decide_false, Bool.or_self, Bool.false_eq_true, if_false]

end Sys2Proof.Machine
end

section
open Sys2Proof Sys2Proof.Machine

/-- Settles O41: each clause is what the register or the copy it names does, by the lemmas above. -/
theorem mailboxes : Obligations.Mailboxes := by
  unfold Obligations.Mailboxes
  intro s a ap
  refine ⟨fun loc i env hr => ⟨fun hi => ?inTail, fun hi => ?badTail⟩, fun loc i hr hi => ?outHead,
    fun loc v hr => ⟨fun hoff hen hsizes hf => ?enable, fun hon hen hsame => ?disable⟩,
    fun hon hfree hload => ⟨?inbound, ?outbound⟩⟩
  case inTail => exact (exec_mbInTailDb hr i env).trans (congrArg _ (if_neg (Nat.not_le.2 hi)))
  case badTail => exact (exec_mbInTailDb hr i env).trans (congrArg _ (if_pos hi))
  case outHead => exact (exec_mbOutHeadDb hr i).trans (congrArg _ (if_neg (Nat.not_le.2 hi)))
  case enable =>
    exact ⟨_, (exec_mbCfgWrite hr v).trans (congrArg _ (State.mbCfg_enables hoff hen hsizes hf)), rfl,
      s.applet_mbCfg_enables a hsizes⟩
  case disable => exact (exec_mbCfgWrite hr v).trans (congrArg _ (State.mbCfg_disables hon hen hsame))
  case inbound =>
    intro len n hlen hposted hroom hhead hdma hwf
    have hexec : exec (.mbInboundCopy a) s = .next ((s.onApplet a (AppletSlot.received s.hostMem n)).wakeSlot a) :=
      (exec_mbInboundCopy_posted hon hfree hload rfl hlen hposted hroom (hdma _ hhead)).trans
        (congrArg _ (State.copyIn_received n hdma))
    have hself : ((s.onApplet a (AppletSlot.received s.hostMem n)).wakeSlot a).applet a = ap.received s.hostMem n :=
      State.applet_onApplet_woken (AppletSlot.ne_default hon)
    refine ⟨_, hexec, ?_, congrArg AppletSlot.inTail hself, congrArg AppletSlot.hostInHead hself, fun j hj => ?_,
      fun b hb => ?_⟩
    · obtain ⟨_, hwoken⟩ := s.onApplet_woken_eq a (AppletSlot.received s.hostMem n)
      rw [hwoken]
    · rw [hself]
      exact AppletSlot.received_cell hwf (Nat.le_trans (messageCells_le hlen) (by decide)) hj
    · exact (State.wakeSlot_applet ..).trans (s.applet_onApplet_ne _ hb)
  case outbound =>
    intro _ at' hone hheld hhead hposted hroom htail hlands hmsix hwf
    have hsize : 1 < ap.outSize := Nat.lt_of_le_of_lt (Nat.le_add_left 1 _) hroom
    have hexec := (exec_mbOutboundCopy_one hon hfree hload hone hheld hposted hroom).trans
      (congrArg _ (State.copyOut_posted hhead htail hlands hmsix))
    have hself : (((s.sentOut a).onApplet a AppletSlot.posted).wakeSlot a).applet a = ap.posted := by
      have hap : (s.sentOut a).applet a = ap := s.sentOut_applet a a
      exact hap ▸ State.applet_onApplet_woken (hap ▸ AppletSlot.ne_default hon)
    obtain ⟨_, hwoken⟩ := s.posted_woken_eq a
    have hmem : (((s.sentOut a).onApplet a AppletSlot.posted).wakeSlot a).hostMem = s.hostMem.writeBytes at' ap.outHeader := by
      rw [hwoken]
    refine ⟨_, hexec, ?_, hmem ▸ ⟨?_, ?_⟩, congrArg AppletSlot.outHead hself, congrArg AppletSlot.hostOutTail hself, ?_⟩
    · rw [hwoken]
    · exact Memory.readBytes_writeBytes ap.outHeader hwf at'
    · exact Memory.read_writeBytes_outside ap.outHeader s.hostMem at'
    · rw [hself]
      exact if_congr (succ_mod_lt_iff hsize htail) rfl rfl
end

