-- ==== Sys2Proof/Proofs/ZeroLengthAccess.lean ====
section
-- The whole text is compiled in one process: one proof at a time keeps it within its memory.
set_option Elab.async false
/-! LEMMAS. Reads and writes of no bytes (R294), and the front of the queue. -/

namespace Sys2Proof.Machine

variable {s : State} {v : Viewer} {loc : Loc}

/-- What reaches the part is no Unsupported Request, whoever asks. -/
theorem State.supported_of_mayAccess (h : s.mayAccess v loc = true) : s.unsupported v loc = false := by
  have hr : s.reaches v loc = true := (Bool.and_eq_true_iff.mp h).1
  by_cases hv : v = loc.viewer
  · exact State.supported_of_reaches (hv ▸ hr) v
  · simp [State.unsupported, hv]

/-- BAR4 belongs to its own tenant. -/
theorem State.viewer_of_reaches_bar4 {t o : Nat} (h : s.reaches v (.bar4 t o) = true) : v = .tenant t := by
  unfold State.reaches at h
  split at h <;> simp_all

/-- R294: a read of no bytes that reaches the part. -/
theorem State.readReg_zero (h : (match loc with
    | .config t _ => s.configOpen v t
    | _ => s.mayAccess v loc) = true) : s.readReg v loc 0 = s.emit (.readData v loc 0) := by
  cases loc with
  | config t r =>
    have ho : s.configOpen v t = true := h
    simp [State.readReg, ho]
  | bar4 t o =>
    have ha : s.mayAccess v (.bar4 t o) = true := h
    have hr : s.reaches v (.bar4 t o) = true := (Bool.and_eq_true_iff.mp ha).1
    obtain rfl := State.viewer_of_reaches_bar4 hr
    simp [State.readReg, State.supported_of_mayAccess ha, hr, State.bar4Read]
  | window t o | bar2 o =>
    have ha := h
    simp only at ha
    simp [State.readReg, State.supported_of_mayAccess ha, ha]

/-- R294: a write of no bytes that reaches the part. -/
theorem State.writeReg_zero {x : Nat} (h : (match loc with
    | .config t _ => s.configOpen v t
    | _ => s.mayAccess v loc) = true) : s.writeReg v loc 0 x = s := by
  cases loc with
  | config t r => simp [State.writeReg]
  | bar4 t o =>
    have ha : s.mayAccess v (.bar4 t o) = true := h
    have hr : s.reaches v (.bar4 t o) = true := (Bool.and_eq_true_iff.mp ha).1
    simp [State.writeReg, hr, State.bar4Write]
  | window t o | bar2 o =>
    have ha := h
    simp only at ha
    simp [State.writeReg, ha]

end Sys2Proof.Machine

open Sys2Proof Sys2Proof.Machine

/-- Settles O56, kind of place by kind of place: the host's memory decides nothing about who reaches what. -/
theorem zeroLength : Obligations.ZeroLength := fun s v loc x env h => by
  refine ⟨congrArg Host.Outcome.next (State.readReg_zero h), fun hp => ?_⟩
  have hw : (s.applyEnv env).writeReg v loc 0 x.toNat = s.applyEnv env := State.writeReg_zero h
  simp [exec, execRegisterWrite, hp, hw]

/-- Settles O58: a step runs the front of the queue by definition, and idles where there is none. -/
theorem stepRunsFrontCommand : Obligations.StepRunsFrontCommand :=
  ⟨fun _ _ _ => rfl, fun s h => by simp [step, h]⟩
end

