-- ==== Sys2Proof/Proofs/InvariantKept.lean ====
section
-- The whole text is compiled in one process: one proof at a time keeps it within its memory.
set_option Elab.async false
/-! LEMMAS. Every step keeps the invariant (O60). The invariant reads the queue, the host's memory, the regulator's root
digests and the fuses; one lemma for each operation of the model, in the order of the model's files, says that the operation
keeps it, and cites the lemmas of the operations it calls. -/

namespace Sys2Proof.Machine

variable {s : State}

/-- The invariant reads four fields alone. -/
theorem Inv.frame {u : State} (h : Inv s) (hp : u.pending = s.pending) (hm : u.hostMem = s.hostMem)
    (hr : u.sp.rootDigests = s.sp.rootDigests) (hf : u.lc.fuses = s.lc.fuses) : Inv u := by
  exact ⟨hp ▸ h.queue, hm ▸ h.hostMem, hr ▸ h.roots, hf ▸ h.fuses⟩

theorem Inv.onSp {f : Sp → Sp} (h : Inv s) (hf : (f s.sp).rootDigests = s.sp.rootDigests) :
    Inv (s.onSp f) := h.frame rfl rfl hf rfl

theorem Inv.onLc {f : Lc → Lc} (h : Inv s) (hf : (f s.lc).fuses = s.lc.fuses) : Inv (s.onLc f) := h.frame rfl rfl rfl hf

theorem Inv.ite {c : Prop} [Decidable c] {a b : State} (ha : Inv a) (hb : Inv b) : Inv (if c then a else b) := by
  split
  · exact ha
  · exact hb

theorem Inv.foldl {α} {f : State → α → State} (hf : ∀ s x, Inv s → Inv (f s x)) (l : List α) (h : Inv s) :
    Inv (l.foldl f s) := by
  induction l generalizing s with
  | nil => exact h
  | cons x xs ih => exact ih (hf _ _ h)

theorem Inv.applyEnv {e} (h : Inv s) : Inv (s.applyEnv e) := by
  refine ⟨h.queue, ?_, h.roots, h.fuses⟩
  have : ∀ (l : List (Nat × Bytes)) m, Memory.wf m = true → Memory.wf (l.foldl (fun m b => m.writeBytes b.1 b.2) m) = true := by
    intro l
    induction l with
    | nil => exact fun m h => h
    | cons x xs ih => exact fun m h => ih _ (Memory.wf_writeBytes _ h _)
  exact this _ _ h.hostMem

theorem Inv.dmaWrite {fn addr b} (h : Inv s) : Inv (s.dmaWrite fn addr b) := by
  unfold State.dmaWrite
  split
  · exact ⟨h.queue, Memory.wf_writeBytes _ h.hostMem _, h.roots, h.fuses⟩
  · dsimp only
    split
    · exact ⟨h.queue, Memory.wf_writeBytes _ h.hostMem _, h.roots, h.fuses⟩
    · exact h.frame rfl rfl rfl rfl

/-- Writing at most three burnt fuses of one group keeps every group at three (R395). -/
theorem setIfInBounds_le_three {f : Vector Nat 4} {k v : Nat} (hf : ∀ i : Fin 4, f[i] ≤ 3) (hv : v ≤ 3) (i : Fin 4) :
    (f.setIfInBounds k v)[i] ≤ 3 := by
  by_cases hk : k = i.val
  · subst hk
    simpa using hv
  · simpa [hk] using hf i

/-- Completing the burns of two fuses keeps every group at three (R395). -/
theorem completeBurns_le_three {f : Vector Nat 4} (hf : ∀ i : Fin 4, f[i] ≤ 3) (i : Fin 4) : (completeBurns f)[i] ≤ 3 := by
  have h := fun j : Fin 4 => hf j
  have h0 := hf 0; have h1 := hf 1; have h2 := hf 2; have h3 := hf 3
  simp only [completeBurns]
  fin_cases i <;> simp at * <;> split <;> omega

/-! ### Machine/Ops.lean -/

theorem Inv.onPwr {f} (h : Inv s) : Inv (State.onPwr f s) := h.frame rfl rfl rfl rfl

theorem Inv.onTb {f} (h : Inv s) : Inv (State.onTb f s) := h.frame rfl rfl rfl rfl

theorem Inv.onHg {f} (h : Inv s) : Inv (State.onHg f s) := h.frame rfl rfl rfl rfl

theorem Inv.onTd {f} (h : Inv s) : Inv (State.onTd f s) := h.frame rfl rfl rfl rfl

theorem Inv.onLg {f} (h : Inv s) : Inv (State.onLg f s) := h.frame rfl rfl rfl rfl

theorem Inv.onLi {f} (h : Inv s) : Inv (State.onLi f s) := h.frame rfl rfl rfl rfl

theorem Inv.onLh {f} (h : Inv s) : Inv (State.onLh f s) := h.frame rfl rfl rfl rfl

theorem Inv.onEn {f} (h : Inv s) : Inv (State.onEn f s) := h.frame rfl rfl rfl rfl

theorem Inv.onSz {f} (h : Inv s) : Inv (State.onSz f s) := h.frame rfl rfl rfl rfl

theorem Inv.onPd {f} (h : Inv s) : Inv (State.onPd f s) := h.frame rfl rfl rfl rfl

theorem Inv.onEl {f} (h : Inv s) : Inv (State.onEl f s) := h.frame rfl rfl rfl rfl

theorem Inv.onXl {f} (h : Inv s) : Inv (State.onXl f s) := h.frame rfl rfl rfl rfl

theorem Inv.onCh {f} (h : Inv s) : Inv (State.onCh f s) := h.frame rfl rfl rfl rfl

theorem Inv.onTg {f} (h : Inv s) : Inv (State.onTg f s) := h.frame rfl rfl rfl rfl

theorem Inv.onKrf {f} (h : Inv s) : Inv (State.onKrf f s) := h.frame rfl rfl rfl rfl

theorem Inv.emit {o} (h : Inv s) : Inv (State.emit o s) := h.frame rfl rfl rfl rfl

theorem Inv.takeFree {n} (h : Inv s) : Inv (State.takeFree n s) := h.frame rfl rfl rfl rfl

theorem Inv.onFn {n f} (h : Inv s) : Inv (State.onFn n f s) := h.frame rfl rfl rfl rfl

theorem Inv.onQ {t q f} (h : Inv s) : Inv (State.onQ t q f s) := h.frame rfl rfl rfl rfl

theorem Inv.onSlot {n f} (h : Inv s) : Inv (State.onSlot n f s) := h.frame rfl rfl rfl rfl

theorem Inv.onWindow {w f} (h : Inv s) : Inv (State.onWindow w f s) := h.frame rfl rfl rfl rfl

theorem Inv.onGate {g f} (h : Inv s) : Inv (State.onGate g f s) := h.frame rfl rfl rfl rfl

theorem Inv.onCounts {t f} (h : Inv s) : Inv (State.onCounts t f s) := h.frame rfl rfl rfl rfl

theorem Inv.onCore {n f} (h : Inv s) : Inv (State.onCore n f s) := h.frame rfl rfl rfl rfl

theorem Inv.onApplet {a f} (h : Inv s) : Inv (State.onApplet a f s) := h.frame rfl rfl rfl rfl

theorem Inv.onEngine {e f} (h : Inv s) : Inv (State.onEngine e f s) := h.frame rfl rfl rfl rfl

theorem Inv.onUnit {u f} (h : Inv s) : Inv (State.onUnit u f s) := h.frame rfl rfl rfl rfl

theorem Inv.onSource {i f} (h : Inv s) : Inv (State.onSource i f s) := h.frame rfl rfl rfl rfl

theorem Inv.onDrbg {i f} (h : Inv s) : Inv (State.onDrbg i f s) := h.frame rfl rfl rfl rfl

theorem Inv.onFifo {t f} (h : Inv s) : Inv (State.onFifo t f s) := h.frame rfl rfl rfl rfl

theorem Inv.onPort {p f} (h : Inv s) : Inv (State.onPort p f s) := h.frame rfl rfl rfl rfl

theorem Inv.onHandle {x0 f} (h : Inv s) : Inv (State.onHandle x0 f s) := h.frame rfl rfl rfl rfl

theorem Inv.onRegion {d t f} (h : Inv s) : Inv (State.onRegion d t f s) := h.frame rfl rfl rfl rfl

theorem Inv.setNum {index sub inst v} (h : Inv s) : Inv (State.setNum index sub inst v s) := h.frame rfl rfl rfl rfl

theorem Inv.stageNum {index sub inst v} (h : Inv s) : Inv (State.stageNum index sub inst v s) := h.frame rfl rfl rfl rfl

theorem Inv.applyNum {index sub inst} (h : Inv s) : Inv (State.applyNum index sub inst s) := by
  grind [State.applyNum, Inv.onPd, Inv.setNum]

theorem Inv.setOctets {index sub inst b} (h : Inv s) :
    Inv (State.setOctets index sub inst b s) := h.frame rfl rfl rfl rfl

theorem Inv.clearCause {c} (h : Inv s) : Inv (State.clearCause c s) := h.frame rfl rfl rfl rfl

theorem Inv.latch {r bits} (h : Inv s) : Inv (State.latch r bits s) := h.frame rfl rfl rfl rfl

theorem Inv.clearLatch {r v} (h : Inv s) : Inv (State.clearLatch r v s) := h.frame rfl rfl rfl rfl

theorem Inv.ignoredWrite {b} (h : Inv s) : Inv (State.ignoredWrite b s) := h.frame rfl rfl rfl rfl

theorem Inv.message {fn v} (h : Inv s) : Inv (State.message fn v s) := h.frame rfl rfl rfl rfl

theorem Inv.msix {fn v} (h : Inv s) : Inv (State.msix fn v s) := by
  grind [State.msix, Inv.onFn, Inv.message]

theorem Inv.aerLog {fn bit} (h : Inv s) : Inv (State.aerLog fn bit s) := by
  grind [State.aerLog, Inv.onFn, Inv.emit]

theorem Inv.dmaReadFailed {fn} (h : Inv s) : Inv (State.dmaReadFailed fn s) := h.frame rfl rfl rfl rfl

theorem Inv.dmaSend {fn a} (h : Inv s) : Inv (State.dmaSend fn a s).1 := by
  fun_induction State.dmaSend with grind [Inv.dmaWrite]

theorem Inv.evidencePut {body} (h : Inv s) : Inv (State.evidencePut body s) := h.frame rfl rfl rfl rfl

theorem Inv.evidence {kind code time data eraseAlarm} (h : Inv s) :
    Inv (State.evidence kind code time data eraseAlarm s) := by
  grind [State.evidence, Inv.evidencePut, Inv.onTg]

theorem Inv.event {code data} (h : Inv s) : Inv (State.event code data s) := by
  grind [State.event, Inv.evidence]

theorem Inv.causeRecord {c before after} (h : Inv s) : Inv (State.causeRecord c before after s) := by
  grind [State.causeRecord, Inv.evidence]

theorem Inv.tapCopy {b} (h : Inv s) : Inv (State.tapCopy b s) := by
  grind [State.tapCopy, Inv.onLg, Inv.dmaSend]

theorem Inv.journal {body tail} (h : Inv s) : Inv (State.journal body tail s) := by
  grind [State.journal, Inv.onLg, Inv.tapCopy]

theorem Inv.discardHeld {a} (h : Inv s) : Inv (State.discardHeld a s) := by
  grind [State.discardHeld, Inv.latch, Inv.onApplet]

theorem Inv.wakeSlot {a} (h : Inv s) : Inv (State.wakeSlot a s) := by
  grind [State.wakeSlot, Inv.onCore, ← Inv.foldl]

theorem Inv.awaits {n o} (h : Inv s) : Inv (State.awaits n o s) := h.frame rfl rfl rfl rfl

theorem Inv.serviceEnd {core status} (h : Inv s) : Inv (State.serviceEnd core status s) := by
  grind [State.serviceEnd, Inv.onSz, Inv.onCore]

theorem Inv.drawEnd {reason pendingStatus} (h : Inv s) : Inv (State.drawEnd reason pendingStatus s) := by
  grind [State.drawEnd, Inv.journal, Inv.discardHeld, Inv.serviceEnd, Inv.onDrbg, Inv.onSz, Inv.wakeSlot]

theorem Inv.countTake {tenant outcome} (h : Inv s) : Inv (State.countTake tenant outcome s) := h.frame rfl rfl rfl rfl

theorem Inv.writeResult {core space offset b} (h : Inv s) : Inv (State.writeResult core space offset b s) := by
  grind [State.writeResult, Inv.onCore, Inv.onSz]

theorem Inv.completeTake {t status outcome} (h : Inv s) : Inv (State.completeTake t status outcome s) := by
  grind [State.completeTake, Inv.countTake, Inv.writeResult, Inv.serviceEnd, Inv.onQ, Inv.dmaWrite, Inv.msix]

theorem Inv.onTake {id f} (h : Inv s) : Inv (State.onTake id f s) := h.frame rfl rfl rfl rfl

theorem Inv.failTakes {p code} (h : Inv s) : Inv (State.failTakes p code s) := h.frame rfl rfl rfl rfl

theorem Inv.releaseUnits {p} (h : Inv s) : Inv (State.releaseUnits p s) := h.frame rfl rfl rfl rfl

theorem Inv.abandonManifests {p code} (h : Inv s) : Inv (State.abandonManifests p code s) := by
  grind [State.abandonManifests, Inv.onCounts, Inv.failTakes, Inv.releaseUnits, Inv.onTd, ← Inv.foldl]

/-! ### Machine/Fetch.lean -/

theorem Inv.oweQueues {st} (h : Inv s) : Inv (State.oweQueues st s) := h.frame rfl rfl rfl rfl

theorem Inv.fetchFrom {k} (h : Inv s) : Inv (State.fetchFrom k s) := by
  grind [State.fetchFrom, Inv.onHg, Inv.onQ, Inv.latch, Inv.dmaReadFailed, Inv.onTd]

theorem Inv.admitSeal {core} (h : Inv s) : Inv (State.admitSeal core s) := by
  grind [State.admitSeal, Inv.onTd, Inv.awaits]

theorem Inv.admitSeals (h : Inv s) : Inv (State.admitSeals s) := by
  grind [State.admitSeals, Inv.admitSeal, ← Inv.foldl]

theorem Inv.refuseTake {t status} (h : Inv s) : Inv (State.refuseTake t status s) := by
  grind [State.refuseTake, Inv.onTd, Inv.admitSeals, Inv.completeTake]

theorem brecOn_succ {α : Type} (F : (n : Nat) → Nat.below (motive := fun _ => α) n → α) (n : Nat) :
    Nat.brecOn (motive := fun _ => α) (n + 1) F = F (n + 1) ⟨Nat.brecOn n F, (Nat.brecOn.go n F).2⟩ := rfl
theorem Inv.emptyQueues {st fuel} (h : Inv s) : Inv (s.emptyQueues st fuel) := by
  delta State.emptyQueues
  induction fuel generalizing s with
  | zero => exact h
  | succ fuel ih =>
    rw [brecOn_succ]
    generalize Nat.brecOn (motive := fun _ => State → State) fuel (State.emptyQueues._f st) = rest at ih ⊢
    delta State.emptyQueues._f
    dsimp only
    generalize s.nextPair = k
    cases k with
    | none => exact h
    | some k =>
      refine ih ?_
      split
      · exact Inv.refuseTake h.fetchFrom
      · exact h.fetchFrom

/-! ### Machine/Causes.lean -/

theorem Inv.endEngine {e code} (h : Inv s) : Inv (State.endEngine e code s) := by
  grind [State.endEngine, Inv.onEngine, Inv.serviceEnd, Inv.latch, Inv.msix]

theorem Inv.abortEngines {p code} (h : Inv s) : Inv (State.abortEngines p code s) := by
  grind [State.abortEngines, Inv.endEngine, ← Inv.foldl]

theorem Inv.failKeyOp {code} (h : Inv s) : Inv (State.failKeyOp code s) := by
  grind [State.failKeyOp, Inv.onKrf, Inv.setNum]

theorem Inv.unitEnds {o code} (h : Inv s) : Inv (State.unitEnds o code s) := by
  grind [State.unitEnds, Inv.serviceEnd, Inv.failKeyOp, Inv.onKrf]

theorem Inv.freeUnit {u} (h : Inv s) : Inv (State.freeUnit u s) := h.frame rfl rfl rfl rfl

theorem Inv.abortUnits {p code} (h : Inv s) : Inv (State.abortUnits p code s) := by
  grind [State.abortUnits, Inv.unitEnds, Inv.freeUnit, Inv.onLh, ← Inv.foldl]

theorem Inv.addCause {c} (h : Inv s) : Inv (State.addCause c s) := by
  grind [State.addCause, Inv.onPwr]

theorem Inv.noteEvidence (h : Inv s) : Inv (State.noteEvidence s) := by
  grind [State.noteEvidence, Inv.onTg, Inv.addCause]

theorem Inv.noteCause {c} (h : Inv s) : Inv (State.noteCause c s) := by
  grind [State.noteCause, Inv.noteEvidence, Inv.causeRecord, Inv.addCause]

theorem Inv.noteFull (h : Inv s) : Inv (State.noteFull s) := by
  grind [State.noteFull, Inv.noteCause, Inv.latch]

theorem Inv.enterHeld {code} (h : Inv s) : Inv (State.enterHeld code s) := by
  grind [State.enterHeld, Inv.oweQueues, Inv.onPwr, Inv.abandonManifests, Inv.failTakes, Inv.drawEnd, Inv.onDrbg,
    Inv.serviceEnd, Inv.onEn, Inv.noteFull]

theorem Inv.afterEvidence (h : Inv s) : Inv (State.afterEvidence s) := by
  grind [State.afterEvidence, Inv.noteEvidence, Inv.enterHeld]

theorem Inv.logEvent {code data} (h : Inv s) : Inv (State.logEvent code data s) := by
  grind [State.logEvent, Inv.afterEvidence, Inv.event]

theorem Inv.raiseCauseWith {c code} (h : Inv s) : Inv (State.raiseCauseWith c code s) := by
  grind [State.raiseCauseWith, Inv.addCause, Inv.causeRecord, Inv.enterHeld, Inv.afterEvidence]

theorem Inv.raiseCause {c} (h : Inv s) : Inv (State.raiseCause c s) := by
  grind [State.raiseCause, Inv.raiseCauseWith]

theorem Inv.afterJournal (h : Inv s) : Inv (State.afterJournal s) := by
  grind [State.afterJournal, Inv.raiseCause, Inv.latch]

theorem Inv.append {body tail} (h : Inv s) : Inv (State.append body tail s) := by
  grind [State.append, Inv.afterJournal, Inv.journal]

theorem Inv.leaveDraw (h : Inv s) : Inv (State.leaveDraw s) := by
  grind [State.leaveDraw, Inv.onPwr]

/-! ### Machine/Objects.lean -/

theorem Inv.loseClass {c t} (h : Inv s) : Inv (State.loseClass c t s) := h.frame rfl rfl rfl rfl

/-! ### Machine/EntropyOps.lean -/

theorem Inv.noiseBlock (h : Inv s) : Inv (State.noiseBlock s).2 := h.frame rfl rfl rfl rfl

theorem Inv.rekeyShield (h : Inv s) : Inv (State.rekeyShield s) := h.frame rfl rfl rfl rfl

theorem Inv.takeBlock (h : Inv s) : Inv (State.takeBlock s).2 := by
  grind [State.takeBlock, Inv.onEn, Inv.noiseBlock]

theorem Inv.addBlocks {a} (h : Inv s) : Inv (State.addBlocks a s) := by
  fun_induction State.addBlocks with grind [Inv.noiseBlock, Inv.onEn]

theorem Inv.fillReserve (h : Inv s) : Inv (State.fillReserve s) := by
  grind [State.fillReserve, Inv.addBlocks, Inv.noiseBlock, Inv.onEn]

theorem Inv.seedInstance {i entropy} (h : Inv s) : Inv (State.seedInstance i entropy s) := h.frame rfl rfl rfl rfl

theorem Inv.instantiate {i} (h : Inv s) : Inv (State.instantiate i s) := by
  grind [State.instantiate, Inv.takeBlock, Inv.seedInstance]

theorem Inv.noteReseed {i} (h : Inv s) : Inv (State.noteReseed i s) := by
  grind [State.noteReseed, Inv.latch]

theorem Inv.reseed {i} (h : Inv s) : Inv (State.reseed i s) := by
  grind [State.reseed, Inv.takeBlock, Inv.applyNum, Inv.noteReseed, Inv.onDrbg]

theorem Inv.generate {i n resist} (h : Inv s) : Inv (State.generate i n resist s).2 := by
  grind [State.generate, Inv.reseed, Inv.onDrbg]

theorem Inv.generateFor {i epoch n resist r} (h : Inv s) (e : s.generateFor i epoch n resist = .ok r) : Inv r.2 := by
  unfold State.generateFor at e
  split at e
  · cases e
    exact h.generate
  · cases e

theorem Inv.advanceInstance {i} (h : Inv s) : Inv (State.advanceInstance i s) := by
  grind [State.advanceInstance, Inv.onDrbg, Inv.onEn]

theorem Inv.renewKey {i} (h : Inv s) : Inv (State.renewKey i s) := by
  grind [State.renewKey, Inv.generate, Inv.takeFree, Inv.onLg]

theorem Inv.guardKeys (h : Inv s) : Inv (State.guardKeys s) := by
  grind [State.guardKeys, Inv.renewKey, ← Inv.foldl]

theorem Inv.fillEngine {e} (h : Inv s) : Inv (State.fillEngine e s) := by
  grind [State.fillEngine, Inv.generate, Inv.onEngine]

theorem Inv.engineDraw {e a x2} (h : Inv s) : Inv (State.engineDraw e a x2 s).2 := by
  fun_induction State.engineDraw with grind [Inv.fillEngine, Inv.onEngine]

theorem Inv.engineBytes {e n resist} (h : Inv s) : Inv (State.engineBytes e n resist s).2 := by
  grind [State.engineBytes, Inv.onEngine, Inv.reseed, Inv.engineDraw]

theorem Inv.fillUnit {u direct} (h : Inv s) : Inv (State.fillUnit u direct s) := by
  grind [State.fillUnit, Inv.generate, Inv.onUnit]

theorem Inv.unitBytes {u n direct resist} (h : Inv s) : Inv (State.unitBytes u n direct resist s).2 := by
  grind [State.unitBytes, Inv.onUnit, Inv.reseed, Inv.fillUnit]

theorem Inv.dropBuffers (h : Inv s) : Inv (State.dropBuffers s) := h.frame rfl rfl rfl rfl

/-! ### Machine/Operands.lean -/

theorem Inv.clearReservations {g} (h : Inv s) : Inv (State.clearReservations g s) := h.frame rfl rfl rfl rfl

theorem Inv.storeOutTail {a v t} (h : Inv s) (e : s.storeOutTail a v = some t) : Inv t := by
  grind [State.storeOutTail, Inv.onApplet]

theorem Inv.storeInHead {a v t} (h : Inv s) (e : s.storeInHead a v = some t) : Inv t := by
  grind [State.storeInHead, Inv.onApplet]

theorem Inv.storeMailbox {a off b addr t} (h : Inv s) (e : s.storeMailbox a off b addr = .ok t) : Inv t := by
  grind [State.storeMailbox, Inv.onApplet, Inv.storeInHead, Inv.storeOutTail]

theorem Inv.store {c addr b r} (h : Inv s) (e : s.store c addr b = .ok r) : Inv r.1 := by
  grind [State.store, Inv.onRegion, Inv.clearReservations, Inv.storeMailbox]

theorem Inv.staleUnits {core u} (h : Inv s) : Inv (State.staleUnits core u s) := by
  grind [State.staleUnits, Inv.latch, Inv.abortUnits]

theorem Inv.abortService {core} (h : Inv s) : Inv (State.abortService core s) := by
  grind [State.abortService, Inv.onEngine, Inv.staleUnits, Inv.onEn, Inv.onSz, Inv.onTd]

theorem Inv.slotState {a st} (h : Inv s) : Inv (State.slotState a st s) := by
  grind [State.slotState, Inv.onApplet, Inv.msix]

theorem Inv.endSlotDraw {a reason} (h : Inv s) : Inv (State.endSlotDraw a reason s) := by
  grind [State.endSlotDraw, Inv.afterJournal, Inv.leaveDraw, Inv.drawEnd]

theorem Inv.coreFault {n f} (h : Inv s) : Inv (State.coreFault n f s) := by
  grind [State.coreFault, Inv.onCore, Inv.onApplet, Inv.abortService, Inv.endSlotDraw, Inv.slotState, ← Inv.foldl]

theorem Inv.sezel {n size} {body : Body} (h : Inv s) (hb : ∀ c r, body s c = .ok r → Inv r.1) :
    Inv (s.sezel n size body) := by
  unfold State.sezel
  dsimp only
  split
  · split
    · exact h.coreFault
    · split
      · exact h.coreFault
      · next e => exact (hb _ _ e).onCore
  · exact h

/-! ### Machine/Access.lean -/

theorem Inv.busError {loc} (h : Inv s) : Inv (State.busError loc s) := h.frame rfl rfl rfl rfl

theorem Inv.discardWrite {v loc} (h : Inv s) : Inv (State.discardWrite v loc s) := by
  grind [State.discardWrite, Inv.busError, Inv.aerLog]

theorem Inv.unreached {v loc} (h : Inv s) : Inv (State.unreached v loc s) := by
  grind [State.unreached, Inv.aerLog]

theorem Inv.badSize {loc} (h : Inv s) : Inv (State.badSize loc s) := h.frame rfl rfl rfl rfl

theorem Inv.hostWrite {loc f} (h : Inv s) (hf : ∀ r t, f r = some t → Inv t) : Inv (s.hostWrite loc f) := by
  unfold State.hostWrite
  split
  · exact h.unreached
  · split
    · exact h.badSize
    · split
      · exact h.discardWrite
      · next r _ _ =>
        cases e : f r with
        | none => exact h
        | some t => exact hf r t e

/-! ### Machine/Queues.lean -/

theorem Inv.queueIgnored {t q} (h : Inv s) : Inv (State.queueIgnored t q s) := h.frame rfl rfl rfl rfl

theorem Inv.unitWritten {u off} (h : Inv s) : Inv (State.unitWritten u off s) := h.frame rfl rfl rfl rfl

theorem Inv.sqTail {t q index} (h : Inv s) : Inv (State.sqTail t q index s) := by
  grind [State.sqTail, Inv.latch, Inv.onQ]

theorem Inv.cqHead {t q index} (h : Inv s) : Inv (State.cqHead t q index s) := by
  grind [State.cqHead, Inv.latch, Inv.onQ]

theorem Inv.qCfg {t q value} (h : Inv s) : Inv (State.qCfg t q value s) := by
  grind [State.qCfg, Inv.queueIgnored, Inv.onQ, Inv.unitWritten, Inv.latch]

theorem Inv.qBase {t q off value} (h : Inv s) : Inv (State.qBase t q off value s) := by
  grind [State.qBase, Inv.queueIgnored, Inv.unitWritten, Inv.onQ]

/-! ### Machine/Time.lean -/

theorem Inv.refuse {st} (h : Inv s) : Inv (Machine.refuse st s).1 := h.frame rfl rfl rfl rfl

theorem Inv.done {f : State → State} (h : Inv s) (hf : Inv s → Inv (f s)) : Inv (Machine.done f s).1 := hf h

theorem Inv.copyTb (h : Inv s) : Inv (State.copyTb s) := by
  grind [State.copyTb, Inv.onTb]

theorem Inv.copyEl (h : Inv s) : Inv (State.copyEl s) := by
  grind [State.copyEl, Inv.onEl]

theorem Inv.advance {ns} (h : Inv s) : Inv (State.advance ns s) := h.frame rfl rfl rfl rfl

theorem Inv.rollPeaks (h : Inv s) : Inv s.rollPeaks :=
  Inv.foldl (fun _ _ h => h.onSource.takeFree) _ h

theorem Inv.endResets (h : Inv s) : Inv (State.endResets s) := h.frame rfl rfl rfl rfl

theorem Inv.timeIrq (h : Inv s) : Inv (State.timeIrq s) := by
  grind [State.timeIrq, Inv.msix]

theorem Inv.timeCorrection {c} (h : Inv s) : Inv (Machine.timeCorrection c s).1 := h.done Inv.onTb

theorem Inv.timebaseCompare {rtcAdvance} (h : Inv s) : Inv (State.timebaseCompare rtcAdvance s) := by
  grind [State.timebaseCompare, Inv.onTb, Inv.timeIrq, Inv.raiseCause]

theorem Inv.deviceTimeSet {v t} (h : Inv s) : Inv (Machine.deviceTimeSet v t s).1 := by
  grind [Machine.deviceTimeSet, Inv.onTb, Inv.onPwr]

theorem Inv.gateCloseTime {v g time} (h : Inv s) : Inv (Machine.gateCloseTime v g time s).1 := by
  unfold Machine.gateCloseTime
  grind [Inv.onGate]

theorem Inv.gateOwner {g owner} (h : Inv s) : Inv (Machine.gateOwner g owner s).1 := by
  grind [Machine.gateOwner, Inv.onGate]

/-! ### Machine/Applets.lean -/

theorem Inv.loadStatus {t code offset} (h : Inv s) : Inv (State.loadStatus t code offset s) := by
  grind [State.loadStatus, Inv.setNum]

theorem Inv.takeSlot {t i} (h : Inv s) : Inv (State.takeSlot t i s) := by
  grind [State.takeSlot, Inv.loadStatus, Inv.onSz, Inv.onApplet, Inv.slotState]

theorem Inv.appletLoad {t value} (h : Inv s) : Inv (Machine.appletLoad t value s).1 := by
  grind [Machine.appletLoad, Inv.loadStatus, Inv.dmaReadFailed, Inv.takeSlot]

theorem Inv.advanceSlot {a} (h : Inv s) : Inv (State.advanceSlot a s) := by
  grind [State.advanceSlot, Inv.advanceInstance, Inv.onSz]

theorem Inv.startCores {a i x2 x3} (h : Inv s) : Inv (State.startCores a i x2 x3 s) := by
  fun_induction State.startCores with grind [Inv.onCore]

theorem Inv.unloadSlot {a} (h : Inv s) : Inv (State.unloadSlot a s) := by
  grind [State.unloadSlot, Inv.slotState, Inv.onCore, Inv.abortService, Inv.advanceSlot, Inv.endSlotDraw, Inv.onSz,
    Inv.onApplet, ← Inv.foldl]

theorem Inv.appletUnload {t a} (h : Inv s) : Inv (Machine.appletUnload t a s).1 := by
  grind [Machine.appletUnload, Inv.unloadSlot]

theorem Inv.slotIgnored {a} (h : Inv s) : Inv (State.slotIgnored a s) := h.frame rfl rfl rfl rfl

theorem Inv.mbCfg {a value} (h : Inv s) : Inv (State.mbCfg a value s) := by
  grind [State.mbCfg, Inv.slotIgnored, Inv.onApplet, Inv.unitWritten, Inv.latch]

theorem Inv.mbBase {a off value} (h : Inv s) : Inv (State.mbBase a off value s) := by
  grind [State.mbBase, Inv.slotIgnored, Inv.unitWritten, Inv.onApplet]

theorem Inv.mbInTail {a index} (h : Inv s) : Inv (State.mbInTail a index s) := by
  grind [State.mbInTail, Inv.latch, Inv.onApplet]

theorem Inv.mbOutHead {a index} (h : Inv s) : Inv (State.mbOutHead a index s) := by
  grind [State.mbOutHead, Inv.latch, Inv.onApplet]

theorem Inv.mbError {a bit} (h : Inv s) : Inv (State.mbError a bit s) := h.frame rfl rfl rfl rfl

theorem Inv.copyIn {a n} (h : Inv s) : Inv (State.copyIn a n s) := by
  grind [State.copyIn, Inv.mbError, Inv.dmaReadFailed, Inv.onApplet, Inv.wakeSlot, ← Inv.foldl]

theorem Inv.copyOut {a n} (h : Inv s) : Inv (State.copyOut a n s) := by
  grind [State.copyOut, Inv.dmaSend, Inv.mbError, Inv.onApplet, Inv.msix, Inv.wakeSlot]

/-! ### Machine/FleetOps.lean -/

theorem Inv.transmit {p f} (h : Inv s) : Inv (State.transmit p f s) := h.frame rfl rfl rfl rfl

theorem Inv.sendPort {p f} (h : Inv s) : Inv (State.sendPort p f s) := by
  grind [State.sendPort, Inv.onPort, Inv.transmit]

theorem Inv.drainPort {p a} (h : Inv s) : Inv (State.drainPort p a s) := by
  fun_induction State.drainPort with grind [Inv.onPort, Inv.transmit]

theorem Inv.flushPort {p} (h : Inv s) : Inv (State.flushPort p s) := by
  grind [State.flushPort, Inv.onPort, Inv.drainPort]

theorem Inv.bumpFleet {sub} (h : Inv s) : Inv (State.bumpFleet sub s) := h.frame rfl rfl rfl rfl

theorem Inv.sendMember {m vc x2 payload} (h : Inv s) : Inv (State.sendMember m vc x2 payload s) := by
  grind [State.sendMember, Inv.bumpFleet, Inv.latch, Inv.sendPort]

theorem Inv.sendRequest {m x1 body} (h : Inv s) : Inv (State.sendRequest m x1 body s) := by
  grind [State.sendRequest, Inv.onXl, Inv.sendMember]

theorem Inv.startPort {p} (h : Inv s) : Inv (State.startPort p s) := by
  grind [State.startPort, Inv.onPort]

theorem Inv.startPorts (h : Inv s) : Inv (State.startPorts s) := by
  grind [State.startPorts, Inv.startPort, ← Inv.foldl]

theorem Inv.restoreMirrored {rebuilt} (h : Inv s) : Inv (State.restoreMirrored rebuilt s) := by
  grind [State.restoreMirrored, Inv.sendRequest, Inv.onLg, ← Inv.foldl]

theorem Inv.grantLease {n holder} (h : Inv s) : Inv (State.grantLease n holder s).1 := by
  grind [State.grantLease, Inv.applyNum, Inv.onXl, Inv.append]

theorem Inv.wantLease {n c} (h : Inv s) : Inv (State.wantLease n c s) := by
  grind [State.wantLease, Inv.grantLease, Inv.sendRequest]

theorem Inv.relinquish {n} (h : Inv s) : Inv (State.relinquish n s) := by
  grind [State.relinquish, Inv.onSlot, Inv.onLg, Inv.onXl, Inv.append]

/-! ### Machine/Guard.lean -/

theorem Inv.markFailed {a} (h : Inv s) : Inv (State.markFailed a s) := h.frame rfl rfl rfl rfl

theorem Inv.lineFailed {a} (h : Inv s) : Inv (State.lineFailed a s) := by
  grind [State.lineFailed, Inv.onLg, Inv.markFailed, Inv.raiseCause, Inv.latch]

theorem Inv.evictSlot {n} (h : Inv s) : Inv (State.evictSlot n s) := by
  grind [State.evictSlot, Inv.onLg]

theorem Inv.makeRoom {a} (h : Inv s) : Inv (State.makeRoom a s) := by
  fun_induction State.makeRoom with grind [Inv.evictSlot, Inv.takeFree]

theorem Inv.makeResident {n} (h : Inv s) : Inv (State.makeResident n s) := by
  grind [State.makeResident, Inv.onLg, Inv.makeRoom]

theorem Inv.soil {n} (h : Inv s) : Inv (State.soil n s) := by
  grind [State.soil, Inv.onLg, Inv.makeResident]

theorem Inv.writeBack (h : Inv s) : Inv (State.writeBack s) := h.frame rfl rfl rfl rfl

/-! ### Machine/Takes.lean -/

theorem Inv.reserve {t serial} (h : Inv s) : Inv (State.reserve t serial s) := by
  grind [State.reserve, Inv.onTd, Inv.wantLease]

theorem Inv.reserveStamped {t} (h : Inv s) : Inv (State.reserveStamped t s) := by
  grind [State.reserveStamped, Inv.lineFailed, Inv.refuseTake, Inv.makeResident, Inv.reserve]

theorem Inv.reserveTake {t} (h : Inv s) : Inv (State.reserveTake t s) := by
  grind [State.reserveTake, Inv.refuseTake, Inv.dmaReadFailed, Inv.reserveStamped, Inv.onTd]

theorem Inv.returnTake {id code} (h : Inv s) : Inv (State.returnTake id code s) := h.frame rfl rfl rfl rfl

theorem Inv.onManifest {mid f} (h : Inv s) : Inv (State.onManifest mid f s) := h.frame rfl rfl rfl rfl

theorem Inv.closeManifest {mid reason} (h : Inv s) : Inv (State.closeManifest mid reason s) := h.frame rfl rfl rfl rfl

theorem Inv.openManifest {t} (h : Inv s) : Inv (State.openManifest t s).1 := by
  grind [State.openManifest, Inv.closeManifest, Inv.applyNum, Inv.onTd]

theorem Inv.enterLeaf {t digest mid} (h : Inv s) : Inv (State.enterLeaf t digest mid s) := by
  grind [State.enterLeaf, Inv.onManifest, Inv.onTake, Inv.closeManifest]

theorem Inv.joinManifest {t digest} (h : Inv s) : Inv (State.joinManifest t digest s) := by
  grind [State.joinManifest, Inv.enterLeaf, Inv.onTake, Inv.openManifest]

/-! ### Machine/Sealing.lean -/

theorem Inv.lieFault {e} (h : Inv s) : Inv (State.lieFault e s) := by
  grind [State.lieFault, Inv.onLi, Inv.onEngine, Inv.raiseCause]

theorem Inv.sealFault {e code} (h : Inv s) : Inv (State.sealFault e code s) := by
  unfold State.sealFault
  grind [Inv.lieFault]

theorem Inv.sealRefill {e} (h : Inv s) : Inv (State.sealRefill e s) := by
  unfold State.sealRefill
  grind [Inv.fillEngine]

theorem Inv.unitFault {u} (h : Inv s) : Inv (State.unitFault u s) := by
  grind [State.unitFault, Inv.latch, Inv.onLh, Inv.onUnit, Inv.raiseCause]

theorem Inv.startUnit {u o} (h : Inv s) : Inv (State.startUnit u o s) := h.frame rfl rfl rfl rfl

theorem Inv.journalHedge (h : Inv s) : Inv (State.journalHedge s).2 := by
  grind [State.journalHedge, Inv.generate, Inv.takeFree]

theorem Inv.journalSignature {covered} (h : Inv s) : Inv (State.journalSignature s covered).2 := by
  grind [State.journalSignature, Inv.journalHedge]

theorem Inv.beginSeal {e t} (h : Inv s) : Inv (State.beginSeal e t s) := by
  grind [State.beginSeal, Inv.returnTake, Inv.engineBytes, Inv.onTake]

theorem Inv.assignTake {t} (h : Inv s) : Inv (State.assignTake t s) := by
  grind [State.assignTake, Inv.beginSeal]

theorem Inv.assignEc {m} (h : Inv s) : Inv (State.assignEc m s) := by
  grind [State.assignEc, Inv.engineBytes, Inv.onManifest]

theorem Inv.assignMl {m} (h : Inv s) : Inv (State.assignMl m s) := by
  grind [State.assignMl, Inv.unitBytes, Inv.onManifest, Inv.startUnit]

theorem Inv.assignManifest {m} (h : Inv s) : Inv (State.assignManifest m s) := by
  grind [State.assignManifest, Inv.abandonManifests, Inv.assignMl, Inv.assignEc]

theorem Inv.assignVerify {e} (h : Inv s) : Inv (State.assignVerify e s) := by
  grind [State.assignVerify, Inv.startUnit, Inv.onLh]

theorem Inv.beginService {core u o} (h : Inv s) : Inv (State.beginService core u o s) := by
  grind [State.beginService, Inv.serviceEnd, Inv.unitBytes, Inv.awaits, Inv.startUnit]

theorem Inv.assignService {core} (h : Inv s) : Inv (State.assignService core s) := by
  grind [State.assignService, Inv.beginService]

theorem Inv.assignAnchor {j} (h : Inv s) : Inv (State.assignAnchor j s) := by
  grind [State.assignAnchor, Inv.startUnit, Inv.onKrf, Inv.generate]

theorem Inv.assignKeyEngine (h : Inv s) : Inv (State.assignKeyEngine s) := by
  grind [State.assignKeyEngine, Inv.onKrf]

theorem Inv.assignWork (h : Inv s) : Inv (State.assignWork s) := by
  grind [State.assignWork, Inv.assignTake, Inv.assignManifest, Inv.assignVerify, Inv.assignKeyEngine,
    Inv.assignAnchor, Inv.assignService, ← Inv.foldl]

theorem Inv.slateCopy {m bytes} (h : Inv s) : Inv (State.slateCopy m bytes s) := by
  grind [State.slateCopy, Inv.dmaWrite, Inv.onCounts, Inv.onManifest]

theorem Inv.slateManifest {m} (h : Inv s) : Inv (State.slateManifest m s) := by
  grind [State.slateManifest, Inv.onManifest, Inv.slateCopy, Inv.journal, Inv.onCounts, Inv.onTd, Inv.afterJournal]

theorem Inv.mlFault {mid code} (h : Inv s) : Inv (State.mlFault mid code s) := by
  grind [State.mlFault, Inv.unitFault, ← Inv.foldl]

theorem Inv.lateTake {t} (h : Inv s) : Inv (State.lateTake t s) := by
  grind [State.lateTake, Inv.abandonManifests, Inv.returnTake]

/-! ### Machine/ModeOps.lean -/

theorem Inv.sendCut {kind sources index} (h : Inv s) : Inv (State.sendCut kind sources index s) := by
  grind [State.sendCut, Inv.emit, Inv.onEl, ← Inv.foldl]

theorem Inv.cutReel (h : Inv s) : Inv (State.cutReel s) := h.frame rfl rfl rfl rfl

theorem Inv.loseVolFields (h : Inv s) : Inv (State.loseVolFields s) := h.frame rfl rfl rfl rfl

theorem Inv.loseVol (h : Inv s) : Inv (State.loseVol s) := h.frame rfl rfl rfl rfl

theorem Inv.loseWrm (h : Inv s) : Inv (State.loseWrm s) := h.frame rfl rfl rfl rfl

theorem Inv.clearKrf (h : Inv s) : Inv (State.clearKrf s) := h.frame rfl rfl rfl rfl

theorem Inv.wipeCompute (h : Inv s) : Inv (State.wipeCompute s) := h.frame rfl rfl rfl rfl

theorem Inv.portsDown (h : Inv s) : Inv (State.portsDown s) := h.frame rfl rfl rfl rfl

theorem Inv.enterRetired (h : Inv s) : Inv s.enterRetired := Inv.onPwr (Inv.onKrf (Inv.onEl h.portsDown))

theorem Inv.retireIfScrapped (h : Inv s) : Inv (State.retireIfScrapped s) := by
  grind [State.retireIfScrapped, Inv.enterRetired]

theorem Inv.cardOff (h : Inv s) : Inv (State.cardOff s) := h.frame rfl rfl rfl rfl

theorem Inv.endCeremony (h : Inv s) : Inv (State.endCeremony s) := by
  grind [State.endCeremony, Inv.onPwr, Inv.onKrf, Inv.releaseUnits, Inv.onXl, Inv.onLc, Inv.onTg, Inv.raiseCause,
    Inv.sendMember, Inv.retireIfScrapped, ← Inv.foldl]

theorem Inv.dropSession (h : Inv s) : Inv (State.dropSession s) := by
  grind [State.dropSession, Inv.onSp, Inv.latch, Inv.onPd, Inv.endCeremony]

theorem Inv.enterDrain {ending silent} (h : Inv s) : Inv (State.enterDrain ending silent s) := by
  grind [State.enterDrain, Inv.onLc, Inv.applyNum, Inv.endCeremony, Inv.onPwr, Inv.drawEnd, Inv.oweQueues,
    Inv.serviceEnd, Inv.onEn, Inv.noteFull, Inv.closeManifest, ← Inv.foldl]

theorem Inv.quarantineTakes (h : Inv s) : Inv (State.quarantineTakes s) := by
  grind [State.quarantineTakes, Inv.completeTake, Inv.onTd, Inv.oweQueues, Inv.emptyQueues, ← Inv.foldl]

theorem Inv.zeroLedger (h : Inv s) : Inv (State.zeroLedger s) := h.frame rfl rfl rfl rfl

theorem Inv.eraseSecrets (h : Inv s) : Inv (State.eraseSecrets s) := by
  grind [State.eraseSecrets, Inv.clearKrf, Inv.onTg, Inv.drawEnd, Inv.rekeyShield, Inv.onLi, Inv.wipeCompute,
    Inv.dropSession, Inv.cardOff, Inv.onXl, Inv.portsDown, Inv.zeroLedger]

theorem Inv.enterQuarantine (h : Inv s) : Inv (State.enterQuarantine s) := by
  grind [State.enterQuarantine, Inv.quarantineTakes, Inv.loseWrm, Inv.loseVol, Inv.cutReel, Inv.eraseSecrets,
    Inv.onLc, Inv.onHg, Inv.onPwr, Inv.retireIfScrapped, Inv.addCause, Inv.onEn]

theorem Inv.postErase {source} (h : Inv s) : Inv (State.postErase source s) := h.frame rfl rfl rfl rfl

theorem Inv.holdRecord {w} (h : Inv s) : Inv (State.holdRecord w s) := by
  grind [State.holdRecord, Inv.evidence, Inv.onTg, ← Inv.foldl]

theorem Inv.closeAlarmWindow (h : Inv s) : Inv (State.closeAlarmWindow s) := by
  grind [State.closeAlarmWindow, Inv.onTg, Inv.evidence, Inv.sendCut, Inv.afterEvidence, Inv.holdRecord]

theorem Inv.joinWindow {monitor source erase} (h : Inv s) : Inv (State.joinWindow monitor source erase s) := by
  grind [State.joinWindow, Inv.onTg]

theorem Inv.expireWindow (h : Inv s) : Inv (State.expireWindow s) := by
  grind [State.expireWindow, Inv.closeAlarmWindow]

theorem Inv.leftRange {source} (h : Inv s) : Inv (State.leftRange source s) := h.frame rfl rfl rfl rfl

theorem Inv.holdAction {source} (h : Inv s) : Inv (State.holdAction source s) := by
  grind [State.holdAction, Inv.onTg, Inv.raiseCause, Inv.endCeremony]

theorem Inv.alarm {monitor} (h : Inv s) : Inv (State.alarm monitor s) := by
  grind [State.alarm, Inv.expireWindow, Inv.latch, Inv.leftRange, Inv.postErase, Inv.joinWindow, Inv.enterQuarantine,
    Inv.holdAction]

theorem Inv.alarmIfArmed {monitor} (h : Inv s) : Inv (State.alarmIfArmed monitor s) := by
  grind [State.alarmIfArmed, Inv.alarm]

theorem Inv.batteryAlarm {monitors} (h : Inv s) : Inv (State.batteryAlarm monitors s) := by
  grind [State.batteryAlarm, Inv.postErase, Inv.onTg, Inv.evidence, ← Inv.foldl]

theorem Inv.securityMismatch {monitor} (h : Inv s) : Inv (State.securityMismatch monitor s).1 := by
  grind [State.securityMismatch, Inv.raiseCause, Inv.alarmIfArmed]

/-! ### Machine/Card.lean -/

theorem Inv.cardCommand {command arg data} (h : Inv s) :
    Inv (State.cardCommand command arg data s) := h.frame rfl rfl rfl rfl

theorem Inv.cardCommands {cs} (h : Inv s) : Inv (State.cardCommands cs s) := by
  grind [State.cardCommands, Inv.cardCommand, ← Inv.foldl]

theorem Inv.endCardOp {code} (h : Inv s) : Inv (State.endCardOp code s) := h.frame rfl rfl rfl rfl

theorem Inv.cardOpRemoved (h : Inv s) : Inv (State.cardOpRemoved s) := by
  grind [State.cardOpRemoved, Inv.latch, Inv.endCardOp]

theorem Inv.cardOpFailed {o} (h : Inv s) : Inv (State.cardOpFailed o s) := h.frame rfl rfl rfl rfl

theorem Inv.cardRemoved (h : Inv s) : Inv (State.cardRemoved s) := by
  grind [State.cardRemoved, Inv.cardOff, Inv.latch, Inv.cardOpRemoved]

theorem Inv.cardStep {n} (h : Inv s) : Inv (State.cardStep n s) := by
  grind [State.cardStep, Inv.cardCommands, Inv.onCh]

theorem Inv.cardInitFailed (h : Inv s) : Inv (State.cardInitFailed s) := h.frame rfl rfl rfl rfl

theorem Inv.tune {taps} (h : Inv s) : Inv (State.tune taps s) := by
  grind [State.tune, Inv.onCh, Inv.cardCommand, Inv.latch]

theorem Inv.cardInitNext {f} (h : Inv s) : Inv (State.cardInitNext f s) := by
  grind [State.cardInitNext, Inv.cardStep, Inv.cardInitFailed, Inv.onCh, Inv.tune]

theorem Inv.loadRecord {r a b} (h : Inv s) : Inv (s.loadRecord r a b) := by
  unfold State.loadRecord
  dsimp only
  split
  · exact h.endCardOp
  · exact h.setOctets.setNum.setNum.setNum.endCardOp

theorem Inv.cardOpStep {o} (h : Inv s) : Inv (State.cardOpStep o s) := h.frame rfl rfl rfl rfl

theorem Inv.readNext {o b} (h : Inv s) : Inv (State.readNext o b s) := by
  grind [State.readNext, Inv.cardCommand, Inv.cardOpStep, Inv.loadRecord]

theorem Inv.writeNext {o b} (h : Inv s) : Inv (State.writeNext o b s) := by
  grind [State.writeNext, Inv.cardCommand, Inv.cardOpStep, Inv.setNum, Inv.endCardOp]

theorem Inv.formatNext {o b} (h : Inv s) : Inv (State.formatNext o b s) := by
  grind [State.formatNext, Inv.cardCommand, Inv.cardOpStep, Inv.endCardOp, Inv.onCh]

theorem Inv.tuneIfDue (h : Inv s) : Inv (State.tuneIfDue s) := by
  grind [State.tuneIfDue, Inv.latch, Inv.tune, Inv.cardCommands]

theorem Inv.retuneNow {taps} (h : Inv s) : Inv (State.retuneNow taps s) := by
  grind [State.retuneNow, Inv.onCh, Inv.latch, Inv.tune, Inv.cardCommands]

theorem Inv.cardRead {value} (h : Inv s) : Inv (Machine.cardRead value s).1 := by
  grind [Machine.cardRead, Inv.cardCommand, Inv.cardOpStep]

theorem Inv.cardWrite {value} (h : Inv s) : Inv (Machine.cardWrite value s).1 := by
  grind [Machine.cardWrite, Inv.endCardOp, Inv.cardCommand, Inv.cardOpStep]

theorem Inv.cardFormat {value} (h : Inv s) : Inv (Machine.cardFormat value s).1 := by
  grind [Machine.cardFormat, Inv.endCardOp, Inv.generate, Inv.cardCommand, Inv.cardOpStep]

theorem Inv.chCfg {value} (h : Inv s) : Inv (State.chCfg value s) := by
  grind [State.chCfg, Inv.ignoredWrite, Inv.cardOff, Inv.cardOpRemoved, Inv.onCh, Inv.unitWritten]

theorem Inv.cardMaxMode {value} (h : Inv s) : Inv (Machine.cardMaxMode value s).1 := by
  grind [Machine.cardMaxMode, Inv.ignoredWrite, Inv.onCh]

/-! ### Machine/Buffers.lean -/

theorem Inv.poolWrite {t addr b} (h : Inv s) : Inv (State.poolWrite t addr b s) := h.frame rfl rfl rfl rfl

theorem Inv.renewPool {t} (h : Inv s) : Inv (State.renewPool t s) := by
  grind [State.renewPool, Inv.renewKey, Inv.onLg]

theorem Inv.bufferWrite {core addr b} (h : Inv s) : Inv (State.bufferWrite core addr b s) := by
  grind [State.bufferWrite, Inv.writeResult]

/-! ### Machine/Entropy.lean -/

theorem Inv.isolate {test i} (h : Inv s) : Inv (State.isolate test s i) := h.frame rfl rfl rfl rfl

theorem Inv.failureRecord {source test} (h : Inv s) : Inv (State.failureRecord source test s) := by
  grind [State.failureRecord, Inv.logEvent]

theorem Inv.rememberFailure {source test} (h : Inv s) :
    Inv (State.rememberFailure source test s) := h.frame rfl rfl rfl rfl

theorem Inv.latchFailure (h : Inv s) : Inv (State.latchFailure s) := h.frame rfl rfl rfl rfl

theorem Inv.endRandoms {code} (h : Inv s) : Inv (State.endRandoms code s) := by
  grind [State.endRandoms, Inv.serviceEnd, ← Inv.foldl]

theorem Inv.stopDelivery (h : Inv s) : Inv (State.stopDelivery s) := by
  grind [State.stopDelivery, Inv.latch, Inv.dropBuffers, Inv.onEn, Inv.serviceEnd, Inv.endRandoms, Inv.abortEngines,
    Inv.failKeyOp, Inv.abortUnits, Inv.abandonManifests, Inv.failTakes]

theorem Inv.entropyFailure {sources test} (h : Inv s) : Inv (State.entropyFailure sources test s) := by
  grind [State.entropyFailure, Inv.isolate, Inv.rememberFailure, Inv.latchFailure, Inv.onEn, Inv.onPwr,
    Inv.raiseCause, Inv.stopDelivery, Inv.failureRecord, Inv.enterDrain, ← Inv.foldl]

theorem Inv.healthFail {now test} (h : Inv s) : Inv (State.healthFail now test s) := by
  grind [State.healthFail, Inv.isolate, Inv.failureRecord, Inv.entropyFailure, ← Inv.foldl]

theorem Inv.enLatchClear {value failed} (h : Inv s) : Inv (Machine.enLatchClear value failed s).1 := by
  grind [Machine.enLatchClear, Inv.latch, Inv.onEn, Inv.clearCause, Inv.fillReserve, Inv.noteReseed, Inv.instantiate,
    ← Inv.foldl]

theorem Inv.keepBlock {i b} (h : Inv s) : Inv (State.keepBlock i b s) := h.frame rfl rfl rfl rfl

theorem Inv.releaseCandidate {i} (h : Inv s) : Inv (State.releaseCandidate i s) := by
  grind [State.releaseCandidate, Inv.keepBlock, Inv.onSource]

theorem Inv.reseedIf {i due} (h : Inv s) : Inv (State.reseedIf i due s) := by
  grind [State.reseedIf, Inv.reseed]

theorem Inv.randomFrom {n addr len} (h : Inv s) : Inv (s.randomFrom n addr len).1 := by
  unfold State.randomFrom
  dsimp only
  split
  · next e => exact (h.generateFor e).bufferWrite
  · exact h

theorem Inv.resumeRandoms {i} (h : Inv s) : Inv (State.resumeRandoms i s) := by
  grind [State.resumeRandoms, Inv.randomFrom, Inv.serviceEnd, ← Inv.foldl]

theorem Inv.rngError {t cause} (h : Inv s) : Inv (State.rngError t cause s) := h.frame rfl rfl rfl rfl

theorem Inv.rngRead {v loc t size} (h : Inv s) : Inv (State.rngRead v loc t size s) := by
  grind [State.rngRead, Inv.emit, Inv.rngError, Inv.onFifo]

/-! ### Machine/Ledger.lean -/

theorem Inv.windowOwner {w owner} (h : Inv s) : Inv (Machine.windowOwner w owner s).1 := by
  grind [Machine.windowOwner, Inv.onWindow, Inv.failTakes]

theorem Inv.rewriteWindow {w} (h : Inv s) : Inv (State.rewriteWindow w s) := by
  grind [State.rewriteWindow, Inv.soil, Inv.onSlot, ← Inv.foldl]

theorem Inv.adminSlot {n action first last} (h : Inv s) : Inv (State.adminSlot n action first last s) := by
  grind [State.adminSlot, Inv.afterJournal, Inv.soil, Inv.onSlot, Inv.journal]

theorem Inv.slotApply {regulator inst} (h : Inv s) : Inv (State.slotApply regulator inst s).1 := by
  grind [State.slotApply, Inv.onSlot, Inv.adminSlot]

theorem Inv.slotReopen {inst} (h : Inv s) : Inv (State.slotReopen inst s).1 := by
  grind [State.slotReopen, Inv.onSlot, Inv.adminSlot]

theorem Inv.slotApplyWrite {v inst value} (h : Inv s) : Inv (Machine.slotApplyWrite v inst value s).1 := by
  grind [Machine.slotApplyWrite, Inv.slotReopen, Inv.slotApply]

theorem Inv.startCheckpoint (h : Inv s) : Inv (State.startCheckpoint s) := by
  grind [State.startCheckpoint, Inv.applyNum, Inv.onLg]

theorem Inv.commitCheckpoint {w} (h : Inv s) : Inv (State.commitCheckpoint w s) := by
  grind [State.commitCheckpoint, Inv.dmaSend, Inv.onLg, Inv.latch, Inv.append]

theorem Inv.tapConsumed {value} (h : Inv s) : Inv (Machine.tapConsumed value s).1 := by
  grind [Machine.tapConsumed, Inv.onLg]

theorem Inv.applyLanding {b cont} (h : Inv s) : Inv (State.applyLanding b cont s) := by
  grind [State.applyLanding, Inv.onSlot]

theorem Inv.closeWindow {w} (h : Inv s) : Inv (State.closeWindow w s) := by
  grind [State.closeWindow, Inv.onSlot, ← Inv.foldl]

theorem Inv.applyAdmin {b cont} (h : Inv s) : Inv (State.applyAdmin b cont s) := by
  grind [State.applyAdmin, Inv.onWindow, Inv.rewriteWindow, Inv.closeWindow, Inv.onSlot]

theorem Inv.replay {fuel tail cont r} (h : Inv s) (e : s.replay fuel tail cont = .ok r) : Inv r.1 := by
  induction fuel generalizing s tail cont with
  | zero =>
    cases e
    exact h
  | succ fuel ih =>
    unfold State.replay at e
    split at e
    · cases e
    · split at e
      · cases e
      · split at e
        · cases e
        · dsimp only at e
          split at e
          · cases e
          · exact ih (Inv.ite h.applyLanding (Inv.ite h.applyAdmin h)) e

theorem Inv.installCheckpoint {header images} (h : Inv s) : Inv (State.installCheckpoint header images s) := by
  grind [State.installCheckpoint, Inv.onLg, Inv.renewKey, Inv.onWindow, Inv.onSlot, ← Inv.foldl]

theorem Inv.landUnseen {n serial tenant epoch code} (h : Inv s) : Inv (s.landUnseen n serial tenant epoch code) :=
  (h.takeFree.journalSignature.append.onSlot.soil)

theorem Inv.landPowerLoss {e} (h : Inv s) : Inv (State.landPowerLoss e s) := by
  grind [State.landPowerLoss, Inv.landUnseen]

theorem Inv.restoreLedger {digest endCont endCount seq t} (h : Inv s)
    (e : s.restoreLedger digest endCont endCount seq = .ok t) : Inv t := by
  unfold State.restoreLedger at e
  dsimp only at e
  split at e
  · cases e
  · split at e
    · cases e
    · split at e
      · cases e
      · split at e
        · cases e
        · split at e
          · cases e
          · split at e
            · cases e
            · next hr =>
              split at e
              · cases e
              · cases e
                exact Inv.onLg (h.installCheckpoint.replay hr)

theorem Inv.recoveryFailed {code} (h : Inv s) : Inv (State.recoveryFailed code s) := by
  grind [State.recoveryFailed, Inv.dmaReadFailed, Inv.onLg]

theorem Inv.recover (h : Inv s) : Inv s.recover := by
  unfold State.recover
  dsimp only
  split
  · exact h.recoveryFailed
  · next e => exact Inv.onLg (Inv.foldl (fun _ _ h => h.landPowerLoss) _ (h.restoreLedger e))

theorem Inv.rebuild (h : Inv s) : Inv s.rebuild := by
  unfold State.rebuild
  dsimp only
  split
  · exact h.recoveryFailed
  · next e =>
    exact Inv.onLg (Inv.foldl (fun _ _ h => Inv.ite (Inv.append h.closeWindow) h) _ (h.restoreLedger e))

theorem Inv.recoveryStart {value} (h : Inv s) : Inv (Machine.recoveryStart value s).1 := by
  grind [Machine.recoveryStart, Inv.rebuild, Inv.recover]

theorem Inv.badRead {a} (h : Inv s) : Inv (State.badRead a s) := by
  grind [State.badRead, Inv.lineFailed, Inv.markFailed, ← Inv.foldl]

theorem Inv.badLine {b} (h : Inv s) : Inv (State.badLine b s) := by
  grind [State.badLine, Inv.latch, Inv.onLg, Inv.badRead, Inv.securityMismatch]

/-! ### Machine/Escrow.lean -/

theorem Inv.applyPolicy (h : Inv s) : Inv (State.applyPolicy s) := by
  grind [State.applyPolicy, Inv.applyNum, ← Inv.foldl]

theorem Inv.appendOpening (h : Inv s) : Inv (State.appendOpening s) := by
  grind [State.appendOpening, Inv.append, Inv.onEl]

theorem Inv.reelRunning (h : Inv s) : Inv (State.reelRunning s) := h.frame rfl rfl rfl rfl

theorem Inv.noticeMaintenance (h : Inv s) : Inv (State.noticeMaintenance s) := by
  grind [State.noticeMaintenance, Inv.append]

theorem Inv.openReel (h : Inv s) : Inv (State.openReel s) := by
  grind [State.openReel, Inv.applyPolicy, Inv.generate, Inv.onEl]

theorem Inv.reelOpen {value} (h : Inv s) : Inv (Machine.reelOpen value s).1 := by
  grind [Machine.reelOpen, Inv.openReel]

theorem Inv.pickupWaive {value} (h : Inv s) : Inv (Machine.pickupWaive value s).1 := by
  grind [Machine.pickupWaive, Inv.onEl]

theorem Inv.refuseReel {code} (h : Inv s) : Inv (State.refuseReel code s) := h.frame rfl rfl rfl rfl

theorem Inv.heldTo {n} (h : Inv s) : Inv (State.heldTo n s) := h.frame rfl rfl rfl rfl

theorem Inv.acceptAck {f} (h : Inv s) : Inv (State.acceptAck f s) := by
  grind [State.acceptAck, Inv.heldTo, Inv.onEl, Inv.reelRunning, Inv.appendOpening]

theorem Inv.dropStatus (h : Inv s) : Inv (State.dropStatus s) := h.frame rfl rfl rfl rfl

theorem Inv.startRunOut {cause} (h : Inv s) : Inv (State.startRunOut cause s) := h.frame rfl rfl rfl rfl

theorem Inv.stopReel {cause} (h : Inv s) : Inv (State.stopReel cause s) := by
  grind [State.stopReel, Inv.refuseReel, Inv.startRunOut, Inv.raiseCause]

theorem Inv.reelStop {value} (h : Inv s) : Inv (Machine.reelStop value s).1 := by
  grind [Machine.reelStop, Inv.stopReel]

theorem Inv.endReel (h : Inv s) : Inv (State.endReel s) := h.frame rfl rfl rfl rfl

theorem Inv.sendFrame (h : Inv s) : Inv s.sendFrame :=
  have h' {f o} : Inv ((s.emit o).onEl f) := h.emit.onEl
  Inv.ite (Inv.endReel h') (Inv.ite (Inv.reelRunning h') h')

theorem Inv.takeStatus {f} (h : Inv s) : Inv (State.takeStatus f s) := by
  grind [State.takeStatus, Inv.onEl, Inv.heldTo, Inv.stopReel, Inv.latch]

theorem Inv.stallReel (h : Inv s) : Inv (State.stallReel s) := by
  grind [State.stallReel, Inv.raiseCause, Inv.latch, Inv.onEl]

/-! ### Machine/Landing.lean -/

theorem Inv.recordTail {t body} (h : Inv s) : Inv (State.recordTail s t body).2 := by
  grind [State.recordTail, Inv.journalSignature]

theorem Inv.landImage {t} (h : Inv s) : Inv (State.landImage t s) := by
  grind [State.landImage, Inv.soil, Inv.onSlot]

theorem Inv.finishTake {t} (h : Inv s) : Inv (State.finishTake t s) := by
  grind [State.finishTake, Inv.completeTake, Inv.dmaWrite]

theorem Inv.retireManifest {mid} (h : Inv s) : Inv (State.retireManifest mid s) := by
  grind [State.retireManifest, Inv.onTd]

theorem Inv.commitTake {t} (h : Inv s) : Inv (State.commitTake t s) := by
  grind [State.commitTake, Inv.recordTail, Inv.landImage, Inv.journal, Inv.onTd, Inv.finishTake, Inv.admitSeals,
    Inv.afterJournal, Inv.retireManifest]

theorem Inv.hopOrCommit {t} (h : Inv s) : Inv (s.hopOrCommit t) := by
  unfold State.hopOrCommit
  split
  · exact h.commitTake
  · exact Inv.sendMember (Inv.onTake (Inv.applyNum h.recordTail))

theorem Inv.recordTake {t} (h : Inv s) : Inv (State.recordTake t s) := by
  grind [State.recordTake, Inv.onTake, Inv.hopOrCommit]

theorem Inv.compareMismatch {t} (h : Inv s) : Inv (State.compareMismatch t s) := by
  grind [State.compareMismatch, Inv.securityMismatch, Inv.recordTake]

/-! ### Machine/Fleet.lean -/

theorem Inv.portDown {p} (h : Inv s) : Inv (State.portDown p s) := by
  grind [State.portDown, Inv.latch, Inv.startPort, Inv.onPort]

theorem Inv.authFailed {p claimed} (h : Inv s) : Inv (State.authFailed p claimed s) := by
  grind [State.authFailed, Inv.logEvent, Inv.bumpFleet, Inv.latch]

theorem Inv.retryPort {p} (h : Inv s) : Inv (State.retryPort p s) := h.frame rfl rfl rfl rfl

theorem Inv.sendHello {p sig} (h : Inv s) : Inv (State.sendHello p sig s) := h.frame rfl rfl rfl rfl

theorem Inv.portUp {p x1} (h : Inv s) : Inv (State.portUp p x1 s) := h.frame rfl rfl rfl rfl

theorem Inv.signHello {p x1} (h : Inv s) : Inv (State.signHello p x1 s) := by
  grind [State.signHello, Inv.sendHello, Inv.onPort, Inv.takeFree]

theorem Inv.frameIn {x0} (h : Inv s) : Inv (State.frameIn x0 s).1 := by
  grind [State.frameIn, Inv.portDown, Inv.authFailed, Inv.onPort, Inv.onXl, Inv.flushPort]

theorem Inv.routeViolation {p} (h : Inv s) : Inv (State.routeViolation p s) := h.frame rfl rfl rfl rfl

theorem Inv.forwardFrame {x0 x1 payload} (h : Inv s) : Inv (State.forwardFrame x0 x1 payload s) := by
  grind [State.forwardFrame, Inv.routeViolation, Inv.sendPort]

theorem Inv.receive {l type payload f} (h : Inv s) (hf : ∀ s, Inv s → Inv (f s)) :
    Inv (s.receive l type payload f) := by
  unfold State.receive
  grind [Inv.frameIn, Inv.bumpFleet, Inv.routeViolation, Inv.forwardFrame]

theorem Inv.respond {x0 x1 body} (h : Inv s) : Inv (State.respond x0 x1 body s) := by
  grind [State.respond, Inv.sendMember, Inv.onXl]

theorem Inv.asRequest {l f} (h : Inv s) (hf : Inv s → Inv (f s)) : Inv (s.asRequest l f) := by
  unfold State.asRequest
  split
  · exact h.sendMember
  · exact hf h

theorem Inv.takeRequest {l type r} (h : Inv s) (e : s.takeRequest l type = some r) : Inv r.2 := by
  unfold State.takeRequest at e
  obtain ⟨q, -, rfl⟩ := Option.map_eq_some_iff.1 e
  dsimp only
  exact h.onXl

theorem Inv.copyToMirror {n} (h : Inv s) : Inv (State.copyToMirror n s) := by
  grind [State.copyToMirror, Inv.sendMember]

theorem Inv.setRoles {n home mirror mirrored leased epoch} (h : Inv s) :
    Inv (State.setRoles n home mirror mirrored leased epoch s) := by
  grind [State.setRoles, Inv.soil, Inv.onSlot]

theorem Inv.freshGrants {n serial} (h : Inv s) : Inv (State.freshGrants n serial s) := h.frame rfl rfl rfl rfl

theorem Inv.installGrants {r} (h : Inv s) : Inv (State.installGrants r s) := h.frame rfl rfl rfl rfl

theorem Inv.serveAgain {n} (h : Inv s) : Inv (State.serveAgain n s) := h.frame rfl rfl rfl rfl

theorem Inv.assignRole {n m leased} (h : Inv s) : Inv (State.assignRole n m leased s) := by
  grind [State.assignRole, Inv.setRoles, Inv.freshGrants, Inv.append, Inv.serveAgain, Inv.wantLease]

theorem Inv.noticeRole {n except} (h : Inv s) : Inv (State.noticeRole n except s) := by
  grind [State.noticeRole, Inv.sendMember, ← Inv.foldl]

theorem Inv.roleApply {value} (h : Inv s) : Inv (Machine.roleApply value s).1 := by
  grind [Machine.roleApply, Inv.assignRole, Inv.sendMember, Inv.sendRequest, Inv.onXl]

theorem Inv.roleAnswered {l answer} (h : Inv s) : Inv (s.roleAnswered l answer).1 := by
  unfold State.roleAnswered
  split
  · next o r t _ e =>
    have ht : Inv t := h.takeRequest e
    have hx : Inv (t.onXl fun x => { x with offer := none }) := ht.onXl
    split
    · exact ht
    · cases answer with
      | accepted => dsimp only; exact Inv.assignRole hx
      | refused => exact hx
      | badSlot => exact hx
  · exact h

theorem Inv.roleOfferLate (h : Inv s) : Inv s.roleOfferLate.1 := by
  unfold State.roleOfferLate
  split
  · split
    · dsimp only
      exact h.onXl
    · exact h
  · exact h

theorem Inv.recordAck {n holder serial continuity} (h : Inv s) :
    Inv (State.recordAck n holder serial continuity s) := by
  grind [State.recordAck, Inv.onXl, Inv.soil, Inv.onSlot]

theorem Inv.sendAck {holder n serial} (h : Inv s) : Inv (State.sendAck holder n serial s) := by
  grind [State.sendAck, Inv.sendMember]

theorem Inv.sendRefuse {holder n serial} (h : Inv s) : Inv (State.sendRefuse holder n serial s) := by
  grind [State.sendRefuse, Inv.sendMember]

theorem Inv.dropForwarded {n serial} (h : Inv s) : Inv (State.dropForwarded n serial s) := h.frame rfl rfl rfl rfl

theorem Inv.landRefused {t code} (h : Inv s) : Inv (State.landRefused t code s) := by
  grind [State.landRefused, Inv.commitTake, Inv.onTake]

theorem Inv.learnEpoch {n epoch} (h : Inv s) : Inv (State.learnEpoch n epoch s) := by
  grind [State.learnEpoch, Inv.onSlot, Inv.relinquish]

theorem Inv.landVoid {n serial code} (h : Inv s) : Inv (State.landVoid n serial code s) := by
  grind [State.landVoid, Inv.landUnseen]

theorem Inv.voidUnreserved {n code} (h : Inv s) : Inv (State.voidUnreserved n code s) := by
  grind [State.voidUnreserved, Inv.landVoid, Inv.onXl, ← Inv.foldl]

theorem Inv.leaseBack {l} (h : Inv s) : Inv (State.leaseBack l s) := by
  grind [State.leaseBack, Inv.onXl, Inv.append]

theorem Inv.returnLeases {n} (h : Inv s) : Inv (State.returnLeases n s) := by
  grind [State.returnLeases, Inv.voidUnreserved, Inv.leaseBack, Inv.sendMember, ← Inv.foldl]

theorem Inv.handOverSlot {n} (h : Inv s) : Inv (State.handOverSlot n s) := by
  grind [State.handOverSlot, Inv.returnLeases, Inv.sendMember, Inv.freshGrants, Inv.setRoles, Inv.onSlot, Inv.append,
    ← Inv.foldl]

theorem Inv.handOverRoles (h : Inv s) : Inv (State.handOverRoles s) := by
  grind [State.handOverRoles, Inv.handOverSlot, ← Inv.foldl]

theorem Inv.releaseRoles (h : Inv s) : Inv (State.releaseRoles s) := by
  grind [State.releaseRoles, Inv.sendMember, Inv.onXl, Inv.relinquish, Inv.logEvent, ← Inv.foldl]

theorem Inv.beginTakeover {n m} (h : Inv s) : Inv (State.beginTakeover n m s) := by
  grind [State.beginTakeover, Inv.onSlot, Inv.noticeRole, Inv.onXl]

theorem Inv.loseMirror {n m action reason} (h : Inv s) : Inv (State.loseMirror n m action reason s) := by
  grind [State.loseMirror, Inv.setRoles, Inv.freshGrants, Inv.noticeRole, Inv.serveAgain, Inv.append, Inv.bumpFleet]

theorem Inv.loseSlot {m n} (h : Inv s) : Inv (State.loseSlot m n s) := by
  grind [State.loseSlot, Inv.beginTakeover, Inv.loseMirror, Inv.onSlot, Inv.voidUnreserved]

theorem Inv.voidTakeover {t} (h : Inv s) : Inv (State.voidTakeover t s) := by
  grind [State.voidTakeover, Inv.landVoid, ← Inv.foldl]

theorem Inv.finishTakeover {t} (h : Inv s) : Inv (State.finishTakeover t s) := by
  grind [State.finishTakeover, Inv.voidTakeover, Inv.onXl, Inv.setRoles, Inv.onSlot, Inv.append, Inv.bumpFleet,
    Inv.serveAgain, ← Inv.foldl]

theorem Inv.startClaim (h : Inv s) : Inv (State.startClaim s) := by
  grind [State.startClaim, Inv.sendRequest, Inv.onXl, ← Inv.foldl]

theorem Inv.dropClaim {failed} (h : Inv s) : Inv (State.dropClaim failed s) := by
  grind [State.dropClaim, Inv.onXl, Inv.sendMember, ← Inv.foldl]

theorem Inv.claimAnswered {l granted} (h : Inv s) : Inv (s.claimAnswered l granted).1 := by
  unfold State.claimAnswered
  split
  · next c r t _ e =>
    have ht : Inv t := h.takeRequest e
    dsimp only
    split
    · dsimp only
      exact ht.dropClaim
    · split <;> dsimp only <;> first | exact ht.dropClaim | exact ht.onXl
  · exact h

theorem Inv.claimLate (h : Inv s) : Inv s.claimLate.1 := by
  unfold State.claimLate
  split
  · split
    · dsimp only
      exact h.dropClaim
    · exact h
  · exact h

theorem Inv.fleetEnable {n} (h : Inv s) : Inv (Machine.fleetEnable n s).1 := by
  unfold Machine.fleetEnable
  grind [Inv.setNum, Inv.startPorts, Inv.portDown, ← Inv.foldl]

theorem Inv.memberUnitId {m unit} (h : Inv s) : Inv (Machine.memberUnitId m unit s).1 :=
  h.done fun h => Inv.foldl (fun s p h => by split <;> [exact h.portDown; exact h]) _ h.setNum

/-! ### Machine/Lattice.lean -/

theorem Inv.unitFails {o code} (h : Inv s) : Inv (State.unitFails o code s) := by
  grind [State.unitFails, Inv.abandonManifests, Inv.unitEnds]

theorem Inv.signatureMade {u o} (h : Inv s) : Inv (State.signatureMade u o s) := by
  grind [State.signatureMade, Inv.onManifest, Inv.onLh]

theorem Inv.signRoundEnd {u o} (h : Inv s) : Inv (State.signRoundEnd u o s) := by
  grind [State.signRoundEnd, Inv.onUnit, Inv.assignWork, Inv.signatureMade, Inv.freeUnit, Inv.latch, Inv.onLh,
    Inv.unitFails]

theorem Inv.unitRelease {o core} (h : Inv s) : Inv (State.unitRelease o core s) := by
  grind [State.unitRelease, Inv.bufferWrite]

theorem Inv.unitSucceeds {o} (h : Inv s) : Inv (State.unitSucceeds o s) := by
  grind [State.unitSucceeds, Inv.serviceEnd, Inv.unitRelease, Inv.bufferWrite, Inv.onManifest, Inv.onKrf]

theorem Inv.unitComplete {u o checkFailed} (h : Inv s) : Inv (State.unitComplete u o checkFailed s) := by
  grind [State.unitComplete, Inv.freeUnit, Inv.assignWork, Inv.unitFails, Inv.unitFault, Inv.unitSucceeds]

/-! ### Machine/Lie.lean -/

theorem Inv.lieBegin {e b user t operand key} (h : Inv s) : Inv (State.lieBegin e b user t operand key s) := by
  grind [State.lieBegin, Inv.engineBytes, Inv.onEngine]

theorem Inv.lieStart {e b user t} (h : Inv s) : Inv (State.lieStart e b user t s).1 := by
  grind [State.lieStart, Inv.lieBegin, Inv.dmaReadFailed]

theorem Inv.resumeLieCall {n} (h : Inv s) : Inv (State.resumeLieCall n s) := by
  grind [State.resumeLieCall, Inv.serviceEnd, Inv.awaits, Inv.lieBegin]

theorem Inv.resumeLie (h : Inv s) : Inv (State.resumeLie s) := by
  grind [State.resumeLie, Inv.resumeLieCall, ← Inv.foldl]

theorem Inv.liIgnored {e} (h : Inv s) : Inv (State.liIgnored e s) := h.frame rfl rfl rfl rfl

theorem Inv.lieDone {e} (h : Inv s) : Inv (State.lieDone e s) := by
  grind [State.lieDone, Inv.latch, Inv.msix]

theorem Inv.lieGo {e t} (h : Inv s) : Inv (State.lieGo e t s) := by
  grind [State.lieGo, Inv.liIgnored, Inv.onEngine, Inv.lieStart, Inv.lieDone]

theorem Inv.lieAbort {e} (h : Inv s) : Inv (State.lieAbort e s) := by
  grind [State.lieAbort, Inv.resumeLie, Inv.endEngine]

theorem Inv.liCtrl {e t value} (h : Inv s) : Inv (State.liCtrl e t value s) := by
  grind [State.liCtrl, Inv.lieAbort, Inv.lieGo]

theorem Inv.liCmd {e t off value} (h : Inv s) : Inv (State.liCmd e t off value s) := by
  grind [State.liCmd, Inv.liIgnored, Inv.onEngine]

theorem Inv.lieRow {op loc} (h : Inv s) : Inv (State.lieRow op loc s) := by
  grind [State.lieRow, Inv.hostWrite, Inv.lieGo]

theorem Inv.lieWrites {t user l} (h : Inv s) : Inv (s.lieWrites t user l).1 := by
  fun_induction State.lieWrites with grind [Inv.dmaWrite, Inv.poolWrite, Inv.bufferWrite]

theorem Inv.lieComplete {e c faultCheck} (h : Inv s) : Inv (State.lieComplete e c faultCheck s) := by
  grind [State.lieComplete, Inv.onEngine, Inv.lieWrites, Inv.onLi, Inv.fillEngine, Inv.lieFault, Inv.serviceEnd,
    Inv.lieDone, Inv.resumeLie]

theorem Inv.ownerAbort {e} (h : Inv s) : Inv (s.ownerAbort e) := by
  unfold State.ownerAbort
  dsimp only
  split
  · exact h
  · next c _ =>
    have h' {g} : Inv (s.onEngine e g) := h.onEngine
    split
    · exact h'.serviceEnd
    · have hl (k : Engine → Engine) (m : List (Nat × Nat)) : Inv { s.onEngine e k with latches := m } := h.frame rfl rfl rfl rfl
      exact Inv.ite (Inv.msix (Inv.ite (hl _ _) h')) (Inv.ite (hl _ _) h')

theorem Inv.liEngineOwner {e o} (h : Inv s) : Inv (Machine.liEngineOwner e o s).1 := by
  unfold Machine.liEngineOwner
  have hl : ∀ l, Inv { s with latches := l } := fun _ => h.frame rfl rfl rfl rfl
  grind [Inv.ownerAbort, Inv.onEngine, Inv.assignWork, Inv.resumeLie]

theorem Inv.ucodeEvent {version status} (h : Inv s) : Inv (State.ucodeEvent version status s) := by
  grind [State.ucodeEvent, Inv.logEvent, Inv.onLi]

theorem Inv.liUcodeLoad {value} (h : Inv s) : Inv (Machine.liUcodeLoad value s).1 := by
  grind [Machine.liUcodeLoad, Inv.ucodeEvent, Inv.dmaReadFailed, Inv.assignWork, Inv.onLi]

theorem Inv.ucodeResult {b katOk} (h : Inv s) : Inv (State.ucodeResult b katOk s) := by
  grind [State.ucodeResult, Inv.ucodeEvent, Inv.onLi]

theorem Inv.liUcodeMin {value burnt} (h : Inv s) : Inv (Machine.liUcodeMin value burnt s).1 := by
  grind [Machine.liUcodeMin, Inv.onLi]

/-! ### Machine/Keys.lean -/

theorem Inv.unwrapHandle {x0} (h : Inv s) : Inv (State.unwrapHandle x0 s) := by
  grind [State.unwrapHandle, Inv.onHandle, Inv.dmaReadFailed]

theorem Inv.unwrapAll {p} (h : Inv s) : Inv (State.unwrapAll p s) := by
  grind [State.unwrapAll, Inv.unwrapHandle, ← Inv.foldl]

theorem Inv.zeroHandles {p} (h : Inv s) : Inv (State.zeroHandles p s) := h.frame rfl rfl rfl rfl

theorem Inv.keyStatus {inst st} (h : Inv s) : Inv (State.keyStatus inst st s) := h.frame rfl rfl rfl rfl

theorem Inv.startKeyOp {o} (h : Inv s) : Inv (State.startKeyOp o s) := by
  grind [State.startKeyOp, Inv.assignWork, Inv.onKrf]

theorem Inv.keyGenerate {v inst value} (h : Inv s) : Inv (Machine.keyGenerate v inst value s).1 := by
  grind [Machine.keyGenerate, Inv.startKeyOp]

theorem Inv.keyImport {v inst value} (h : Inv s) : Inv (Machine.keyImport v inst value s).1 := by
  grind [Machine.keyImport, Inv.startKeyOp]

theorem Inv.importPrivate {o} (h : Inv s) : Inv (State.importPrivate s o).1 := by
  grind [State.importPrivate, Inv.latch, Inv.onLh]

theorem Inv.createHandle {o priv} (h : Inv s) : Inv (State.createHandle o priv s) := by
  grind [State.createHandle, Inv.onKrf, Inv.dmaWrite, Inv.keyStatus, Inv.onHandle]

theorem Inv.keyCheckFailed {o} (h : Inv s) : Inv (State.keyCheckFailed o s) := by
  grind [State.keyCheckFailed, Inv.unitFault, Inv.lieFault, Inv.keyStatus]

theorem Inv.finishKeyOp {o checkFailed} (h : Inv s) : Inv (State.finishKeyOp o checkFailed s) := by
  grind [State.finishKeyOp, Inv.onKrf, Inv.setOctets, Inv.keyStatus, Inv.importPrivate, Inv.keyCheckFailed,
    Inv.createHandle, Inv.generate]

theorem Inv.keyDelete {v inst value} (h : Inv s) : Inv (Machine.keyDelete v inst value s).1 := by
  grind [Machine.keyDelete, Inv.keyStatus, Inv.onHandle]

/-! ### Machine/SezelFlow.lean -/

theorem Inv.slotHalted {core code} (h : Inv s) : Inv (State.slotHalted core code s) := by
  grind [State.slotHalted, Inv.slotState, Inv.onApplet]

/-! ### Machine/LifeCycle.lean -/

theorem Inv.denied (h : Inv s) : Inv (State.denied s) := h.frame rfl rfl rfl rfl

theorem Inv.setMaintenance {rights} (h : Inv s) : Inv (State.setMaintenance rights s) := by
  grind [State.setMaintenance, Inv.onLc, Inv.onKrf, Inv.noticeMaintenance, Inv.logEvent]

theorem Inv.startBurn {dest requester} (h : Inv s) : Inv (State.startBurn dest requester s) := by
  grind [State.startBurn, Inv.onLc]

theorem Inv.lcRequest {v n} (h : Inv s) : Inv (Machine.lcRequest v n s).1 := by
  have hs {x} : Inv (s.onLc fun l => { l with staged := x }) := h.onLc rfl
  unfold Machine.lcRequest
  dsimp only
  repeat' split
  all_goals first | exact h | exact h.startBurn | exact hs

theorem Inv.lcXferWrite {value} (h : Inv s) : Inv (State.lcXferWrite value s) := by
  grind [State.lcXferWrite, Inv.denied, Inv.startBurn]

theorem Inv.refuseCert {serial code} (h : Inv s) : Inv (State.refuseCert serial code s) := by
  grind [State.refuseCert, Inv.onLc, Inv.logEvent, Inv.latch]

theorem Inv.checkCert (h : Inv s) : Inv s.checkCert := by
  unfold State.checkCert
  dsimp only
  split
  · exact h.refuseCert
  · exact Inv.setMaintenance (Inv.logEvent (Inv.latch (Inv.onLc h rfl)))

theorem Inv.certGo {value} (h : Inv s) : Inv (State.certGo value s) := by
  grind [State.certGo, Inv.denied, Inv.refuseCert, Inv.dmaReadFailed, Inv.checkCert, Inv.onLc]

theorem Inv.debugChallengeIssue {value} (h : Inv s) : Inv (Machine.debugChallengeIssue value s).1 := by
  grind [Machine.debugChallengeIssue, Inv.generate, Inv.onLc, Inv.takeFree]

theorem Inv.refuseResponse {code} (h : Inv s) : Inv (State.refuseResponse code s) := by
  grind [State.refuseResponse, Inv.logEvent, Inv.onLc]

theorem Inv.debugResponseSubmit {value} (h : Inv s) : Inv (Machine.debugResponseSubmit value s).1 := by
  grind [Machine.debugResponseSubmit, Inv.refuseResponse, Inv.dmaReadFailed, Inv.setMaintenance, Inv.onLc]

theorem Inv.tapLoad {i} (h : Inv s) : Inv (State.tapLoad i s) := by
  grind [State.tapLoad, Inv.onLc]

theorem Inv.tapDenied (h : Inv s) : Inv (State.tapDenied s) := by
  grind [State.tapDenied, Inv.denied, Inv.tapLoad]

theorem Inv.coreResult {error value} (h : Inv s) : Inv (State.coreResult error value s) := h.frame rfl rfl rfl rfl

theorem Inv.debugCore {n op} (h : Inv s) : Inv (State.debugCore n op s) := by
  unfold State.debugCore
  grind [Inv.coreResult, Inv.onCore]

theorem Inv.scan (h : Inv s) : Inv (State.scan s) := by
  grind [State.scan, Inv.drawEnd, Inv.dropSession, Inv.wipeCompute, Inv.clearKrf, Inv.onLg, Inv.zeroLedger, Inv.onTd,
    Inv.onTg, Inv.rekeyShield, Inv.onLc, Inv.cardOff, Inv.cutReel, Inv.portsDown, Inv.onPwr, Inv.afterEvidence,
    Inv.causeRecord, Inv.addCause]

/-! ### Machine/Supervisory.lean -/

theorem Inv.spOff (h : Inv s) : Inv (State.spOff s) := by
  grind [State.spOff, Inv.latch, Inv.onSp, Inv.dropSession]

theorem Inv.spClose (h : Inv s) : Inv (State.spClose s) := by
  grind [State.spClose, Inv.dropSession, Inv.spOff]

theorem Inv.spEnable {v value} (h : Inv s) : Inv (Machine.spEnable v value s).1 := by
  unfold Machine.spEnable
  grind [Inv.setNum, Inv.onSp, Inv.spOff]

theorem Inv.spRootDigest {v d b} (h : Inv s) : Inv (Machine.spRootDigest v d b s).1 := by
  unfold Machine.spRootDigest
  split
  · exact h
  · split
    · exact h
    · split
      · exact h
      · refine ⟨h.queue, h.hostMem, ?_, h.fuses⟩
        simp only [State.onSp_sp, List.length_append, List.length_singleton]
        omega

theorem Inv.resolve {ip} (h : Inv s) : Inv (State.resolve ip s) := by
  grind [State.resolve, Inv.emit, Inv.takeFree, Inv.onSp]

theorem Inv.sendRecord {dst x1 bytes} (h : Inv s) : Inv (State.sendRecord dst x1 bytes s) := by
  grind [State.sendRecord, Inv.emit, Inv.resolve]

theorem Inv.discardRecord (h : Inv s) : Inv (State.discardRecord s) := by
  grind [State.discardRecord, Inv.onSp]

theorem Inv.refuseHello {src code} (h : Inv s) : Inv (State.refuseHello src code s) := by
  grind [State.refuseHello, Inv.sendRecord, Inv.onSp]

theorem Inv.acceptHello {f} (h : Inv s) : Inv (s.acceptHello f) :=
  .sendRecord (.onSp h.takeFree.generate.takeFree rfl)

theorem Inv.openSession {x} (h : Inv s) : Inv (State.openSession x s) := by
  grind [State.openSession, Inv.applyNum, Inv.latch, Inv.onSp, Inv.sendRecord]

theorem Inv.setLink {speed} (h : Inv s) : Inv (State.setLink speed s) := by
  grind [State.setLink, Inv.latch, Inv.onSp]

theorem Inv.mdioStart {write phy reg data} (h : Inv s) : Inv (State.mdioStart write phy reg data s) := by
  grind [State.mdioStart, Inv.onSp]

theorem Inv.mdioRow {write phy reg data} (h : Inv s) : Inv (State.mdioRow write phy reg data s) := by
  grind [State.mdioRow, Inv.hostWrite, Inv.mdioStart]

/-! ### Machine/Tamper.lean -/

theorem Inv.warningRecord {monitor k} (h : Inv s) : Inv (State.warningRecord monitor k s) := by
  grind [State.warningRecord, Inv.evidence, Inv.afterEvidence, Inv.onTg]

theorem Inv.evidenceArchiveMark {value} (h : Inv s) : Inv (Machine.evidenceArchiveMark value s).1 := by
  grind [Machine.evidenceArchiveMark, Inv.onTg, Inv.logEvent]

theorem Inv.tamperEraseFused {value burnt} (h : Inv s) : Inv (Machine.tamperEraseFused value burnt s).1 := by
  grind [Machine.tamperEraseFused, Inv.logEvent, Inv.onTg]

theorem Inv.tamperGroupDisable {v value burnt} (h : Inv s) : Inv (Machine.tamperGroupDisable v value burnt s).1 := by
  grind [Machine.tamperGroupDisable, Inv.logEvent, Inv.onTg]

theorem Inv.reprovision {value} (h : Inv s) : Inv (Machine.reprovision value s).1 := by
  grind [Machine.reprovision, Inv.onTg]

theorem Inv.recordPostErase (h : Inv s) : Inv (State.recordPostErase s) := by
  grind [State.recordPostErase, Inv.logEvent, Inv.onTg]

/-! ### Machine/Resets.lean -/

theorem Inv.cutBurn (h : Inv s) : Inv s.cutBurn := by
  unfold State.cutBurn
  split
  · exact h
  · refine ⟨h.queue, h.hostMem, h.roots, fun i => ?_⟩
    rw [State.onLc_lc]
    exact setIfInBounds_le_three h.fuses (by omega) i

theorem Inv.closeErase (h : Inv s) : Inv (State.closeErase s) := by
  grind [State.closeErase, Inv.closeAlarmWindow, Inv.onTg]

theorem Inv.unpowered (h : Inv s) : Inv (State.unpowered s) := h.frame rfl rfl rfl rfl

theorem Inv.wrapKeys (h : Inv s) : Inv (State.wrapKeys s) := h.frame rfl rfl rfl rfl

theorem Inv.losePower (h : Inv s) : Inv (State.losePower s) := by
  grind [State.losePower, Inv.unpowered, Inv.wrapKeys, Inv.closeErase, Inv.cutBurn]

theorem Inv.loseVault (h : Inv s) : Inv (State.loseVault s) := h.frame rfl rfl rfl rfl

theorem Inv.wakeErased (h : Inv s) : Inv (State.wakeErased s) := by
  grind [State.wakeErased, Inv.onPwr, Inv.loseWrm, Inv.loseVol, Inv.zeroLedger, Inv.addCause]

theorem Inv.wakeReport (h : Inv s) : Inv (State.wakeReport s) := by
  grind [State.wakeReport, Inv.onPwr, Inv.onTg, Inv.onTb, Inv.raiseCause, Inv.afterEvidence, Inv.wakeErased]

theorem Inv.wakeNoise {noise} (h : Inv s) : Inv (State.wakeNoise noise s) := by
  grind [State.wakeNoise, Inv.latch, Inv.raiseCause, Inv.onEn, Inv.wakeReport, ← Inv.foldl]

theorem Inv.wakeOn {noise} (h : Inv s) : Inv (s.wakeOn noise) := by
  have hl : Inv (s.onLc fun l => { l with fuses := completeBurns l.fuses, state := fusedState (completeBurns l.fuses) }) :=
    ⟨h.queue, h.hostMem, h.roots, completeBurns_le_three h.fuses⟩
  unfold State.wakeOn
  dsimp only
  split
  · exact hl.onTg.onPwr.enterRetired.onTg
  · exact hl.onTg.onPwr.wakeNoise

theorem Inv.startWake {kind noise} (h : Inv s) : Inv (State.startWake kind noise s) := by
  grind [State.startWake, Inv.onPwr, Inv.wakeOn]

theorem Inv.warmBlocks (h : Inv s) : Inv (State.warmBlocks s) := h.frame rfl rfl rfl rfl

theorem Inv.warmReset {kind noise} (h : Inv s) : Inv (s.warmReset kind noise) := by
  have h' : Inv (s.dropSession.wrapKeys.wipeCompute.loseVol.warmBlocks.onHg (Hg.warm kind)) :=
    Inv.onHg h.dropSession.wrapKeys.wipeCompute.loseVol.warmBlocks
  unfold State.warmReset
  exact Inv.startWake (Inv.onPwr (h'.frame rfl rfl rfl rfl))

theorem Inv.stowAnchor {l} (h : Inv s) : Inv (State.stowAnchor l s) := h.frame rfl rfl rfl rfl

theorem Inv.stowLedger (h : Inv s) : Inv (State.stowLedger s) := by
  grind [State.stowLedger, Inv.onPwr, Inv.stowAnchor, Inv.onLg, Inv.onSz]

theorem Inv.stow (h : Inv s) : Inv (State.stow s) := by
  grind [State.stow, Inv.sendCut, Inv.stowLedger, Inv.cutReel]

theorem Inv.flrEngines {t} (h : Inv s) : Inv (State.flrEngines t s) := by
  grind [State.flrEngines, Inv.onEngine, Inv.endEngine, ← Inv.foldl]

theorem Inv.flrWindows {t} (h : Inv s) : Inv (State.flrWindows t s) := h.frame rfl rfl rfl rfl

theorem Inv.flrApplets {t} (h : Inv s) : Inv (State.flrApplets t s) := by
  grind [State.flrApplets, Inv.onSz, Inv.unloadSlot, ← Inv.foldl]

theorem Inv.flrTakes {t} (h : Inv s) : Inv (State.flrTakes t s) := by
  grind [State.flrTakes, Inv.abandonManifests, Inv.failTakes, Inv.onTd]

theorem Inv.flrApply {t} (h : Inv s) : Inv (State.flrApply t s) := by
  grind [State.flrApply, Inv.applyNum, Inv.takeFree, Inv.onRegion, Inv.onLg, Inv.renewPool, ← Inv.foldl]

theorem Inv.flrGateway {t} (h : Inv s) : Inv (State.flrGateway t s) := h.frame rfl rfl rfl rfl

theorem Inv.flr {t} (h : Inv s) : Inv (State.flr t s) := by
  grind [State.flr, Inv.flrWindows, Inv.flrEngines, Inv.flrTakes, Inv.flrApplets, Inv.advanceInstance, Inv.onLi,
    Inv.zeroHandles, Inv.loseClass, Inv.flrGateway, Inv.flrApply]

theorem Inv.flrIf {t} (h : Inv s) : Inv (State.flrIf t s) := by
  grind [State.flrIf, Inv.flr]

theorem Inv.vfOff (h : Inv s) : Inv (State.vfOff s) := by
  grind [State.vfOff, Inv.flrIf, Inv.onHg, ← Inv.foldl]

theorem Inv.toD0 {t} (h : Inv s) : Inv (State.toD0 t s) := by
  grind [State.toD0, Inv.onFn, Inv.flrIf]

/-! ### Machine/Modes.lean -/

theorem Inv.clearOver (h : Inv s) : Inv (State.clearOver s) := h.frame rfl rfl rfl rfl

theorem Inv.requestService {v} (h : Inv s) : Inv (State.requestService v s).1 := by
  grind [State.requestService, Inv.clearOver, Inv.onPwr]

theorem Inv.enterCeremony (h : Inv s) : Inv (State.enterCeremony s) := by
  grind [State.enterCeremony, Inv.onPwr, Inv.onLc, Inv.onXl, Inv.assignWork, Inv.onKrf]

theorem Inv.requestCeremony {v} (h : Inv s) : Inv (State.requestCeremony v s).1 := by
  grind [State.requestCeremony, Inv.startClaim, Inv.enterCeremony]

theorem Inv.requestStandby {v} (h : Inv s) : Inv (State.requestStandby v s).1 := by
  grind [State.requestStandby, Inv.enterDrain, Inv.endCeremony]

theorem Inv.modeRequest {v value} (h : Inv s) : Inv (Machine.modeRequest v value s).1 := by
  grind [Machine.modeRequest, Inv.onPwr, Inv.requestStandby, Inv.requestService, Inv.requestCeremony]

theorem Inv.warmFrom {kind noise} (h : Inv s) : Inv (State.warmFrom kind noise s).1 := by
  grind [State.warmFrom, Inv.onLg, Inv.enterDrain, Inv.onPwr, Inv.warmReset]

theorem Inv.restartRequest {noise value} (h : Inv s) : Inv (Machine.restartRequest noise value s).1 := by
  grind [Machine.restartRequest, Inv.warmFrom]

theorem Inv.drainStep5 (h : Inv s) : Inv (State.drainStep5 s) := by
  grind [State.drainStep5, Inv.stopReel, Inv.onPwr]

theorem Inv.drainStow (h : Inv s) : Inv (State.drainStow s) := by
  grind [State.drainStow, Inv.writeBack, Inv.stowAnchor]

theorem Inv.drainKeys (h : Inv s) : Inv (State.drainKeys s) := by
  grind [State.drainKeys, Inv.abortEngines, Inv.abortUnits, Inv.zeroHandles]

theorem Inv.deriveJournal (h : Inv s) : Inv (State.deriveJournal s) := by
  grind [State.deriveJournal, Inv.onKrf]

theorem Inv.awaitRecovery {status} (h : Inv s) : Inv (State.awaitRecovery status s) := h.frame rfl rfl rfl rfl

theorem Inv.needRebuild {status} (h : Inv s) : Inv (State.needRebuild status s) := by
  grind [State.needRebuild, Inv.raiseCause, Inv.onLg]

theorem Inv.ledgerCold (h : Inv s) : Inv (State.ledgerCold s) := by
  grind [State.ledgerCold, Inv.onLg, Inv.awaitRecovery, Inv.needRebuild]

theorem Inv.ledgerWarm {verified} (h : Inv s) : Inv (State.ledgerWarm verified s) := by
  grind [State.ledgerWarm, Inv.onPwr, Inv.awaitRecovery, Inv.needRebuild]

/-! ### Machine/Values.lean -/

theorem Inv.readEffect {v index sub} (h : Inv s) : Inv (State.readEffect v index sub s) := by
  unfold State.readEffect
  grind [Inv.clearLatch]

/-! ### Machine/Directory.lean -/

theorem Inv.putVal {o inst index sub x} (h : Inv s) : Inv (State.putVal o inst index sub x s) := by
  unfold State.putVal
  grind [Inv.stageNum, Inv.setNum, Inv.setOctets]

theorem Inv.actionOf {w v inst index sub n b act} (h : Inv s) (e : Machine.actionOf w v inst index sub n b = some act) :
    Inv (act s).1 := by
  unfold Machine.actionOf at e
  split at e
  case h_35 =>
    split at e
    · cases e; exact h.gateCloseTime
    · split at e
      · cases e; exact h.gateOwner
      · split at e
        · cases e; exact h.windowOwner
        · split at e
          · cases e; exact h.memberUnitId
          · cases e
  all_goals cases e
  · exact h.modeRequest
  · exact h.restartRequest
  · exact h.keyGenerate
  · exact h.keyImport
  · exact h.keyDelete
  · exact h.tapConsumed
  · exact h.recoveryStart
  · exact h.slotApplyWrite
  · exact h.enLatchClear
  · exact h.liUcodeMin
  · exact h.liUcodeLoad
  · exact h.liEngineOwner
  · exact h.appletLoad
  · exact h.appletUnload
  · exact h.reelOpen
  · exact h.reelStop
  · exact h.pickupWaive
  · exact h.fleetEnable
  · exact h.roleApply
  · exact h.cardMaxMode
  · exact h.cardRead
  · exact h.cardWrite
  · exact h.cardFormat
  · exact h.tamperEraseFused
  · exact h.tamperGroupDisable
  · exact h.evidenceArchiveMark
  · exact h.reprovision
  · exact h.lcRequest
  · exact h.debugChallengeIssue
  · exact h.debugResponseSubmit
  · exact h.spEnable
  · exact h.spRootDigest
  · exact h.timeCorrection
  · exact h.deviceTimeSet
theorem Inv.applyWrite {w v o inst index sub x} (h : Inv s) : Inv (s.applyWrite w v o inst index sub x).1 := by
  unfold State.applyWrite
  dsimp only
  split
  · exact h
  · split
    · next e => exact h.actionOf e
    · exact h.putVal

theorem Inv.dropStaging {v} (h : Inv s) : Inv (State.dropStaging v s) := h.frame rfl rfl rfl rfl

theorem Inv.entryRead {v o inst e} (h : Inv s) : Inv (State.entryRead v o inst e s).1 := by
  grind [State.entryRead, Inv.dmaReadFailed, Inv.readEffect]

theorem Inv.entryValue {w v o inst e x} (h : Inv s) : Inv (State.entryValue w v o inst e x s).1 := by
  grind [State.entryValue, Inv.applyWrite]

theorem Inv.writeFixed {w v o inst n e} (h : Inv s) : Inv (State.writeFixed w v o inst n e s).1 := by
  grind [State.writeFixed, Inv.entryValue]

theorem Inv.writeBytes {w v o inst e} (h : Inv s) : Inv (State.writeBytes w v o inst e s).1 := by
  grind [State.writeBytes, Inv.dropStaging, Inv.onPd, Inv.entryValue]

theorem Inv.entryWrite {w v o inst e} (h : Inv s) : Inv (State.entryWrite w v o inst e s).1 := by
  grind [State.entryWrite, Inv.writeFixed, Inv.writeBytes]

theorem Inv.execEntry {w v inst e} (h : Inv s) : Inv (State.execEntry w v inst e s).1 := by
  grind [State.execEntry, Inv.entryRead, Inv.entryWrite]

theorem Inv.runEntries {w a x2} (h : Inv s) : Inv (State.runEntries w a x2 s).1 := by
  fun_induction State.runEntries with grind [Inv.execEntry]

theorem Inv.mailboxDone {t status} (h : Inv s) : Inv (State.mailboxDone t status s) := by
  grind [State.mailboxDone, Inv.onHg, Inv.latch, Inv.msix]

theorem Inv.toMailbox {t r} (h : Inv s) : Inv (State.toMailbox t r s) := by
  grind [State.toMailbox, Inv.dmaSend, Inv.mailboxDone, Inv.latch]

theorem Inv.toSession {r} (h : Inv s) : Inv (State.toSession r s) := by
  grind [State.toSession, Inv.onSp, Inv.sendRecord]

theorem Inv.respondReq {r} (h : Inv s) : Inv (State.respondReq r s) := by
  grind [State.respondReq, Inv.toMailbox, Inv.toSession, Inv.emit, Inv.respond]

theorem Inv.finishReq {r} (h : Inv s) : Inv (State.finishReq r s) := by
  grind [State.finishReq, Inv.spClose, Inv.respondReq]

theorem Inv.runReq {w r} (h : Inv s) : Inv (State.runReq w r s) := by
  grind [State.runReq, Inv.onPd, Inv.runEntries, Inv.finishReq]

theorem Inv.submit {w r} (h : Inv s) : Inv (State.submit w r s) := by
  grind [State.submit, Inv.onPd, Inv.runReq]

theorem Inv.serveWaiting {a} (h : Inv s) : Inv (State.serveWaiting a s) := by
  fun_induction State.serveWaiting with grind [Inv.runReq, Inv.onPd]

theorem Inv.completeDeferred {status} (h : Inv s) : Inv (State.completeDeferred status s) := by
  grind [State.completeDeferred, Inv.onPd, Inv.finishReq, Inv.runReq, Inv.serveWaiting]

/-! ### Machine/DirRows.lean -/

theorem Inv.single {w v tenant e} (h : Inv s) : Inv (State.single w v tenant e s) := by
  grind [State.single, Inv.emit, Inv.submit]

theorem Inv.ask {v tenant op index sub} (h : Inv s) : Inv (State.ask v tenant op index sub s) := by
  grind [State.ask, Inv.single]

theorem Inv.writeObj {w v tenant index sub b} (h : Inv s) : Inv (State.writeObj w v tenant index sub b s) := by
  grind [State.writeObj, Inv.single]

theorem Inv.writeNum {v tenant index sub x} (h : Inv s) : Inv (State.writeNum v tenant index sub x s) := by
  grind [State.writeNum, Inv.writeObj]

theorem Inv.writeCell {v base count n x} (h : Inv s) : Inv (State.writeCell v base count n x s) := by
  grind [State.writeCell, Inv.writeNum]

theorem Inv.writeFuse {v index sub x burnt} (h : Inv s) : Inv (State.writeFuse v index sub x burnt s) := by
  grind [State.writeFuse, Inv.writeObj]

theorem Inv.mbxGo {t} (h : Inv s) : Inv (State.mbxGo t s) := by
  grind [State.mbxGo, Inv.latch, Inv.mailboxDone, Inv.dmaReadFailed, Inv.submit]

/-! ### Machine/Registers.lean -/

theorem Inv.regRead {v r} (h : Inv s) : Inv (State.regRead v r s) := by
  grind [State.regRead, Inv.clearLatch]

theorem Inv.bar4Read {t off size} (h : Inv s) : Inv (State.bar4Read t off size s) := by
  grind [State.bar4Read, Inv.emit, Inv.badSize]

theorem Inv.readReg {v loc size} (h : Inv s) : Inv (State.readReg v loc size s) := by
  unfold State.readReg
  grind [Inv.emit, Inv.unreached, Inv.bar4Read, Inv.badSize, Inv.busError, Inv.rngRead, Inv.regRead, ← Inv.foldl]

theorem Inv.firePending {t} (h : Inv s) : Inv (State.firePending t s) := by
  grind [State.firePending, Inv.message, Inv.onFn, ← Inv.foldl]

theorem Inv.unmask {t k} (h : Inv s) : Inv (State.unmask t k s) := by
  grind [State.unmask, Inv.firePending, Inv.onFn]

theorem Inv.msixWrite {t off x} (h : Inv s) : Inv (State.msixWrite t off x s) := by
  grind [State.msixWrite, Inv.onFn, Inv.unmask]

theorem Inv.bar4Write {t off size x} (h : Inv s) : Inv (State.bar4Write t off size x s) := by
  grind [State.bar4Write, Inv.badSize, Inv.aerLog, Inv.msixWrite]

theorem Inv.deviceControlWrite {t x} (h : Inv s) : Inv (State.deviceControlWrite t x s) := by
  grind [State.deviceControlWrite, Inv.onFn, Inv.flrIf]

theorem Inv.doeGo {x} (h : Inv s) : Inv (State.doeGo x s) := by
  grind [State.doeGo, Inv.onHg, Inv.takeFree, ← Inv.foldl]

theorem Inv.configWrite {t r x} (h : Inv s) : Inv (State.configWrite t r x s) := by
  unfold State.configWrite
  grind [Inv.onFn, Inv.firePending, Inv.onHg, Inv.vfOff, Inv.toD0, Inv.deviceControlWrite, Inv.doeGo]

theorem Inv.mbxWrite {t off x} (h : Inv s) : Inv (State.mbxWrite t off x s) := by
  unfold State.mbxWrite
  grind [Inv.latch, Inv.onHg, Inv.mbxGo]

theorem Inv.queueWrite {t q off x} (h : Inv s) : Inv (State.queueWrite t q off x s) := by
  unfold State.queueWrite
  grind [Inv.qBase, Inv.qCfg, Inv.sqTail, Inv.cqHead]

theorem Inv.slotWrite {a off x} (h : Inv s) : Inv (State.slotWrite a off x s) := by
  unfold State.slotWrite
  grind [Inv.mbBase, Inv.mbCfg, Inv.mbInTail, Inv.mbOutHead]

theorem Inv.mdioWrite {x} (h : Inv s) : Inv (State.mdioWrite x s) := by
  grind [State.mdioWrite, Inv.onSp, Inv.mdioStart]

theorem Inv.lockBlocks {x} (h : Inv s) : Inv (State.lockBlocks x s) := h.frame rfl rfl rfl rfl

theorem Inv.portCfgWrite {p x} (h : Inv s) : Inv (State.portCfgWrite p x s) := by
  grind [State.portCfgWrite, Inv.ignoredWrite, Inv.portDown, Inv.onPort, Inv.unitWritten, Inv.startPort]

theorem Inv.routeWrite {p m x} (h : Inv s) : Inv (State.routeWrite p m x s) := by
  grind [State.routeWrite, Inv.ignoredWrite, Inv.onXl, Inv.unitWritten]

theorem Inv.elCfgWrite {x} (h : Inv s) : Inv (State.elCfgWrite x s) := by
  grind [State.elCfgWrite, Inv.ignoredWrite, Inv.onEl, Inv.unitWritten]

theorem Inv.tbCfgWrite {x} (h : Inv s) : Inv (State.tbCfgWrite x s) := h.frame rfl rfl rfl rfl

theorem Inv.certAddrWrite {upper x} (h : Inv s) : Inv (State.certAddrWrite upper x s) := by
  grind [State.certAddrWrite, Inv.onLc, Inv.unitWritten]

theorem Inv.regWrite {v t r upper x} (h : Inv s) : Inv (State.regWrite v t r upper x s) := by
  unfold State.regWrite
  grind [Inv.mbxWrite, Inv.queueWrite, Inv.liCmd, Inv.liCtrl, Inv.slotWrite, Inv.lockBlocks, Inv.mdioWrite,
    Inv.elCfgWrite, Inv.portCfgWrite, Inv.routeWrite, Inv.chCfg, Inv.denied, Inv.lcXferWrite, Inv.certAddrWrite,
    Inv.certGo, Inv.tbCfgWrite]

theorem Inv.writeReg {v loc size x} (h : Inv s) : Inv (State.writeReg v loc size x s) := by
  unfold State.writeReg
  grind [Inv.configWrite, Inv.bar4Write, Inv.unreached, Inv.badSize, Inv.discardWrite, Inv.regWrite]

theorem Inv.dbgReg {write off x} (h : Inv s) : Inv (s.dbgReg write off x) := by
  unfold State.dbgReg
  extract_lets loc wide size error before t data keep
  have ht : Inv t := Inv.ite h.writeReg h.readReg
  exact ht.frame rfl rfl rfl rfl

theorem Inv.disableUnit {u} (h : Inv s) : Inv (State.disableUnit u s) := by
  grind [State.disableUnit, Inv.onQ, Inv.onApplet, Inv.onCh, Inv.cardOff, Inv.cardOpRemoved, Inv.portDown, Inv.onPort]

theorem Inv.faultUnit {x} (h : Inv s) : Inv (State.faultUnit x s) := by
  grind [State.faultUnit, Inv.onHg, Inv.disableUnit, Inv.raiseCause, Inv.logEvent]

theorem Inv.parityMismatch {x copy} (h : Inv s) : Inv (State.parityMismatch x copy s) := by
  grind [State.parityMismatch, Inv.latch, Inv.alarmIfArmed, Inv.logEvent, Inv.faultUnit]

/-! ### Machine/Services.lean -/

theorem Inv.returns {st} (h : Inv s) : Inv (Machine.returns st s).1 := h.frame rfl rfl rfl rfl

theorem Inv.service {n num call} (h : Inv s) (hc : ∀ s, Inv s → Inv (call s).1) : Inv (s.service n num call) := by
  unfold State.service
  grind [Inv.coreFault, Inv.serviceEnd, Inv.onCore]

theorem Inv.uncommit {a} (h : Inv s) : Inv (State.uncommit a s) := by
  grind [State.uncommit, Inv.onSz, Inv.onApplet, Inv.wakeSlot]

theorem Inv.randomCall {n} (h : Inv s) : Inv (Machine.randomCall n s).1 := by
  grind [Machine.randomCall, Inv.returns, Inv.uncommit, Inv.generate, Inv.bufferWrite, Inv.randomFrom, Inv.awaits]

theorem Inv.hashCall {n} (h : Inv s) : Inv (Machine.hashCall n s).1 := by
  grind [Machine.hashCall, Inv.returns, Inv.latch, Inv.bufferWrite]

theorem Inv.lieCall {n} (h : Inv s) : Inv (Machine.lieCall n s).1 := by
  grind [Machine.lieCall, Inv.returns, Inv.lieStart, Inv.awaits]

theorem Inv.latticeCall {n} (h : Inv s) : Inv (Machine.latticeCall n s).1 := by
  unfold Machine.latticeCall
  dsimp only
  repeat' split
  all_goals first | exact h | (dsimp only; exact h.beginService) | (dsimp only; exact h.awaits)

theorem Inv.latticeRow {n op} (h : Inv s) : Inv (State.latticeRow n op s) := by
  grind [State.latticeRow, Inv.onCore, Inv.service, Inv.latticeCall]

theorem Inv.drawClaimCall {n} (h : Inv s) : Inv (Machine.drawClaimCall n s).1 := by
  grind [Machine.drawClaimCall, Inv.returns, Inv.awaits, Inv.onEn]

theorem Inv.drawCommitCall {n} (h : Inv s) : Inv (Machine.drawCommitCall n s).1 := by
  grind [Machine.drawCommitCall, Inv.returns, Inv.onSz, Inv.awaits, Inv.append]

theorem Inv.commitAcked {d core} (h : Inv s) : Inv (State.commitAcked d core s) := by
  grind [State.commitAcked, Inv.onSz, Inv.onApplet, Inv.serviceEnd, Inv.wakeSlot]

theorem Inv.drawReleaseCall {n} (h : Inv s) : Inv (Machine.drawReleaseCall n s).1 := by
  grind [Machine.drawReleaseCall, Inv.returns, Inv.drawEnd, Inv.afterJournal, Inv.leaveDraw]

theorem Inv.sealRecordCall {n} (h : Inv s) : Inv (Machine.sealRecordCall n s).1 := by
  grind [Machine.sealRecordCall, Inv.returns, Inv.onTd, Inv.completeTake, Inv.awaits, Inv.admitSeals]

theorem Inv.statsPublishCall {n} (h : Inv s) : Inv (Machine.statsPublishCall n s).1 := by
  grind [Machine.statsPublishCall, Inv.returns, Inv.append]

theorem Inv.callOf {n num} (h : Inv s) : Inv (Machine.callOf n num s).1 := by
  unfold Machine.callOf
  split
  · exact h.randomCall
  · exact h.hashCall
  · exact h.lieCall
  · exact h.latticeCall
  · exact h.drawClaimCall
  · exact h.drawCommitCall
  · exact h.drawReleaseCall
  · exact h.sealRecordCall
  · exact h.statsPublishCall
  · exact h

theorem Inv.svc {n num} (h : Inv s) : Inv (State.svc n num s) := by
  grind [State.svc, Inv.service, Inv.callOf, Inv.coreFault]

/-! ### The bodies of the Sezel instructions -/

/-- An instruction body that keeps the invariant wherever it ends without a fault. -/
def Body.Keeps (b : Body) : Prop := ∀ s c r, Inv s → b s c = .ok r → Inv r.1

theorem Inv.sezelKeeps {n size} {b : Body} (h : Inv s) (hb : b.Keeps) : Inv (s.sezel n size b) :=
  h.sezel fun c r e => hb s c r h e

theorem Body.Keeps.pure {f} : (pureBody f).Keeps := fun _ _ _ h e => by
  cases e
  exact h

theorem Body.Keeps.reserved : reservedBody.Keeps := fun _ _ _ h e => by
  cases e
  exact h.takeFree

theorem Body.Keeps.unlessReserved {v b} (hb : Body.Keeps b) : (unlessReserved v b).Keeps := by
  unfold Machine.unlessReserved
  split
  · exact hb
  · exact .reserved

/-- A body that leaves the state as it is, whatever it does to its core. -/
theorem Body.Keeps.coreOnly {g : State → SCore → SCore × Control} : Body.Keeps fun s c => .ok (s, g s c) := fun _ _ _ h e => by
  cases e
  exact h

theorem Body.Keeps.branch {cond offset} : (branchBody cond offset).Keeps :=
  .unlessReserved (.coreOnly (g := fun _ _ => _))

theorem Body.Keeps.loop {level count e} : (loopBody level count e).Keeps :=
  .unlessReserved fun _ _ _ h e => by
    cases e
    exact h

theorem Body.Keeps.load {f n upset ext} : (loadBody f n upset ext).Keeps := fun s c r h e => by
  unfold loadBody at e
  split at e <;> cases e
  exact h

theorem Body.Keeps.lda {f upset} : (ldaBody f upset).Keeps := fun s c r h e => by
  unfold ldaBody at e
  split at e <;> cases e
  exact h

theorem Body.Keeps.store {f n} : (storeBody f n).Keeps := fun s c r h e => by
  unfold storeBody at e
  split at e <;> cases e
  next hs => exact h.store hs

theorem Body.Keeps.sta {f} : (staBody f).Keeps := fun s c r h e => by
  unfold staBody at e
  dsimp only at e
  split at e <;> cases e
  next hs => exact h.store hs

theorem Body.Keeps.lr {rd pn upset} : (lrBody rd pn upset).Keeps := fun s c r h e => by
  unfold lrBody at e
  split at e
  · cases e
  · split at e <;> cases e
    exact h

theorem Body.Keeps.sc {rd pn ws} : (scBody rd pn ws).Keeps := fun s c r h e => by
  unfold scBody at e
  split at e
  · cases e
  · split at e
    · split at e <;> cases e
      next hs => exact h.store hs
    · cases e
      exact h

theorem Inv.storeWords {c addr vs r} (h : Inv s) (e : s.storeWords c addr vs = .ok r) : Inv r.1 := by
  induction vs generalizing s c addr with
  | nil =>
    cases e
    exact h
  | cons v vs ih =>
    unfold State.storeWords at e
    split at e
    · cases e
    · next hs => exact ih (h.store hs) e

theorem Body.Keeps.call {rt mask} : (callBody rt mask).Keeps := fun s c r h e => by
  unfold callBody at e
  dsimp only at e
  split at e <;> cases e
  next hs => exact h.storeWords hs

theorem Body.Keeps.ret {upset} : (retBody upset).Keeps := fun s c r h e => by
  unfold retBody at e
  dsimp only at e
  split at e
  · cases e
  · split at e
    · cases e
    · split at e <;> cases e
      exact h

theorem Body.Keeps.alu {f lat op} : (aluBody f lat op).Keeps := .pure
theorem Body.Keeps.unary {rd rs lat op} : (unaryBody rd rs lat op).Keeps := .pure
theorem Body.Keeps.flags {op} : (flagsBody op).Keeps := .pure
theorem Body.Keeps.imm {rd ra lat op} : (immBody rd ra lat op).Keeps := .pure
theorem Body.Keeps.mac {f op} : (macBody f op).Keeps := .pure
theorem Body.Keeps.ext {f bits shift} : (extBody f bits shift).Keeps := .pure
theorem Body.Keeps.acc {f zn op} : (accBody f zn op).Keeps := .pure
theorem Body.Keeps.cmpa {f} : (cmpaBody f).Keeps := .pure
theorem Body.Keeps.aw {f op} : (awBody f op).Keeps := .pure
theorem Body.Keeps.ins {f loc op} : (insBody f loc op).Keeps := .pure
theorem Body.Keeps.wait : waitBody.Keeps := .pure

theorem Body.Keeps.accDiv {f zn op} : (accDivBody f zn op).Keeps := fun s c r h e => by
  unfold accDivBody at e
  split at e
  · cases e
  · exact Body.Keeps.pure _ _ _ h e
/-- The outcome goes on, if at all, in a state that meets the invariant. -/
def KeepsInv (o : Host.Outcome State Fault Refusal) : Prop := ∀ t, o = .next t → Inv t

theorem Inv.next (h : Inv s) : KeepsInv (.next s) := fun _ e => by
  cases e
  exact h

/-! ## The commands -/

/-! ### Machine/Queues.lean -/

theorem Inv.execSqTailDb {loc index env} (h : Inv s) : KeepsInv (Machine.execSqTailDb loc index env s) := by
  unfold Machine.execSqTailDb
  refine .next ?_
  grind [Inv.applyEnv, Inv.hostWrite, Inv.sqTail]

theorem Inv.execCqHeadDb {loc index} (h : Inv s) : KeepsInv (Machine.execCqHeadDb loc index s) := by
  unfold Machine.execCqHeadDb
  refine .next ?_
  grind [Inv.hostWrite, Inv.cqHead]

theorem Inv.execQCfgWrite {loc value} (h : Inv s) : KeepsInv (Machine.execQCfgWrite loc value s) := by
  unfold Machine.execQCfgWrite
  refine .next ?_
  grind [Inv.hostWrite, Inv.qCfg]

theorem Inv.execCqStallTimeout {fn q} (h : Inv s) : KeepsInv (Machine.execCqStallTimeout fn q s) := by
  unfold Machine.execCqStallTimeout
  refine .next ?_
  split
  · exact Inv.ite h.latch.onQ h
  · exact h

theorem Inv.execDescriptorFetch (h : Inv s) : KeepsInv (Machine.execDescriptorFetch s) := by
  unfold Machine.execDescriptorFetch
  refine .next ?_
  grind [Inv.fetchFrom]

/-! ### Machine/Time.lean -/

theorem Inv.execTimebaseTick {ns} (h : Inv s) : KeepsInv (Machine.execTimebaseTick ns s) := by
  unfold Machine.execTimebaseTick
  refine .next ?_
  grind [Inv.endResets, Inv.advance, Inv.rollPeaks, Inv.onTb, Inv.copyTb, Inv.copyEl]

theorem Inv.execSlewAbsorbed (h : Inv s) : KeepsInv (Machine.execSlewAbsorbed s) := by
  unfold Machine.execSlewAbsorbed
  refine .next ?_
  grind [Inv.onTb]

theorem Inv.execTimebaseCompare {rtcAdvance} (h : Inv s) : KeepsInv (Machine.execTimebaseCompare rtcAdvance s) := by
  unfold Machine.execTimebaseCompare
  refine .next ?_
  grind [Inv.timebaseCompare]

theorem Inv.execTimeFloorAdvance (h : Inv s) : KeepsInv (Machine.execTimeFloorAdvance s) := by
  unfold Machine.execTimeFloorAdvance
  refine .next ?_
  grind [Inv.onTb]

/-! ### Machine/Applets.lean -/

theorem Inv.execAppletInstall {t} (h : Inv s) : KeepsInv (Machine.execAppletInstall t s) := by
  unfold Machine.execAppletInstall
  refine .next ?_
  grind [Inv.onSz, Inv.startCores, Inv.advanceSlot, Inv.onApplet, Inv.slotState, Inv.loadStatus, Inv.setNum]

theorem Inv.execMbInTailDb {loc index env} (h : Inv s) : KeepsInv (Machine.execMbInTailDb loc index env s) := by
  unfold Machine.execMbInTailDb
  refine .next ?_
  grind [Inv.applyEnv, Inv.hostWrite, Inv.mbInTail]

theorem Inv.execMbOutHeadDb {loc index} (h : Inv s) : KeepsInv (Machine.execMbOutHeadDb loc index s) := by
  unfold Machine.execMbOutHeadDb
  refine .next ?_
  grind [Inv.hostWrite, Inv.mbOutHead]

theorem Inv.execMbCfgWrite {loc value} (h : Inv s) : KeepsInv (Machine.execMbCfgWrite loc value s) := by
  unfold Machine.execMbCfgWrite
  refine .next ?_
  grind [Inv.hostWrite, Inv.mbCfg]

theorem Inv.execMbInboundCopy {slot} (h : Inv s) : KeepsInv (Machine.execMbInboundCopy slot s) := by
  unfold Machine.execMbInboundCopy
  refine .next ?_
  grind [Inv.mbError, Inv.dmaReadFailed, Inv.copyIn]

theorem Inv.execMbOutboundCopy {slot} (h : Inv s) : KeepsInv (Machine.execMbOutboundCopy slot s) := by
  unfold Machine.execMbOutboundCopy
  refine .next ?_
  grind [Inv.copyOut]

/-! ### Machine/Takes.lean -/

theorem Inv.execTakeReserve {id} (h : Inv s) : KeepsInv (Machine.execTakeReserve id s) := by
  unfold Machine.execTakeReserve
  refine .next ?_
  grind [Inv.reserveTake]

theorem Inv.execSealTakeArrival {id} (h : Inv s) : KeepsInv (Machine.execSealTakeArrival id s) := by
  unfold Machine.execSealTakeArrival
  refine .next ?_
  grind [Inv.returnTake, Inv.onTake]

theorem Inv.execManifestDeadline {mid} (h : Inv s) : KeepsInv (Machine.execManifestDeadline mid s) := by
  unfold Machine.execManifestDeadline
  refine .next ?_
  grind [Inv.closeManifest]

/-! ### Machine/Sealing.lean -/

theorem Inv.execTakeDigestComplete {id} (h : Inv s) : KeepsInv (Machine.execTakeDigestComplete id s) := by
  unfold Machine.execTakeDigestComplete
  refine .next ?_
  grind [Inv.assignWork, Inv.onTake, Inv.joinManifest]

theorem Inv.execManifestRootComplete {mid} (h : Inv s) : KeepsInv (Machine.execManifestRootComplete mid s) := by
  unfold Machine.execManifestRootComplete
  refine .next ?_
  grind [Inv.assignWork, Inv.onManifest]

theorem Inv.execManifestSigningComplete {mid ecEnd mlEnd} (h : Inv s) :
    KeepsInv (Machine.execManifestSigningComplete mid ecEnd mlEnd s) := by
  unfold Machine.execManifestSigningComplete
  refine .next ?_
  grind [Inv.sealFault, Inv.mlFault, Inv.assignWork, Inv.abandonManifests, Inv.sealRefill, Inv.slateManifest]

theorem Inv.execIndividualSignComplete {id fin} (h : Inv s) :
    KeepsInv (Machine.execIndividualSignComplete id fin s) := by
  unfold Machine.execIndividualSignComplete
  refine .next ?_
  grind [Inv.assignWork, Inv.sealRefill, Inv.returnTake, Inv.sealFault, Inv.onTake]

theorem Inv.execIndividualVerifyComplete {id fin} (h : Inv s) :
    KeepsInv (Machine.execIndividualVerifyComplete id fin s) := by
  unfold Machine.execIndividualVerifyComplete
  refine .next ?_
  grind [Inv.assignWork, Inv.sealFault, Inv.onTake, Inv.sealRefill, Inv.returnTake]

theorem Inv.execResultTimeout {id} (h : Inv s) : KeepsInv (Machine.execResultTimeout id s) := by
  unfold Machine.execResultTimeout
  refine .next ?_
  grind [Inv.assignWork, Inv.raiseCause, Inv.lateTake]

/-! ### Machine/Card.lean -/

theorem Inv.execCardRemoval (h : Inv s) : KeepsInv (Machine.execCardRemoval s) := Inv.next h.cardRemoved

theorem Inv.execCardTimeout (h : Inv s) : KeepsInv (Machine.execCardTimeout s) := by
  unfold Machine.execCardTimeout
  refine .next ?_
  grind [Inv.cardRemoved]

theorem Inv.execCardInsertion {facts} (h : Inv s) : KeepsInv (Machine.execCardInsertion facts s) := by
  unfold Machine.execCardInsertion
  refine .next ?_
  grind [Inv.onCh, Inv.latch]

theorem Inv.execCardCommandComplete {reply} (h : Inv s) : KeepsInv (Machine.execCardCommandComplete reply s) := by
  unfold Machine.execCardCommandComplete
  refine .next ?_
  grind [Inv.cardInitNext, Inv.cardStep, Inv.cardInitFailed, Inv.tuneIfDue, Inv.cardOpFailed, Inv.readNext,
    Inv.writeNext, Inv.formatNext]

theorem Inv.execCardRetuneTimer {low high} (h : Inv s) : KeepsInv (Machine.execCardRetuneTimer low high s) := by
  unfold Machine.execCardRetuneTimer
  refine .next ?_
  grind [Inv.retuneNow]

theorem Inv.execCardTempPoll {temperature low high} (h : Inv s) :
    KeepsInv (Machine.execCardTempPoll temperature low high s) := by
  unfold Machine.execCardTempPoll
  refine .next ?_
  grind [Inv.onCh, Inv.retuneNow]

theorem Inv.execChCfgWrite {value} (h : Inv s) : KeepsInv (Machine.execChCfgWrite value s) := by
  unfold Machine.execChCfgWrite
  refine .next ?_
  grind [Inv.hostWrite, Inv.chCfg]

/-! ### Machine/Entropy.lean -/

theorem Inv.execFirstSeed (h : Inv s) : KeepsInv (Machine.execFirstSeed s) := by
  unfold Machine.execFirstSeed
  refine .next ?_
  split
  all_goals grind [Inv.instantiate, Inv.noteReseed, Inv.startPorts, Inv.onEn, Inv.fillReserve, Inv.guardKeys, ← Inv.foldl]

theorem Inv.execEntropyHealthFail {sources test} (h : Inv s) :
    KeepsInv (Machine.execEntropyHealthFail sources test s) := by
  unfold Machine.execEntropyHealthFail
  refine .next ?_
  grind [Inv.healthFail]

theorem Inv.execSourceRestart {failed} (h : Inv s) : KeepsInv (Machine.execSourceRestart failed s) := by
  unfold Machine.execSourceRestart
  refine .next ?_
  grind [Inv.onSource, Inv.entropyFailure, ← Inv.foldl]

theorem Inv.execEntropyDeliveryResume (h : Inv s) : KeepsInv (Machine.execEntropyDeliveryResume s) := by
  unfold Machine.execEntropyDeliveryResume
  refine .next ?_
  grind [Inv.onEn, Inv.fillReserve, Inv.reseed, ← Inv.foldl]

theorem Inv.execConditioningBlock {block} (h : Inv s) : KeepsInv (Machine.execConditioningBlock block s) := by
  unfold Machine.execConditioningBlock
  refine .next ?_
  grind [Inv.onSource, Inv.healthFail, Inv.releaseCandidate, Inv.onEn, Inv.keepBlock]

theorem Inv.execDrbgReseedCount {i} (h : Inv s) : KeepsInv (Machine.execDrbgReseedCount i s) := Inv.next h.reseedIf

theorem Inv.execDrbgReseedInterval {i} (h : Inv s) :
    KeepsInv (Machine.execDrbgReseedInterval i s) := Inv.next h.reseedIf

theorem Inv.execDrbgReinstantiate {i} (h : Inv s) : KeepsInv (Machine.execDrbgReinstantiate i s) := by
  unfold Machine.execDrbgReinstantiate
  refine .next ?_
  grind [Inv.resumeRandoms, Inv.noteReseed, Inv.instantiate]

theorem Inv.execRngDataRead {loc size} (h : Inv s) : KeepsInv (Machine.execRngDataRead loc size s) := by
  unfold Machine.execRngDataRead
  refine .next ?_
  grind [Inv.emit, Inv.badSize, Inv.rngRead]

theorem Inv.execRngFifoRefill {fn} (h : Inv s) : KeepsInv (Machine.execRngFifoRefill fn s) := by
  unfold Machine.execRngFifoRefill
  refine .next ?_
  grind [Inv.generate, Inv.onFifo]

theorem Inv.execDrawSeedReady (h : Inv s) : KeepsInv (Machine.execDrawSeedReady s) := by
  unfold Machine.execDrawSeedReady
  refine .next ?_
  grind [Inv.takeBlock, Inv.advanceInstance, Inv.seedInstance, Inv.onEn, Inv.onSz, Inv.serviceEnd, Inv.wakeSlot,
    Inv.onPwr]

/-! ### Machine/Ledger.lean -/

theorem Inv.execWindowReassignComplete {w} (h : Inv s) : KeepsInv (Machine.execWindowReassignComplete w s) := by
  unfold Machine.execWindowReassignComplete
  refine .next ?_
  grind [Inv.rewriteWindow, Inv.append, Inv.onWindow]

theorem Inv.execCheckpointStart (h : Inv s) : KeepsInv (Machine.execCheckpointStart s) := by
  unfold Machine.execCheckpointStart
  refine .next ?_
  grind [Inv.startCheckpoint]

theorem Inv.execCheckpointCommit (h : Inv s) : KeepsInv (Machine.execCheckpointCommit s) := by
  unfold Machine.execCheckpointCommit
  refine .next ?_
  grind [Inv.commitCheckpoint]

theorem Inv.execTapWriteFault (h : Inv s) : KeepsInv (Machine.execTapWriteFault s) := by
  unfold Machine.execTapWriteFault
  refine .next ?_
  grind [Inv.latch, Inv.onLg, Inv.startCheckpoint]

theorem Inv.execTapRingApply (h : Inv s) : KeepsInv (Machine.execTapRingApply s) := by
  unfold Machine.execTapRingApply
  refine .next ?_
  grind [Inv.applyNum, Inv.onLg]

theorem Inv.execRecoveryComplete (h : Inv s) : KeepsInv (Machine.execRecoveryComplete s) := by
  unfold Machine.execRecoveryComplete
  refine .next ?_
  grind [Inv.onLg, Inv.latch, Inv.clearCause, Inv.startCheckpoint, Inv.restoreMirrored]

theorem Inv.execMemoryScrub {bad} (h : Inv s) : KeepsInv (Machine.execMemoryScrub bad s) := by
  unfold Machine.execMemoryScrub
  refine .next ?_
  grind [Inv.badLine, ← Inv.foldl]

/-! ### Machine/Escrow.lean -/

theorem Inv.execOpenAck {f} (h : Inv s) : KeepsInv (Machine.execOpenAck f s) := by
  unfold Machine.execOpenAck
  refine .next ?_
  grind [Inv.dropStatus, Inv.refuseReel, Inv.acceptAck]

theorem Inv.execRecorderRefuse {reelId} (h : Inv s) : KeepsInv (Machine.execRecorderRefuse reelId s) := by
  unfold Machine.execRecorderRefuse
  refine .next ?_
  grind [Inv.dropStatus, Inv.refuseReel]

theorem Inv.execOpenTimeout (h : Inv s) : KeepsInv (Machine.execOpenTimeout s) := by
  unfold Machine.execOpenTimeout
  refine .next ?_
  grind [Inv.refuseReel]

theorem Inv.execPickupVerified (h : Inv s) : KeepsInv (Machine.execPickupVerified s) := by
  unfold Machine.execPickupVerified
  refine .next ?_
  grind [Inv.appendOpening, Inv.onLg, Inv.dmaReadFailed, Inv.startRunOut, Inv.onEl]

theorem Inv.execReelFrameTick (h : Inv s) : KeepsInv (Machine.execReelFrameTick s) := by
  unfold Machine.execReelFrameTick
  refine .next ?_
  grind [Inv.emit, Inv.copyEl, Inv.onEl, Inv.takeFree, Inv.sendFrame, ← Inv.foldl]

theorem Inv.execReelEndAppend (h : Inv s) : KeepsInv (Machine.execReelEndAppend s) := by
  unfold Machine.execReelEndAppend
  refine .next ?_
  grind [Inv.onEl, Inv.append]

theorem Inv.execStatusFrame {f} (h : Inv s) : KeepsInv (Machine.execStatusFrame f s) := by
  unfold Machine.execStatusFrame
  refine .next ?_
  grind [Inv.takeStatus, Inv.dropStatus]

theorem Inv.execStatusLimitExpiry (h : Inv s) : KeepsInv (Machine.execStatusLimitExpiry s) := by
  unfold Machine.execStatusLimitExpiry
  refine .next ?_
  grind [Inv.stallReel]

theorem Inv.execAckLimitExpiry (h : Inv s) : KeepsInv (Machine.execAckLimitExpiry s) := by
  unfold Machine.execAckLimitExpiry
  refine .next ?_
  grind [Inv.stallReel]

theorem Inv.execStallRecovery (h : Inv s) : KeepsInv (Machine.execStallRecovery s) := by
  unfold Machine.execStallRecovery
  refine .next ?_
  grind [Inv.onEl]

theorem Inv.execReelBufferResume (h : Inv s) : KeepsInv (Machine.execReelBufferResume s) := by
  unfold Machine.execReelBufferResume
  refine .next ?_
  grind [Inv.clearCause, Inv.onPwr]

theorem Inv.execEscrowLaneBlockLock {lane locked} (h : Inv s) :
    KeepsInv (Machine.execEscrowLaneBlockLock lane locked s) := by
  unfold Machine.execEscrowLaneBlockLock
  refine .next ?_
  grind [Inv.onEl, Inv.latch]

theorem Inv.execUncorrectableCodeword {escrow lane} (h : Inv s) :
    KeepsInv (Machine.execUncorrectableCodeword escrow lane s) := by
  unfold Machine.execUncorrectableCodeword
  refine .next ?_
  grind [Inv.latch]

/-! ### Machine/Landing.lean -/

theorem Inv.execTakeLanding {id compareEqual} (h : Inv s) : KeepsInv (Machine.execTakeLanding id compareEqual s) := by
  unfold Machine.execTakeLanding
  refine .next ?_
  grind [Inv.recordTake, Inv.compareMismatch]

theorem Inv.execJournalSignComplete {id} (h : Inv s) : KeepsInv (Machine.execJournalSignComplete id s) := by
  unfold Machine.execJournalSignComplete
  refine .next ?_
  grind [Inv.hopOrCommit]

/-! ### Machine/Fleet.lean -/

theorem Inv.execPortLanesLocked {p} (h : Inv s) : KeepsInv (Machine.execPortLanesLocked p s) := by
  unfold Machine.execPortLanesLocked
  refine .next ?_
  grind [Inv.retryPort, Inv.generate, Inv.onPort, Inv.sendHello]

theorem Inv.execTrainingTimeout {p} (h : Inv s) : KeepsInv (Machine.execTrainingTimeout p s) := by
  unfold Machine.execTrainingTimeout
  refine .next ?_
  grind [Inv.retryPort]

theorem Inv.execKeyingTimeout {p} (h : Inv s) : KeepsInv (Machine.execKeyingTimeout p s) := by
  unfold Machine.execKeyingTimeout
  refine .next ?_
  grind [Inv.retryPort, Inv.authFailed]

theorem Inv.execKeyingRetry {p} (h : Inv s) : KeepsInv (Machine.execKeyingRetry p s) := by
  unfold Machine.execKeyingRetry
  refine .next ?_
  grind [Inv.startPort, Inv.onPort]

theorem Inv.execHello {p x1} (h : Inv s) : KeepsInv (Machine.execHello p x1 s) := by
  unfold Machine.execHello
  refine .next ?_
  grind [Inv.signHello, Inv.portUp, Inv.retryPort, Inv.authFailed, Inv.portDown]

theorem Inv.execLinkIdleTimeout {p} (h : Inv s) : KeepsInv (Machine.execLinkIdleTimeout p s) := by
  unfold Machine.execLinkIdleTimeout
  refine .next ?_
  grind [Inv.portDown]

theorem Inv.execLinkFrameForward {x0 x1 payload} (h : Inv s) :
    KeepsInv (Machine.execLinkFrameForward x0 x1 payload s) := by
  unfold Machine.execLinkFrameForward
  refine .next ?_
  grind [Inv.receive]

theorem Inv.execLinkFrameDiscard {x0 x1} (h : Inv s) : KeepsInv (Machine.execLinkFrameDiscard x0 x1 s) := by
  unfold Machine.execLinkFrameDiscard
  refine .next ?_
  grind [Inv.frameIn, Inv.bumpFleet]

theorem Inv.execCreditTick {p} (h : Inv s) : KeepsInv (Machine.execCreditTick p s) := by
  unfold Machine.execCreditTick
  refine .next ?_
  grind [Inv.sendPort]

theorem Inv.execCredit {x0} (h : Inv s) : KeepsInv (Machine.execCredit x0 s) := by
  unfold Machine.execCredit
  refine .next ?_
  grind [Inv.receive]

theorem Inv.execCreditStallTimer {p vc} (h : Inv s) : KeepsInv (Machine.execCreditStallTimer p vc s) := by
  unfold Machine.execCreditStallTimer
  refine .next ?_
  split
  · exact Inv.ite h.latch h
  · exact h

theorem Inv.execLinkRequestResend {reqId} (h : Inv s) : KeepsInv (Machine.execLinkRequestResend reqId s) := by
  unfold Machine.execLinkRequestResend
  refine .next ?_
  split
  · exact Inv.ite h.onXl.sendMember h
  · exact h

theorem Inv.execLeaseReq {x0 slot} (h : Inv s) : KeepsInv (Machine.execLeaseReq x0 slot s) := by
  unfold Machine.execLeaseReq
  refine .next ?_
  grind [Inv.receive, Inv.asRequest, Inv.grantLease, Inv.respond, Inv.copyToMirror]

theorem Inv.execLeaseGrant {l slot range} (h : Inv s) : KeepsInv (Machine.execLeaseGrant l slot range s) :=
  .next (h.receive fun s h => by
    split
    · exact h
    · next e => exact Inv.ite (h.takeRequest e).onXl (h.takeRequest e))

theorem Inv.execRoleOffer {x0 r tenant} (h : Inv s) : KeepsInv (Machine.execRoleOffer x0 r tenant s) := by
  unfold Machine.execRoleOffer
  refine .next ?_
  grind [Inv.receive, Inv.asRequest, Inv.respond, Inv.setRoles, Inv.onSlot, Inv.freshGrants, Inv.append, Inv.serveAgain]

theorem Inv.execMirrorRec {x0 m} (h : Inv s) : KeepsInv (Machine.execMirrorRec x0 m s) := by
  unfold Machine.execMirrorRec
  refine .next ?_
  grind [Inv.receive, Inv.sendMember, Inv.onXl, Inv.sendAck, Inv.recordAck, Inv.sendRefuse]

theorem Inv.execMirrorAck {x0 slot roleEpoch serial} (h : Inv s) :
    KeepsInv (Machine.execMirrorAck x0 slot roleEpoch serial s) := by
  unfold Machine.execMirrorAck
  refine .next ?_
  grind [Inv.receive, Inv.sendAck, Inv.recordAck, Inv.dropForwarded, Inv.commitTake]

theorem Inv.execMirrorRefuse {x0 slot roleEpoch serial} (h : Inv s) :
    KeepsInv (Machine.execMirrorRefuse x0 slot roleEpoch serial s) := by
  unfold Machine.execMirrorRefuse
  refine .next ?_
  grind [Inv.receive, Inv.sendRefuse, Inv.dropForwarded, Inv.landRefused, Inv.learnEpoch]

theorem Inv.execMirrorTimeoutExpiry {id} (h : Inv s) : KeepsInv (Machine.execMirrorTimeoutExpiry id s) := by
  unfold Machine.execMirrorTimeoutExpiry
  refine .next ?_
  grind [Inv.onLg, Inv.bumpFleet, Inv.landRefused]

theorem Inv.execSyncReqTick {slot} (h : Inv s) : KeepsInv (Machine.execSyncReqTick slot s) := by
  unfold Machine.execSyncReqTick
  refine .next ?_
  grind [Inv.sendRequest]

theorem Inv.execSyncReq {x0 r} (h : Inv s) : KeepsInv (Machine.execSyncReq x0 r s) := by
  unfold Machine.execSyncReq
  refine .next ?_
  grind [Inv.receive, Inv.asRequest, Inv.recordAck, Inv.onSlot, Inv.respond]

theorem Inv.execSyncImage {l r} (h : Inv s) : KeepsInv (Machine.execSyncImage l r s) :=
  .next (h.receive fun s h => by
    extract_lets t x
    have ht : Inv t := by
      unfold t
      split
      · next e => exact h.takeRequest e
      · exact h
    exact Inv.ite (Inv.ite (Inv.soil (Inv.onSlot (Inv.ite ht.installGrants ht)))
      (Inv.ite ht.serveAgain (Inv.ite ht.installGrants.serveAgain ht))) ht.learnEpoch)

theorem Inv.execHandover {x0 r} (h : Inv s) : KeepsInv (Machine.execHandover x0 r s) := by
  unfold Machine.execHandover
  refine .next ?_
  grind [Inv.receive, Inv.setRoles, Inv.onSlot, Inv.installGrants, Inv.freshGrants, Inv.append, Inv.serveAgain]

theorem Inv.execLeaseReturn {x0 slot range} (h : Inv s) : KeepsInv (Machine.execLeaseReturn x0 slot range s) := by
  unfold Machine.execLeaseReturn
  refine .next ?_
  grind [Inv.receive, Inv.leaseBack]

theorem Inv.execRoleNotice {x0 slot roleEpoch} (h : Inv s) : KeepsInv (Machine.execRoleNotice x0 slot roleEpoch s) := by
  unfold Machine.execRoleNotice
  refine .next ?_
  grind [Inv.receive, Inv.returnLeases, Inv.learnEpoch]

theorem Inv.execHeartbeatTick (h : Inv s) : KeepsInv (Machine.execHeartbeatTick s) := by
  unfold Machine.execHeartbeatTick
  refine .next ?_
  grind [Inv.onXl, Inv.sendMember, ← Inv.foldl]

theorem Inv.execHeartbeat {x0} (h : Inv s) : KeepsInv (Machine.execHeartbeat x0 s) := by
  unfold Machine.execHeartbeat
  refine .next ?_
  grind [Inv.receive]

theorem Inv.execMemberLoss {m} (h : Inv s) : KeepsInv (Machine.execMemberLoss m s) := by
  unfold Machine.execMemberLoss
  refine .next ?_
  grind [Inv.applyNum, Inv.onXl, Inv.loseSlot, ← Inv.foldl]

theorem Inv.execRelease {x0 slots} (h : Inv s) : KeepsInv (Machine.execRelease x0 slots s) := by
  unfold Machine.execRelease
  refine .next ?_
  grind [Inv.receive, Inv.loseMirror, Inv.loseSlot, ← Inv.foldl]

theorem Inv.execTakeoverComplete {slot} (h : Inv s) : KeepsInv (Machine.execTakeoverComplete slot s) := by
  unfold Machine.execTakeoverComplete
  refine .next ?_
  grind [Inv.finishTakeover]

theorem Inv.execCeremonyClaim {x0 unit} (h : Inv s) : KeepsInv (Machine.execCeremonyClaim x0 unit s) := by
  unfold Machine.execCeremonyClaim
  refine .next ?_
  grind [Inv.receive, Inv.asRequest, Inv.respond, Inv.onXl]

theorem Inv.execCeremonyEnd {x0} (h : Inv s) : KeepsInv (Machine.execCeremonyEnd x0 s) := by
  unfold Machine.execCeremonyEnd
  refine .next ?_
  grind [Inv.receive, Inv.onXl]

/-! ### Machine/Lattice.lean -/

theorem Inv.execLatticeSignRound {u} (h : Inv s) : KeepsInv (Machine.execLatticeSignRound u s) := by
  unfold Machine.execLatticeSignRound
  refine .next ?_
  grind [Inv.signRoundEnd]

theorem Inv.execLatticeOpComplete {u checkFailed} (h : Inv s) :
    KeepsInv (Machine.execLatticeOpComplete u checkFailed s) := by
  unfold Machine.execLatticeOpComplete
  refine .next ?_
  grind [Inv.unitComplete]

/-! ### Machine/Lie.lean -/

theorem Inv.execEcdsaSign {loc env} (h : Inv s) : KeepsInv (Machine.execEcdsaSign loc env s) := by
  unfold Machine.execEcdsaSign
  refine .next ?_
  grind [Inv.lieRow, Inv.applyEnv]

theorem Inv.execEcdsaVerify {loc env} (h : Inv s) : KeepsInv (Machine.execEcdsaVerify loc env s) := by
  unfold Machine.execEcdsaVerify
  refine .next ?_
  grind [Inv.lieRow, Inv.applyEnv]

theorem Inv.execEddsaSign {loc env} (h : Inv s) : KeepsInv (Machine.execEddsaSign loc env s) := by
  unfold Machine.execEddsaSign
  refine .next ?_
  grind [Inv.lieRow, Inv.applyEnv]

theorem Inv.execEddsaVerify {loc env} (h : Inv s) : KeepsInv (Machine.execEddsaVerify loc env s) := by
  unfold Machine.execEddsaVerify
  refine .next ?_
  grind [Inv.lieRow, Inv.applyEnv]

theorem Inv.execEcdh {loc env} (h : Inv s) : KeepsInv (Machine.execEcdh loc env s) := by
  unfold Machine.execEcdh
  refine .next ?_
  grind [Inv.lieRow, Inv.applyEnv]

theorem Inv.execEcKeygen {loc env} (h : Inv s) : KeepsInv (Machine.execEcKeygen loc env s) := by
  unfold Machine.execEcKeygen
  refine .next ?_
  grind [Inv.lieRow, Inv.applyEnv]

theorem Inv.execEcPointCheck {loc env} (h : Inv s) : KeepsInv (Machine.execEcPointCheck loc env s) := by
  unfold Machine.execEcPointCheck
  refine .next ?_
  grind [Inv.lieRow, Inv.applyEnv]

theorem Inv.execRsaPrivate {loc env} (h : Inv s) : KeepsInv (Machine.execRsaPrivate loc env s) := by
  unfold Machine.execRsaPrivate
  refine .next ?_
  grind [Inv.lieRow, Inv.applyEnv]

theorem Inv.execRsaPublic {loc env} (h : Inv s) : KeepsInv (Machine.execRsaPublic loc env s) := by
  unfold Machine.execRsaPublic
  refine .next ?_
  grind [Inv.lieRow, Inv.applyEnv]

theorem Inv.execCurveLoad {loc env} (h : Inv s) : KeepsInv (Machine.execCurveLoad loc env s) := by
  unfold Machine.execCurveLoad
  refine .next ?_
  grind [Inv.lieRow, Inv.applyEnv]

theorem Inv.execCurveUnload {loc env} (h : Inv s) : KeepsInv (Machine.execCurveUnload loc env s) := by
  unfold Machine.execCurveUnload
  refine .next ?_
  grind [Inv.lieRow, Inv.applyEnv]

theorem Inv.execAbort {loc} (h : Inv s) : KeepsInv (Machine.execAbort loc s) := by
  unfold Machine.execAbort
  refine .next ?_
  grind [Inv.hostWrite, Inv.lieAbort]

theorem Inv.execLieCommandComplete {e faultCheck} (h : Inv s) :
    KeepsInv (Machine.execLieCommandComplete e faultCheck s) := by
  unfold Machine.execLieCommandComplete
  refine .next ?_
  grind [Inv.lieComplete]

theorem Inv.execUcodeLoadDone {katOk} (h : Inv s) : KeepsInv (Machine.execUcodeLoadDone katOk s) := by
  unfold Machine.execUcodeLoadDone
  refine .next ?_
  grind [Inv.assignWork, Inv.releaseUnits, Inv.ucodeResult]

/-! ### Machine/Keys.lean -/

theorem Inv.execKeyOpComplete {checkFailed} (h : Inv s) : KeepsInv (Machine.execKeyOpComplete checkFailed s) := by
  unfold Machine.execKeyOpComplete
  refine .next ?_
  grind [Inv.assignWork, Inv.releaseUnits, Inv.finishKeyOp]

/-! ### Machine/SezelFlow.lean -/

theorem Inv.execCB {core cond offset} (h : Inv s) :
    KeepsInv (Machine.execCB core cond offset s) := .next (h.sezelKeeps .branch)

theorem Inv.execBL {core cond offset} (h : Inv s) :
    KeepsInv (Machine.execBL core cond offset s) := .next (h.sezelKeeps .branch)

theorem Inv.execJr {core rs} (h : Inv s) : KeepsInv (Machine.execJr core rs s) :=
  .next (h.sezelKeeps .coreOnly)

theorem Inv.execNop {core} (h : Inv s) : KeepsInv (Machine.execNop core s) := .next (h.sezelKeeps .pure)

theorem Inv.execLpclr {core level} (h : Inv s) : KeepsInv (Machine.execLpclr core level s) := .next (h.sezelKeeps .pure)

theorem Inv.execFence {core} (h : Inv s) : KeepsInv (Machine.execFence core s) := .next (h.sezelKeeps .pure)

theorem Inv.execLoop {core level count e} (h : Inv s) :
    KeepsInv (Machine.execLoop core level count e s) := .next (h.sezelKeeps .loop)

theorem Inv.execCsrr {core rd csr} (h : Inv s) : KeepsInv (Machine.execCsrr core rd csr s) := .next (h.sezelKeeps .pure)

theorem Inv.execCsrw {core rs csr} (h : Inv s) : KeepsInv (Machine.execCsrw core rs csr s) := .next (h.sezelKeeps .pure)

theorem Inv.execWait {core} (h : Inv s) : KeepsInv (Machine.execWait core s) := .next (h.sezelKeeps .wait)

theorem Inv.execWaitResume {core} (h : Inv s) : KeepsInv (Machine.execWaitResume core s) := by
  unfold Machine.execWaitResume
  refine .next ?_
  grind [Inv.onCore]

theorem Inv.execHalt {core code} (h : Inv s) : KeepsInv (Machine.execHalt core code s) := by
  unfold Machine.execHalt
  extract_lets ran
  have hr : Inv ran := h.sezelKeeps .coreOnly
  exact .next (Inv.ite hr.slotHalted hr)

theorem Inv.execBkpt {core} (h : Inv s) : KeepsInv (Machine.execBkpt core s) :=
  .next (h.sezel fun c r e => by
    split at e <;> cases e
    exact h)

theorem Inv.execReservedEncoding {core wide} (h : Inv s) : KeepsInv (Machine.execReservedEncoding core wide s) :=
  .next (h.sezelKeeps .reserved)

/-! ### Machine/LifeCycle.lean -/

theorem Inv.execLcXfer {value} (h : Inv s) : KeepsInv (Machine.execLcXfer value s) := by
  unfold Machine.execLcXfer
  refine .next ?_
  grind [Inv.hostWrite, Inv.lcXferWrite]

theorem Inv.execLcBurnComplete (h : Inv s) : KeepsInv (Machine.execLcBurnComplete s) := by
  unfold Machine.execLcBurnComplete
  refine .next ?_
  split
  · exact h
  · next dest who _ =>
    extract_lets source t u
    have ht : Inv t := ⟨h.queue, h.hostMem, h.roots, setIfInBounds_le_three h.fuses (Nat.le_refl 3)⟩
    exact Inv.retireIfScrapped (Inv.logEvent ht.latch)

theorem Inv.execCertCheck (h : Inv s) : KeepsInv (Machine.execCertCheck s) := by
  unfold Machine.execCertCheck
  refine .next ?_
  grind [Inv.checkCert]

theorem Inv.execLcCertGo {value env} (h : Inv s) : KeepsInv (Machine.execLcCertGo value env s) := by
  unfold Machine.execLcCertGo
  refine .next ?_
  grind [Inv.applyEnv, Inv.hostWrite, Inv.certGo]

theorem Inv.execTapReset (h : Inv s) : KeepsInv (Machine.execTapReset s) := by
  unfold Machine.execTapReset
  refine .next ?_
  grind [Inv.tapLoad]

theorem Inv.execExtest {drive} (h : Inv s) : KeepsInv (Machine.execExtest drive s) := by
  unfold Machine.execExtest
  refine .next ?_
  grind [Inv.cardRemoved, Inv.onLc, Inv.tapLoad, Inv.tapDenied]

theorem Inv.execSamplePreload {pins preload} (h : Inv s) : KeepsInv (Machine.execSamplePreload pins preload s) := by
  unfold Machine.execSamplePreload
  refine .next ?_
  grind [Inv.emit, Inv.onLc, Inv.tapLoad]

theorem Inv.execIdcode (h : Inv s) : KeepsInv (Machine.execIdcode s) := by
  unfold Machine.execIdcode
  refine .next ?_
  grind [Inv.emit, Inv.tapLoad]

theorem Inv.execClamp (h : Inv s) : KeepsInv (Machine.execClamp s) := by
  unfold Machine.execClamp
  refine .next ?_
  grind [Inv.cardRemoved, Inv.onLc, Inv.tapLoad, Inv.tapDenied]

theorem Inv.execLcStatus (h : Inv s) : KeepsInv (Machine.execLcStatus s) := by
  unfold Machine.execLcStatus
  refine .next ?_
  grind [Inv.emit, Inv.tapLoad]

theorem Inv.execLcAuth {cert} (h : Inv s) : KeepsInv (Machine.execLcAuth cert s) := by
  unfold Machine.execLcAuth
  refine .next ?_
  grind [Inv.tapDenied, Inv.onLc, Inv.tapLoad]

theorem Inv.execDbgCore {core op} (h : Inv s) : KeepsInv (Machine.execDbgCore core op s) := by
  unfold Machine.execDbgCore
  refine .next ?_
  grind [Inv.tapDenied, Inv.tapLoad, Inv.coreResult, Inv.debugCore]

theorem Inv.execDbgScan (h : Inv s) : KeepsInv (Machine.execDbgScan s) := by
  unfold Machine.execDbgScan
  refine .next ?_
  grind [Inv.tapDenied, Inv.scan, Inv.tapLoad]

theorem Inv.execBypass (h : Inv s) : KeepsInv (Machine.execBypass s) := by
  unfold Machine.execBypass
  refine .next ?_
  grind [Inv.emit, Inv.tapLoad]

/-! ### Machine/Supervisory.lean -/

theorem Inv.execHelloC {x0} (h : Inv s) : KeepsInv (Machine.execHelloC x0 s) := by
  unfold Machine.execHelloC
  refine .next ?_
  grind [Inv.discardRecord, Inv.refuseHello, Inv.acceptHello]

theorem Inv.execFinishC {src sid tagOk sigOk} (h : Inv s) : KeepsInv (Machine.execFinishC src sid tagOk sigOk s) := by
  unfold Machine.execFinishC
  refine .next ?_
  grind [Inv.discardRecord, Inv.openSession, Inv.sendRecord, Inv.onSp]

theorem Inv.execHalfOpenTimeout (h : Inv s) : KeepsInv (Machine.execHalfOpenTimeout s) := by
  unfold Machine.execHalfOpenTimeout
  refine .next ?_
  grind [Inv.onSp]

theorem Inv.execYilileClose {src sid seq tagOk} (h : Inv s) :
    KeepsInv (Machine.execYilileClose src sid seq tagOk s) := by
  unfold Machine.execYilileClose
  refine .next ?_
  grind [Inv.discardRecord, Inv.dropSession]

theorem Inv.execSessionIdleTimeout (h : Inv s) : KeepsInv (Machine.execSessionIdleTimeout s) := by
  unfold Machine.execSessionIdleTimeout
  refine .next ?_
  grind [Inv.dropSession, Inv.sendRecord]

theorem Inv.execSpLinkDownTimeout (h : Inv s) : KeepsInv (Machine.execSpLinkDownTimeout s) := by
  unfold Machine.execSpLinkDownTimeout
  refine .next ?_
  grind [Inv.dropSession]

theorem Inv.execYilileRecordDiscard (h : Inv s) : KeepsInv (Machine.execYilileRecordDiscard s) := by
  unfold Machine.execYilileRecordDiscard
  refine .next ?_
  grind [Inv.discardRecord]

theorem Inv.execArpRequest {senderIp senderMac targetIp} (h : Inv s) :
    KeepsInv (Machine.execArpRequest senderIp senderMac targetIp s) := by
  unfold Machine.execArpRequest
  refine .next ?_
  grind [Inv.onSp, Inv.emit]

theorem Inv.execArpCacheExpiry {ip} (h : Inv s) : KeepsInv (Machine.execArpCacheExpiry ip s) := by
  unfold Machine.execArpCacheExpiry
  refine .next ?_
  grind [Inv.onSp]

theorem Inv.execIcmpEcho {srcIp dstIp payload} (h : Inv s) : KeepsInv (Machine.execIcmpEcho srcIp dstIp payload s) := by
  unfold Machine.execIcmpEcho
  refine .next ?_
  grind [Inv.emit, Inv.resolve, Inv.onSp]

theorem Inv.execPhyPoll {reg1 speed} (h : Inv s) : KeepsInv (Machine.execPhyPoll reg1 speed s) := by
  unfold Machine.execPhyPoll
  refine .next ?_
  grind [Inv.setLink, Inv.latch]

theorem Inv.execMdioRead {phyad regad} (h : Inv s) : KeepsInv (Machine.execMdioRead phyad regad s) := Inv.next h.mdioRow

theorem Inv.execMdioWrite {phyad regad data} (h : Inv s) :
    KeepsInv (Machine.execMdioWrite phyad regad data s) := Inv.next h.mdioRow

theorem Inv.execMdioOperationDone {answer} (h : Inv s) : KeepsInv (Machine.execMdioOperationDone answer s) := by
  unfold Machine.execMdioOperationDone
  refine .next ?_
  grind [Inv.onSp, Inv.latch]

theorem Inv.execSpRxError (h : Inv s) : KeepsInv (Machine.execSpRxError s) := by
  unfold Machine.execSpRxError
  refine .next ?_
  grind [Inv.latch]

/-! ### Machine/Tamper.lean -/

theorem Inv.execEraseAlarm {m} (h : Inv s) : KeepsInv (Machine.execEraseAlarm m s) := by
  unfold Machine.execEraseAlarm
  refine .next ?_
  grind [Inv.alarmIfArmed]

theorem Inv.execHoldAlarm {m} (h : Inv s) : KeepsInv (Machine.execHoldAlarm m s) := by
  unfold Machine.execHoldAlarm
  refine .next ?_
  grind [Inv.alarmIfArmed]

theorem Inv.execPostEraseAlarm {m} (h : Inv s) : KeepsInv (Machine.execPostEraseAlarm m s) := by
  unfold Machine.execPostEraseAlarm
  refine .next ?_
  grind [Inv.alarmIfArmed]

theorem Inv.execMonitorWarning {m} (h : Inv s) : KeepsInv (Machine.execMonitorWarning m s) := by
  unfold Machine.execMonitorWarning
  refine .next ?_
  grind [Inv.warningRecord, Inv.latch, Inv.leftRange, Inv.expireWindow]

theorem Inv.execCoalescingWindowClose (h : Inv s) : KeepsInv (Machine.execCoalescingWindowClose s) := by
  unfold Machine.execCoalescingWindowClose
  refine .next ?_
  grind [Inv.expireWindow]

theorem Inv.execHoldSourceInRange {source} (h : Inv s) : KeepsInv (Machine.execHoldSourceInRange source s) := by
  unfold Machine.execHoldSourceInRange
  refine .next ?_
  grind [Inv.onTg]

theorem Inv.execVaultModeAlarm {monitors} (h : Inv s) : KeepsInv (Machine.execVaultModeAlarm monitors s) := by
  unfold Machine.execVaultModeAlarm
  refine .next ?_
  grind [Inv.batteryAlarm]

theorem Inv.execShieldCompare {differing} (h : Inv s) : KeepsInv (Machine.execShieldCompare differing s) := by
  unfold Machine.execShieldCompare
  refine .next ?_
  grind [Inv.onTg, Inv.batteryAlarm, Inv.alarmIfArmed, ← Inv.foldl]

theorem Inv.execGangwayRekeyed {g} (h : Inv s) : KeepsInv (Machine.execGangwayRekeyed g s) := by
  unfold Machine.execGangwayRekeyed
  refine .next ?_
  grind [Inv.onTg]

theorem Inv.execGangwayAuthenticationFailure {g} (h : Inv s) :
    KeepsInv (Machine.execGangwayAuthenticationFailure g s) := by
  unfold Machine.execGangwayAuthenticationFailure
  refine .next ?_
  grind [Inv.raiseCause, Inv.onTg, Inv.alarmIfArmed]

theorem Inv.execEvidenceWriteDone (h : Inv s) : KeepsInv (Machine.execEvidenceWriteDone s) := by
  unfold Machine.execEvidenceWriteDone
  refine .next ?_
  grind [Inv.onTg]

theorem Inv.execReprovisionComplete (h : Inv s) : KeepsInv (Machine.execReprovisionComplete s) := by
  unfold Machine.execReprovisionComplete
  refine .next ?_
  grind [Inv.recordPostErase, Inv.noiseBlock, Inv.generate, Inv.onTg, Inv.onKrf, Inv.clearCause, Inv.logEvent,
    Inv.raiseCause]

/-! ### Machine/Resets.lean -/

theorem Inv.execVbatRise (h : Inv s) : KeepsInv (Machine.execVbatRise s) := by
  unfold Machine.execVbatRise
  refine .next ?_
  grind [Inv.onPwr, Inv.rekeyShield]

theorem Inv.execVaultLoss (h : Inv s) : KeepsInv (Machine.execVaultLoss s) := by
  unfold Machine.execVaultLoss
  refine .next ?_
  grind [Inv.loseVault, Inv.onPwr]

theorem Inv.execMainRailsGood {noise} (h : Inv s) : KeepsInv (Machine.execMainRailsGood noise s) := by
  unfold Machine.execMainRailsGood
  refine .next ?_
  grind [Inv.startWake, Inv.rekeyShield]

theorem Inv.execMainRailLoss (h : Inv s) : KeepsInv (Machine.execMainRailLoss s) := by
  unfold Machine.execMainRailLoss
  refine .next ?_
  grind [Inv.takeFree, Inv.stowLedger, Inv.rekeyShield, Inv.losePower, Inv.loseVault]

theorem Inv.execStow (h : Inv s) : KeepsInv (Machine.execStow s) := by
  unfold Machine.execStow
  refine .next ?_
  grind [Inv.onPwr, Inv.stow]

theorem Inv.execPwrfailRelease (h : Inv s) : KeepsInv (Machine.execPwrfailRelease s) := by
  unfold Machine.execPwrfailRelease
  refine .next ?_
  grind [Inv.onPwr, Inv.losePower, Inv.onHg, Inv.startWake, Inv.wakeOn]

theorem Inv.execFunctionLevelReset {fn} (h : Inv s) : KeepsInv (Machine.execFunctionLevelReset fn s) := Inv.next h.flrIf

theorem Inv.execFlrKeyReunwrap {fn env} (h : Inv s) : KeepsInv (Machine.execFlrKeyReunwrap fn env s) := by
  unfold Machine.execFlrKeyReunwrap
  refine .next ?_
  grind [Inv.applyEnv, Inv.unwrapAll]

theorem Inv.execVfEnableClear (h : Inv s) : KeepsInv (Machine.execVfEnableClear s) := by
  unfold Machine.execVfEnableClear
  refine .next ?_
  grind [Inv.vfOff]

theorem Inv.execD3hotToD0 {fn} (h : Inv s) : KeepsInv (Machine.execD3hotToD0 fn s) := by
  unfold Machine.execD3hotToD0
  refine .next ?_
  grind [Inv.toD0]

/-! ### Machine/Modes.lean -/

theorem Inv.execHeldRequestExecute (h : Inv s) : KeepsInv (Machine.execHeldRequestExecute s) := by
  unfold Machine.execHeldRequestExecute
  refine .next ?_
  grind [Inv.onPwr, Inv.requestStandby, Inv.afterEvidence, Inv.evidence]

theorem Inv.execServiceEntryComplete {env} (h : Inv s) : KeepsInv (Machine.execServiceEntryComplete env s) := by
  unfold Machine.execServiceEntryComplete
  refine .next ?_
  grind [Inv.applyEnv, Inv.onLc, Inv.unwrapAll, Inv.onPwr, Inv.enterHeld, Inv.enterDrain]

theorem Inv.execPerstAssert {noise} (h : Inv s) : KeepsInv (Machine.execPerstAssert noise s) := by
  unfold Machine.execPerstAssert
  refine .next ?_
  grind [Inv.onPwr, Inv.onHg, Inv.onTg, Inv.warmFrom]

theorem Inv.execPerstRelease (h : Inv s) : KeepsInv (Machine.execPerstRelease s) := by
  unfold Machine.execPerstRelease
  refine .next ?_
  grind [Inv.onHg, Inv.onPwr]

theorem Inv.execDrainRoleHandover (h : Inv s) : KeepsInv (Machine.execDrainRoleHandover s) := by
  unfold Machine.execDrainRoleHandover
  refine .next ?_
  grind [Inv.handOverRoles, Inv.drainStep5]

theorem Inv.execDrainLimitExpiry (h : Inv s) : KeepsInv (Machine.execDrainLimitExpiry s) := by
  unfold Machine.execDrainLimitExpiry
  refine .next ?_
  grind [Inv.drainStep5, Inv.releaseRoles]

theorem Inv.execDrainComplete {noise} (h : Inv s) : KeepsInv (Machine.execDrainComplete noise s) := by
  unfold Machine.execDrainComplete
  refine .next ?_
  grind [Inv.drainKeys, Inv.drainStow, Inv.retireIfScrapped, Inv.onPwr, Inv.warmReset]

theorem Inv.execSelfTestStart {chans kat} (h : Inv s) : KeepsInv (Machine.execSelfTestStart chans kat s) := by
  unfold Machine.execSelfTestStart
  refine .next ?_
  grind [Inv.onLg, Inv.raiseCause, Inv.onPwr, Inv.entropyFailure]

theorem Inv.execLoadStep {margins} (h : Inv s) : KeepsInv (Machine.execLoadStep margins s) := by
  unfold Machine.execLoadStep
  refine .next ?_
  grind [Inv.onPwr, Inv.raiseCause, Inv.clearCause]

theorem Inv.execLedgerSelfTest {verified} (h : Inv s) : KeepsInv (Machine.execLedgerSelfTest verified s) := by
  unfold Machine.execLedgerSelfTest
  refine .next ?_
  grind [Inv.guardKeys, Inv.deriveJournal, Inv.onPwr, Inv.ledgerCold, Inv.ledgerWarm]

theorem Inv.execRecoveryWaitExpiry (h : Inv s) : KeepsInv (Machine.execRecoveryWaitExpiry s) := by
  unfold Machine.execRecoveryWaitExpiry
  refine .next ?_
  grind [Inv.raiseCause, Inv.onLg]

theorem Inv.execSelfTestComplete (h : Inv s) : KeepsInv (Machine.execSelfTestComplete s) := by
  unfold Machine.execSelfTestComplete
  refine .next ?_
  grind [Inv.onPwr, Inv.raiseCause]

theorem Inv.execRefclkDetectTimeout (h : Inv s) : KeepsInv (Machine.execRefclkDetectTimeout s) := by
  unfold Machine.execRefclkDetectTimeout
  refine .next ?_
  grind [Inv.raiseCause]

theorem Inv.execReferenceDetect {r} (h : Inv s) : KeepsInv (Machine.execReferenceDetect r s) := by
  unfold Machine.execReferenceDetect
  refine .next ?_
  grind [Inv.onTb]

theorem Inv.execReferenceStop {r} (h : Inv s) : KeepsInv (Machine.execReferenceStop r s) := by
  unfold Machine.execReferenceStop
  refine .next ?_
  grind [Inv.onTb, Inv.batteryAlarm, Inv.alarmIfArmed, Inv.timeIrq, Inv.latch, Inv.onTg]

theorem Inv.execIslandLock {island} (h : Inv s) : KeepsInv (Machine.execIslandLock island s) := by
  unfold Machine.execIslandLock
  refine .next ?_
  grind [Inv.onTb]

theorem Inv.execMonitorArm {monitor} (h : Inv s) : KeepsInv (Machine.execMonitorArm monitor s) := by
  unfold Machine.execMonitorArm
  refine .next ?_
  grind [Inv.onTg]

/-! ### Machine/DirRows.lean -/

theorem Inv.execRead {v tenant index sub offset length} (h : Inv s) :
    KeepsInv (Machine.execRead v tenant index sub offset length s) := Inv.next h.single

theorem Inv.execWrite {v tenant index sub part offset value env} (h : Inv s) :
    KeepsInv (Machine.execWrite v tenant index sub part offset value env s) := by
  unfold Machine.execWrite
  refine .next ?_
  grind [Inv.single, Inv.applyEnv]

theorem Inv.execDescribe {v tenant index sub} (h : Inv s) :
    KeepsInv (Machine.execDescribe v tenant index sub s) := Inv.next h.ask

theorem Inv.execNext {v tenant index sub} (h : Inv s) :
    KeepsInv (Machine.execNext v tenant index sub s) := Inv.next h.ask

theorem Inv.execStagingTimeout {v} (h : Inv s) : KeepsInv (Machine.execStagingTimeout v s) := Inv.next h.onPd

theorem Inv.execModeRequestStandby {v} (h : Inv s) :
    KeepsInv (Machine.execModeRequestStandby v s) := Inv.next h.writeNum

theorem Inv.execModeRequestService {v} (h : Inv s) :
    KeepsInv (Machine.execModeRequestService v s) := Inv.next h.writeNum

theorem Inv.execModeRequestCeremony {v} (h : Inv s) :
    KeepsInv (Machine.execModeRequestCeremony v s) := Inv.next h.writeNum

theorem Inv.execRestartRequest {v value noise} (h : Inv s) :
    KeepsInv (Machine.execRestartRequest v value noise s) := Inv.next h.writeObj

theorem Inv.execTimeCorrection {v c} (h : Inv s) : KeepsInv (Machine.execTimeCorrection v c s) := Inv.next h.writeNum

theorem Inv.execDeviceTimeSet {v t} (h : Inv s) : KeepsInv (Machine.execDeviceTimeSet v t s) := Inv.next h.writeNum

theorem Inv.execGateCloseTimeWrite {v gate time} (h : Inv s) :
    KeepsInv (Machine.execGateCloseTimeWrite v gate time s) := Inv.next h.writeCell

theorem Inv.execGateOwnerWrite {v gate owner} (h : Inv s) :
    KeepsInv (Machine.execGateOwnerWrite v gate owner s) := Inv.next h.writeCell

theorem Inv.execWindowOwnerWrite {v w owner} (h : Inv s) :
    KeepsInv (Machine.execWindowOwnerWrite v w owner s) := Inv.next h.writeCell

theorem Inv.execSlotApply {v tenant} (h : Inv s) : KeepsInv (Machine.execSlotApply v tenant s) := Inv.next h.writeNum

theorem Inv.execSlotReopen {tenant} (h : Inv s) : KeepsInv (Machine.execSlotReopen tenant s) := Inv.next h.writeNum

theorem Inv.execTapConsumedWrite {v value} (h : Inv s) :
    KeepsInv (Machine.execTapConsumedWrite v value s) := Inv.next h.writeNum

theorem Inv.execRecoveryStart {v env} (h : Inv s) : KeepsInv (Machine.execRecoveryStart v env s) := by
  unfold Machine.execRecoveryStart
  refine .next ?_
  grind [Inv.writeNum, Inv.applyEnv]

theorem Inv.execRebuildStart {env} (h : Inv s) : KeepsInv (Machine.execRebuildStart env s) := by
  unfold Machine.execRebuildStart
  refine .next ?_
  grind [Inv.writeNum, Inv.applyEnv]

theorem Inv.execLiEngineOwnerWrite {v e owner} (h : Inv s) :
    KeepsInv (Machine.execLiEngineOwnerWrite v e owner s) := Inv.next h.writeNum

theorem Inv.execLiUcodeLoad {v value env} (h : Inv s) : KeepsInv (Machine.execLiUcodeLoad v value env s) := by
  unfold Machine.execLiUcodeLoad
  refine .next ?_
  grind [Inv.writeNum, Inv.applyEnv]

theorem Inv.execLiUcodeMinVersionWrite {v value} (h : Inv s) :
    KeepsInv (Machine.execLiUcodeMinVersionWrite v value s) := Inv.next h.writeFuse

theorem Inv.execEnLatchClear {v value failed} (h : Inv s) :
    KeepsInv (Machine.execEnLatchClear v value failed s) := Inv.next h.writeObj

theorem Inv.execAppletLoad {v value env} (h : Inv s) : KeepsInv (Machine.execAppletLoad v value env s) := by
  unfold Machine.execAppletLoad
  refine .next ?_
  grind [Inv.writeNum, Inv.applyEnv]

theorem Inv.execAppletUnload {v slot} (h : Inv s) : KeepsInv (Machine.execAppletUnload v slot s) := Inv.next h.writeNum

theorem Inv.execSpEnableWrite {v value} (h : Inv s) :
    KeepsInv (Machine.execSpEnableWrite v value s) := Inv.next h.writeNum

theorem Inv.execSpRootDigestWrite {v digest} (h : Inv s) :
    KeepsInv (Machine.execSpRootDigestWrite v digest s) := Inv.next h.writeObj

theorem Inv.execKeyGenerate {v tenant value} (h : Inv s) :
    KeepsInv (Machine.execKeyGenerate v tenant value s) := Inv.next h.writeNum

theorem Inv.execKeyImport {v tenant value} (h : Inv s) :
    KeepsInv (Machine.execKeyImport v tenant value s) := Inv.next h.writeNum

theorem Inv.execKeyDelete {v tenant value} (h : Inv s) :
    KeepsInv (Machine.execKeyDelete v tenant value s) := Inv.next h.writeNum

theorem Inv.execKeyPublicRead {v tenant} (h : Inv s) : KeepsInv (Machine.execKeyPublicRead v tenant s) := Inv.next h.ask

theorem Inv.execKeyAttestationRead {v tenant} (h : Inv s) :
    KeepsInv (Machine.execKeyAttestationRead v tenant s) := Inv.next h.ask

theorem Inv.execJournalKeyAttestationRead {v} (h : Inv s) :
    KeepsInv (Machine.execJournalKeyAttestationRead v s) := Inv.next h.ask

theorem Inv.execReelOpen {v value env} (h : Inv s) : KeepsInv (Machine.execReelOpen v value env s) := by
  unfold Machine.execReelOpen
  refine .next ?_
  grind [Inv.writeNum, Inv.applyEnv]

theorem Inv.execPickupWaive {v value} (h : Inv s) : KeepsInv (Machine.execPickupWaive v value s) := Inv.next h.writeNum

theorem Inv.execReelStop {v value} (h : Inv s) : KeepsInv (Machine.execReelStop v value s) := Inv.next h.writeNum

theorem Inv.execMemberUnitIdWrite {v m unitId} (h : Inv s) :
    KeepsInv (Machine.execMemberUnitIdWrite v m unitId s) := Inv.next h.writeCell

theorem Inv.execFleetEnableWrite {v value} (h : Inv s) :
    KeepsInv (Machine.execFleetEnableWrite v value s) := Inv.next h.writeNum

theorem Inv.execRoleApply {v value} (h : Inv s) : KeepsInv (Machine.execRoleApply v value s) := Inv.next h.writeNum

theorem Inv.execDirReq {x0 request} (h : Inv s) : KeepsInv (Machine.execDirReq x0 request s) := by
  unfold Machine.execDirReq
  refine .next ?_
  grind [Inv.receive, Inv.asRequest, Inv.submit]

theorem Inv.execDirResp {l response} (h : Inv s) : KeepsInv (Machine.execDirResp l response s) :=
  .next (h.receive fun s h => by
    split
    · next e => exact (h.takeRequest e).emit
    · exact h)

theorem Inv.execCardRead {v value} (h : Inv s) : KeepsInv (Machine.execCardRead v value s) := Inv.next h.writeNum

theorem Inv.execCardWrite {v value} (h : Inv s) : KeepsInv (Machine.execCardWrite v value s) := Inv.next h.writeNum

theorem Inv.execCardFormat {v value} (h : Inv s) : KeepsInv (Machine.execCardFormat v value s) := Inv.next h.writeNum

theorem Inv.execTamperEraseFusedWrite {v value} (h : Inv s) :
    KeepsInv (Machine.execTamperEraseFusedWrite v value s) := Inv.next h.writeFuse

theorem Inv.execTamperGroupDisableWrite {v value} (h : Inv s) :
    KeepsInv (Machine.execTamperGroupDisableWrite v value s) := Inv.next h.writeFuse

theorem Inv.execEvidenceArchiveMarkWrite {v value} (h : Inv s) :
    KeepsInv (Machine.execEvidenceArchiveMarkWrite v value s) := Inv.next h.writeNum

theorem Inv.execEvidenceHeadSignatureRead {v} (h : Inv s) :
    KeepsInv (Machine.execEvidenceHeadSignatureRead v s) := Inv.next h.ask

theorem Inv.execReprovision {v value} (h : Inv s) : KeepsInv (Machine.execReprovision v value s) := Inv.next h.writeNum

theorem Inv.execLcRequest {v value} (h : Inv s) : KeepsInv (Machine.execLcRequest v value s) := Inv.next h.writeNum

theorem Inv.execDebugChallengeIssue {v value} (h : Inv s) :
    KeepsInv (Machine.execDebugChallengeIssue v value s) := Inv.next h.writeNum

theorem Inv.execDebugResponseSubmit {v value env} (h : Inv s) :
    KeepsInv (Machine.execDebugResponseSubmit v value env s) := by
  unfold Machine.execDebugResponseSubmit
  refine .next ?_
  grind [Inv.writeNum, Inv.applyEnv]

theorem Inv.execMbxGo {loc env} (h : Inv s) : KeepsInv (Machine.execMbxGo loc env s) := by
  unfold Machine.execMbxGo
  refine .next ?_
  grind [Inv.applyEnv, Inv.hostWrite, Inv.mbxGo]

theorem Inv.execYilileData {src sid seq tagOk plain} (h : Inv s) :
    KeepsInv (Machine.execYilileData src sid seq tagOk plain s) := by
  unfold Machine.execYilileData
  refine .next ?_
  grind [Inv.discardRecord, Inv.submit, Inv.onSp, Inv.sendRecord]

theorem Inv.execDbgDir {request} (h : Inv s) : KeepsInv (Machine.execDbgDir request s) := by
  unfold Machine.execDbgDir
  refine .next ?_
  grind [Inv.tapDenied, Inv.submit, Inv.tapLoad]

/-! ### Machine/Registers.lean -/

theorem Inv.execMsixUnmask {fn vector} (h : Inv s) : KeepsInv (Machine.execMsixUnmask fn vector s) := by
  unfold Machine.execMsixUnmask
  refine .next ?_
  grind [Inv.unmask]

theorem Inv.execRegisterWrite {v loc size value env} (h : Inv s) :
    KeepsInv (Machine.execRegisterWrite v loc size value env s) := by
  unfold Machine.execRegisterWrite
  refine .next ?_
  grind [Inv.applyEnv, Inv.aerLog, Inv.writeReg]

theorem Inv.execRcRead {v loc size} (h : Inv s) : KeepsInv (Machine.execRcRead v loc size s) := Inv.next h.readReg

theorem Inv.execBlockLockWrite {v value} (h : Inv s) :
    KeepsInv (Machine.execBlockLockWrite v value s) := Inv.next h.writeReg

theorem Inv.execDbgReg {shift} (h : Inv s) : KeepsInv (Machine.execDbgReg shift s) := by
  unfold Machine.execDbgReg
  refine .next ?_
  grind [Inv.tapDenied, Inv.dbgReg, Inv.tapLoad]

theorem Inv.execParityScan {found} (h : Inv s) : KeepsInv (Machine.execParityScan found s) := by
  unfold Machine.execParityScan
  refine .next ?_
  grind [Inv.parityMismatch]

/-! ### Machine/Services.lean -/

theorem Inv.execRandom {core} (h : Inv s) : KeepsInv (Machine.execRandom core s) := by
  unfold Machine.execRandom
  refine .next ?_
  grind [Inv.service, Inv.randomCall]

theorem Inv.execHash {core} (h : Inv s) : KeepsInv (Machine.execHash core s) := by
  unfold Machine.execHash
  refine .next ?_
  grind [Inv.service, Inv.hashCall]

theorem Inv.execLie {core} (h : Inv s) : KeepsInv (Machine.execLie core s) := by
  unfold Machine.execLie
  refine .next ?_
  grind [Inv.service, Inv.lieCall]

theorem Inv.execLatticeKeygen {core} (h : Inv s) : KeepsInv (Machine.execLatticeKeygen core s) := Inv.next h.latticeRow

theorem Inv.execLatticeSign {core} (h : Inv s) : KeepsInv (Machine.execLatticeSign core s) := Inv.next h.latticeRow

theorem Inv.execLatticeVerify {core} (h : Inv s) : KeepsInv (Machine.execLatticeVerify core s) := Inv.next h.latticeRow

theorem Inv.execLatticeEncaps {core} (h : Inv s) : KeepsInv (Machine.execLatticeEncaps core s) := Inv.next h.latticeRow

theorem Inv.execLatticeDecaps {core} (h : Inv s) : KeepsInv (Machine.execLatticeDecaps core s) := Inv.next h.latticeRow

theorem Inv.execDrawClaim {core} (h : Inv s) : KeepsInv (Machine.execDrawClaim core s) := by
  unfold Machine.execDrawClaim
  refine .next ?_
  grind [Inv.service, Inv.drawClaimCall]

theorem Inv.execDrawCommit {core} (h : Inv s) : KeepsInv (Machine.execDrawCommit core s) := by
  unfold Machine.execDrawCommit
  refine .next ?_
  grind [Inv.service, Inv.drawCommitCall]

theorem Inv.execDrawCommitAck (h : Inv s) : KeepsInv (Machine.execDrawCommitAck s) := by
  unfold Machine.execDrawCommitAck
  refine .next ?_
  grind [Inv.commitAcked]

theorem Inv.execDrawRelease {core} (h : Inv s) : KeepsInv (Machine.execDrawRelease core s) := by
  unfold Machine.execDrawRelease
  refine .next ?_
  grind [Inv.service, Inv.drawReleaseCall]

theorem Inv.execSealRecord {core} (h : Inv s) : KeepsInv (Machine.execSealRecord core s) := by
  unfold Machine.execSealRecord
  refine .next ?_
  grind [Inv.service, Inv.sealRecordCall]

theorem Inv.execStatsPublish {core} (h : Inv s) : KeepsInv (Machine.execStatsPublish core s) := by
  unfold Machine.execStatsPublish
  refine .next ?_
  grind [Inv.service, Inv.statsPublishCall]

theorem Inv.execSvc {core n} (h : Inv s) : KeepsInv (Machine.execSvc core n s) := Inv.next h.svc

/-! ### Machine/SezelAlu.lean -/

theorem Inv.execAdd {core f} (h : Inv s) : KeepsInv (Machine.execAdd core f s) := .next (h.sezelKeeps .alu)

theorem Inv.execSub {core f} (h : Inv s) : KeepsInv (Machine.execSub core f s) := .next (h.sezelKeeps .alu)

theorem Inv.execAnd {core f} (h : Inv s) : KeepsInv (Machine.execAnd core f s) := .next (h.sezelKeeps .alu)

theorem Inv.execOr {core f} (h : Inv s) : KeepsInv (Machine.execOr core f s) := .next (h.sezelKeeps .alu)

theorem Inv.execXor {core f} (h : Inv s) : KeepsInv (Machine.execXor core f s) := .next (h.sezelKeeps .alu)

theorem Inv.execShl {core f} (h : Inv s) : KeepsInv (Machine.execShl core f s) := .next (h.sezelKeeps .alu)

theorem Inv.execShr {core f} (h : Inv s) : KeepsInv (Machine.execShr core f s) := .next (h.sezelKeeps .alu)

theorem Inv.execSra {core f} (h : Inv s) : KeepsInv (Machine.execSra core f s) := .next (h.sezelKeeps .alu)

theorem Inv.execMul {core f} (h : Inv s) : KeepsInv (Machine.execMul core f s) := .next (h.sezelKeeps .alu)

theorem Inv.execFadd {core f} (h : Inv s) : KeepsInv (Machine.execFadd core f s) := .next (h.sezelKeeps .alu)

theorem Inv.execFsub {core f} (h : Inv s) : KeepsInv (Machine.execFsub core f s) := .next (h.sezelKeeps .alu)

theorem Inv.execFmul {core f} (h : Inv s) : KeepsInv (Machine.execFmul core f s) := .next (h.sezelKeeps .alu)

theorem Inv.execFmul16 {core f} (h : Inv s) : KeepsInv (Machine.execFmul16 core f s) := .next (h.sezelKeeps .alu)

theorem Inv.execMin {core f} (h : Inv s) : KeepsInv (Machine.execMin core f s) := .next (h.sezelKeeps .alu)

theorem Inv.execMax {core f} (h : Inv s) : KeepsInv (Machine.execMax core f s) := .next (h.sezelKeeps .alu)

theorem Inv.execMov {core rd rs} (h : Inv s) : KeepsInv (Machine.execMov core rd rs s) := .next (h.sezelKeeps .unary)

theorem Inv.execNeg {core rd rs} (h : Inv s) : KeepsInv (Machine.execNeg core rd rs s) := .next (h.sezelKeeps .unary)

theorem Inv.execNot {core rd rs} (h : Inv s) : KeepsInv (Machine.execNot core rd rs s) := .next (h.sezelKeeps .unary)

theorem Inv.execAbs {core rd rs} (h : Inv s) : KeepsInv (Machine.execAbs core rd rs s) := .next (h.sezelKeeps .unary)

theorem Inv.execSxth {core rd rs} (h : Inv s) : KeepsInv (Machine.execSxth core rd rs s) := .next (h.sezelKeeps .unary)

theorem Inv.execZxth {core rd rs} (h : Inv s) : KeepsInv (Machine.execZxth core rd rs s) := .next (h.sezelKeeps .unary)

theorem Inv.execCmp {core rd rs} (h : Inv s) : KeepsInv (Machine.execCmp core rd rs s) := .next (h.sezelKeeps .flags)

theorem Inv.execMovp {core pd rs} (h : Inv s) : KeepsInv (Machine.execMovp core pd rs s) := .next (h.sezelKeeps .pure)

theorem Inv.execMovw {core rd ps} (h : Inv s) : KeepsInv (Machine.execMovw core rd ps s) := .next (h.sezelKeeps .pure)

theorem Inv.execMovi {core rd imm} (h : Inv s) : KeepsInv (Machine.execMovi core rd imm s) := .next (h.sezelKeeps .pure)

theorem Inv.execAddi {core rd imm} (h : Inv s) : KeepsInv (Machine.execAddi core rd imm s) := .next (h.sezelKeeps .imm)

theorem Inv.execCmpi {core rd imm} (h : Inv s) :
    KeepsInv (Machine.execCmpi core rd imm s) := .next (h.sezelKeeps .flags)

theorem Inv.execShli {core rd imm} (h : Inv s) : KeepsInv (Machine.execShli core rd imm s) := .next (h.sezelKeeps .imm)

theorem Inv.execShri {core rd imm} (h : Inv s) : KeepsInv (Machine.execShri core rd imm s) := .next (h.sezelKeeps .imm)

theorem Inv.execSrai {core rd imm} (h : Inv s) : KeepsInv (Machine.execSrai core rd imm s) := .next (h.sezelKeeps .imm)

theorem Inv.execAndi {core rd imm} (h : Inv s) : KeepsInv (Machine.execAndi core rd imm s) := .next (h.sezelKeeps .imm)

theorem Inv.execAddp {core pd imm} (h : Inv s) : KeepsInv (Machine.execAddp core pd imm s) := .next (h.sezelKeeps .pure)

theorem Inv.execAddi32 {core rd ra imm} (h : Inv s) :
    KeepsInv (Machine.execAddi32 core rd ra imm s) := .next (h.sezelKeeps .imm)

theorem Inv.execAndi32 {core rd ra imm} (h : Inv s) :
    KeepsInv (Machine.execAndi32 core rd ra imm s) := .next (h.sezelKeeps .imm)

theorem Inv.execOri {core rd ra imm} (h : Inv s) :
    KeepsInv (Machine.execOri core rd ra imm s) := .next (h.sezelKeeps .imm)

theorem Inv.execXori {core rd ra imm} (h : Inv s) :
    KeepsInv (Machine.execXori core rd ra imm s) := .next (h.sezelKeeps .imm)

theorem Inv.execLui {core rd imm} (h : Inv s) : KeepsInv (Machine.execLui core rd imm s) := .next (h.sezelKeeps .pure)

theorem Inv.execCmpi32 {core ra imm} (h : Inv s) :
    KeepsInv (Machine.execCmpi32 core ra imm s) := .next (h.sezelKeeps .flags)

theorem Inv.execMuli {core rd ra imm} (h : Inv s) :
    KeepsInv (Machine.execMuli core rd ra imm s) := .next (h.sezelKeeps .imm)

theorem Inv.execAdr {core rd offset} (h : Inv s) :
    KeepsInv (Machine.execAdr core rd offset s) := .next (h.sezelKeeps .pure)

/-! ### Machine/SezelAcc.lean -/

theorem Inv.execMacF {core f} (h : Inv s) : KeepsInv (Machine.execMacF core f s) := .next (h.sezelKeeps .mac)

theorem Inv.execMsuF {core f} (h : Inv s) : KeepsInv (Machine.execMsuF core f s) := .next (h.sezelKeeps .mac)

theorem Inv.execMpyF {core f} (h : Inv s) : KeepsInv (Machine.execMpyF core f s) := .next (h.sezelKeeps .mac)

theorem Inv.execMacI {core f} (h : Inv s) : KeepsInv (Machine.execMacI core f s) := .next (h.sezelKeeps .mac)

theorem Inv.execMsuI {core f} (h : Inv s) :
    KeepsInv (Machine.execMsuI core f s) := .next (h.sezelKeeps (.unlessReserved .mac))

theorem Inv.execMpyI {core f} (h : Inv s) :
    KeepsInv (Machine.execMpyI core f s) := .next (h.sezelKeeps (.unlessReserved .mac))

theorem Inv.execMacH {core f} (h : Inv s) :
    KeepsInv (Machine.execMacH core f s) := .next (h.sezelKeeps (.unlessReserved .mac))

theorem Inv.execMsuH {core f} (h : Inv s) :
    KeepsInv (Machine.execMsuH core f s) := .next (h.sezelKeeps (.unlessReserved .mac))

theorem Inv.execMpyH {core f} (h : Inv s) :
    KeepsInv (Machine.execMpyH core f s) := .next (h.sezelKeeps (.unlessReserved .mac))

theorem Inv.execMacU {core f} (h : Inv s) :
    KeepsInv (Machine.execMacU core f s) := .next (h.sezelKeeps (.unlessReserved .mac))

theorem Inv.execClra {core acc} (h : Inv s) : KeepsInv (Machine.execClra core acc s) := .next (h.sezelKeeps .pure)

theorem Inv.execMova {core accd accs} (h : Inv s) :
    KeepsInv (Machine.execMova core accd accs s) := .next (h.sezelKeeps .pure)

theorem Inv.execNega {core accd accs} (h : Inv s) :
    KeepsInv (Machine.execNega core accd accs s) := .next (h.sezelKeeps .pure)

theorem Inv.execExtF {core f} (h : Inv s) :
    KeepsInv (Machine.execExtF core f s) := .next (h.sezelKeeps (.unlessReserved .ext))

theorem Inv.execExtH {core f} (h : Inv s) :
    KeepsInv (Machine.execExtH core f s) := .next (h.sezelKeeps (.unlessReserved .ext))

theorem Inv.execExtI {core f} (h : Inv s) : KeepsInv (Machine.execExtI core f s) := .next (h.sezelKeeps .ext)

theorem Inv.execExtRaw {core rd acc sh} (h : Inv s) :
    KeepsInv (Machine.execExtRaw core rd acc sh s) := .next (h.sezelKeeps (.unlessReserved .pure))

theorem Inv.execAdda {core f} (h : Inv s) :
    KeepsInv (Machine.execAdda core f s) := .next (h.sezelKeeps (.unlessReserved .acc))

theorem Inv.execSuba {core f} (h : Inv s) :
    KeepsInv (Machine.execSuba core f s) := .next (h.sezelKeeps (.unlessReserved .acc))

theorem Inv.execDiva {core f} (h : Inv s) :
    KeepsInv (Machine.execDiva core f s) := .next (h.sezelKeeps (.unlessReserved .accDiv))

theorem Inv.execRema {core f} (h : Inv s) :
    KeepsInv (Machine.execRema core f s) := .next (h.sezelKeeps (.unlessReserved .accDiv))

theorem Inv.execRndm {core f} (h : Inv s) :
    KeepsInv (Machine.execRndm core f s) := .next (h.sezelKeeps (.unlessReserved .accDiv))

theorem Inv.execShla {core f} (h : Inv s) :
    KeepsInv (Machine.execShla core f s) := .next (h.sezelKeeps (.unlessReserved .acc))

theorem Inv.execSraa {core f} (h : Inv s) :
    KeepsInv (Machine.execSraa core f s) := .next (h.sezelKeeps (.unlessReserved .acc))

theorem Inv.execCmpa {core f} (h : Inv s) :
    KeepsInv (Machine.execCmpa core f s) := .next (h.sezelKeeps (.unlessReserved .cmpa))

theorem Inv.execMulm {core f} (h : Inv s) :
    KeepsInv (Machine.execMulm core f s) := .next (h.sezelKeeps (.unlessReserved .aw))

theorem Inv.execAddw {core f} (h : Inv s) : KeepsInv (Machine.execAddw core f s) := .next (h.sezelKeeps .aw)

theorem Inv.execMovwa {core f} (h : Inv s) :
    KeepsInv (Machine.execMovwa core f s) := .next (h.sezelKeeps (.unlessReserved .ins))

theorem Inv.execInsh {core f} (h : Inv s) :
    KeepsInv (Machine.execInsh core f s) := .next (h.sezelKeeps (.unlessReserved .ins))

theorem Inv.execInsl {core f} (h : Inv s) :
    KeepsInv (Machine.execInsl core f s) := .next (h.sezelKeeps (.unlessReserved .ins))

/-! ### Machine/SezelMem.lean -/

theorem Inv.execLdw {core f upset} (h : Inv s) : KeepsInv (Machine.execLdw core f upset s) := .next (h.sezelKeeps .load)

theorem Inv.execStw {core f} (h : Inv s) : KeepsInv (Machine.execStw core f s) := .next (h.sezelKeeps .store)

theorem Inv.execLdh {core f upset} (h : Inv s) : KeepsInv (Machine.execLdh core f upset s) := .next (h.sezelKeeps .load)

theorem Inv.execLdhu {core f upset} (h : Inv s) :
    KeepsInv (Machine.execLdhu core f upset s) := .next (h.sezelKeeps .load)

theorem Inv.execLdb {core f upset} (h : Inv s) : KeepsInv (Machine.execLdb core f upset s) := .next (h.sezelKeeps .load)

theorem Inv.execLdbu {core f upset} (h : Inv s) :
    KeepsInv (Machine.execLdbu core f upset s) := .next (h.sezelKeeps .load)

theorem Inv.execSth {core f} (h : Inv s) : KeepsInv (Machine.execSth core f s) := .next (h.sezelKeeps .store)

theorem Inv.execStb {core f} (h : Inv s) : KeepsInv (Machine.execStb core f s) := .next (h.sezelKeeps .store)

theorem Inv.execLda {core f upset} (h : Inv s) : KeepsInv (Machine.execLda core f upset s) := .next (h.sezelKeeps .lda)

theorem Inv.execSta {core f} (h : Inv s) : KeepsInv (Machine.execSta core f s) := .next (h.sezelKeeps .sta)

theorem Inv.execLrW {core rd pn upset} (h : Inv s) :
    KeepsInv (Machine.execLrW core rd pn upset s) := .next (h.sezelKeeps .lr)

theorem Inv.execScW {core rd pn ws} (h : Inv s) : KeepsInv (Machine.execScW core rd pn ws s) := .next (h.sezelKeeps .sc)

theorem Inv.execCall {core rt mask} (h : Inv s) :
    KeepsInv (Machine.execCall core rt mask s) := .next (h.sezelKeeps .call)

theorem Inv.execRet {core upset} (h : Inv s) : KeepsInv (Machine.execRet core upset s) := .next (h.sezelKeeps .ret)

theorem Inv.roleDecided {x : State × Option Status} (h : Inv x.1) : Inv (State.roleDecided x) := by
  unfold State.roleDecided
  split
  · exact Inv.ite h.completeDeferred h
  · exact h

theorem Inv.claimDecided {x : State × Option Bool} (h : Inv x.1) : Inv (State.claimDecided x) := by
  unfold State.claimDecided
  split
  · exact h
  · extract_lets t enter u
    have hu : Inv u := Inv.ite h.enterCeremony (Inv.ite h.dropClaim h)
    exact Inv.ite hu.completeDeferred hu

theorem Inv.execRoleAnswer {l answer} (h : Inv s) : KeepsInv (Machine.execRoleAnswer l answer s) :=
  .next (h.receive fun _ h => Inv.roleDecided h.roleAnswered)

theorem Inv.execRoleOfferTimeout (h : Inv s) : KeepsInv (Machine.execRoleOfferTimeout s) :=
  .next (Inv.ite (Inv.roleDecided h) (Inv.roleDecided h.roleOfferLate))

theorem Inv.execClaimAnswer {l granted} (h : Inv s) : KeepsInv (Machine.execClaimAnswer l granted s) :=
  .next (h.receive fun _ h => Inv.claimDecided h.claimAnswered)

theorem Inv.execCeremonyClaimTimeout (h : Inv s) : KeepsInv (Machine.execCeremonyClaimTimeout s) :=
  .next (Inv.ite (Inv.claimDecided h) (Inv.claimDecided h.claimLate))

/-- Every command keeps the invariant: one lemma per command of the table. -/
theorem Inv.exec (h : Inv s) : ∀ i, KeepsInv (Machine.exec i s)
  | .vbatRise => h.execVbatRise
  | .vaultLoss => h.execVaultLoss
  | .mainRailsGood _ => h.execMainRailsGood
  | .mainRailLoss => h.execMainRailLoss
  | .refclkDetectTimeout => h.execRefclkDetectTimeout
  | .islandLock _ => h.execIslandLock
  | .monitorArm _ => h.execMonitorArm
  | .selfTestStart _ _ => h.execSelfTestStart
  | .firstSeed => h.execFirstSeed
  | .loadStep _ => h.execLoadStep
  | .ledgerSelfTest _ => h.execLedgerSelfTest
  | .selfTestComplete => h.execSelfTestComplete
  | .modeRequestStandby _ => h.execModeRequestStandby
  | .modeRequestService _ => h.execModeRequestService
  | .serviceEntryComplete _ => h.execServiceEntryComplete
  | .modeRequestCeremony _ => h.execModeRequestCeremony
  | .heldRequestExecute => h.execHeldRequestExecute
  | .restartRequest _ _ _ => h.execRestartRequest
  | .perstAssert _ => h.execPerstAssert
  | .perstRelease => h.execPerstRelease
  | .functionLevelReset _ => h.execFunctionLevelReset
  | .flrKeyReunwrap _ _ => h.execFlrKeyReunwrap
  | .vfEnableClear => h.execVfEnableClear
  | .d3hotToD0 _ => h.execD3hotToD0
  | .drainRoleHandover => h.execDrainRoleHandover
  | .drainLimitExpiry => h.execDrainLimitExpiry
  | .drainComplete _ => h.execDrainComplete
  | .vaultModeAlarm _ => h.execVaultModeAlarm
  | .shieldCompare _ => h.execShieldCompare
  | .sqTailDb _ _ _ => h.execSqTailDb
  | .cqHeadDb _ _ => h.execCqHeadDb
  | .qCfgWrite _ _ => h.execQCfgWrite
  | .cqStallTimeout _ _ => h.execCqStallTimeout
  | .descriptorFetch => h.execDescriptorFetch
  | .takeReserve _ => h.execTakeReserve
  | .sealTakeArrival _ => h.execSealTakeArrival
  | .takeDigestComplete _ => h.execTakeDigestComplete
  | .manifestDeadline _ => h.execManifestDeadline
  | .manifestRootComplete _ => h.execManifestRootComplete
  | .manifestSigningComplete _ _ _ => h.execManifestSigningComplete
  | .individualSignComplete _ _ => h.execIndividualSignComplete
  | .individualVerifyComplete _ _ => h.execIndividualVerifyComplete
  | .resultTimeout _ => h.execResultTimeout
  | .takeLanding _ _ => h.execTakeLanding
  | .journalSignComplete _ => h.execJournalSignComplete
  | .timeCorrection _ _ => h.execTimeCorrection
  | .slewAbsorbed => h.execSlewAbsorbed
  | .timebaseCompare _ => h.execTimebaseCompare
  | .deviceTimeSet _ _ => h.execDeviceTimeSet
  | .timeFloorAdvance => h.execTimeFloorAdvance
  | .timebaseTick _ => h.execTimebaseTick
  | .gateCloseTimeWrite _ _ _ => h.execGateCloseTimeWrite
  | .gateOwnerWrite _ _ _ => h.execGateOwnerWrite
  | .windowOwnerWrite _ _ _ => h.execWindowOwnerWrite
  | .windowReassignComplete _ => h.execWindowReassignComplete
  | .slotApply _ _ => h.execSlotApply
  | .slotReopen _ => h.execSlotReopen
  | .checkpointStart => h.execCheckpointStart
  | .checkpointCommit => h.execCheckpointCommit
  | .tapConsumedWrite _ _ => h.execTapConsumedWrite
  | .tapWriteFault => h.execTapWriteFault
  | .tapRingApply => h.execTapRingApply
  | .stow => h.execStow
  | .pwrfailRelease => h.execPwrfailRelease
  | .recoveryStart _ _ => h.execRecoveryStart
  | .rebuildStart _ => h.execRebuildStart
  | .recoveryComplete => h.execRecoveryComplete
  | .recoveryWaitExpiry => h.execRecoveryWaitExpiry
  | .memoryScrub _ => h.execMemoryScrub
  | .liEngineOwnerWrite _ _ _ => h.execLiEngineOwnerWrite
  | .ecdsaSign _ _ => h.execEcdsaSign
  | .ecdsaVerify _ _ => h.execEcdsaVerify
  | .eddsaSign _ _ => h.execEddsaSign
  | .eddsaVerify _ _ => h.execEddsaVerify
  | .ecdh _ _ => h.execEcdh
  | .ecKeygen _ _ => h.execEcKeygen
  | .ecPointCheck _ _ => h.execEcPointCheck
  | .rsaPrivate _ _ => h.execRsaPrivate
  | .rsaPublic _ _ => h.execRsaPublic
  | .curveLoad _ _ => h.execCurveLoad
  | .curveUnload _ _ => h.execCurveUnload
  | .abort _ => h.execAbort
  | .lieCommandComplete _ _ => h.execLieCommandComplete
  | .liUcodeLoad _ _ _ => h.execLiUcodeLoad
  | .ucodeLoadDone _ => h.execUcodeLoadDone
  | .liUcodeMinVersionWrite _ _ => h.execLiUcodeMinVersionWrite
  | .latticeSignRound _ => h.execLatticeSignRound
  | .latticeOpComplete _ _ => h.execLatticeOpComplete
  | .entropyHealthFail _ _ => h.execEntropyHealthFail
  | .sourceRestart _ => h.execSourceRestart
  | .entropyDeliveryResume => h.execEntropyDeliveryResume
  | .enLatchClear _ _ _ => h.execEnLatchClear
  | .conditioningBlock _ => h.execConditioningBlock
  | .drbgReseedCount _ => h.execDrbgReseedCount
  | .drbgReseedInterval _ => h.execDrbgReseedInterval
  | .drbgReinstantiate _ => h.execDrbgReinstantiate
  | .rngDataRead _ _ => h.execRngDataRead
  | .rngFifoRefill _ => h.execRngFifoRefill
  | .drawSeedReady => h.execDrawSeedReady
  | .mov _ _ _ => h.execMov
  | .add _ _ => h.execAdd
  | .sub _ _ => h.execSub
  | .and _ _ => h.execAnd
  | .or _ _ => h.execOr
  | .xor _ _ => h.execXor
  | .shl _ _ => h.execShl
  | .shr _ _ => h.execShr
  | .sra _ _ => h.execSra
  | .cmp _ _ _ => h.execCmp
  | .neg _ _ _ => h.execNeg
  | .not _ _ _ => h.execNot
  | .mul _ _ => h.execMul
  | .fadd _ _ => h.execFadd
  | .fsub _ _ => h.execFsub
  | .fmul _ _ => h.execFmul
  | .fmul16 _ _ => h.execFmul16
  | .abs _ _ _ => h.execAbs
  | .min _ _ => h.execMin
  | .max _ _ => h.execMax
  | .movp _ _ _ => h.execMovp
  | .movw _ _ _ => h.execMovw
  | .jr _ _ => h.execJr
  | .sxth _ _ _ => h.execSxth
  | .zxth _ _ _ => h.execZxth
  | .movi _ _ _ => h.execMovi
  | .addi _ _ _ => h.execAddi
  | .cmpi _ _ _ => h.execCmpi
  | .shli _ _ _ => h.execShli
  | .shri _ _ _ => h.execShri
  | .srai _ _ _ => h.execSrai
  | .andi _ _ _ => h.execAndi
  | .addp _ _ _ => h.execAddp
  | .ldw _ _ _ => h.execLdw
  | .stw _ _ => h.execStw
  | .macF _ _ => h.execMacF
  | .msuF _ _ => h.execMsuF
  | .mpyF _ _ => h.execMpyF
  | .macI _ _ => h.execMacI
  | .nop _ => h.execNop
  | .ret _ _ => h.execRet
  | .wait _ => h.execWait
  | .waitResume _ => h.execWaitResume
  | .clra _ _ => h.execClra
  | .mova _ _ _ => h.execMova
  | .nega _ _ _ => h.execNega
  | .lpclr _ _ => h.execLpclr
  | .fence _ => h.execFence
  | .halt _ _ => h.execHalt
  | .bkpt _ => h.execBkpt
  | .cB _ _ _ => h.execCB
  | .bL _ _ _ => h.execBL
  | .addi32 _ _ _ _ => h.execAddi32
  | .andi32 _ _ _ _ => h.execAndi32
  | .ori _ _ _ _ => h.execOri
  | .xori _ _ _ _ => h.execXori
  | .lui _ _ _ => h.execLui
  | .cmpi32 _ _ _ => h.execCmpi32
  | .muli _ _ _ _ => h.execMuli
  | .ldh _ _ _ => h.execLdh
  | .ldhu _ _ _ => h.execLdhu
  | .sth _ _ => h.execSth
  | .ldb _ _ _ => h.execLdb
  | .ldbu _ _ _ => h.execLdbu
  | .stb _ _ => h.execStb
  | .lda _ _ _ => h.execLda
  | .sta _ _ => h.execSta
  | .lrW _ _ _ _ => h.execLrW
  | .scW _ _ _ _ => h.execScW
  | .adr _ _ _ => h.execAdr
  | .call _ _ _ => h.execCall
  | .loop _ _ _ _ => h.execLoop
  | .csrr _ _ _ => h.execCsrr
  | .csrw _ _ _ => h.execCsrw
  | .extF _ _ => h.execExtF
  | .extH _ _ => h.execExtH
  | .extI _ _ => h.execExtI
  | .extRaw _ _ _ _ => h.execExtRaw
  | .adda _ _ => h.execAdda
  | .suba _ _ => h.execSuba
  | .diva _ _ => h.execDiva
  | .rema _ _ => h.execRema
  | .rndm _ _ => h.execRndm
  | .shla _ _ => h.execShla
  | .sraa _ _ => h.execSraa
  | .cmpa _ _ => h.execCmpa
  | .mulm _ _ => h.execMulm
  | .addw _ _ => h.execAddw
  | .movwa _ _ => h.execMovwa
  | .insh _ _ => h.execInsh
  | .insl _ _ => h.execInsl
  | .msuI _ _ => h.execMsuI
  | .mpyI _ _ => h.execMpyI
  | .macH _ _ => h.execMacH
  | .msuH _ _ => h.execMsuH
  | .mpyH _ _ => h.execMpyH
  | .macU _ _ => h.execMacU
  | .appletLoad _ _ _ => h.execAppletLoad
  | .appletInstall _ => h.execAppletInstall
  | .appletUnload _ _ => h.execAppletUnload
  | .mbInTailDb _ _ _ => h.execMbInTailDb
  | .mbOutHeadDb _ _ => h.execMbOutHeadDb
  | .mbCfgWrite _ _ => h.execMbCfgWrite
  | .mbInboundCopy _ => h.execMbInboundCopy
  | .mbOutboundCopy _ => h.execMbOutboundCopy
  | .random _ => h.execRandom
  | .hash _ => h.execHash
  | .lie _ => h.execLie
  | .latticeKeygen _ => h.execLatticeKeygen
  | .latticeSign _ => h.execLatticeSign
  | .latticeVerify _ => h.execLatticeVerify
  | .latticeEncaps _ => h.execLatticeEncaps
  | .latticeDecaps _ => h.execLatticeDecaps
  | .drawClaim _ => h.execDrawClaim
  | .drawCommit _ => h.execDrawCommit
  | .drawCommitAck => h.execDrawCommitAck
  | .drawRelease _ => h.execDrawRelease
  | .sealRecord _ => h.execSealRecord
  | .statsPublish _ => h.execStatsPublish
  | .mbxGo _ _ => h.execMbxGo
  | .read _ _ _ _ _ _ => h.execRead
  | .write _ _ _ _ _ _ _ _ => h.execWrite
  | .describe _ _ _ _ => h.execDescribe
  | .next _ _ _ _ => h.execNext
  | .stagingTimeout _ => h.execStagingTimeout
  | .helloC _ => h.execHelloC
  | .finishC _ _ _ _ => h.execFinishC
  | .halfOpenTimeout => h.execHalfOpenTimeout
  | .yilileData _ _ _ _ _ => h.execYilileData
  | .yilileClose _ _ _ _ => h.execYilileClose
  | .sessionIdleTimeout => h.execSessionIdleTimeout
  | .spLinkDownTimeout => h.execSpLinkDownTimeout
  | .arpRequest _ _ _ => h.execArpRequest
  | .arpCacheExpiry _ => h.execArpCacheExpiry
  | .icmpEcho _ _ _ => h.execIcmpEcho
  | .phyPoll _ _ => h.execPhyPoll
  | .mdioRead _ _ => h.execMdioRead
  | .mdioWrite _ _ _ => h.execMdioWrite
  | .spEnableWrite _ _ => h.execSpEnableWrite
  | .spRootDigestWrite _ _ => h.execSpRootDigestWrite
  | .registerWrite _ _ _ _ _ => h.execRegisterWrite
  | .rcRead _ _ _ => h.execRcRead
  | .blockLockWrite _ _ => h.execBlockLockWrite
  | .parityScan _ => h.execParityScan
  | .msixUnmask _ _ => h.execMsixUnmask
  | .keyGenerate _ _ _ => h.execKeyGenerate
  | .keyImport _ _ _ => h.execKeyImport
  | .keyOpComplete _ => h.execKeyOpComplete
  | .keyDelete _ _ _ => h.execKeyDelete
  | .keyPublicRead _ _ => h.execKeyPublicRead
  | .keyAttestationRead _ _ => h.execKeyAttestationRead
  | .journalKeyAttestationRead _ => h.execJournalKeyAttestationRead
  | .reelOpen _ _ _ => h.execReelOpen
  | .openAck _ => h.execOpenAck
  | .recorderRefuse _ => h.execRecorderRefuse
  | .openTimeout => h.execOpenTimeout
  | .pickupVerified => h.execPickupVerified
  | .pickupWaive _ _ => h.execPickupWaive
  | .reelFrameTick => h.execReelFrameTick
  | .statusFrame _ => h.execStatusFrame
  | .statusLimitExpiry => h.execStatusLimitExpiry
  | .ackLimitExpiry => h.execAckLimitExpiry
  | .stallRecovery => h.execStallRecovery
  | .reelBufferResume => h.execReelBufferResume
  | .reelStop _ _ => h.execReelStop
  | .reelEndAppend => h.execReelEndAppend
  | .portLanesLocked _ => h.execPortLanesLocked
  | .trainingTimeout _ => h.execTrainingTimeout
  | .keyingTimeout _ => h.execKeyingTimeout
  | .keyingRetry _ => h.execKeyingRetry
  | .hello _ _ => h.execHello
  | .linkIdleTimeout _ => h.execLinkIdleTimeout
  | .creditTick _ => h.execCreditTick
  | .credit _ => h.execCredit
  | .creditStallTimer _ _ => h.execCreditStallTimer
  | .linkRequestResend _ => h.execLinkRequestResend
  | .linkFrameForward _ _ _ => h.execLinkFrameForward
  | .leaseReq _ _ => h.execLeaseReq
  | .leaseGrant _ _ _ => h.execLeaseGrant
  | .roleOffer _ _ _ => h.execRoleOffer
  | .roleAnswer _ _ => h.execRoleAnswer
  | .roleOfferTimeout => h.execRoleOfferTimeout
  | .roleApply _ _ => h.execRoleApply
  | .mirrorRec _ _ => h.execMirrorRec
  | .mirrorAck _ _ _ _ => h.execMirrorAck
  | .mirrorRefuse _ _ _ _ => h.execMirrorRefuse
  | .mirrorTimeoutExpiry _ => h.execMirrorTimeoutExpiry
  | .syncReqTick _ => h.execSyncReqTick
  | .syncReq _ _ => h.execSyncReq
  | .syncImage _ _ => h.execSyncImage
  | .roleNotice _ _ _ => h.execRoleNotice
  | .handover _ _ => h.execHandover
  | .release _ _ => h.execRelease
  | .leaseReturn _ _ _ => h.execLeaseReturn
  | .heartbeatTick => h.execHeartbeatTick
  | .heartbeat _ => h.execHeartbeat
  | .memberLoss _ => h.execMemberLoss
  | .takeoverComplete _ => h.execTakeoverComplete
  | .dirReq _ _ => h.execDirReq
  | .dirResp _ _ => h.execDirResp
  | .ceremonyClaim _ _ => h.execCeremonyClaim
  | .claimAnswer _ _ => h.execClaimAnswer
  | .ceremonyClaimTimeout => h.execCeremonyClaimTimeout
  | .ceremonyEnd _ => h.execCeremonyEnd
  | .memberUnitIdWrite _ _ _ => h.execMemberUnitIdWrite
  | .fleetEnableWrite _ _ => h.execFleetEnableWrite
  | .cardInsertion _ => h.execCardInsertion
  | .cardCommandComplete _ => h.execCardCommandComplete
  | .cardRemoval => h.execCardRemoval
  | .cardTimeout => h.execCardTimeout
  | .cardRetuneTimer _ _ => h.execCardRetuneTimer
  | .cardTempPoll _ _ _ => h.execCardTempPoll
  | .cardRead _ _ => h.execCardRead
  | .cardWrite _ _ => h.execCardWrite
  | .cardFormat _ _ => h.execCardFormat
  | .chCfgWrite _ => h.execChCfgWrite
  | .eraseAlarm _ => h.execEraseAlarm
  | .holdAlarm _ => h.execHoldAlarm
  | .monitorWarning _ => h.execMonitorWarning
  | .coalescingWindowClose => h.execCoalescingWindowClose
  | .holdSourceInRange _ => h.execHoldSourceInRange
  | .postEraseAlarm _ => h.execPostEraseAlarm
  | .gangwayRekeyed _ => h.execGangwayRekeyed
  | .evidenceWriteDone => h.execEvidenceWriteDone
  | .tamperEraseFusedWrite _ _ => h.execTamperEraseFusedWrite
  | .tamperGroupDisableWrite _ _ => h.execTamperGroupDisableWrite
  | .evidenceArchiveMarkWrite _ _ => h.execEvidenceArchiveMarkWrite
  | .evidenceHeadSignatureRead _ => h.execEvidenceHeadSignatureRead
  | .reprovision _ _ => h.execReprovision
  | .reprovisionComplete => h.execReprovisionComplete
  | .lcRequest _ _ => h.execLcRequest
  | .lcXfer _ => h.execLcXfer
  | .lcBurnComplete => h.execLcBurnComplete
  | .lcCertGo _ _ => h.execLcCertGo
  | .certCheck => h.execCertCheck
  | .debugChallengeIssue _ _ => h.execDebugChallengeIssue
  | .debugResponseSubmit _ _ _ => h.execDebugResponseSubmit
  | .tapReset => h.execTapReset
  | .extest _ => h.execExtest
  | .samplePreload _ _ => h.execSamplePreload
  | .idcode => h.execIdcode
  | .clamp => h.execClamp
  | .lcStatus => h.execLcStatus
  | .lcAuth _ => h.execLcAuth
  | .dbgReg _ => h.execDbgReg
  | .dbgDir _ => h.execDbgDir
  | .dbgCore _ _ => h.execDbgCore
  | .dbgScan => h.execDbgScan
  | .bypass => h.execBypass
  | .svc _ _ => h.execSvc
  | .reservedEncoding _ _ => h.execReservedEncoding
  | .escrowLaneBlockLock _ _ => h.execEscrowLaneBlockLock
  | .uncorrectableCodeword _ _ => h.execUncorrectableCodeword
  | .spRxError => h.execSpRxError
  | .yilileRecordDiscard => h.execYilileRecordDiscard
  | .linkFrameDiscard _ _ => h.execLinkFrameDiscard
  | .mdioOperationDone _ => h.execMdioOperationDone
  | .referenceDetect _ => h.execReferenceDetect
  | .referenceStop _ => h.execReferenceStop
  | .gangwayAuthenticationFailure _ => h.execGangwayAuthenticationFailure

/-- A step keeps the invariant: the command it takes leaves the rest of the queue, which is as well-formed as it was. -/
theorem Inv.step (h : Inv s) : KeepsInv (Machine.step s) := by
  unfold Machine.step
  split
  · exact h.next
  · next c rest e =>
    have hr : Inv { s with pending := rest } :=
      ⟨fun d hd => h.queue d (e ▸ List.mem_cons_of_mem c hd), h.hostMem, h.roots, h.fuses⟩
    exact hr.exec c

end Sys2Proof.Machine

/-- Settles O60: the lemma of the command at the front of the queue. -/
theorem stepKeepsInvariant : Obligations.StepKeepsInvariant := fun _ t h e => h.step t e
end

