-- ==== Sys2Proof/Proofs/ReferenceClocks.lean ====
section
-- The whole text is compiled in one process: one proof at a time keeps it within its memory.
set_option Elab.async false
/-! LEMMAS. The reference clocks, the islands and the monitors that arm with a delay (R371, R424, R425). -/

namespace Sys2Proof.Machine

variable {s : State} {n r : Nat}

theorem State.clocked_of_powered (h : s.powered = true) (r : Nat) : s.clocked r = true := by
  simp [State.clocked, h]

theorem State.not_vault_of_powered (h : s.powered = true) : s.pwr.mode ≠ .vault := fun e => by
  simp [State.powered, e] at h

/-- R424: a reference that goes, where its monitor is not armed and the timebase has no interrupt vector. -/
theorem exec_referenceStop (hr : r < 4) (hp : s.powered = true) (hb : bitOf s.tb.refPresent r = true)
    (ha : s.monitorArmed (if r = 3 then 0xE000 else 0x5000 + r) = false) (hi : s.tb.cfgActive.getLsbD 31 = false) :
    let t := (s.onTb fun t => { t with refPresent := setBit t.refPresent r false }).latch .tbRef (2 ^ (4 + r))
    exec (.referenceStop r) s =
      .next (if r = 0 then t.onTg fun g => { g with armed := g.armed.filter (· ≠ 0x5000) } else t) := by
  intro t
  have hv : (s.onTb fun t => { t with refPresent := setBit t.refPresent r false }).pwr.mode ≠ .vault :=
    State.not_vault_of_powered hp
  have hi' : t.timeIrq = t := if_neg (by
    rw [show t.tb.cfgActive = s.tb.cfgActive from rfl, hi]
    exact Bool.false_ne_true)
  have ha' : t.alarmIfArmed (if r = 3 then 0xE000 else 0x5000 + r) = t := if_neg (by
    rw [show t.monitorArmed _ = s.monitorArmed _ from rfl, ha]
    exact Bool.false_ne_true)
  simp only [exec, execReferenceStop, State.clocked_of_powered hp r, hb, Nat.not_le.mpr hr, hv, if_false, Bool.not_true,
    decide_false, Bool.or_false, Bool.false_eq_true]
  rw [show (State.onTb _ s).latch _ _ = t from rfl, hi', ha']

theorem monitorExists_island (h : n < 288) : monitorExists (0x4000 + n) = true := by
  have hd : (0x4000 + n) / 4096 = 4 := by omega
  have hm : (0x4000 + n) % 4096 = n := by omega
  simp [monitorExists, hd, hm, h]

theorem monitorExists_reference (h : n < 4) : monitorExists (0x5000 + n) = true := by
  have hd : (0x5000 + n) / 4096 = 5 := by omega
  have hm : (0x5000 + n) % 4096 = n := by omega
  simp [monitorExists, hd, hm, h]

theorem State.armable_island (h : n < 288) (hl : n ∈ s.tb.locked) : s.armable (0x4000 + n) = true := by
  have hd : (0x4000 + n) / 4096 = 4 := by omega
  have hm : (0x4000 + n) % 4096 = n := by omega
  simp [State.armable, hd, hm, hl]

theorem State.armable_reference (h : n < 4) (hp : bitOf s.tb.refPresent n = true) (h0 : n = 0 → s.pwr.perst = false) :
    s.armable (0x5000 + n) = true := by
  have hd : (0x5000 + n) / 4096 = 5 := by omega
  have hm : (0x5000 + n) % 4096 = n := by omega
  by_cases hn : n = 0
  · subst hn
    simp [State.armable, hp, h0 rfl]
  · simp [State.armable, hd, hm, hp, hn]

/-- R371: a monitor arms that exists and whose watched thing has come. -/
theorem exec_monitorArm (hp : s.powered = true) (hn : n ∉ s.tg.armed) (he : monitorExists n = true)
    (ha : s.armable n = true) :
    exec (.monitorArm n) s = .next (s.onTg fun t => { t with armed := t.armed ++ [n] }) := by
  simp [exec, execMonitorArm, hp, hn, he, ha]

end Sys2Proof.Machine

open Sys2Proof Sys2Proof.Machine

/-- Settles O17, event by event. -/
theorem clocks : Obligations.Clocks := fun s => by
  refine ⟨fun hm hs hb hw ht => ?_, fun r hr hp => ⟨?_, fun hb ha hi => ?_⟩, fun n hn hp hl hb => ?_,
    fun n hp hn h => ?_⟩
  · simp [exec, execRefclkDetectTimeout, hm, hs, hb, hw, ht]
  · simp [exec, execReferenceDetect, State.clocked_of_powered hp, hr, State.onTb]
  · refine ⟨_, exec_referenceStop hr hp hb ha hi, ?_, ?_⟩
    · split
      · rfl
      · rfl
    · have ht (u : State) : ((u.latch .tbRef (2 ^ (4 + r))).latched .tbRef .maker).testBit (4 + r) = true :=
        State.testBit_latch (List.mem_cons_of_mem _ (List.mem_singleton_self _)) Nat.testBit_two_pow_self
      split
      · exact ht _
      · exact ht _
  · have hb' : bitOf s.tb.refPresent (islandRef n) = true := hb
    simp [exec, execIslandLock, State.clocked_of_powered hp, hn, hl, hb', State.onTb]
  · obtain ⟨k, hk, rfl, hl⟩ | ⟨r, hr, rfl, hb, h0⟩ := h
    · exact exec_monitorArm hp hn (monitorExists_island hk) (State.armable_island hk hl)
    · exact exec_monitorArm hp hn (monitorExists_reference hr) (State.armable_reference hr hb h0)
end

