-- ==== Sys2Proof/Proofs/DirectoryRows.lean ====
section
-- The whole text is compiled in one process: one proof at a time keeps it within its memory.
set_option Elab.async false
/-! LEMMAS. What a command that stands for one entry of the Parameter Directory answers, whatever the entry asks. -/

namespace Sys2Proof.Machine

variable {s : State} {v : Viewer}

/-! ### The round of R271 touches no other part -/

@[simp] theorem State.served_clock (s : State) (v : Viewer) : (s.served v).clock = s.clock := rfl
@[simp] theorem State.served_freeCtr (s : State) (v : Viewer) : (s.served v).freeCtr = s.freeCtr := rfl
@[simp] theorem State.served_outbox (s : State) (v : Viewer) : (s.served v).outbox = s.outbox := rfl
@[simp] theorem State.served_hostMem (s : State) (v : Viewer) : (s.served v).hostMem = s.hostMem := rfl
@[simp] theorem State.served_dmaFail (s : State) (v : Viewer) : (s.served v).dmaFail = s.dmaFail := rfl
@[simp] theorem State.served_latches (s : State) (v : Viewer) : (s.served v).latches = s.latches := rfl
@[simp] theorem State.served_pwr (s : State) (v : Viewer) : (s.served v).pwr = s.pwr := rfl
@[simp] theorem State.served_tb (s : State) (v : Viewer) : (s.served v).tb = s.tb := rfl
@[simp] theorem State.served_hg (s : State) (v : Viewer) : (s.served v).hg = s.hg := rfl
@[simp] theorem State.served_td (s : State) (v : Viewer) : (s.served v).td = s.td := rfl
@[simp] theorem State.served_lg (s : State) (v : Viewer) : (s.served v).lg = s.lg := rfl
@[simp] theorem State.served_li (s : State) (v : Viewer) : (s.served v).li = s.li := rfl
@[simp] theorem State.served_lh (s : State) (v : Viewer) : (s.served v).lh = s.lh := rfl
@[simp] theorem State.served_sz (s : State) (v : Viewer) : (s.served v).sz = s.sz := rfl
@[simp] theorem State.served_sp (s : State) (v : Viewer) : (s.served v).sp = s.sp := rfl
@[simp] theorem State.served_el (s : State) (v : Viewer) : (s.served v).el = s.el := rfl
@[simp] theorem State.served_xl (s : State) (v : Viewer) : (s.served v).xl = s.xl := rfl
@[simp] theorem State.served_ch (s : State) (v : Viewer) : (s.served v).ch = s.ch := rfl
@[simp] theorem State.served_tg (s : State) (v : Viewer) : (s.served v).tg = s.tg := rfl
@[simp] theorem State.served_lc (s : State) (v : Viewer) : (s.served v).lc = s.lc := rfl
@[simp] theorem State.served_krf (s : State) (v : Viewer) : (s.served v).krf = s.krf := rfl

/-- What the answer to one entry shows of its result: the place that a NEXT finds, otherwise the value. -/
def EntryOut.shown (v : Viewer) (x : EntryOut) : Bytes :=
  if x.op = 4 then putNum v 2 x.index ++ be 1 x.sub else x.value

/-- An entry of the response in its parts: place, operation, status, and what follows. -/
theorem EntryOut.encode_eq (x : EntryOut) :
    x.encode v = (putNum v 2 x.index ++ be 1 x.sub) ++ (be 1 x.op ++ (putNum v 2 x.status.toNat ++ ((be 1 x.type ++ be 1 (b2n x.staged))
      ++ (putNum v 4 x.value.length ++ (putNum v 4 x.total ++ (x.value ++ List.replicate ((8 - x.value.length % 8) % 8) 0)))))) := by
  simp only [EntryOut.encode, pad8, List.append_assoc]

theorem slice_append_eq {a b : Bytes} {k n : Nat} (h : a.length = k) (c : Bytes) (hb : b.length = n) :
    slice (a ++ (b ++ c)) k n = b := by
  rw [slice_append _ _ _ _ h, slice_append_left _ _ _ hb]

theorem EntryOut.encode_place (x : EntryOut) : slice (x.encode v) 0 3 = putNum v 2 x.index ++ be 1 x.sub := by
  rw [x.encode_eq]
  exact slice_append_left _ _ _ (by simp)

theorem EntryOut.encode_op (x : EntryOut) : slice (x.encode v) 3 1 = be 1 x.op := by
  rw [x.encode_eq]
  exact slice_append_eq (by simp) _ (be_length ..)

theorem EntryOut.encode_status (x : EntryOut) : slice (x.encode v) 4 2 = putNum v 2 x.status.toNat := by
  rw [x.encode_eq, ← List.append_assoc]
  exact slice_append_eq (by simp) _ (putNum_length ..)

theorem EntryOut.encode_size (x : EntryOut) : slice (x.encode v) 8 4 = putNum v 4 x.value.length := by
  rw [x.encode_eq, ← List.append_assoc, ← List.append_assoc, ← List.append_assoc]
  exact slice_append_eq (by simp) _ (putNum_length ..)

theorem EntryOut.encode_value (x : EntryOut) : slice (x.encode v) 16 x.value.length = x.value := by
  rw [x.encode_eq, ← List.append_assoc, ← List.append_assoc, ← List.append_assoc, ← List.append_assoc, ← List.append_assoc]
  exact slice_append_eq (by simp) _ rfl

theorem EntryOut.encode_length_le (x : EntryOut) : (x.encode v).length ≤ 24 + x.value.length := by
  have h : (x.encode v).length = 16 + (x.value.length + (8 - x.value.length % 8) % 8) := by
    rw [x.encode_eq]
    simp only [List.length_append, putNum_length, be_length, List.length_replicate]
    omega
  omega

/-- The status and the value that a request of one entry answers. -/
theorem DirReq.single_shown {r : DirReq} {x : EntryOut} (hc : r.count = 1) (ho : r.out = x.encode r.viewer)
    (hp : x.op < 256) (hl : x.value.length < 2 ^ 32) : r.single = (x.status, x.shown r.viewer) := by
  have hs : getNum r.viewer (putNum r.viewer 2 x.status.toNat) = x.status.toNat := by
    rw [getNum_putNum]
    exact Nat.mod_eq_of_lt x.status.isLt
  have hn : getNum r.viewer (putNum r.viewer 4 x.value.length) = x.value.length := by
    rw [getNum_putNum]
    exact Nat.mod_eq_of_lt hl
  have h4 : be 1 x.op = [4] ↔ x.op = 4 := by
    constructor
    · intro h
      have ho := congrArg ofBe h
      rw [ofBe_be] at ho
      have h4 : ofBe [4] = 4 := by decide
      omega
    · rintro h
      rw [h]
      decide
  simp only [DirReq.single, hc, ho, EntryOut.encode_status, EntryOut.encode_op, EntryOut.encode_place,
    EntryOut.encode_size, hs, hn, EntryOut.encode_value, h4, EntryOut.shown]
  simp

/-- A request of one entry that does not wait, while nothing else of the Directory does, is answered at once; a session
that it has closed ends then. -/
theorem State.single_answers {w : World} {tenant inst : Nat} {e : DirEntry} {x : State × EntryOut}
    (ha : s.viewerActive v = true) (hd : s.dirFree) (ht : namedTenant v tenant = .ok inst)
    (hx : (s.served v).execEntry w v inst e = x) (hp : x.2.op < 256) (hw : x.2.op = 2 → x.2.status ≠ stWaits)
    (hl : x.2.value.length ≤ 65536) :
    s.single w v tenant e = (x.1.emit (.directory v x.2.status (x.2.shown v))).spClose := by
  have hlen := x.2.encode_length_le (v := v)
  have hwait : (x.2.op = 2 && x.2.status = stWaits) = false := by
    simpa using hw
  have hs : (s.onPd fun p => { p with turn := originOf v }) = s.served v := rfl
  simp only [State.single, ha, Bool.not_true, ht, State.submit, hd.outstanding, hd.1, Option.isSome_none, State.runReq,
    DirReq.origin, hs, State.runEntries, hx, hwait, List.length_nil, Nat.add_zero]
  simp only [show ¬(2 : Nat) ^ 20 < 32 by decide, show ¬(2 : Nat) ^ 20 < 16 + (x.2.encode v).length by omega, if_false,
    Bool.false_eq_true, State.finishReq, State.respondReq]
  rw [DirReq.single_shown (x := x.2) rfl (by simp) hp (by omega)]

/-- The same where no session has its end still to come. -/
theorem State.single_stays {w : World} {tenant inst : Nat} {e : DirEntry} {x : State × EntryOut}
    (ha : s.viewerActive v = true) (hd : s.dirFree) (ht : namedTenant v tenant = .ok inst)
    (hx : (s.served v).execEntry w v inst e = x) (hp : x.2.op < 256) (hw : x.2.op = 2 → x.2.status ≠ stWaits)
    (hl : x.2.value.length ≤ 65536) (hc : x.1.sp.closing = false) :
    s.single w v tenant e = x.1.emit (.directory v x.2.status (x.2.shown v)) :=
  (State.single_answers ha hd ht hx hp hw hl).trans (State.spClose_id hc)

/-! ### WRITE of an object of a fixed size -/

theorem State.applyWrite_acts {w : World} {o : Obj} {inst index sub : Nat} {x : Val} {n : Nat} {b : Bytes} {act : Act}
    (hx : x = .num n ∧ b = [] ∨ x = .bytes b ∧ n = 0) (ha : actionOf w v inst index sub n b = some act)
    (h : o.apply = .now → s.en.firstSeed = true ∨ s.beforeSeed index sub = true) :
    s.applyWrite w v o inst index sub x = act s := by
  have hnow : (o.apply = .now && !s.en.firstSeed && !s.beforeSeed index sub) = false := by
    by_cases ho : o.apply = .now
    · rcases h ho with h | h <;> simp [h]
    · simp [ho]
  obtain ⟨rfl, rfl⟩ | ⟨rfl, rfl⟩ := hx
  · simp [State.applyWrite, hnow, ha]
  · simp [State.applyWrite, hnow, ha]

/-- Where the object's owner does no more than hold the value, it is put in its place. -/
theorem State.applyWrite_puts {w : World} {o : Obj} {inst index sub n : Nat}
    (ha : actionOf w v inst index sub n [] = none)
    (h : o.apply = .now → s.en.firstSeed = true ∨ s.beforeSeed index sub = true) :
    s.applyWrite w v o inst index sub (.num n) = (s.putVal o (o.instFor v inst) index sub (.num n), stOk) := by
  have hnow : (o.apply = .now && !s.en.firstSeed && !s.beforeSeed index sub) = false := by
    by_cases ho : o.apply = .now
    · rcases h ho with h | h <;> simp [h]
    · simp [ho]
  simp [State.applyWrite, hnow, ha]

/-- The result of a WRITE: its status alone. -/
def State.wroteOut (s : State) (v : Viewer) (o : Obj) (inst index sub : Nat) (st : Status) : EntryOut :=
  { index := index, sub := sub, op := 2, status := st, type := o.type.code, total := s.fullLength v o inst index sub }

/-- A WRITE of a value of the object's size that passes the checks of Table 11.10. -/
theorem State.execEntry_write {w : World} {o : Obj} {inst index sub k : Nat} {b : Bytes} {x : Val}
    (ho : findObj index sub = some o) (hk : o.type.size = some k) (hb : b.length = k)
    (hx : (if o.type.isBytes then Val.bytes b else .num (getNum v b)) = x)
    (hd : s.entryDenied v o index sub 2 (getNum v b) = false) (hoff : o.apply = .off → s.offEnabled index = false)
    (hacc : s.accepted o index sub x = true) :
    s.execEntry w v inst { index := index, sub := sub, op := 2, length := b.length, value := b }
      = let r := s.applyWrite w v o inst index sub x
        (r.1, r.1.wroteOut v o inst index sub r.2) := by
  have hoff' : (o.apply = .off && s.offEnabled index) = false := by
    by_cases h : o.apply = .off
    · simp [hoff h]
    · simp [h]
  simp only [State.execEntry, DirEntry.malformed, ho, hd]
  simp only [show ¬(2 : Nat) = 0 by decide, show ¬(4 < 2) by decide, show ¬(1 < 0) by decide, show ¬(2 : Nat) = 4 by decide,
    show ¬(2 : Nat) = 1 by decide, show ¬(2 < 2) by decide, show ¬(0 : Nat) = 1 by decide, decide_false, Bool.false_and, Bool.or_false,
    Bool.false_eq_true, if_false, if_true, State.entryWrite, hk, State.writeFixed, hb, hoff', State.entryValue, hx, hacc, ne_eq,
    not_true, or_self]
  rfl

/-- A WRITE that passes the checks and does not wait answers with the status that the object's owner gives. -/
theorem State.writeObj_answers {w : World} {o : Obj} {tenant inst index sub k : Nat} {b : Bytes} {x : Val} {r : State × Status}
    (ha : s.viewerActive v = true) (hf : s.dirFree) (ht : namedTenant v tenant = .ok inst)
    (ho : findObj index sub = some o) (hk : o.type.size = some k) (hb : b.length = k)
    (hx : (if o.type.isBytes then Val.bytes b else .num (getNum v b)) = x)
    (hd : s.entryDenied v o index sub 2 (getNum v b) = false) (hoff : o.apply = .off → s.offEnabled index = false)
    (hacc : s.accepted o index sub x = true) (hr : (s.served v).applyWrite w v o inst index sub x = r) (hw : r.2 ≠ stWaits) :
    s.writeObj w v tenant index sub b = (r.1.emit (.directory v r.2 [])).spClose := by
  have he := State.execEntry_write (s := s.served v) (w := w) (inst := inst) ho hk hb hx hd hoff hacc
  rw [hr] at he
  exact State.single_answers ha hf ht he (show (2 : Nat) < 256 by decide) (fun _ => hw) (Nat.zero_le _)

/-- A WRITE of a number that may be written and whose owner acts, as `writeNum_acts`; a session that the action closes ends
with the answer. -/
theorem State.writeNum_closes {w : World} {o : Obj} {tenant inst index sub n k : Nat} {act : Act}
    (h : Writable s v index sub n) (ho : findObj index sub = some o) (hk : o.type.size = some k) (hn : n < 256 ^ k)
    (hb : o.type.isBytes = false) (ht : namedTenant v tenant = .ok inst) (ha : actionOf w v inst index sub n [] = some act)
    (hw : (act (s.served v)).2 ≠ stWaits) :
    s.writeObj w v tenant index sub (objBytes v index sub n)
      = ((act (s.served v)).1.emit (.directory v (act (s.served v)).2 [])).spClose := by
  obtain ⟨hv, hf, o', ho', hd, hacc, hnow, hoff⟩ := h
  obtain rfl : o = o' := Option.some.inj (ho.symm.trans ho')
  have hbytes : objBytes v index sub n = putNum v k n := by simp [objBytes, ho, hk]
  have hg : getNum v (putNum v k n) = n := by
    rw [getNum_putNum]
    exact Nat.mod_eq_of_lt hn
  rw [hbytes]
  exact State.writeObj_answers hv hf ht ho hk (putNum_length ..) (by simp [hb, hg]) (by rw [hg]; exact hd) hoff hacc
    (State.applyWrite_acts (.inl ⟨rfl, rfl⟩) ha hnow) hw

/-- A WRITE of a digest that may be written and whose owner acts. -/
theorem State.writeDigest_acts {w : World} {o : Obj} {tenant inst index sub k : Nat} {b : Bytes} {act : Act}
    (h : WritableBytes s v index sub b) (ho : findObj index sub = some o) (hk : o.type.size = some k) (hl : b.length = k)
    (hb : o.type.isBytes = true) (ht : namedTenant v tenant = .ok inst) (ha : actionOf w v inst index sub 0 b = some act)
    (hw : (act (s.served v)).2 ≠ stWaits) (hc : (act (s.served v)).1.sp.closing = false) :
    s.writeObj w v tenant index sub b = (act (s.served v)).1.emit (.directory v (act (s.served v)).2 []) := by
  obtain ⟨hv, hf, o', ho', hd, hacc, hnow, hoff⟩ := h
  obtain rfl : o = o' := Option.some.inj (ho.symm.trans ho')
  exact (State.writeObj_answers hv hf ht ho hk hl (by simp [hb]) hd hoff hacc
    (State.applyWrite_acts (.inr ⟨rfl, rfl⟩) ha hnow) hw).trans (State.spClose_id hc)

end Sys2Proof.Machine
end

