-- ==== Sys2Proof/Proofs/SupervisoryPortBasics.lean ====
section
-- The whole text is compiled in one process: one proof at a time keeps it within its memory.
set_option Elab.async false
/-! LEMMAS. The Supervisory Port below its session (R276, R277, Table 11.14): ARP and ICMP, the link, MDIO, SpEnable and the
regulator root. -/

namespace Sys2Proof.Machine

variable {s : State} {v : Viewer}

/-! ### ARP and ICMP -/

theorem arpLearn_of_absent {ip mac now : Nat} {l : List (Nat × Nat × Nat)} (h : ∀ e ∈ l, e.1 ≠ ip) (hl : l.length < 8) :
    arpLearn ip mac now l = l ++ [(ip, mac, now)] := by
  have hf : (l.filter fun e => e.1 ≠ ip) = l := List.filter_eq_self.mpr fun e he => decide_eq_true (h e he)
  simp only [arpLearn, hf, if_neg (Nat.not_le.mpr hl)]

/-- A next hop that the cache holds needs no request. -/
theorem State.resolve_known {ip : Nat} (h : ∃ e ∈ s.sp.arp, e.1 = s.nextHop ip) : s.resolve ip = s := by
  obtain ⟨e, he, hip⟩ := h
  have hany : (s.sp.arp.any fun e => e.1 = s.nextHop ip) = true := List.any_eq_true.mpr ⟨e, he, decide_eq_true hip⟩
  simp only [State.resolve, hany, if_true]

/-- A next hop that it does not hold is asked for, and its address learnt. -/
theorem State.resolve_unknown {ip : Nat} (h : ∀ e ∈ s.sp.arp, e.1 ≠ s.nextHop ip) (hl : s.sp.arp.length < 8) :
    s.resolve ip = { s with
      sp := { s.sp with arp := s.sp.arp ++ [(s.nextHop ip, (Config.freeValue 48 s.freeCtr).toNat, s.clock)] }
      freeCtr := s.freeCtr + 1
      outbox := s.outbox ++ [.ethernet 0x0806 (s.arpPacket 1 0 (s.nextHop ip))] } := by
  have hany : (s.sp.arp.any fun e => e.1 = s.nextHop ip) = false :=
    List.any_eq_false.mpr fun e he => by simpa using h e he
  simp only [State.resolve, hany, Bool.false_eq_true, if_false]
  rw [← arpLearn_of_absent h hl]
  rfl

theorem exec_icmpEcho {ip : Nat} {payload : List (BitVec 8)} (hu : s.spUp = true) (hl : payload.length ≤ 1472)
    (hs : s.sp.icmpSecond = s.clock / 1000000000) :
    exec (.icmpEcho ip s.spIp payload) s = .next (if 64 ≤ s.sp.icmpCount then s else
      State.emit (.ethernet 0x0800 (be 4 ip ++ payload))
        (State.resolve ip { s with sp := { s.sp with icmpCount := s.sp.icmpCount + 1 } })) := by
  have hsp : { s.sp with icmpSecond := s.clock / 1000000000 } = s.sp := by rw [← hs]
  by_cases hc : 64 ≤ s.sp.icmpCount
  · simp [exec, execIcmpEcho, hs, hc]
  · simp only [exec, execIcmpEcho, hs, hu, hc, if_true, if_false, Bool.not_true, ne_eq, not_true, decide_false,
      Nat.not_lt.mpr hl, Bool.false_eq_true, Bool.or_self, State.onSp]

/-! ### The link -/

/-- An event keeps the bits that stand in any latch. -/
theorem State.testBit_latch_keeps {r c : RcReg} {u : Viewer} {b i : Nat} (h : (s.latched c u).testBit i = true) :
    ((s.latch r b).latched c u).testBit i = true := by
  have hf : ∀ (vs : List Viewer) m, (mapGet 0 m (latchKey c u)).testBit i = true →
      (mapGet 0 (vs.foldl (fun m v => setLatch b (latchKey r v) m) m) (latchKey c u)).testBit i = true := by
    intro vs
    induction vs with
    | nil => exact fun m hm => hm
    | cons w ws ih => exact fun m hm => ih _ (testBit_setLatch (.inl hm))
  exact hf _ _ h

theorem State.tenant0_mem_spLink (s : State) : Viewer.tenant 0 ∈ s.rcViewers .spLink := List.mem_cons_self ..

/-- A bit that the port sets in SP_LINK stands there for tenant 0. -/
theorem State.testBit_spLink {b i : Nat} (h : b.testBit i = true) :
    ((s.latch .spLink b).latched .spLink (.tenant 0)).testBit i = true := State.testBit_latch s.tenant0_mem_spLink h

theorem exec_phyPoll_up {r : BitVec 16} (hp : s.powered = true) (he : s.spEnabled = true) (hr : r.getLsbD 2 = true)
    (hl : s.sp.link = false) : exec (.phyPoll (some r) 2) s = .next ((s.latch .spLink 2).onSp fun p =>
      { p with link := true, speed := 2, downSince := none }) := by
  simp [exec, execPhyPoll, hp, he, hr, State.setLink, hl]

theorem exec_phyPoll_silent {n : Nat} (hp : s.powered = true) (he : s.spEnabled = true) (hl : s.sp.link = true)
    (hd : s.sp.downSince = none) : exec (.phyPoll none n) s = .next (((s.latch .spLink 8).latch .spLink 2).onSp fun p =>
      { p with link := false, speed := 0, downSince := some s.clock }) := by
  simp [exec, execPhyPoll, hp, he, State.setLink, hl, hd, State.onSp]

theorem exec_spRxError (hp : s.powered = true) (he : s.spEnabled = true) :
    exec .spRxError s = .next (s.latch .spLink 4) := by
  simp [exec, execSpRxError, hp, he]

/-! ### MDIO -/

theorem State.powered_of_fnReached {n : Nat} (h : s.fnReached n = true) : s.powered = true := by
  cases hp : s.powered with
  | true => rfl
  | false => simp [State.fnReached, hp] at h

/-- A write of SP_MDIO with START that reaches the part while no operation runs. -/
theorem State.mdioRow_starts {write : Bool} {phy reg : BitVec 5} {d : BitVec 16} (h : Reaches s (.bar2 0x90008) .spMdio)
    (hb : s.sp.mdioBusy = false) : s.mdioRow write phy reg d = s.onSp fun p => { p with
      mdioBusy := true, mdioOp := if write then 1 else 2, mdioPhy := phy.toNat, mdioReg := reg.toNat
      mdioData := d.toNat } := by
  have hp : s.powered = true := State.powered_of_fnReached (State.fnReached_of_reaches h.1)
  rw [State.mdioRow, State.hostWrite_reached h]
  simp [State.mdioStart, hb, hp]

theorem exec_mdioDone_write {a : Option (BitVec 16)} (hb : s.sp.mdioBusy = true) (ho : s.sp.mdioOp = 1) :
    exec (.mdioOperationDone a) s = .next (s.onSp fun p => { p with mdioBusy := false }) := by
  simp [exec, execMdioOperationDone, hb, ho]

theorem exec_mdioDone_read {d : BitVec 16} (hb : s.sp.mdioBusy = true) (ho : s.sp.mdioOp = 2) (h0 : s.lc.tapInstr ≠ 0)
    (h3 : s.lc.tapInstr ≠ 3) : exec (.mdioOperationDone (some d)) s =
      .next (s.onSp fun p => { p with mdioBusy := false, mdioData := d.toNat }) := by
  simp [exec, execMdioOperationDone, hb, ho, h0, h3]

theorem exec_mdioDone_silent (hb : s.sp.mdioBusy = true) (ho : s.sp.mdioOp = 2) : exec (.mdioOperationDone none) s =
    .next ((s.latch .spLink 8).onSp fun p => { p with mdioBusy := false, mdioData := 0xFFFF }) := by
  simp [exec, execMdioOperationDone, hb, ho]

/-! ### SpEnable and the root -/

/-- A session's end where no Ceremony ends with it. -/
theorem State.dropSession_eq (hm : s.pwr.mode ≠ .ceremony) : s.dropSession = { s with
    sp := { s.sp with session := none, closing := false }
    latches := (if s.sessionOpen then s.latch .spLink 1 else s).latches
    pd := { s.pd with
      staging := s.pd.staging.filter fun y => y.viewer ≠ .regulator
      deferred := s.pd.deferred.map fun r => if r.sink = .session then { r with sink := .dropped } else r
      waiting := s.pd.waiting.filter fun r => r.sink ≠ .session } } := by
  have he (t : State) (ht : t.pwr.mode = s.pwr.mode) : t.endCeremony = t := if_pos (ht ▸ hm)
  unfold State.dropSession State.sessionOpen
  cases hs : s.sp.session with
  | none => rfl
  | some x =>
    cases hx : x.opened with
    | false =>
      simp only [hx]
      rfl
    | true =>
      simp only [hx]
      exact he _ rfl

/-- SESSION_END of an open session, and what stood before, stand after its end. -/
theorem State.latched_dropSession (hm : s.pwr.mode ≠ .ceremony) :
    (s.sessionOpen = true → (s.dropSession.latched .spLink (.tenant 0)).testBit 0 = true)
      ∧ ∀ c u i, (s.latched c u).testBit i = true → (s.dropSession.latched c u).testBit i = true := by
  have hl (c : RcReg) (u : Viewer) : s.dropSession.latched c u = (if s.sessionOpen then s.latch .spLink 1 else s).latched c u := by
    rw [State.dropSession_eq hm]
    rfl
  refine ⟨fun ho => ?_, fun c u i h => ?_⟩
  · rw [hl, if_pos ho]
    exact State.testBit_spLink rfl
  · rw [hl]
    split
    · exact State.testBit_latch_keeps h
    · exact h

/-- The port goes off where no Ceremony ends with its session. -/
theorem State.spOff_eq (hm : s.pwr.mode ≠ .ceremony) : s.spOff = { s with
    sp := { s.sp with session := none, closing := false, link := false, speed := 0, downSince := none, arp := [] }
    latches := s.spOff.latches
    pd := s.spOff.pd } ∧ s.spOff.pd.nums = s.pd.nums := by
  unfold State.spOff
  extract_lets t
  have ht : t = { s with latches := t.latches } := by
    unfold t
    split
    · rfl
    · rfl
  rw [State.dropSession_eq (s := t) (by rw [ht]; exact hm)]
  rw [ht]
  exact ⟨rfl, rfl⟩

theorem State.latched_spOff (hm : s.pwr.mode ≠ .ceremony) :
    (s.sp.link = true → (s.spOff.latched .spLink (.tenant 0)).testBit 1 = true)
      ∧ (s.sessionOpen = true → (s.spOff.latched .spLink (.tenant 0)).testBit 0 = true) := by
  unfold State.spOff
  split
  · obtain ⟨h0, hk⟩ := State.latched_dropSession (s := s.latch .spLink 2) hm
    exact ⟨fun _ => hk _ _ _ (State.testBit_spLink rfl), h0⟩
  · next hl => exact ⟨fun h => absurd h hl, (State.latched_dropSession hm).1⟩

/-- SpEnable set to 1 while no session is open. -/
theorem exec_spEnableWrite_on (h : Writable s v 0xA000 1 1) (ho : s.sessionOpen = false) (hm : s.spMac ≠ 0) (hi : s.spIp ≠ 0) :
    Wrote (.spEnableWrite v 1#8) s v stOk (s.setNum 0xA000 1 0 1) := by
  have hact : spEnable v 1 (s.served v) = ((s.setNum 0xA000 1 0 1).served v, stOk) := by
    have ho' : (s.served v).sessionOpen = false := ho
    have hm' : (s.served v).spMac ≠ 0 := hm
    have hi' : (s.served v).spIp ≠ 0 := hi
    simp [spEnable, ho', hm', hi']
    rfl
  have hw := State.writeNum_acts (w := {}) (tenant := ownTenant) h rfl (k := 1) rfl (by decide) rfl rfl rfl
    (by rw [hact]; exact (show stOk ≠ stWaits by decide)) (by rw [hact]; exact h.2.1.2.2)
  rw [hact] at hw
  exact congrArg Host.Outcome.next hw

/-- An Operator may not turn the port off under an open session (R277). -/
theorem exec_spEnableWrite_denied {t : Nat} (h : Writable s (.tenant t) 0xA000 1 0) (ho : s.sessionOpen = true) :
    Wrote (.spEnableWrite (.tenant t) 0#8) s (.tenant t) stAccessDenied s := by
  have hact : spEnable (.tenant t) 0 (s.served (.tenant t)) = (s.served (.tenant t), stAccessDenied) := by
    have ho' : (s.served (.tenant t)).sessionOpen = true := ho
    simp [spEnable, ho']
  have hw := State.writeNum_acts (w := {}) (tenant := ownTenant) h rfl (k := 1) rfl (by decide) rfl rfl rfl
    (by rw [hact]; exact (show stAccessDenied ≠ stWaits by decide)) (by rw [hact]; exact h.2.1.2.2)
  rw [hact] at hw
  exact congrArg Host.Outcome.next hw

/-- The Regulator turns the port off: its session ends with the answer (R277). -/
theorem exec_spEnableWrite_off (h : Writable s .regulator 0xA000 1 0) :
    exec (.spEnableWrite .regulator 0#8) s = .next (State.spOff
      (((State.served .regulator (s.setNum 0xA000 1 0 0)).emit (.directory .regulator stOk [])).onSp
        fun p => { p with closing := true })) := by
  have hact : spEnable .regulator 0 (s.served .regulator)
      = ((State.served .regulator (s.setNum 0xA000 1 0 0)).onSp fun p => { p with closing := true }, stOk) := rfl
  have hw := State.writeNum_closes (w := {}) (tenant := ownTenant) h rfl (k := 1) rfl (by decide) rfl rfl rfl
    (by rw [hact]; exact (show stOk ≠ stWaits by decide))
  rw [hact] at hw
  refine (congrArg Host.Outcome.next hw).trans (congrArg Host.Outcome.next ?_)
  have hn : (s.setNum 0xA000 1 0 0).spEnabled = false := by
    have hg : (s.setNum 0xA000 1 0 0).num 0xA000 1 0 0 = 0 :=
      congrArg (Option.getD · 0) (mapGet_mapSet_listed none (Option.some_ne_none 0) s.pd.nums (objKey 0xA000 1 0))
    rw [State.spEnabled, hg]
    rfl
  have hc (t : State) (h1 : t.sp.closing = true) (h2 : t.spEnabled = false) : t.spClose = t.spOff := by
    simp [State.spClose, h1, h2]
  exact hc _ rfl hn

/-- A WRITE of the regulator root by its three outcomes (R277). -/
theorem exec_spRootDigestWrite {b : Bytes} {burnt : Bool} (h : WritableBytes s .regulator 0xA000 0xC b) (hl : b.length = 32) :
    exec (.spRootDigestWrite .regulator ⟨b, burnt⟩) s =
      let r := spRootDigest .regulator b burnt (s.served .regulator)
      .next (r.1.emit (.directory .regulator r.2 [])) := by
  have hr : ∀ r, spRootDigest .regulator b burnt (s.served .regulator) = r → r.2 ≠ stWaits ∧ r.1.sp.closing = s.sp.closing := by
    rintro r rfl
    unfold spRootDigest
    split
    · exact ⟨show stAccessDenied ≠ stWaits by decide, rfl⟩
    · split
      · exact ⟨show stModeRefused ≠ stWaits by decide, rfl⟩
      · split
        · exact ⟨show stInternalFault ≠ stWaits by decide, rfl⟩
        · exact ⟨show stOk ≠ stWaits by decide, rfl⟩
  obtain ⟨hw, hc⟩ := hr _ rfl
  exact congrArg Host.Outcome.next (State.writeDigest_acts (w := { burnt := burnt }) (tenant := ownTenant) h rfl (k := 32) rfl hl
    rfl rfl rfl hw (hc.trans h.2.1.2.2))

end Sys2Proof.Machine

open Sys2Proof Sys2Proof.Machine

/-- Settles O46, clause by clause. -/
theorem supervisoryPort : Obligations.SupervisoryPort := fun s => by
  refine ⟨fun d type b hop hhop => ?_, fun ip mac hu ha => ?_, fun ip => ?_, fun ip payload hu hl hs => ?_,
    fun hp he => ⟨fun r hr hl => ?_, fun n hl hd => ?_, ?_⟩, fun phy reg d hr hb => ?_, fun hb h0 h3 => ?_, fun hu => ?_,
    fun v h ho hm hi => exec_spEnableWrite_on h ho hm hi, fun t h ho => exec_spEnableWrite_denied h ho,
    fun h => ⟨_, exec_spEnableWrite_off h, rfl⟩, fun hm => ?_, fun b h hl => ?_⟩
  · obtain rfl : hop = s.nextHop d.ip := by simpa [State.nextHop] using hhop
    exact ⟨fun h => by rw [State.sendRecord, State.resolve_known h], fun h hl => by
      rw [State.sendRecord, State.resolve_unknown h hl]
      simp [State.emit]⟩
  · simp [exec, execArpRequest, hu, ha, arpLearn, State.onSp]
    rfl
  · refine ⟨_, rfl, rfl, fun e => ?_⟩
    simp [State.onSp, imp_iff_not_or]
  · rw [exec_icmpEcho hu hl hs]
    exact ⟨fun h => by rw [if_neg (Nat.not_le.mpr h)], fun h => by rw [if_pos h]⟩
  · exact ⟨_, exec_phyPoll_up hp he hr hl, rfl, State.testBit_spLink rfl⟩
  · exact ⟨_, exec_phyPoll_silent hp he hl hd, rfl, State.testBit_latch_keeps (State.testBit_spLink rfl)⟩
  · exact ⟨_, exec_spRxError hp he, rfl, State.testBit_spLink rfl⟩
  · refine ⟨congrArg Host.Outcome.next (State.mdioRow_starts hr hb), fun hd => ?_⟩
    refine congrArg Host.Outcome.next ((State.mdioRow_starts hr hb).trans ?_)
    simp [State.onSp, Nat.mod_eq_of_lt hd]
  · exact ⟨fun ho d => exec_mdioDone_read hb ho h0 h3, fun ho => ⟨_, exec_mdioDone_silent hb ho, rfl, State.testBit_spLink rfl⟩,
      fun ho a => exec_mdioDone_write hb ho⟩
  · simp [exec, execYilileRecordDiscard, hu, State.discardRecord, State.onSp]
  · obtain ⟨hoff, hn⟩ := State.spOff_eq hm
    have hsp := congrArg State.sp hoff
    refine ⟨by rw [hsp]; exact hoff, by rw [hsp], by rw [hsp], by rw [hsp], hn, State.latched_spOff hm⟩
  · have hs : slice b 0 32 = b := by simp [slice, ← hl]
    refine ⟨fun hr => ⟨?_, ?_⟩, fun hr burnt => ?_⟩
    · rw [Wrote, exec_spRootDigestWrite h hl]
      simp [spRootDigest, Nat.not_le.mpr hr, hs]
      rfl
    · rw [Wrote, exec_spRootDigestWrite h hl]
      simp [spRootDigest, Nat.not_le.mpr hr]
    · rw [Wrote, exec_spRootDigestWrite h hl]
      simp [spRootDigest, hr]
end

