-- ==== Sys2Proof/Proofs/RegulatorSession.lean ====
section
-- The whole text is compiled in one process: one proof at a time keeps it within its memory.
set_option Elab.async false
/-! LEMMAS. The session of the regulator (R278 to R284). -/

namespace Sys2Proof.Machine

variable {s : State}

/-- A record that goes out leaves the end that a session has still to come as it is. -/
theorem State.sendRecord_closing (d : NetSrc) (type : Nat) (b : Bytes) :
    (s.sendRecord d type b).sp.closing = s.sp.closing := by
  unfold State.sendRecord State.resolve
  extract_lets hop t
  split
  · rfl
  · rfl

/-! ### HELLO_C -/

/-- An accepted HELLO_C: HELLO_D under the keys of R281, with the draws of DRBG 78 as its nonce and its secret. -/
theorem State.acceptHello_eq (s : State) (h : HelloCFields) : ∃ (w : State) (y : Session) (nonce : Bytes) (k : Nat),
    let body := nonce ++ p384Point y.secret ++ List.replicate 7 0 ++ deviceCert ++ be 8 s.tb.deviceTime
      ++ be 1 s.pwr.mode.code ++ List.replicate 7 0
    let th1 := Config.sha384 (helloRecord h ++ (yilileRecord 2 y.sid 0 (body ++ List.replicate 96 0)).take 472)
    let rec' := yilileRecord 2 y.sid 0 (body ++ deviceSign k (0x59 :: 0x44 :: th1))
    s.acceptHello h = w.sendRecord h.src 2 rec'
    ∧ w = { s with sp := { s.sp with session := some y }, en := w.en, pd := w.pd, freeCtr := w.freeCtr }
    ∧ y = { sid := (Config.freeValue 64 s.freeCtr).toNat, source := h.src, opened := false
            signer := Config.sha256 h.signer.publicKey, last := s.clock
            secret := y.secret, z := p384Shared y.secret h.ephemeral, th2 := Config.sha384 (helloRecord h ++ rec')
            kRd := sessionKey y.z 1 32 th1, kDr := sessionKey y.z 2 32 th1, salt := sessionKey y.z 3 8 th1 } := by
  obtain ⟨en, pd, c, hu⟩ := State.generate_poolDrew (s.takeFree 1) (i := 78) (by decide) 88 false
  unfold State.acceptHello
  generalize (s.takeFree 1).generate 78 88 false = r at hu ⊢
  obtain ⟨b, u⟩ := r
  subst hu
  extract_lets sid r u' d body unsigned th1 sig record z w
  refine ⟨w, ?y, b.take 32, c, ?_, ?_, ?_⟩
  case y => exact {
    sid := sid, source := h.src, opened := false, signer := Config.sha256 h.signer.publicKey, last := s.clock
    secret := d, z := z, th2 := Config.sha384 (helloRecord h ++ record)
    kRd := sessionKey z 1 32 th1, kDr := sessionKey z 2 32 th1, salt := sessionKey z 3 8 th1 }
  · rfl
  · rfl
  · rfl

theorem exec_helloC {h : HelloCFields} (hu : s.spUp = true) (hf : s.foreign h.src = false) (he : s.coreEntropyBlock = none) :
    exec (.helloC h) s = .next (match s.helloCode h with
      | some c => s.refuseHello h.src c
      | none => s.acceptHello h) := by
  cases hc : s.helloCode h with
  | none => simp [exec, execHelloC, hu, hf, he, hc]
  | some c => simp [exec, execHelloC, hu, hf, he, hc]

/-! ### FINISH_C and DATA -/

variable {x : Session}

theorem exec_finishC_opens (hs : s.sp.session = some x) (hu : s.spUp = true) (ho : x.opened = false)
    (hf : s.foreign x.source = false) : exec (.finishC x.source x.sid true true) s = .next (s.openSession x) := by
  simp [exec, execFinishC, hu, hs, hf, ho]

theorem exec_finishC_refuses {sig : Bool} (hs : s.sp.session = some x) (hu : s.spUp = true) (ho : x.opened = false)
    (hf : s.foreign x.source = false) : exec (.finishC x.source x.sid false sig) s =
      .next (State.sendRecord x.source 0x20 (yilileRecord 0x20 x.sid 0 (be 1 5 ++ List.replicate 7 0))
        { s with sp := { s.sp with session := none } }) := by
  simp [exec, execFinishC, hu, hs, hf, ho]
  rfl

/-- An apply point changes the objects alone. -/
theorem State.applyNum_pd (s : State) (index sub inst : Nat) :
    s.applyNum index sub inst = { s with pd := (s.applyNum index sub inst).pd } := by
  unfold State.applyNum
  split
  · rfl
  · rfl

/-- The session opens with FINISH_D. -/
theorem State.openSession_eq (s : State) (x : Session) : ∃ t : State,
    s.openSession x = t.sendRecord x.source 4 (x.record 4 0 (be 4 t.sessionIdle ++ be 2 1424 ++ be 2 0 ++ be 8 s.tb.deviceTime))
    ∧ t = { s with
      sp := { s.sp with session := some { x with opened := true, last := s.clock, secret := 0, z := [] } }
      pd := (s.applyNum 0xA000 9 0).pd
      latches := t.latches }
    ∧ (t.latched .spLink (.tenant 0)).testBit 0 = true := by
  unfold State.openSession
  have ha := s.applyNum_pd 0xA000 9 0
  generalize s.applyNum 0xA000 9 0 = u at ha ⊢
  generalize u.pd = pd at ha ⊢
  subst ha
  exact ⟨_, rfl, rfl, State.testBit_spLink rfl⟩

theorem Session.owns_self (ho : x.opened = true) : x.owns x.source x.sid = true := by simp [Session.owns, ho]

theorem parseRequest_sink (v : Viewer) (d : DirSink) (cap : Nat) (b : Bytes) :
    (parseRequest v d cap b).sink = d ∧ (parseRequest v d cap b).viewer = v := by
  unfold parseRequest
  dsimp only
  split
  · exact ⟨rfl, rfl⟩
  · split
    · exact ⟨rfl, rfl⟩
    · exact ⟨rfl, rfl⟩
    · exact ⟨rfl, rfl⟩

/-- A request without an entry is answered at once. -/
theorem State.submit_empty {w : World} {r : DirReq} (hd : s.dirFree) (he : r.entries = []) :
    s.submit w r = (s.served r.viewer).finishReq r := by
  have hr : { r with entries := [] } = r := by rw [← he]
  simp only [State.submit, hd.outstanding, hd.1, Option.isSome_none, Bool.false_eq_true, if_false, State.runReq, he,
    State.runEntries, hr]
  rfl

/-- The response of the session's request goes out and is kept (R283). -/
theorem State.toSession_open {r : DirReq} (hs : s.sp.session = some x) :
    s.toSession r = State.sendRecord x.source 0x10 (x.record 0x10 x.seqIn r.response)
      (s.onSp fun p => { p with session := some { x with kept := x.record 0x10 x.seqIn r.response } }) := by
  simp only [State.toSession, hs]

/-- The session's request without an entry: its response goes out and is kept. -/
theorem State.submit_session {w : World} {r : DirReq} (hd : s.dirFree) (he : r.entries = []) (hk : r.sink = .session)
    (hv : r.viewer = .regulator) (hs : s.sp.session = some x) :
    s.submit w r = State.sendRecord x.source 0x10 (x.record 0x10 x.seqIn r.response)
      (State.served .regulator (s.onSp fun p => { p with session := some { x with kept := x.record 0x10 x.seqIn r.response } })) := by
  have ht : (s.served .regulator).toSession r = State.sendRecord x.source 0x10 (x.record 0x10 x.seqIn r.response)
      (State.served .regulator (s.onSp fun p => { p with session := some { x with kept := x.record 0x10 x.seqIn r.response } })) :=
    State.toSession_open (s := s.served .regulator) hs
  rw [State.submit_empty hd he, hv, State.finishReq, State.respondReq, hk]
  refine (State.spClose_id ?_).trans ht
  simp only [ht, State.sendRecord_closing]
  exact hd.2.2

/-- A record of the session with a good tag. -/
theorem exec_yilileData {seq : Nat} {plain : List (BitVec 8)} (hs : s.sp.session = some x) (hu : s.spUp = true)
    (ho : x.opened = true) (hf : s.foreign x.source = false) :
    exec (.yilileData x.source x.sid seq true plain) s = .next (
      if seq = x.seqIn + 1 && !s.outstanding 64 then
        (s.onSp fun p => { p with session := some { x with seqIn := seq, last := s.clock, kept := [] } }).submit {}
          (parseRequest .regulator .session 1424 plain)
      else if seq = x.seqIn && x.kept ≠ [] then
        (s.onSp fun p => { p with session := some { x with last := s.clock } }).sendRecord x.source 0x10 x.kept
      else s.discardRecord) := by
  simp only [exec, execYilileData, hu, hs, hf, Session.owns_self ho, Bool.not_true, Bool.or_self, Bool.false_eq_true, if_false]

/-- A CLOSE of the regulator in its order. -/
theorem exec_yilileClose (hs : s.sp.session = some x) (hu : s.spUp = true) (ho : x.opened = true)
    (hf : s.foreign x.source = false) : exec (.yilileClose x.source x.sid (x.seqIn + 1) true) s = .next s.dropSession := by
  simp [exec, execYilileClose, hu, hs, hf, Session.owns_self ho]

theorem State.sessionOpen_of (hs : s.sp.session = some x) (ho : x.opened = true) : s.sessionOpen = true := by
  simp [State.sessionOpen, hs, ho]

theorem State.sendRecord_session (d : NetSrc) (type : Nat) (b : Bytes) :
    (s.sendRecord d type b).sp.session = s.sp.session ∧ (s.sendRecord d type b).pwr = s.pwr := by
  unfold State.sendRecord State.resolve
  extract_lets hop t
  split
  · exact ⟨rfl, rfl⟩
  · exact ⟨rfl, rfl⟩

end Sys2Proof.Machine

open Sys2Proof Sys2Proof.Machine

/-- Settles O45, record by record. -/
theorem yilileSession : Obligations.YilileSession := by
  intro s x closed
  have hclosed (u : State) (hm : u.pwr.mode ≠ .ceremony) (ho : u.sessionOpen = true) : closed u u.dropSession := by
    refine ⟨?_, (State.latched_dropSession hm).1 ho⟩
    have h := State.dropSession_eq hm
    rw [h]
  refine ⟨fun h hu hf he => ⟨fun ho => by simp [State.helloCode, ho], fun c hc => ?_, fun hc => ?_⟩, fun hs hu =>
    ⟨fun ho hf => ⟨?_, fun sig => exec_finishC_refuses hs hu ho hf⟩, fun ho hl => ?_,
      fun ho hf => ⟨fun plain hd he => ?_, fun plain hk => ?_, fun plain seq h0 h1 => ?_, fun hm => ?_⟩,
      fun ho hm => ⟨fun hl => ?_, fun c hc hl => ?_⟩⟩⟩
  · rw [exec_helloC hu hf he, hc]
    rfl
  · obtain ⟨w, y, nonce, k, ha⟩ := s.acceptHello_eq h
    refine ⟨w, y, nonce, k, ?_⟩
    rw [exec_helloC hu hf he, hc]
    exact ⟨congrArg Host.Outcome.next ha.1, ha.2⟩
  · obtain ⟨t, ht, hrest⟩ := s.openSession_eq x
    exact ⟨t, (exec_finishC_opens hs hu ho hf).trans (congrArg Host.Outcome.next ht), hrest⟩
  · simp [exec, execHalfOpenTimeout, hs, ho, hl, State.onSp]
  · obtain ⟨hk, hv⟩ := parseRequest_sink .regulator .session 1424 plain
    rw [exec_yilileData hs hu ho hf, if_pos (by simp [hd.outstanding])]
    let y : Session := { x with seqIn := x.seqIn + 1, last := s.clock, kept := [] }
    have hy := State.submit_session (s := s.onSp fun p => { p with session := some y }) (x := y) (w := {}) hd he hk hv rfl
    exact congrArg Host.Outcome.next hy
  · rw [exec_yilileData hs hu ho hf, if_neg (by simp), if_pos (by simp [hk])]
    rfl
  · rw [exec_yilileData hs hu ho hf, if_neg (by simpa using h1), if_neg (by simpa using h0)]
    rfl
  · exact ⟨_, exec_yilileClose hs hu ho hf, hclosed s hm (State.sessionOpen_of hs ho)⟩
  · obtain ⟨h1, h2⟩ := s.sendRecord_session x.source 0x12 (x.record 0x12 (x.seqIn + 1) [])
    refine ⟨_, ?_, hclosed _ (by rw [h2]; exact hm) (State.sessionOpen_of (h1.trans hs) ho)⟩
    simp [exec, execSessionIdleTimeout, hs, ho, hl]
  · refine ⟨_, ?_, hclosed s hm (State.sessionOpen_of hs ho)⟩
    simp [exec, execSpLinkDownTimeout, hc, hl]
end

