-- ==== Sys2Proof/Proofs/DirectoryEntriesKept.lean ====
section
-- The whole text is compiled in one process: one proof at a time keeps it within its memory.
set_option Elab.async false
/-! LEMMAS. READ, DESCRIBE, NEXT and WRITE of one object, and the mailbox (R263, R268 to R274, Table 11.10). -/

namespace Sys2Proof.Machine

variable {s : State} {v : Viewer}

/-! ### Single entries -/

/-- The place of an object that a request for the viewer's own names (R269). -/
def ownInstance (v : Viewer) : Nat :=
  match v with
  | .tenant t => t
  | _ => 0

theorem namedTenant_own (v : Viewer) : namedTenant v 0xFF = .ok (ownInstance v) := by
  cases v <;> rfl

theorem getNum_nil (v : Viewer) : getNum v [] = 0 := by
  cases v <;> rfl

theorem PType.size_le (t : PType) {n : Nat} (h : t.size = some n) : n ≤ 32 := by
  cases t <;> simp_all [PType.size] <;> omega

/-- The objects that the key store answers are byte strings without a fixed size (Table 12.12). -/
theorem keyObjects_sizeless {index sub n : Nat} {o : Obj} (ho : findObj index sub = some o) (hn : o.type.size = some n) :
    ¬(index = 0x2100 ∧ (sub = 0xB ∨ sub = 0xC)) := by
  rintro ⟨rfl, rfl | rfl⟩
  · obtain rfl : _ = o := Option.some.inj (ho.symm.trans rfl).symm
    exact nomatch hn
  · obtain rfl : _ = o := Option.some.inj (ho.symm.trans rfl).symm
    exact nomatch hn

/-! No value depends on the round of R271. -/

theorem State.served_evidenceFrom (s : State) (u : Viewer) :
    ∀ n seq, (s.served u).evidenceFrom seq n = s.evidenceFrom seq n
  | 0, _ => rfl
  | n + 1, seq => by
    unfold State.evidenceFrom
    rw [State.served_evidenceFrom s u n]
    rfl

theorem State.served_bytesVal (s : State) (v u : Viewer) (index sub : Nat) :
    (s.served u).bytesVal v index sub = s.bytesVal v index sub := by
  have h : (s.served u).evidenceRecords (viewerCode v) = s.evidenceRecords (viewerCode v) :=
    s.served_evidenceFrom u 128 (s.num 0x9100 3 (viewerCode v) 0)
  unfold State.bytesVal
  rw [h]
  congr 1

theorem State.served_numVal (s : State) (v u : Viewer) (inst index sub : Nat) :
    (s.served u).numVal v inst index sub = s.numVal v inst index sub := by
  unfold State.numVal
  congr 1

theorem State.served_checkedVal (s : State) (v u : Viewer) (inst index sub : Nat) :
    (s.served u).checkedVal v inst index sub = s.checkedVal v inst index sub := by
  unfold State.checkedVal
  congr 1

theorem State.served_objVal (s : State) (v u : Viewer) (o : Obj) (inst index sub : Nat) :
    (s.served u).objVal v o inst index sub = s.objVal v o inst index sub := by
  unfold State.objVal
  rw [State.served_checkedVal, State.served_bytesVal, State.served_numVal]
  rfl

theorem State.served_readEffect (s : State) (v u : Viewer) (index sub : Nat) :
    (s.served u).readEffect v index sub = (s.readEffect v index sub).served u := by
  unfold State.readEffect
  split <;> rfl

theorem State.readEffect_closing (s : State) (v : Viewer) (index sub : Nat) :
    (s.readEffect v index sub).sp.closing = s.sp.closing := by
  unfold State.readEffect
  split <;> rfl

/-- READ of a number that the viewer may read. -/
theorem State.execEntry_read {w : World} {o : Obj} {inst index sub n x : Nat} (ho : findObj index sub = some o)
    (hn : o.type.size = some n) (hd : s.entryDenied v o index sub 1 0 = false)
    (hx : s.objVal v o inst index sub = .ok (.num x)) :
    s.execEntry w v inst { index := index, sub := sub, op := 1, offset := 0, length := 0 }
      = (s.readEffect v index sub, { index := index, sub := sub, op := 1, status := stOk, type := o.type.code
                                     staged := s.stagedDiffers o (o.instFor v inst) index sub, value := putNum v n x
                                     total := s.fullLength v o inst index sub }) := by
  have hk : (index = 0x2100 && (sub = 0xB || sub = 0xC) && s.storeReadFails v inst) = false := by
    cases hc : (index = 0x2100 && (sub = 0xB || sub = 0xC) : Bool) with
    | false => rfl
    | true => exact absurd (by simpa using hc) (keyObjects_sizeless ho hn)
  simp only [State.execEntry, DirEntry.malformed, ho, getNum_nil, hd, State.entryRead, hk, hn]
  simp [hx, Val.encode]

/-! An entry that is answered without a value. -/

theorem State.execEntry_absent {w : World} {inst index sub off len : Nat} (ho : findObj index sub = none) (hi : index < 0xF000) :
    s.execEntry w v inst { index := index, sub := sub, op := 1, offset := off, length := len }
      = (s, { index := index, sub := sub, op := 1, status := stNoObject }) := by
  simp [State.execEntry, DirEntry.malformed, ho, State.absentStatus, Nat.not_le.mpr hi]

theorem State.execEntry_denied {w : World} {o : Obj} {inst index sub off len : Nat} (ho : findObj index sub = some o)
    (hd : s.entryDenied v o index sub 1 0 = true) :
    s.execEntry w v inst { index := index, sub := sub, op := 1, offset := off, length := len }
      = (s, { index := index, sub := sub, op := 1, status := stAccessDenied }) := by
  simp [State.execEntry, DirEntry.malformed, ho, getNum_nil, hd]

/-! DESCRIBE and NEXT. -/

theorem State.execEntry_describe {w : World} {o : Obj} {inst index sub : Nat} (ho : findObj index sub = some o)
    (hd : s.entryDenied v o index sub 3 0 = false) :
    s.execEntry w v inst { index := index, sub := sub, op := 3, length := 0 }
      = (s, { index := index, sub := sub, op := 3, status := stOk, type := o.type.code
              value := o.descriptor v index sub, total := s.fullLength v o inst index sub }) := by
  simp [State.execEntry, DirEntry.malformed, ho, getNum_nil, hd]

theorem objects_name_le : ∀ o ∈ objects, o.name.toList.length ≤ 32 := by
  simp only [objects, List.forall_mem_append]
  refine ⟨⟨⟨⟨⟨⟨⟨⟨⟨⟨⟨?_, ?_⟩, ?_⟩, ?_⟩, ?_⟩, ?_⟩, ?_⟩, ?_⟩, ?_⟩, ?_⟩, ?_⟩, ?_⟩
  · simp [objects1]
  · simp [objects2]
  · simp [objects3]
  · simp [objects4]
  · simp [objects5]
  · simp [objects6]
  · simp [objects7]
  · simp [objects8]
  · simp [objects9]
  · simp [objectsA]
  · simp [objectsB]
  · simp [objectsC]

theorem Obj.defaultBytes_length_le (o : Obj) (v : Viewer) : (o.defaultBytes v).length ≤ 32 := by
  unfold Obj.defaultBytes
  split
  · simp [evidenceStart]
  · split
    · next hn _ => simpa using o.type.size_le hn
    · exact Nat.zero_le _

/-- A descriptor is 80 bytes at the most (Table 11.9). -/
theorem Obj.descriptor_length_le {o : Obj} {index sub : Nat} (ho : findObj index sub = some o) (v : Viewer) :
    (o.descriptor v index sub).length ≤ 80 := by
  have hname := objects_name_le o (List.mem_of_find?_eq_some ho)
  have hd := o.defaultBytes_length_le v
  simp only [Obj.descriptor, padTo, ascii, List.length_append, List.length_cons, List.length_nil, putNum_length,
    List.length_replicate, List.length_map]
  omega

theorem State.served_nextObj (s : State) (v u : Viewer) (index sub : Nat) :
    (s.served u).nextObj v index sub = s.nextObj v index sub := by
  unfold State.nextObj
  simp only [State.served_entryDenied]
  rfl

theorem State.execEntry_next {w : World} {o : Obj} {inst index sub k l : Nat} (h : s.nextObj v index sub = some (o, k, l)) :
    s.execEntry w v inst { index := index, sub := sub, op := 4, length := 0 }
      = (s, { index := k, sub := l, op := 4, status := stOk, type := o.type.code
              total := if s.entryDenied v o k l 1 0 then 0 else s.fullLength v o inst k l }) := by
  simp [State.execEntry, DirEntry.malformed, State.entryNext, h]

/-! A part of a byte string is staged (R270). -/

theorem State.execEntry_part {w : World} {o : Obj} {inst index sub : Nat} {b : Bytes} (ho : findObj index sub = some o)
    (ht : o.type = .octets) (hd : s.entryDenied v o index sub 2 (getNum v b) = false) (hl : b.length ≤ 4096)
    (hoff : o.apply = .off → s.offEnabled index = false) (hs : ∀ x ∈ s.pd.staging, x.viewer ≠ v) :
    s.execEntry w v inst { index := index, sub := sub, op := 2, eflags := 1, length := b.length, value := b }
      = let t := s.onPd fun p => { p with staging := p.staging ++ [{
          viewer := v, index := index, sub := sub, inst := inst, bytes := b, start := s.clock }] }
        (t, t.wroteOut v o inst index sub stOk) := by
  have hoff' : (o.apply = .off && s.offEnabled index) = false := by
    by_cases h : o.apply = .off
    · simp [hoff h]
    · simp [h]
  have hnone : s.stagedBy v = none := by
    have hf : (s.pd.staging.find? fun x => x.viewer = v) = none :=
      List.find?_eq_none.mpr fun x hx => by simpa using hs x hx
    rw [State.stagedBy, hf]
    rfl
  have hdrop : s.dropStaging v = s := by
    have hf : (s.pd.staging.filter fun x => x.viewer ≠ v) = s.pd.staging :=
      List.filter_eq_self.mpr fun x hx => decide_eq_true (hs x hx)
    rw [State.dropStaging, State.onPd, hf]
  have hmax : ¬ o.type.maxLength < 0 + b.length := by
    rw [ht, show PType.maxLength .octets = 4096 from rfl]
    omega
  simp only [State.execEntry, DirEntry.malformed, ho, hd, State.entryWrite, State.writeBytes, State.sequence, hnone, hmax, hoff',
    hdrop]
  simp [ht, PType.size, State.wroteOut]

/-! ### The mailbox -/

theorem Memory.readBytes_add (m : Memory) : ∀ (k n a : Nat),
    m.readBytes a (k + n) = m.readBytes a k ++ m.readBytes (a + k) n
  | 0, n, a => by rw [Nat.zero_add]; rfl
  | k + 1, n, a => by
    rw [Nat.add_right_comm, Memory.readBytes, Memory.readBytes, Memory.readBytes_add m k n (a + 1), List.cons_append,
      Nat.add_right_comm a 1 k]
    rfl

/-- Bytes written in two parts, the last first (R274). -/
theorem stored_two_parts {m : Memory} (h : m.wf = true) {k : Nat} {b : Bytes} (hk : k ≤ b.length) (a : Nat) :
    Stored m ((m.writeBytes (a + k) (b.drop k)).writeBytes a (b.take k)) a b := by
  have hlt : (b.take k).length = k := by simpa using hk
  have hld : (b.drop k).length = b.length - k := List.length_drop
  refine ⟨?_, fun x hx => ?_⟩
  · have h1 : ((m.writeBytes (a + k) (b.drop k)).writeBytes a (b.take k)).readBytes a k = b.take k := by
      have := Memory.readBytes_writeBytes (b.take k) (Memory.wf_writeBytes (b.drop k) h (a + k)) a
      rwa [hlt] at this
    have h2 : ((m.writeBytes (a + k) (b.drop k)).writeBytes a (b.take k)).readBytes (a + k) (b.length - k) = b.drop k := by
      rw [Memory.readBytes_congr _ _ fun x hlo _ => Memory.read_writeBytes_outside (b.take k) _ a x (by omega)]
      have := Memory.readBytes_writeBytes (b.drop k) h (a + k)
      rwa [hld] at this
    rw [show b.length = k + (b.length - k) by omega, Memory.readBytes_add, h1, h2, List.take_append_drop]
  · rw [Memory.read_writeBytes_outside _ _ _ _ (by omega), Memory.read_writeBytes_outside _ _ _ _ (by omega)]

theorem DirReq.response_length (r : DirReq) : 16 ≤ r.response.length := by
  simp only [DirReq.response, List.length_append, List.length_cons, List.length_nil, putNum_length]
  omega

/-- A range in which no DMA fails takes a write. -/
theorem State.dmaLands_of_dmaOk {fn a n : Nat} (h : s.dmaOk fn a n = true) : s.dmaLands fn a n = true := by
  simp only [State.dmaOk, State.dmaLands, Bool.or_eq_true, Bool.and_eq_true] at h ⊢
  exact h.imp_right And.left

theorem State.dmaWrite_lands {fn a : Nat} {b : Bytes} (h : s.dmaLands fn a b.length = true) :
    s.dmaWrite fn a b = { s with hostMem := s.hostMem.writeBytes a b } := by
  simp only [State.dmaWrite, h, if_true]

/-- The response in host memory, where its range takes writes. -/
theorem State.dmaSend_response {fn a : Nat} {b : Bytes} (h : s.dmaOk fn a b.length = true) (hb : 16 ≤ b.length) :
    s.dmaSend fn [(a + 16, b.drop 16), (a, b.take 16)]
      = ({ s with hostMem := (s.hostMem.writeBytes (a + 16) (b.drop 16)).writeBytes a (b.take 16) }, true) := by
  have hl := State.dmaLands_of_dmaOk h
  have h1 : s.dmaLands fn (a + 16) (b.drop 16).length = true :=
    State.dmaLands_inside hl (by omega) (by rw [List.length_drop]; omega)
  have h2 : s.dmaLands fn a (b.take 16).length = true :=
    State.dmaLands_inside hl (Nat.le_refl a) (by rw [List.length_take]; omega)
  have h3 (m : Memory) : ({ s with hostMem := m } : State).dmaLands fn a (b.take 16).length = true := h2
  simp only [State.dmaSend, h1, if_true, State.dmaWrite_lands h1, h3, State.dmaWrite_lands (h3 _)]

/-- A request keeps its viewer and where its response goes. -/
theorem State.runEntries_keeps (w : World) : ∀ (es : List DirEntry) (r : DirReq) (s : State),
    (s.runEntries w es r).2.1.sink = r.sink ∧ (s.runEntries w es r).2.1.viewer = r.viewer
  | [], r, s => ⟨rfl, rfl⟩
  | e :: es, r, s => by
    unfold State.runEntries
    split
    · exact ⟨rfl, rfl⟩
    · extract_lets x b
      split
      · exact ⟨rfl, rfl⟩
      · split
        · exact ⟨rfl, rfl⟩
        · exact State.runEntries_keeps w es { r with count := r.count + 1, out := r.out ++ b } x.1

/-- A request that does not wait, while nothing else of the Directory does, is answered at once. -/
theorem State.submit_runs {w : World} {r : DirReq} {y : State × DirReq × Bool} (hd : s.dirFree)
    (hy : (s.served r.viewer).runEntries w r.entries r = y) (hw : y.2.2 = false) :
    s.submit w r = y.1.finishReq y.2.1 := by
  have hs : (s.onPd fun p => { p with turn := r.origin }) = s.served r.viewer := rfl
  simp only [State.submit, hd.outstanding, hd.1, Option.isSome_none, Bool.false_eq_true, if_false, State.runReq, hs, hy, hw]

theorem State.mbxBusy_free (hd : s.dirFree) (n : Nat) : s.mbxBusy n = false := by
  simp [State.mbxBusy, hd.1, hd.2.1]

theorem State.tenant_mem_pdMbx (s : State) (n : Nat) : Viewer.tenant n ∈ s.rcViewers (.pdMbx n) := by
  show _ ∈ (if n = 0 then [Viewer.tenant 0, .maker] else [.tenant n])
  split
  · next h =>
    rw [h]
    exact List.mem_cons_self ..
  · exact List.mem_singleton_self _

/-- GO of a mailbox whose request can be fetched (R274). -/
theorem State.mbxGo_submits {n : Nat} {m : Mbx} (hm : mapGet {} s.hg.mbx n = m) (hd : s.dirFree)
    (h1 : 2 ≤ bitsOf m.size.toNat 15 0) (h2 : bitsOf m.size.toNat 15 0 ≤ 8192) (h3 : 2 ≤ bitsOf m.size.toNat 31 16)
    (h4 : bitsOf m.size.toNat 31 16 ≤ 8192) (ho : s.dmaOk n m.reqAddr (8 * bitsOf m.size.toNat 15 0) = true) :
    s.mbxGo n = s.submit {} (parseRequest (.tenant n) (.mailbox n) (8 * bitsOf m.size.toNat 31 16)
      (s.dmaBytes m.reqAddr (8 * bitsOf m.size.toNat 15 0))) := by
  have hb : (bitsOf m.size.toNat 15 0 < 2 || 8192 < bitsOf m.size.toNat 15 0 || bitsOf m.size.toNat 31 16 < 2
      || 8192 < bitsOf m.size.toNat 31 16 : Bool) = false := by
    simp [h2, h4, Nat.not_lt.mpr h1, Nat.not_lt.mpr h3]
  simp only [State.mbxGo, hm, State.mbxBusy_free hd, hb, ho, Bool.false_eq_true, if_false, Bool.not_true]

/-- The end of a mailbox request without an interrupt: its response in host memory, DONE and its status. -/
theorem State.toMailbox_lands {n : Nat} {m : Mbx} {r : DirReq} (hm : mapGet {} s.hg.mbx n = m) (hi : m.ctrl.getLsbD 0 = false)
    (ho : s.dmaOk n m.respAddr r.response.length = true) :
    s.toMailbox n r = ({ s with
      hostMem := (s.hostMem.writeBytes (m.respAddr + 16) (r.response.drop 16)).writeBytes m.respAddr (r.response.take 16)
      hg := { s.hg with mbx := mapSet {} s.hg.mbx n { m with status := r.status.toNat } } } : State).latch (.pdMbx n) 0x40000000 := by
  simp only [State.toMailbox, hm, State.dmaSend_response ho r.response_length, if_true, State.mailboxDone, hi,
    Bool.false_eq_true, if_false]
  rfl

/-- What the end of such a request leaves (R274). -/
theorem State.toMailbox_eq {n : Nat} {m : Mbx} {r : DirReq} (hm : mapGet {} s.hg.mbx n = m) (hi : m.ctrl.getLsbD 0 = false)
    (hs : m.size ≠ 0) (ho : s.dmaOk n m.respAddr r.response.length = true) (hwf : s.hostMem.wf = true) :
    ∃ t, s.toMailbox n r = t ∧ t = { s with hostMem := t.hostMem, hg := { s.hg with mbx := t.hg.mbx }, latches := t.latches }
      ∧ Stored s.hostMem t.hostMem m.respAddr r.response ∧ (t.latched (.pdMbx n) (.tenant n)).testBit 30 = true
      ∧ mapGet {} t.hg.mbx n = { m with status := r.status.toNat } :=
  ⟨_, State.toMailbox_lands hm hi ho, rfl, stored_two_parts hwf r.response_length m.respAddr,
    State.testBit_latch (State.tenant_mem_pdMbx _ n) rfl, mapGet_mapSet_listed _ (fun h0 => hs (congrArg Mbx.size h0)) _ _⟩

end Sys2Proof.Machine

open Sys2Proof Sys2Proof.Machine

/-- Settles O44, kind of entry by kind of entry. -/
theorem directoryEntries : Obligations.DirectoryEntries := by
  intro s v own
  have hown : namedTenant v (0xFF#8).toNat = .ok own := namedTenant_own v
  refine ⟨fun i j o n x hr ho hn hb hx => ?_, fun ha hd i j => ⟨fun ho hi off len => ?_, fun o ho he off len => ?_,
      fun o ho he => ?_, fun o k l h => ?_⟩, ?_, ?_, ⟨_, rfl, rfl, fun x => ?_⟩, ?_⟩
  · obtain ⟨ha, hd, o', ho', he⟩ := hr
    obtain rfl : o = o' := Option.some.inj (ho.symm.trans ho')
    have hx' : (s.served v).objVal v o own i.toNat j.toNat = .ok (.num x) := (State.served_objVal ..).trans hx
    have hsize := o.type.size_le hn
    have h := State.single_stays (w := {}) ha hd hown (State.execEntry_read ho hn he hx') (show (1 : Nat) < 256 by decide)
      nofun (by simp only [putNum_length]; omega) (by rw [State.readEffect_closing]; exact hd.2.2)
    rw [State.served_readEffect] at h
    exact congrArg Host.Outcome.next h
  · exact congrArg Host.Outcome.next (State.single_stays (w := {}) ha hd hown (State.execEntry_absent ho hi) (show (1 : Nat) < 256 by decide)
      nofun (Nat.zero_le _) hd.2.2)
  · exact congrArg Host.Outcome.next (State.single_stays (w := {}) ha hd hown (State.execEntry_denied ho he) (show (1 : Nat) < 256 by decide)
      nofun (Nat.zero_le _) hd.2.2)
  · exact congrArg Host.Outcome.next (State.single_stays (w := {}) ha hd hown (State.execEntry_describe ho he) (show (3 : Nat) < 256 by decide)
      nofun ((Obj.descriptor_length_le ho v).trans (by decide)) hd.2.2)
  · exact congrArg Host.Outcome.next (State.single_stays (w := {}) ha hd hown
      (State.execEntry_next ((State.served_nextObj ..).trans h)) (show (4 : Nat) < 256 by decide) nofun (Nat.zero_le _) hd.2.2)
  · intro i j env o n x u hw ho hn hb hx hact
    obtain ⟨ha, hd, o', ho', he, hacc, hnow, hoff⟩ := hw
    obtain rfl : o = o' := Option.some.inj (ho.symm.trans ho')
    have hg : getNum v (putNum v n x) = x := by
      rw [getNum_putNum]
      exact Nat.mod_eq_of_lt hx
    have hval : (if o.type.isBytes then Val.bytes (putNum v n x) else .num (getNum v (putNum v n x))) = .num x := by
      simp [hb, hg]
    have h := State.execEntry_write (s := u.served v) (w := {}) (inst := own) ho hn (putNum_length v n x) hval
      (by rw [hg]; exact he) hoff hacc
    rw [State.applyWrite_puts (s := u.served v) hact hnow] at h
    have hs := State.single_stays (w := {}) ha hd hown h (show (2 : Nat) < 256 by decide) (fun _ => (show stOk ≠ stWaits by decide))
      (Nat.zero_le _) ?_
    · refine (congrArg Host.Outcome.next hs).trans (congrArg Host.Outcome.next ?_)
      simp only [State.putVal]
      split
      · rfl
      · rfl
    · simp only [State.putVal]
      split
      · exact hd.2.2
      · exact hd.2.2
  · intro i j env o b u hw ho ht hl hst
    obtain ⟨ha, hd, o', ho', he, hacc, hnow, hoff⟩ := hw
    obtain rfl : o = o' := Option.some.inj (ho.symm.trans ho')
    have h := State.execEntry_part (s := u.served v) (w := {}) (inst := own) ho ht he hl hoff hst
    exact congrArg Host.Outcome.next (State.single_stays (w := {}) ha hd hown h (show (2 : Nat) < 256 by decide)
      (fun _ => (show stOk ≠ stWaits by decide)) (Nat.zero_le _) hd.2.2)
  · simp [imp_iff_not_or]
  · intro loc n env u m len cap r y hr hd h1 h2 h3 h4 ho hw hc hm hi hro hwf
    obtain ⟨hk, hv⟩ := parseRequest_sink (.tenant n) (.mailbox n) (8 * cap) (u.dmaBytes m.reqAddr (8 * len))
    have hgo : u.mbxGo n = y.1.finishReq y.2.1 := by
      rw [State.mbxGo_submits (s := u) (m := m) rfl hd h1 h2 h3 h4 ho]
      exact State.submit_runs hd (by rw [hv]) hw
    have hsink : y.2.1.sink = .mailbox n := (State.runEntries_keeps {} r.entries r (u.served (.tenant n))).1.trans hk
    have hfin : y.1.finishReq y.2.1 = y.1.toMailbox n y.2.1 := by
      rw [State.finishReq, State.respondReq, hsink]
      refine State.spClose_id ?_
      simp only [State.toMailbox_lands hm hi hro]
      exact hc
    have hexec : exec (.mbxGo loc env) s = .next (u.mbxGo n) :=
      congrArg Host.Outcome.next (State.hostWrite_reached (s := u) hr _)
    have hsize : m.size ≠ 0 := fun h0 => by simp [h0, len, bitsOf] at h1
    obtain ⟨t, ht, hrest⟩ := State.toMailbox_eq hm hi hsize hro hwf
    exact ⟨t, hexec.trans (congrArg Host.Outcome.next (hgo.trans (hfin.trans ht))), hrest⟩
end

