-- ==== Sys2Proof/Proofs/DirectoryRound.lean ====
section
-- The whole text is compiled in one process: one proof at a time keeps it within its memory.
set_option Elab.async false
/-! LEMMAS. Nothing that work on an accepted request does depends on the round of R271 or on the end that a session has still
to come: each operation commutes with both. In the order of the model's files, up to the assignment of engines and units
(`assignWork`). -/

namespace Sys2Proof.Machine

/-- The state with these two of the Directory's engine and the session. -/
def State.turned (turn : Nat) (ending : Bool) (s : State) : State :=
  { s with pd := { s.pd with turn := turn }, sp := { s.sp with closing := ending } }

variable {s : State} {v : Viewer} {turn : Nat} {ending : Bool}

theorem State.turned_self (s : State) : s.turned s.pd.turn s.sp.closing = s := rfl

theorem State.served_eq_turned (s : State) (v : Viewer) : s.served v = s.turned (originOf v) s.sp.closing := rfl

/-- What commutes with both keeps the end that a session has still to come, and commutes with the round. -/
theorem State.commutes_served {f : State → State} (hf : ∀ s turn ending, f (s.turned turn ending)
    = (f s).turned turn ending) :
    (f s).sp.closing = s.sp.closing ∧ f (s.served v) = (f s).served v := by
  have hc : (f s).sp.closing = s.sp.closing :=
    (congrArg (fun t : State => t.sp.closing) (hf s s.pd.turn s.sp.closing)).trans rfl
  refine ⟨hc, ?_⟩
  rw [State.served_eq_turned, hf, State.served_eq_turned, hc]

/-- A fold of steps that do not read the round does not read it either. -/
theorem State.turned_foldl {α : Type} {f : State → α → State} (hf : ∀ s x, f (s.turned turn ending) x
    = (f s x).turned turn ending)
    (l : List α) : l.foldl f (s.turned turn ending) = (l.foldl f s).turned turn ending := by
  induction l generalizing s with
  | nil => rfl
  | cons x l ih => rw [List.foldl_cons, hf, ih, List.foldl_cons]

theorem State.turned_pending : State.pending (s.turned turn ending) = State.pending s := rfl

theorem State.turned_clock : State.clock (s.turned turn ending) = State.clock s := rfl

theorem State.turned_freeCtr : State.freeCtr (s.turned turn ending) = State.freeCtr s := rfl

theorem State.turned_outbox : State.outbox (s.turned turn ending) = State.outbox s := rfl

theorem State.turned_hostMem : State.hostMem (s.turned turn ending) = State.hostMem s := rfl

theorem State.turned_dmaFail : State.dmaFail (s.turned turn ending) = State.dmaFail s := rfl

theorem State.turned_latches : State.latches (s.turned turn ending) = State.latches s := rfl

theorem State.turned_pwr : State.pwr (s.turned turn ending) = State.pwr s := rfl

theorem State.turned_tb : State.tb (s.turned turn ending) = State.tb s := rfl

theorem State.turned_hg : State.hg (s.turned turn ending) = State.hg s := rfl

theorem State.turned_td : State.td (s.turned turn ending) = State.td s := rfl

theorem State.turned_lg : State.lg (s.turned turn ending) = State.lg s := rfl

theorem State.turned_li : State.li (s.turned turn ending) = State.li s := rfl

theorem State.turned_lh : State.lh (s.turned turn ending) = State.lh s := rfl

theorem State.turned_en : State.en (s.turned turn ending) = State.en s := rfl

theorem State.turned_sz : State.sz (s.turned turn ending) = State.sz s := rfl

theorem State.turned_el : State.el (s.turned turn ending) = State.el s := rfl

theorem State.turned_xl : State.xl (s.turned turn ending) = State.xl s := rfl

theorem State.turned_ch : State.ch (s.turned turn ending) = State.ch s := rfl

theorem State.turned_tg : State.tg (s.turned turn ending) = State.tg s := rfl

theorem State.turned_lc : State.lc (s.turned turn ending) = State.lc s := rfl

theorem State.turned_krf : State.krf (s.turned turn ending) = State.krf s := rfl

theorem State.turned_onTd {f} : State.onTd f (s.turned turn ending) = (State.onTd f s).turned turn ending := rfl

theorem State.turned_onLi {f} : State.onLi f (s.turned turn ending) = (State.onLi f s).turned turn ending := rfl

theorem State.turned_onLh {f} : State.onLh f (s.turned turn ending) = (State.onLh f s).turned turn ending := rfl

theorem State.turned_onEn {f} : State.onEn f (s.turned turn ending) = (State.onEn f s).turned turn ending := rfl

theorem State.turned_onSz {f} : State.onSz f (s.turned turn ending) = (State.onSz f s).turned turn ending := rfl

theorem State.turned_onKrf {f} : State.onKrf f (s.turned turn ending) = (State.onKrf f s).turned turn ending := rfl

theorem State.turned_freeBytes {n} : State.freeBytes (s.turned turn ending) n = State.freeBytes s n := rfl

theorem State.turned_takeFree {n} : State.takeFree n (s.turned turn ending)
    = (State.takeFree n s).turned turn ending := rfl

theorem State.turned_onCounts {t f} : State.onCounts t f (s.turned turn ending)
    = (State.onCounts t f s).turned turn ending := rfl

theorem State.turned_core {n} : State.core (s.turned turn ending) n = State.core s n := rfl

theorem State.turned_onCore {n f} : State.onCore n f (s.turned turn ending)
    = (State.onCore n f s).turned turn ending := rfl

theorem State.turned_applet {a} : State.applet (s.turned turn ending) a = State.applet s a := rfl

theorem State.turned_engine {e} : State.engine (s.turned turn ending) e = State.engine s e := rfl

theorem State.turned_onEngine {e f} : State.onEngine e f (s.turned turn ending)
    = (State.onEngine e f s).turned turn ending := rfl

theorem State.turned_latticeUnit {u} : State.latticeUnit (s.turned turn ending) u = State.latticeUnit s u := rfl

theorem State.turned_onUnit {u f} : State.onUnit u f (s.turned turn ending)
    = (State.onUnit u f s).turned turn ending := rfl

theorem State.turned_drbg {i} : State.drbg (s.turned turn ending) i = State.drbg s i := rfl

theorem State.turned_onDrbg {i f} : State.onDrbg i f (s.turned turn ending)
    = (State.onDrbg i f s).turned turn ending := rfl

theorem State.turned_handle {x1} : State.handle (s.turned turn ending) x1 = State.handle s x1 := rfl

theorem State.turned_num {index sub inst d} : State.num (s.turned turn ending) index sub inst d
    = State.num s index sub inst d := rfl

theorem State.turned_setNum {index sub inst v} : State.setNum index sub inst v (s.turned turn ending)
    = (State.setNum index sub inst v s).turned turn ending := rfl

theorem State.turned_applyNum {index sub inst} : State.applyNum index sub inst (s.turned turn ending)
    = (State.applyNum index sub inst s).turned turn ending := by
  have hst : (s.turned turn ending).pd.staged = s.pd.staged := rfl
  unfold State.applyNum
  rw [hst]
  split <;> rfl

theorem State.turned_rcViewers {a} : State.rcViewers (s.turned turn ending) a = State.rcViewers s a := rfl

theorem State.turned_latch {r bits} : State.latch r bits (s.turned turn ending)
    = (State.latch r bits s).turned turn ending := rfl

theorem State.turned_awaits {n o} : State.awaits n o (s.turned turn ending)
    = (State.awaits n o s).turned turn ending := rfl

theorem State.turned_serviceEnd {core status} : State.serviceEnd core status (s.turned turn ending)
    = (State.serviceEnd core status s).turned turn ending := by
  grind [State.serviceEnd, State.turned_onSz, State.turned_core, State.turned_onCore]

theorem State.turned_onTake {id f} : State.onTake id f (s.turned turn ending)
    = (State.onTake id f s).turned turn ending := rfl

theorem State.turned_failTakes {p code} : State.failTakes p code (s.turned turn ending)
    = (State.failTakes p code s).turned turn ending := rfl

theorem State.turned_releaseUnits {p} : State.releaseUnits p (s.turned turn ending)
    = (State.releaseUnits p s).turned turn ending := rfl

theorem State.turned_abandonManifests {p code} : State.abandonManifests p code (s.turned turn ending)
    = (State.abandonManifests p code s).turned turn ending := by
  have hf := State.turned_foldl (s := s) (turn := turn) (ending := ending) (f := fun s (m : Manifest) => s.onCounts
    m.tenant fun c =>
    { c with manifestsAbandoned := c.manifestsAbandoned + 1 }) fun _ _ => rfl
  unfold State.abandonManifests
  simp only [State.turned_td, hf, State.turned_failTakes, State.turned_releaseUnits, State.turned_onTd]

theorem State.turned_entropyBlock : State.entropyBlock (s.turned turn ending) = State.entropyBlock s := rfl

theorem State.turned_coreEntropyBlock : State.coreEntropyBlock (s.turned turn ending) = State.coreEntropyBlock s := rfl

theorem State.turned_delivers {i} : State.delivers (s.turned turn ending) i = State.delivers s i := rfl

theorem State.turned_noiseBlock : State.noiseBlock (s.turned turn ending)
    = ((State.noiseBlock s).1, (State.noiseBlock s).2.turned turn ending) := rfl

theorem State.turned_takeBlock : State.takeBlock (s.turned turn ending)
    = ((State.takeBlock s).1, (State.takeBlock s).2.turned turn ending) := by
  unfold State.takeBlock
  simp only [State.turned_en, State.turned_onEn, State.turned_noiseBlock]
  split <;> rfl

theorem State.turned_reseedRequests : State.reseedRequests (s.turned turn ending) = State.reseedRequests s := rfl

theorem State.turned_reseedInterval : State.reseedInterval (s.turned turn ending) = State.reseedInterval s := rfl

theorem State.turned_noteReseed {i} : State.noteReseed i (s.turned turn ending)
    = (State.noteReseed i s).turned turn ending := by
  unfold State.noteReseed
  split <;> rfl

theorem State.turned_reseed {i} : State.reseed i (s.turned turn ending) = (State.reseed i s).turned turn ending := by
  unfold State.reseed
  simp only [State.turned_applyNum, State.turned_takeBlock]
  generalize State.takeBlock _ = r
  have hd (f : Instance → Instance) : (r.2.turned turn ending).onDrbg i f = (r.2.onDrbg i f).turned turn ending := rfl
  rw [hd, State.turned_noteReseed]
  rfl

theorem State.turned_reseedDue {i} : State.reseedDue (s.turned turn ending) i = State.reseedDue s i := rfl

theorem State.turned_generate {i n resist} : State.generate i n resist (s.turned turn ending)
    = ((State.generate i n resist s).1, (State.generate i n resist s).2.turned turn ending) := by
  unfold State.generate
  simp only [State.turned_reseedDue, State.turned_reseed]
  split <;> rfl

theorem State.turned_engineInstance {e} : State.engineInstance (s.turned turn ending) e
    = State.engineInstance s e := rfl

theorem State.turned_fillEngine {e} : State.fillEngine e (s.turned turn ending)
    = (State.fillEngine e s).turned turn ending := by
  grind [State.fillEngine, State.turned_engineInstance, State.turned_engine, State.turned_delivers,
    State.turned_generate, State.turned_onEngine]

theorem State.turned_engineDraw {e fuel n} : State.engineDraw e fuel n (s.turned turn ending)
    = ((State.engineDraw e fuel n s).1, (State.engineDraw e fuel n s).2.turned turn ending) := by
  induction fuel generalizing n s with
  | zero => rfl
  | succ fuel ih =>
    have hfill : (if ((s.turned turn ending).engine e).buffer.length < min n 512 then (s.turned turn
      ending).fillEngine e else s.turned turn ending)
        = (if (s.engine e).buffer.length < min n 512 then s.fillEngine e else s).turned turn ending := by
      rw [State.turned_fillEngine, ← apply_ite (State.turned turn ending)]
      rfl
    unfold State.engineDraw
    simp only [hfill]
    generalize (if (s.engine e).buffer.length < min n 512 then s.fillEngine e else s) = t
    have hdrop : (t.turned turn ending).onEngine e (fun g => { g with buffer := g.buffer.drop n })
        = (t.onEngine e fun g => { g with buffer := g.buffer.drop n }).turned turn ending := rfl
    rw [hdrop, ih]
    split <;> rfl

theorem State.turned_engineBytes {e n resist} : State.engineBytes e n resist (s.turned turn ending)
    = ((State.engineBytes e n resist s).1, (State.engineBytes e n resist s).2.turned turn ending) := by
  grind [State.engineBytes, State.turned_onEngine, State.turned_reseed, State.turned_engineInstance,
    State.turned_engineDraw]

theorem State.turned_fillUnit {u direct} : State.fillUnit u direct (s.turned turn ending)
    = (State.fillUnit u direct s).turned turn ending := by
  grind [State.fillUnit, State.turned_latticeUnit, State.turned_delivers, State.turned_generate, State.turned_onUnit]

theorem State.turned_unitBytes {u n direct resist} : State.unitBytes u n direct resist (s.turned turn ending)
    = ((State.unitBytes u n direct resist s).1, (State.unitBytes u n direct resist s).2.turned turn ending) := by
  grind [State.unitBytes, State.turned_onUnit, State.turned_reseed, State.turned_latticeUnit, State.turned_fillUnit]

theorem State.turned_unwrappedType {x1} : State.unwrappedType (s.turned turn ending) x1
    = State.unwrappedType s x1 := rfl

theorem State.turned_returnTake {id code} : State.returnTake id code (s.turned turn ending)
    = (State.returnTake id code s).turned turn ending := rfl

theorem State.turned_onManifest {mid f} : State.onManifest mid f (s.turned turn ending)
    = (State.onManifest mid f s).turned turn ending := rfl

theorem State.turned_privateOf {x1} : State.privateOf (s.turned turn ending) x1 = State.privateOf s x1 := rfl

theorem State.turned_sealWork {e} : State.sealWork (s.turned turn ending) e = State.sealWork s e := rfl

theorem State.turned_sealEngine {die signer} : State.sealEngine (s.turned turn ending) die signer
    = State.sealEngine s die signer := rfl

theorem State.turned_idleUnit {die signer} : State.idleUnit (s.turned turn ending) die signer
    = State.idleUnit s die signer := rfl

theorem State.turned_startUnit {u o} : State.startUnit u o (s.turned turn ending)
    = (State.startUnit u o s).turned turn ending := rfl

theorem State.turned_clientUnit {die} : State.clientUnit (s.turned turn ending) die = State.clientUnit s die := rfl

theorem State.turned_manifestKey {x1} : State.manifestKey (s.turned turn ending) x1 = State.manifestKey s x1 := rfl

theorem State.turned_signsEd {t} : State.signsEd (s.turned turn ending) t = State.signsEd s t := rfl

theorem State.turned_sealCommand {t} : State.sealCommand (s.turned turn ending) t = State.sealCommand s t := rfl

theorem State.turned_beginSeal {e t} : State.beginSeal e t (s.turned turn ending)
    = (State.beginSeal e t s).turned turn ending := by
  unfold State.beginSeal
  simp only [State.turned_entropyBlock, State.turned_returnTake, State.turned_engineBytes, State.turned_sealCommand,
    State.turned_onTake]
  split <;> rfl

theorem State.turned_assignTake {t} : State.assignTake t (s.turned turn ending)
    = (State.assignTake t s).turned turn ending := by
  grind [State.assignTake, State.turned_sealEngine, State.turned_beginSeal]

theorem State.turned_assignEc {m} : State.assignEc m (s.turned turn ending)
    = (State.assignEc m s).turned turn ending := by
  grind [State.assignEc, State.turned_sealEngine, State.turned_engineBytes, State.turned_onManifest,
    State.turned_privateOf]

theorem State.turned_unitWorks {mid} : State.unitWorks (s.turned turn ending) mid = State.unitWorks s mid := rfl

theorem State.turned_assignMl {m} : State.assignMl m (s.turned turn ending)
    = (State.assignMl m s).turned turn ending := by
  grind [State.assignMl, State.turned_unitWorks, State.turned_idleUnit, State.turned_manifestKey,
    State.turned_unitBytes, State.turned_onManifest, State.turned_startUnit]

theorem State.turned_assignManifest {m} : State.assignManifest m (s.turned turn ending)
    = (State.assignManifest m s).turned turn ending := by
  grind [State.assignManifest, State.turned_entropyBlock, State.turned_abandonManifests, State.turned_assignMl,
    State.turned_assignEc]

theorem State.turned_assignVerify {e} : State.assignVerify e (s.turned turn ending)
    = (State.assignVerify e s).turned turn ending := by
  unfold State.assignVerify
  simp only [State.turned_idleUnit, State.turned_startUnit, State.turned_onLh]
  split <;> rfl

theorem State.turned_unitBlock {o} : State.unitBlock (s.turned turn ending) o = State.unitBlock s o := rfl

theorem State.turned_beginService {core u o} : State.beginService core u o (s.turned turn ending)
    = (State.beginService core u o s).turned turn ending := by
  unfold State.beginService
  simp only [State.turned_unitBlock, State.turned_serviceEnd, State.turned_unitBytes, State.turned_awaits,
    State.turned_startUnit]
  split <;> rfl

theorem State.turned_assignService {core} : State.assignService core (s.turned turn ending)
    = (State.assignService core s).turned turn ending := by
  grind [State.assignService, State.turned_sz, State.turned_clientUnit, State.turned_beginService]

theorem State.turned_anchorWaits {a} : State.anchorWaits (s.turned turn ending) a = State.anchorWaits s a := rfl

theorem State.turned_anchorRuns {j} : State.anchorRuns (s.turned turn ending) j = State.anchorRuns s j := rfl

theorem State.turned_assignAnchor {j} : State.assignAnchor j (s.turned turn ending)
    = (State.assignAnchor j s).turned turn ending := by
  grind [State.assignAnchor, State.turned_anchorWaits, State.turned_clientUnit, State.turned_anchorRuns,
    State.turned_startUnit, State.turned_coreEntropyBlock, State.turned_onKrf, State.turned_generate]

theorem State.turned_assignKeyEngine : State.assignKeyEngine (s.turned turn ending)
    = (State.assignKeyEngine s).turned turn ending := by
  grind [State.assignKeyEngine, State.turned_krf, State.turned_onKrf, State.turned_sealEngine]

theorem State.turned_assignWork : State.assignWork (s.turned turn ending)
    = (State.assignWork s).turned turn ending := by
  unfold State.assignWork
  simp only [State.turned_td, State.turned_lh, State.turned_sz,
    State.turned_foldl (f := fun s t => State.assignTake t s) fun _ _ => State.turned_assignTake,
    State.turned_foldl (f := fun s m => State.assignManifest m s) fun _ _ => State.turned_assignManifest,
    State.turned_assignKeyEngine,
    State.turned_foldl (f := fun s e => State.assignVerify e s) fun _ _ => State.turned_assignVerify,
    State.turned_foldl (f := fun s j => State.assignAnchor j s) fun _ _ => State.turned_assignAnchor,
    State.turned_foldl (f := fun s (e : Nat × Option Outstanding) => State.assignService e.1 s) fun _ _ =>
      State.turned_assignService]

end Sys2Proof.Machine
end

