-- ==== Sys2Proof/Proofs/KeyHandlesKept.lean ====
section
-- The whole text is compiled in one process: one proof at a time keeps it within its memory.
set_option Elab.async false
/-! LEMMAS. Key handles: generation, import, deletion, their reads and their end (R440 to R447). -/

namespace Sys2Proof.Machine

variable {s : State} {v : Viewer}

/-! ### Start and deletion -/

/-- The engine takes the operation (R441, R442), and the answer is OK. -/
theorem State.startKeyOp_served (o : KeyOp) :
    ((s.served v).startKeyOp o).sp.closing = s.sp.closing
      ∧ (s.served v).startKeyOp o = (State.assignWork { s with krf := { s.krf with running := some o } }).served v := by
  have hs : (s.served v).startKeyOp o
      = State.assignWork (State.served v { s with krf := { s.krf with running := some o } }) := rfl
  obtain ⟨hc, hw⟩ := State.commutes_served (s := { s with krf := { s.krf with running := some o } }) (v := v)
    fun _ _ _ => State.turned_assignWork
  rw [hs, hw]
  exact ⟨hc, rfl⟩

theorem exec_keyGenerate {byte : BitVec 8} {inst : Nat} (ht : namedTenant v byte.toNat = .ok inst)
    (h : Writable s v 0x2100 5 0x6E4B)
    (hm : s.pwr.mode = .standby ∨ s.pwr.mode = .service ∨ s.pwr.mode = .draw ∨ s.pwr.mode = .held)
    (hf : s.en.firstSeed = true) (hk : s.keyStore ≠ 0) (hr : s.krf.running = none) :
    Wrote (.keyGenerate v byte 0x6E4B#32) s v stOk
      (State.assignWork { s with krf := { s.krf with running := some (s.keyOp v inst false) } }) := by
  obtain ⟨hc, hw⟩ := State.startKeyOp_served (s := s) (v := v) (s.keyOp v inst false)
  have hact : keyGenerate v inst 0x6E4B (s.served v) = ((s.served v).startKeyOp (s.keyOp v inst false), stOk) := by
    have hk' : (s.served v).keyStore ≠ 0 := hk
    have ho : (s.served v).keyOp v inst false = s.keyOp v inst false := rfl
    rcases hm with hm | hm | hm | hm <;> simp [keyGenerate, hm, hf, hk', hr, ho]
  have hn := State.writeNum_acts (w := {}) h rfl (k := 4) rfl (by decide) rfl ht rfl
    (by rw [hact]; exact (show stOk ≠ stWaits by decide)) (by rw [hact]; exact hc.trans h.2.1.2.2)
  rw [hact, hw] at hn
  exact congrArg Host.Outcome.next hn

theorem exec_keyImport {byte : BitVec 8} {inst : Nat} (ht : namedTenant v byte.toNat = .ok inst)
    (h : Writable s v 0x2100 8 0x1A4B) (hm : s.pwr.mode = .ceremony) (hf : s.pwr.ceremonyFrom = some .standby)
    (hk : s.keyStore ≠ 0) (hr : s.krf.running = none) :
    Wrote (.keyImport v byte 0x1A4B#32) s v stOk
      (State.assignWork { s with krf := { s.krf with running := some (s.keyOp v inst true) } }) := by
  obtain ⟨hc, hw⟩ := State.startKeyOp_served (s := s) (v := v) (s.keyOp v inst true)
  have hact : keyImport v inst 0x1A4B (s.served v) = ((s.served v).startKeyOp (s.keyOp v inst true), stOk) := by
    have hk' : (s.served v).keyStore ≠ 0 := hk
    have ho : (s.served v).keyOp v inst true = s.keyOp v inst true := rfl
    simp [keyImport, State.standbyCeremony, hm, hf, hk', hr, ho]
  have hn := State.writeNum_acts (w := {}) h rfl (k := 4) rfl (by decide) rfl ht rfl
    (by rw [hact]; exact (show stOk ≠ stWaits by decide)) (by rw [hact]; exact hc.trans h.2.1.2.2)
  rw [hact, hw] at hn
  exact congrArg Host.Outcome.next hn

theorem exec_keyDelete {byte : BitVec 8} {inst : Nat} (ht : namedTenant v byte.toNat = .ok inst)
    (h : Writable s v 0x2100 9 0xDE4B) (hv : v ≠ .regulator) (hr : s.krf.running = none)
    (hs : (s.handle (s.num 0x2100 1 inst 0)).isSome = true) (ha : reachesHandle v (s.handle (s.num 0x2100 1 inst 0)) = true)
    (hu : s.handleUsed (s.num 0x2100 1 inst 0) = false) :
    Wrote (.keyDelete v byte 0xDE4B#32) s v stOk
      ((s.onHandle (s.num 0x2100 1 inst 0) fun _ => none).keyStatus inst stOk) := by
  have hact : keyDelete v inst 0xDE4B (s.served v)
      = (((s.onHandle (s.num 0x2100 1 inst 0) fun _ => none).keyStatus inst stOk).served v, stOk) := by
    have hh : (s.served v).handle ((s.served v).num 0x2100 1 inst 0) = s.handle (s.num 0x2100 1 inst 0) := rfl
    have hu' : (s.served v).handleUsed ((s.served v).num 0x2100 1 inst 0) = false := hu
    simp [keyDelete, hv, hr, hh, Option.isNone_eq_false_iff.mpr hs, ha, hu']
    rfl
  have hn := State.writeNum_acts (w := {}) h rfl (k := 4) rfl (by decide) rfl ht rfl
    (by rw [hact]; exact (show stOk ≠ stWaits by decide)) (by rw [hact]; exact h.2.1.2.2)
  rw [hact] at hn
  exact congrArg Host.Outcome.next hn

/-! ### Reads -/

/-- READ of a byte string of at most 4,096 bytes, whole. -/
theorem State.ask_bytes {o : Obj} {tenant inst index sub : Nat} {b : Bytes} (h : Readable s v index sub)
    (ht : namedTenant v tenant = .ok inst) (ho : findObj index sub = some o) (hn : o.type.size = none)
    (hk : (index = 0x2100 && (sub = 0xB || sub = 0xC) && s.storeReadFails v inst : Bool) = false)
    (hx : s.objVal v o inst index sub = .ok (.bytes b)) (hl : b.length ≤ 4096) :
    s.ask v tenant 1 index sub = (s.served v).emit (.directory v stOk b) := by
  obtain ⟨ha, hd, o', ho', he⟩ := h
  obtain rfl : o = o' := Option.some.inj (ho.symm.trans ho')
  have hx' : (s.served v).objVal v o inst index sub = .ok (.bytes b) := (State.served_objVal ..).trans hx
  have hk' : (index = 0x2100 && (sub = 0xB || sub = 0xC) && (s.served v).storeReadFails v inst : Bool) = false := hk
  have he' : (s.served v).entryDenied v o index sub 1 0 = false := he
  have hexec : (s.served v).execEntry {} v inst { index := index, sub := sub, op := 1, length := 4096 }
      = (s.served v, { index := index, sub := sub, op := 1, status := stOk, type := o.type.code
                       staged := (s.served v).stagedDiffers o (o.instFor v inst) index sub, value := b
                       total := (s.served v).fullLength v o inst index sub }) := by
    simp only [State.execEntry, DirEntry.malformed, ho, getNum_nil, he', State.entryRead, hk', hn]
    simp [hx', Val.encode, List.take_of_length_le hl]
  exact State.single_stays (w := {}) ha hd ht hexec (show (1 : Nat) < 256 by decide) nofun (hl.trans (by decide)) hd.2.2

section Unwrapped

variable {inst : Nat} {k : Handle} (hk : s.handle (s.num 0x2100 1 inst 0) = some k) (hu : k.state = .unwrapped)
  (ha : reachesHandle v (some k) = true)
include hk hu

/-- A key in the register file is read from there (R445). -/
theorem State.storeReadFails_unwrapped : s.storeReadFails v inst = false := by
  simp [State.storeReadFails, hk, hu]

include ha

theorem State.keyPublic_unwrapped : s.keyPublic v inst = .ok k.publicPart := by
  simp [State.keyPublic, hk, ha, State.publicOf, hu]

theorem State.keyAttestation_unwrapped : s.keyAttestation v inst = .ok (deviceSign 0 ([0x41] ++ be 8 unitId
    ++ be 2 (s.num 0x2100 1 inst 0) ++ be 1 k.type ++ be 1 k.usage ++ be 1 k.owner ++ be 4 k.generation
    ++ Config.sha384 k.publicPart)) := by
  simp [State.keyAttestation, hk, State.keyPublic_unwrapped hk hu ha]

theorem exec_keyPublicRead {byte : BitVec 8} (ht : namedTenant v byte.toNat = .ok inst) (h0 : s.num 0x2100 1 inst 0 ≠ 0)
    (hl : k.publicPart.length ≤ 4096) (h : Readable s v 0x2100 0xB) :
    exec (.keyPublicRead v byte) s = .next ((s.served v).emit (.directory v stOk k.publicPart)) := by
  have hx (o : Obj) : s.objVal v o inst 0x2100 0xB = .ok (.bytes k.publicPart) := by
    simp [State.objVal, State.checkedVal, h0, State.keyPublic_unwrapped hk hu ha, Except.map]
  exact congrArg Host.Outcome.next (State.ask_bytes h ht rfl rfl (by rw [State.storeReadFails_unwrapped hk hu]; rfl) (hx _) hl)

theorem exec_keyAttestationRead {byte : BitVec 8} (ht : namedTenant v byte.toNat = .ok inst) (h : Readable s v 0x2100 0xC) :
    exec (.keyAttestationRead v byte) s = .next ((s.served v).emit (.directory v stOk (deviceSign 0 ([0x41] ++ be 8 unitId
      ++ be 2 (s.num 0x2100 1 inst 0) ++ be 1 k.type ++ be 1 k.usage ++ be 1 k.owner ++ be 4 k.generation
      ++ Config.sha384 k.publicPart)))) := by
  have hx (o : Obj) : s.objVal v o inst 0x2100 0xC = .ok (.bytes (deviceSign 0 ([0x41] ++ be 8 unitId
      ++ be 2 (s.num 0x2100 1 inst 0) ++ be 1 k.type ++ be 1 k.usage ++ be 1 k.owner ++ be 4 k.generation
      ++ Config.sha384 k.publicPart))) := by
    simp [State.objVal, State.checkedVal, State.keyAttestation_unwrapped hk hu ha, Except.map]
  exact congrArg Host.Outcome.next (State.ask_bytes h ht rfl rfl (by rw [State.storeReadFails_unwrapped hk hu]; rfl) (hx _)
    (by rw [deviceSign, out_length]; decide))

end Unwrapped

theorem exec_journalKeyAttestationRead {j : Bytes × Bytes} (hj : s.krf.journal = some j) (hd : s.derives = true)
    (h : Readable s v 0x4000 0x14) : exec (.journalKeyAttestationRead v) s =
    .next ((s.served v).emit (.directory v stOk (deviceSign 0 ([0x41] ++ be 8 unitId ++ be 2 0 ++ be 1 1 ++ be 1 0
      ++ be 1 0xFF ++ be 4 s.lc.state ++ Config.sha384 j.2)))) := by
  have hx (o : Obj) (hb : o.type.isBytes = true) (inst : Nat) : s.objVal v o inst 0x4000 0x14
      = .ok (.bytes (deviceSign 0 ([0x41] ++ be 8 unitId ++ be 2 0 ++ be 1 1 ++ be 1 0 ++ be 1 0xFF ++ be 4 s.lc.state
        ++ Config.sha384 j.2))) := by
    simp [State.objVal, State.checkedVal, hb, State.bytesVal, hd, State.journalAttestation, hj]
  exact congrArg Host.Outcome.next (State.ask_bytes h (namedTenant_own v) rfl rfl rfl (hx _ rfl _)
    (by rw [deviceSign, out_length]; decide))

/-! ### The end of an operation -/

theorem State.num_setNum_self (s : State) (index sub inst n d : Nat) : (s.setNum index sub inst n).num index sub inst d = n :=
  congrArg (Option.getD · d) (mapGet_mapSet_listed none (Option.some_ne_none n) s.pd.nums (objKey index sub inst))

theorem State.num_setNum_ne (s : State) {index sub inst i j k : Nat} (h : objKey index sub inst ≠ objKey i j k) (n d : Nat) :
    (s.setNum i j k n).num index sub inst d = s.num index sub inst d :=
  congrArg (Option.getD · d) (mapGet_mapSet_ne none s.pd.nums (objKey i j k) (objKey index sub inst) (some n) h)

/-- An apply point leaves the other objects as they are. -/
theorem State.num_applyNum (s : State) {index sub inst i j k : Nat} (h : objKey index sub inst ≠ objKey i j k) (d : Nat) :
    (s.applyNum i j k).num index sub inst d = s.num index sub inst d := by
  unfold State.applyNum
  split
  · exact s.num_setNum_ne h _ d
  · rfl

/-- A draw leaves the place of the key store as it is. -/
theorem State.generate_keyStore (s : State) (i n : Nat) (resist : Bool) : (s.generate i n resist).2.keyStore = s.keyStore := by
  have happly : ((s.applyNum 0x4800 8 0).applyNum 0x4800 9 0).keyStore = s.keyStore :=
    (State.num_applyNum _ (by decide) 0).trans (State.num_applyNum _ (by decide) 0)
  have htake (t : State) : t.takeBlock.2.keyStore = t.keyStore := by
    unfold State.takeBlock
    split
    · rfl
    · rfl
  have hreseed : (s.reseed i).keyStore = s.keyStore := by
    have hnote (t : State) : (t.noteReseed i).keyStore = t.keyStore := by
      unfold State.noteReseed
      split
      · rfl
      · rfl
    unfold State.reseed
    rw [hnote]
    exact (htake _).trans happly
  unfold State.generate
  dsimp only
  split
  · exact hreseed
  · rfl

/-- The ends of a generation whose checks of R441 stand: a fault where one of its own checks fails, otherwise its handle. -/
theorem exec_keyOpComplete {o : KeyOp} {failed : Bool} (hr : s.krf.running = some o) (hi : o.imported = false)
    (hb : s.keyOpBlock o = none) (hp : s.keyOpPlaced o = true) :
    let r := (s.onKrf fun x => { x with running := none }).generate 77 160 true
    exec (.keyOpComplete failed) s = .next (((if failed then r.2.keyCheckFailed o
      else r.2.createHandle o (drawnPrivate o.type r.1)).releaseUnits (· = .anchor .keyOp)).assignWork) := by
  have hb' : (s.onKrf fun x => { x with running := none }).keyOpBlock o = none := hb
  simp [exec, execKeyOpComplete, hr, hp, State.finishKeyOp, hi, hb']

/-- The unit works for the key operation. -/
def State.keyUnit (s : State) (u : Nat) : Bool :=
  match (s.latticeUnit u).running with
  | some x => x.user = .anchor .keyOp
  | none => false

theorem State.keyUnit_iff (s : State) (u : Nat) :
    s.keyUnit u = true ↔ ∃ x, (s.latticeUnit u).running = some x ∧ x.user = .anchor .keyOp := by
  unfold State.keyUnit
  cases (s.latticeUnit u).running with
  | none => simp
  | some x => simp

theorem State.keyCheckFailed_eq (s : State) (o : KeyOp) : s.keyCheckFailed o =
    ((match (List.range 4).filter s.keyUnit, o.engine with
      | u :: _, _ => s.unitFault u
      | [], some e => s.lieFault e
      | [], none => s).keyStatus o.tenant stInternalFault) := rfl

/-- A check that failed counts with the unit that works for the operation (R175). -/
theorem State.keyCheckFailed_unit {o : KeyOp} {u : Nat} (hu : u < 4) (hr : s.keyUnit u = true)
    (hl : ∀ w, w < u → s.keyUnit w = false) :
    s.keyCheckFailed o = (s.unitFault u).keyStatus o.tenant stInternalFault := by
  have hhead : ((List.range 4).filter s.keyUnit).head? = some u := by
    rw [List.head?_filter, List.find?_range_eq_some]
    exact ⟨hr, List.mem_range.mpr hu, fun w hw => by rw [hl w hw]; rfl⟩
  rw [State.keyCheckFailed_eq]
  obtain ⟨us, hus⟩ := List.head?_eq_some_iff.mp hhead
  rw [hus]

/-- It counts with the engine where no unit works for the operation (R157). -/
theorem State.keyCheckFailed_engine {o : KeyOp} {e : Nat} (he : o.engine = some e) (hl : ∀ w, w < 4 → s.keyUnit w = false) :
    s.keyCheckFailed o = (s.lieFault e).keyStatus o.tenant stInternalFault := by
  have hnil : (List.range 4).filter s.keyUnit = [] :=
    List.filter_eq_nil_iff.mpr fun w hw => by simp [hl w (List.mem_range.mp hw)]
  rw [State.keyCheckFailed_eq, hnil, he]

/-- A key of type 4 is drawn as its 32 bytes, and its public part is as long. -/
theorem ecPublic_ed25519_length (priv : Bytes) : (ecPublic 4 false priv).length = 32 := by
  simp [ecPublic, builtin, Curve.edPublic, Curve.edEncode, Curve.edBytes]

theorem State.storeEntry_length {h : Nat} {k : Handle} {pub priv : Bytes} (ht : k.type = 4) (hp : pub.length = 32) :
    (s.storeEntry h k pub priv).length = 48 + 32 + 32 := by
  simp [State.storeEntry, entryHead, out_length, hp, ht, privateBytes]

/-- The handle of a generation of type 4 (R441 steps 5 and 6): its key is in the register file where the mode has keys. -/
def State.ed25519Key (s : State) (o : KeyOp) (priv : Bytes) : Handle :=
  let pub := ecPublic 4 false priv
  let keys := decide (s.pwr.mode = .service ∨ s.pwr.mode = .draw ∨ s.pwr.mode = .held)
  { type := 4, usage := o.usage, owner := o.tenant, generation := mapGet 0 s.krf.generations o.handle + 1, words := 0
    publicDigest := Config.sha256 pub, state := if keys then .unwrapped else .wrapped
    publicPart := if keys then pub else [], privatePart := if keys then priv else [] }

/-- A handle of type 4 whose entry lands. -/
theorem State.createHandle_ed25519 {o : KeyOp} {priv : Bytes} (ht : o.type = 4)
    (hl : s.dmaLands 0 (s.entryAddress o.handle) (48 + 32 + 32) = true) :
    let g := mapGet 0 s.krf.generations o.handle + 1
    let e := s.storeEntry o.handle (s.ed25519Key o priv) (ecPublic 4 false priv) priv
    s.createHandle o priv = (State.onHandle o.handle (fun _ => some (s.ed25519Key o priv)) { s with
      hostMem := s.hostMem.writeBytes (s.entryAddress o.handle) e
      krf := { s.krf with generations := mapSet 0 s.krf.generations o.handle g } }).keyStatus o.tenant stOk := by
  intro g e
  have hlen : e.length = 48 + 32 + 32 := State.storeEntry_length rfl (ecPublic_ed25519_length priv)
  obtain ⟨viewer, tenant, handle, _, usage, words, imported, blob, start, engine⟩ := o
  subst ht
  unfold State.createHandle
  extract_lets pub k s' e' ok s'' now k'
  have he : e' = e := rfl
  have hok : ok = true := by
    unfold ok
    rw [he, hlen]
    exact hl
  have hw : s'' = { s with
      hostMem := s.hostMem.writeBytes (s.entryAddress handle) e
      krf := { s.krf with generations := mapSet 0 s.krf.generations handle g } } := State.dmaWrite_lands (s := s') hok
  have hn : now = decide (s.pwr.mode = .service ∨ s.pwr.mode = .draw ∨ s.pwr.mode = .held) := by
    unfold now
    rw [hw]
    cases s.pwr.mode <;> rfl
  have hk : k' = s.ed25519Key ⟨viewer, tenant, handle, 4, usage, words, imported, blob, start, engine⟩ priv := by
    unfold k' State.ed25519Key
    rw [← hn]
    cases now <;> rfl
  rw [hok, hw, hk]
  rfl

/-- What a generation does whose check failed (R441): it counts, and its status says INTERNAL_FAULT. -/
theorem exec_keyOpComplete_failed {o : KeyOp} (hr : s.krf.running = some o) (hi : o.imported = false)
    (hb : s.keyOpBlock o = none) (hp : s.keyOpPlaced o = true) :
    let runs := fun u => ∃ x, (s.latticeUnit u).running = some x ∧ x.user = .anchor .keyOp
    ∃ r t : State, exec (.keyOpComplete true) s = .next ((t.releaseUnits (· = .anchor .keyOp)).assignWork)
      ∧ r = { s with krf := { s.krf with running := none }, en := r.en, pd := r.pd, freeCtr := r.freeCtr }
      ∧ t.num 0x2100 0xA o.tenant 0 = stInternalFault.toNat
      ∧ (∀ u, u < 4 → runs u → (∀ w, w < u → ¬ runs w) →
        t = (r.unitFault u).setNum 0x2100 0xA o.tenant stInternalFault.toNat)
      ∧ (∀ e, (∀ w, w < 4 → ¬ runs w) → o.engine = some e →
        t = (r.lieFault e).setNum 0x2100 0xA o.tenant stInternalFault.toNat) := by
  intro runs
  let r := ((s.onKrf fun x => { x with running := none }).generate 77 160 true).2
  have hdrew : r = { s with krf := { s.krf with running := none }, en := r.en, pd := r.pd, freeCtr := r.freeCtr } := by
    obtain ⟨en, pd, c, h⟩ := State.generate_poolDrew (s.onKrf fun x => { x with running := none }) (i := 77)
      (by decide) 160 true
    have h' : r = _ := h
    rw [h']
    rfl
  have hunit (u : Nat) : r.keyUnit u = s.keyUnit u := by rw [hdrew]; rfl
  have hidle {w : Nat} (h : ¬ runs w) : r.keyUnit w = false := by
    rw [hunit]
    exact Bool.eq_false_iff.mpr fun hw => h ((s.keyUnit_iff w).mp hw)
  refine ⟨r, r.keyCheckFailed o, exec_keyOpComplete hr hi hb hp, hdrew, ?_, ?_, ?_⟩
  · rw [State.keyCheckFailed_eq]
    exact State.num_setNum_self ..
  · intro u hu hru hlow
    exact State.keyCheckFailed_unit hu ((hunit u).trans ((s.keyUnit_iff u).mpr hru)) fun w hw => hidle (hlow w hw)
  · intro e hno he
    exact State.keyCheckFailed_engine he fun w hw => hidle (hno w hw)

/-- The entry of a key store depends on the unit's root key and its life-cycle state alone (R443). -/
theorem State.storeEntry_keeps {s t : State} (htg : t.tg = s.tg) (hlc : t.lc = s.lc) (h : Nat) (k : Handle)
    (pub priv : Bytes) : t.storeEntry h k pub priv = s.storeEntry h k pub priv := by
  simp only [State.storeEntry, State.wrapKey, State.derive, htg, hlc]

/-- A handle given its key and its status. -/
theorem State.onHandle_leaves (x : State) (h i : Nat) (k : Handle) (st : Status) :
    let t := (x.onHandle h fun _ => some k).keyStatus i st
    t.handle h = some k ∧ (∀ f, f ≠ h → t.handle f = x.handle f) ∧ t.num 0x2100 0xA i 0xFFFF = st.toNat
      ∧ t.krf.running = x.krf.running ∧ t.krf.generations = x.krf.generations ∧ t.hostMem = x.hostMem ∧ t.tg = x.tg
      ∧ t.lc = x.lc :=
  ⟨mapGet_mapSet_listed none (Option.some_ne_none _) _ _, fun _ hf => mapGet_mapSet_ne none _ _ _ _ hf,
    State.num_setNum_self .., rfl, rfl, rfl, rfl, rfl⟩

/-- Bytes written to a memory are stored. -/
theorem stored_writeBytes {m : Memory} (hm : m.wf = true) (a : Nat) (b : Bytes) : Stored m (m.writeBytes a b) a b :=
  ⟨Memory.readBytes_writeBytes b hm a, fun x hx => Memory.read_writeBytes_outside b m a x hx⟩

/-- What a handle of type 4 whose entry lands leaves. -/
theorem State.createHandle_leaves {o : KeyOp} {priv : Bytes} (ht : o.type = 4)
    (hl : s.dmaLands 0 (s.entryAddress o.handle) (48 + 32 + 32) = true) : ∃ t : State, s.createHandle o priv = t ∧
    t.handle o.handle = some (s.ed25519Key o priv) ∧ (∀ f, f ≠ o.handle → t.handle f = s.handle f)
      ∧ t.krf.running = s.krf.running ∧ t.num 0x2100 0xA o.tenant 0xFFFF = 0
      ∧ mapGet 0 t.krf.generations o.handle = mapGet 0 s.krf.generations o.handle + 1
      ∧ t.hostMem = s.hostMem.writeBytes (s.entryAddress o.handle)
          (t.storeEntry o.handle (s.ed25519Key o priv) (ecPublic 4 false priv) priv) := by
  obtain ⟨x, hx, hh, hr, hg, hm, htg, hlc⟩ : ∃ x : State,
      s.createHandle o priv = (x.onHandle o.handle fun _ => some (s.ed25519Key o priv)).keyStatus o.tenant stOk
      ∧ x.krf.handles = s.krf.handles ∧ x.krf.running = s.krf.running
      ∧ x.krf.generations = mapSet 0 s.krf.generations o.handle (mapGet 0 s.krf.generations o.handle + 1)
      ∧ x.hostMem = s.hostMem.writeBytes (s.entryAddress o.handle)
        (s.storeEntry o.handle (s.ed25519Key o priv) (ecPublic 4 false priv) priv) ∧ x.tg = s.tg ∧ x.lc = s.lc :=
    ⟨_, State.createHandle_ed25519 ht hl, rfl, rfl, rfl, by dsimp only, rfl, rfl⟩
  obtain ⟨hself, hothers, hnum, hrun, hgen, hmem, htg', hlc'⟩ :=
    State.onHandle_leaves x o.handle o.tenant (s.ed25519Key o priv) stOk
  refine ⟨_, hx, hself, fun f hf => (hothers f hf).trans (congrArg (mapGet none · f) hh), hrun.trans hr, hnum, ?_, ?_⟩
  · rw [hgen, hg]
    exact mapGet_mapSet_listed 0 (Nat.succ_ne_zero _) _ _
  · rw [hmem, hm, State.storeEntry_keeps (htg'.trans htg) (hlc'.trans hlc)]

theorem drawnPrivate_ed25519_length {free : Bytes} (hf : free.length = 160) : (drawnPrivate 4 free).length = 32 := by
  simp [drawnPrivate, privateBytes, hf]

/-- A generation of type 4 whose entry lands (R441): its handle, its generation, its entry in the key store. -/
theorem exec_keyOpComplete_ed25519 {o : KeyOp} (hr : s.krf.running = some o) (hi : o.imported = false)
    (hb : s.keyOpBlock o = none) (hp : s.keyOpPlaced o = true) (ht : o.type = 4)
    (hl : s.dmaLands 0 (s.entryAddress o.handle) (48 + 32 + 32) = true) (hm : s.hostMem.wf = true) :
    ∃ (t : State) (priv : Bytes),
      exec (.keyOpComplete false) s = .next ((t.releaseUnits (· = .anchor .keyOp)).assignWork)
      ∧ t.handle o.handle = some (s.ed25519Key o priv) ∧ priv.length = 32
      ∧ (∀ f, f ≠ o.handle → t.handle f = s.handle f) ∧ t.krf.running = none ∧ t.num 0x2100 0xA o.tenant 0xFFFF = 0
      ∧ mapGet 0 t.krf.generations o.handle = mapGet 0 s.krf.generations o.handle + 1
      ∧ Stored s.hostMem t.hostMem (s.entryAddress o.handle)
          (t.storeEntry o.handle (s.ed25519Key o priv) (ecPublic 4 false priv) priv) := by
  obtain ⟨en, pd, c, hdrew⟩ := State.generate_poolDrew (s.onKrf fun x => { x with running := none }) (i := 77)
    (by decide) 160 true
  have hstore := State.generate_keyStore (s.onKrf fun x => { x with running := none }) 77 160 true
  let r := ((s.onKrf fun x => { x with running := none }).generate 77 160 true).2
  let priv := drawnPrivate o.type ((s.onKrf fun x => { x with running := none }).generate 77 160 true).1
  have hend : exec (.keyOpComplete false) s
      = .next (((r.createHandle o priv).releaseUnits (· = .anchor .keyOp)).assignWork) :=
    (exec_keyOpComplete hr hi hb hp).trans (by rw [if_neg Bool.false_ne_true])
  have hr' : r = { s.onKrf fun x => { x with running := none } with en := en, pd := pd, freeCtr := c } := hdrew
  have haddress : r.entryAddress o.handle = s.entryAddress o.handle := by
    unfold State.entryAddress
    rw [show r.keyStore = s.keyStore from hstore]
  have hkey : r.ed25519Key o priv = s.ed25519Key o priv := by rw [hr']; rfl
  have hlands : r.dmaLands 0 (r.entryAddress o.handle) (48 + 32 + 32) = true := by rw [haddress, hr']; exact hl
  have hpriv : priv.length = 32 := by
    unfold priv
    rw [ht]
    exact drawnPrivate_ed25519_length (State.generate_length ..)
  clear_value priv
  obtain ⟨t, hmade, hself, hothers, hrun, hnum, hgen, hmem⟩ := State.createHandle_leaves (priv := priv) ht hlands
  rw [haddress, hkey] at hmem
  rw [hkey] at hself
  have hwf : r.hostMem = s.hostMem := by rw [hr']; rfl
  have hstored : Stored s.hostMem t.hostMem (s.entryAddress o.handle)
      (t.storeEntry o.handle (s.ed25519Key o priv) (ecPublic 4 false priv) priv) := by
    rw [hmem, hwf]
    exact stored_writeBytes hm _ _
  refine ⟨t, priv, by rw [← hmade, hend], hself, hpriv, fun f hf => (hothers f hf).trans ?_, hrun.trans ?_, hnum,
    hgen.trans ?_, hstored⟩
  · unfold State.handle
    rw [hr']
    rfl
  · rw [hr']; rfl
  · rw [hr']; rfl

end Sys2Proof.Machine

open Sys2Proof Sys2Proof.Machine

/-- Settles O48, clause by clause: the directory's writes act on the served state, the reads give what the register file
holds, and the end of an operation is read off its own equations. -/
theorem keyHandles : Obligations.KeyHandles := by
  intro s v byte inst ht h
  refine ⟨fun hw hm hf hk hr => exec_keyGenerate ht hw hm hf hk hr,
    fun hw hm hf hk hr => exec_keyImport ht hw hm hf hk hr, ?_, ?_,
    fun j hj hd hR => exec_journalKeyAttestationRead hj hd hR, ?_⟩
  · intro hw hv hr hs ha hu hwf
    exact ⟨_, exec_keyDelete ht hw hv hr hs ha hu, rfl, mapGet_mapSet_self none _ _ _ ((MapWf_iff _ _).1 hwf),
      fun g hg => mapGet_mapSet_ne none _ _ _ _ hg⟩
  · intro k hk hu hl ha h0
    exact ⟨exec_keyPublicRead hk hu ha ht h0 hl, exec_keyAttestationRead hk hu ha ht⟩
  · intro o hr hi hb hp runs
    exact ⟨exec_keyOpComplete_failed hr hi hb hp, fun ht4 hl hm => exec_keyOpComplete_ed25519 hr hi hb hp ht4 hl hm⟩
end

