-- ==== Sys2Proof/Proofs/WrittenNumbers.lean ====
section
-- The whole text is compiled in one process: one proof at a time keeps it within its memory.
set_option Elab.async false
/-! LEMMAS. A write of a number whose action is known on the state that serves it. -/

namespace Sys2Proof.Machine

variable {s t : State} {v : Viewer}

/-- No session waits for its end while the directory takes a write. -/
theorem Writable.closing {index sub n : Nat} (h : Writable s v index sub n) : s.sp.closing = false := by
  obtain ⟨_, ⟨_, _, hc⟩, _⟩ := h
  exact hc

/-- Where the action of the object gives `t` and a status, so does the command. -/
theorem State.writeNum_served {w : World} {tenant inst index sub n k : Nat} {act : Act} {o : Obj} {st : Status}
    (h : Writable s v index sub n) (ho : findObj index sub = some o) (hk : o.type.size = some k) (hn : n < 256 ^ k)
    (hb : o.type.isBytes = false) (ht : namedTenant v tenant = .ok inst) (ha : actionOf w v inst index sub n [] = some act)
    (hact : act (s.served v) = (t.served v, st)) (hst : st ≠ stWaits) (hc : t.sp.closing = false) :
    (Host.Outcome.next (s.writeObj w v tenant index sub (objBytes v index sub n)) : Host.Outcome State Fault Refusal)
      = .next ((t.served v).emit (.directory v st [])) := by
  have hw := State.writeNum_acts h ho hk hn hb ht ha (by rw [hact]; exact hst) (by rw [hact]; exact hc)
  rw [hact] at hw
  exact congrArg Host.Outcome.next hw

end Sys2Proof.Machine
end

