-- ==== Sys2Proof/Proofs/CardHostKept.lean ====
section
-- The whole text is compiled in one process: one proof at a time keeps it within its memory.
set_option Elab.async false
/-! LEMMAS. The Custodian Card Host: insertion, initialisation, operations, removal, tuning and CH_CFG (R350 to R363). -/

namespace Sys2Proof.Machine

variable {s : State} {v : Viewer} {f : CardFacts} {o : CardOp} {b : Bytes}

/-- The latch of CH_STAT, of which the statements speak. -/
theorem State.testBit_chStat {bits i : Nat} (h : bits.testBit i = true) :
    ((s.latch .chStat bits).latched .chStat .maker).testBit i = true :=
  State.testBit_latch (List.mem_cons_of_mem _ (List.mem_singleton.mpr rfl)) h

/-! ### Insertion and initialisation -/

theorem exec_cardInsertion_disabled (he : s.ch.enabled = false) : exec (.cardInsertion f) s = .next s := by
  simp [exec, execCardInsertion, he]

theorem exec_cardInsertion (hp : s.powered = true) (hq : s.pwr.mode ≠ .quarantine) (hr : s.pwr.mode ≠ .retired)
    (hf : s.ch.facts = none) (h0 : s.lc.tapInstr ≠ 0) (h3 : s.lc.tapInstr ≠ 3) (he : s.ch.enabled = true) :
    exec (.cardInsertion f) s = .next ((s.onCh fun c => { c with
      facts := some f, initStep := 1, present := false, mode := 0, v18 := false, tap := 0, powered := true
      label := [] }).latch .chStat 1) := by
  simp [exec, execCardInsertion, hp, hq, hr, hf, h0, h3, he]

/-- While initialisation runs, a good reply goes on with its step. -/
theorem exec_cardCommandComplete_init (hf : s.ch.facts = some f) (hi : s.ch.initStep ≠ 0) :
    exec (.cardCommandComplete .ok) s = .next (s.cardInitNext f) := by
  simp [exec, execCardCommandComplete, hf, hi]

theorem exec_cardCommandComplete_initFailed (hf : s.ch.facts = some f) (hi : s.ch.initStep ≠ 0) (h4 : s.ch.initStep ≠ 4) :
    exec (.cardCommandComplete .error) s = .next s.cardInitFailed := by
  simp [exec, execCardCommandComplete, hf, hi, h4]

theorem exec_cardCommandComplete_fallback (hf : s.ch.facts = some f) (h4 : s.ch.initStep = 4) :
    exec (.cardCommandComplete .error) s = .next (s.cardStep 5) := by
  simp [exec, execCardCommandComplete, hf, h4]

theorem State.cardCommands_outbox (cs : List (Nat × Nat)) (s : State) :
    s.cardCommands cs = { s with outbox := s.outbox ++ cs.map fun c => .card c.1 c.2 [] } := by
  induction cs generalizing s with
  | nil => simp [State.cardCommands]
  | cons c cs ih =>
    show (s.cardCommand c.1 c.2 []).cardCommands cs = _
    rw [ih]
    simp [State.cardCommand, State.emit]

/-! ### Operations -/

section Operation

variable (hf : s.ch.facts = some f) (hi : s.ch.initStep = 0) (ho : s.ch.op = some o) (ht : s.ch.retune = none)
include hf hi ho ht

theorem exec_cardCommandComplete_read (hk : o.kind = .read) :
    exec (.cardCommandComplete (.data b)) s = .next (s.readNext o b) := by
  simp [exec, execCardCommandComplete, hf, hi, ho, State.tuneIfDue, ht, hk]

theorem exec_cardCommandComplete_write (hk : o.kind = .write) :
    exec (.cardCommandComplete (.data b)) s = .next (s.writeNext o b) := by
  simp [exec, execCardCommandComplete, hf, hi, ho, State.tuneIfDue, ht, hk]

theorem exec_cardCommandComplete_writeOk (hk : o.kind = .write) :
    exec (.cardCommandComplete .ok) s = .next (s.writeNext o []) := by
  simp [exec, execCardCommandComplete, hf, hi, ho, State.tuneIfDue, ht, hk]

theorem exec_cardCommandComplete_format (hk : o.kind = .format) :
    exec (.cardCommandComplete (.data b)) s = .next (s.formatNext o b) := by
  simp [exec, execCardCommandComplete, hf, hi, ho, State.tuneIfDue, ht, hk]

end Operation

/-- The copy that a read takes: a valid one, the newer of two, copy A where they are equally new (R358). -/
theorem State.loadRecord_newer {r : Nat} {a c : Bytes}
    (h : copyOk r s.cardId a = true ∧ c = a ∧ (copyOk r s.cardId b = true → copyVersion b ≤ copyVersion a)
      ∨ copyOk r s.cardId b = true ∧ c = b ∧ (copyOk r s.cardId a = true → copyVersion a < copyVersion b)) :
    s.loadRecord r a b = (((((s.setOctets 0x8010 8 0 (slice c 64 (beAt c 12 4))).setNum 0x8010 9 0 (beAt c 48 8)).setNum
      0x8010 0xA 0 (beAt c 56 3)).setNum 0x8010 6 0 (copyVersion c)).endCardOp stOk) := by
  rcases h with ⟨ha, rfl, hv⟩ | ⟨hb, rfl, hv⟩
  · have hpick : (!(copyOk r s.cardId b && decide (copyVersion c < copyVersion b))) = true := by
      cases hb : copyOk r s.cardId b with
      | false => rfl
      | true => simpa using hv hb
    simp [State.loadRecord, ha, hpick]
  · cases ha : copyOk r s.cardId a with
    | false => simp [State.loadRecord, ha, hb]
    | true => simp [State.loadRecord, ha, hb, hv ha]

theorem State.loadRecord_invalid {r : Nat} {a : Bytes} (ha : copyOk r s.cardId a = false) (hb : copyOk r s.cardId b = false) :
    s.loadRecord r a b = s.endCardOp stCardRecordInvalid := by
  simp [State.loadRecord, ha, hb]

/-- A record version higher than copy A's, and copy B as target unless copy B is the newer one (R359). -/
theorem version_over_copyA {r id : Nat} {a b : Bytes} (ha : copyOk r id a = true) :
    copyVersion a < highVersion r id a b + 1
      ∧ (copyOk r id b = false ∨ copyVersion b ≤ copyVersion a → targetCopy r id a b = 1) := by
  refine ⟨?_, ?_⟩
  · simp only [highVersion, ha, if_true]
    omega
  · rintro (hb | hv)
    · simp [targetCopy, ha, hb]
    · simp [targetCopy, ha, Nat.not_lt.mpr hv]

/-- The same for copy B. -/
theorem version_over_copyB {r id : Nat} {a b : Bytes} (hb : copyOk r id b = true) :
    copyVersion b < highVersion r id a b + 1
      ∧ (copyOk r id a = false ∨ copyVersion a < copyVersion b → targetCopy r id a b = 0) := by
  refine ⟨?_, ?_⟩
  · simp only [highVersion, hb, if_true]
    omega
  · rintro (ha | hv)
    · simp [targetCopy, ha]
    · simp [targetCopy, hb, hv]

/-- The end of an operation: nothing but CardOpStatus, the operation and OP_DONE. -/
theorem State.endCardOp_latched (s : State) (code : Status) : ((s.endCardOp code).latched .chStat .maker).testBit 2 = true :=
  State.testBit_chStat rfl

/-! ### Removal -/

theorem State.cardOpRemoved_some (ho : s.ch.op = some o) : s.cardOpRemoved
    = if o.kind = .write ∧ 4 ≤ o.step ∨ o.kind = .format ∧ 1 ≤ o.step
      then (s.endCardOp stWriteIndeterminate).latch .chStat 8 else s.endCardOp stCardRemoved := by
  simp only [State.cardOpRemoved, ho]
  cases o.kind with
  | read => simp
  | write => simp
  | format => simp

/-- An operation that a removal ends changes no part but the card host and the latches. -/
theorem State.cardOpRemoved_eq (s : State) : ∃ status l, s.cardOpRemoved
    = { s with ch := { s.ch with op := none, opStatus := status }, latches := l } ∧ (s.ch.op = none → status = s.ch.opStatus) := by
  cases ho : s.ch.op with
  | none =>
    have hkept : s.cardOpRemoved = s := by simp only [State.cardOpRemoved, ho]
    have hch : s.ch = { s.ch with op := none } := by rw [← ho]
    exact ⟨s.ch.opStatus, s.latches, hkept.trans (congrArg (fun c => { s with ch := c }) hch), fun _ => rfl⟩
  | some o =>
    rw [State.cardOpRemoved_some ho]
    split
    · exact ⟨_, _, rfl, nofun⟩
    · exact ⟨_, _, rfl, nofun⟩

/-- The status that the removal of the card leaves (Table 15.6). -/
theorem State.cardOpRemoved_status (ho : s.ch.op = some o) : s.cardOpRemoved.ch.opStatus
      = (if o.kind = .write ∧ 4 ≤ o.step ∨ o.kind = .format ∧ 1 ≤ o.step then stWriteIndeterminate.toNat
        else stCardRemoved.toNat)
    ∧ (s.cardOpRemoved.ch.opStatus = stWriteIndeterminate.toNat →
      (s.cardOpRemoved.latched .chStat .maker).testBit 3 = true) := by
  rw [State.cardOpRemoved_some ho]
  split
  · exact ⟨rfl, fun _ => State.testBit_chStat rfl⟩
  · exact ⟨rfl, fun h => absurd h (show stCardRemoved.toNat ≠ stWriteIndeterminate.toNat by decide)⟩

theorem exec_cardRemoval (hf : s.ch.facts = some f) :
    exec .cardRemoval s = .next ((s.cardOpRemoved.latch .chStat 2).cardOff) := by
  simp [exec, execCardRemoval, State.cardRemoved, hf]

theorem exec_cardTimeout (hf : s.ch.facts = some f) (hb : s.ch.initStep ≠ 0 ∨ s.ch.op.isSome = true) :
    exec .cardTimeout s = .next ((s.cardOpRemoved.latch .chStat 2).cardOff) := by
  have hb' : (decide (s.ch.initStep ≠ 0) || s.ch.op.isSome) = true := by simpa using hb
  simp only [exec, execCardTimeout, if_pos hb', State.cardRemoved, hf, reduceCtorEq, if_false]

/-! ### Tuning -/

/-- The fold of `longestRun`: the best run and the run that ends at the tap, after one more tap. -/
def nextRun (taps : Nat) (a : (Nat × Nat) × (Nat × Nat)) (i : Nat) : (Nat × Nat) × (Nat × Nat) :=
  let run := if taps.testBit i then (if a.2.2 = 0 then i else a.2.1, a.2.2 + 1) else (0, 0)
  (if a.1.2 < run.2 then run else a.1, run)

/-- What holds of the best run and the run at the end once the first `n` taps are seen. -/
structure RunsTo (taps n : Nat) (a : (Nat × Nat) × (Nat × Nat)) : Prop where
  inside : a.1.1 + a.1.2 ≤ n
  passes : ∀ i < a.1.2, taps.testBit (a.1.1 + i) = true
  longest : ∀ first len, first + len ≤ n → (∀ i < len, taps.testBit (first + i) = true) → len ≤ a.1.2
  ends : a.2.2 ≠ 0 → a.2.1 + a.2.2 = n
  endPasses : ∀ i < a.2.2, taps.testBit (a.2.1 + i) = true
  endLongest : ∀ first len, first + len = n → (∀ i < len, taps.testBit (first + i) = true) → len ≤ a.2.2

theorem RunsTo.next {taps n : Nat} {a : (Nat × Nat) × (Nat × Nat)} (h : RunsTo taps n a) :
    RunsTo taps (n + 1) (nextRun taps a n) := by
  obtain ⟨⟨best, size⟩, cur, len⟩ := a
  obtain ⟨hin, hpass, hlong, hend, hendp, hendl⟩ := h
  simp only at hin hpass hlong hend hendp hendl
  cases hn : taps.testBit n with
  | false =>
    have hstep : nextRun taps ((best, size), (cur, len)) n = ((best, size), (0, 0)) := by simp [nextRun, hn]
    have hshort (first l : Nat) (h : first + l = n + 1) (hl : ∀ i < l, taps.testBit (first + i) = true) : l = 0 := by
      by_contra h0
      have hlast := hl (l - 1) (by omega)
      rw [show first + (l - 1) = n by omega, hn] at hlast
      exact Bool.false_ne_true hlast
    rw [hstep]
    refine ⟨Nat.le_succ_of_le hin, hpass, fun first l h hl => ?_, (absurd rfl ·), nofun, fun first l h hl => ?_⟩
    · rcases Nat.le_succ_iff.mp h with h | h
      · exact hlong first l h hl
      · exact (hshort first l h hl).le.trans (Nat.zero_le _)
    · exact (hshort first l h hl).le
  | true =>
    have hrun (first l : Nat) (h : first + l = n + 1) (hl : ∀ i < l, taps.testBit (first + i) = true) : l ≤ len + 1 := by
      rcases l with _ | l
      · exact Nat.zero_le _
      · exact Nat.succ_le_succ (hendl first l (Nat.succ.inj h) fun i hi => hl i (Nat.lt_succ_of_lt hi))
    obtain ⟨start, hstart, hat, hpasses⟩ : ∃ start, (if len = 0 then n else cur) = start ∧ start + len = n
        ∧ ∀ i < len, taps.testBit (start + i) = true := by
      by_cases h0 : len = 0
      · exact ⟨n, if_pos h0, by rw [h0]; rfl, fun i hi => absurd (h0 ▸ hi) (Nat.not_lt_zero i)⟩
      · exact ⟨cur, if_neg h0, hend h0, hendp⟩
    have hstep : nextRun taps ((best, size), (cur, len)) n
        = (if size < len + 1 then (start, len + 1) else (best, size), (start, len + 1)) := by
      simp [nextRun, hn, hstart]
    have hall : ∀ i < len + 1, taps.testBit (start + i) = true := fun i hi => by
      rcases Nat.lt_succ_iff_lt_or_eq.mp hi with hi | rfl
      · exact hpasses i hi
      · rw [hat, hn]
    rw [hstep]
    by_cases hlt : size < len + 1
    · rw [if_pos hlt]
      refine ⟨by simp only; omega, hall, fun first l h hl => ?_, fun _ => by simp only; omega, hall, hrun⟩
      rcases Nat.le_succ_iff.mp h with h | h
      · exact (hlong first l h hl).trans hlt.le
      · exact hrun first l h hl
    · rw [if_neg hlt]
      refine ⟨Nat.le_succ_of_le hin, hpass, fun first l h hl => ?_, fun _ => by simp only; omega, hall, hrun⟩
      rcases Nat.le_succ_iff.mp h with h | h
      · exact hlong first l h hl
      · exact (hrun first l h hl).trans (Nat.not_lt.mp hlt)

/-- The longest run over the first `n` taps. -/
theorem runsTo_foldl (taps n : Nat) : RunsTo taps n ((List.range n).foldl (nextRun taps) ((0, 0), (0, 0))) := by
  induction n with
  | zero =>
    exact ⟨Nat.le_refl 0, nofun, fun _ _ h _ => (Nat.le_add_left _ _).trans h, (absurd rfl ·), nofun,
      fun _ _ h _ => (Nat.le_add_left _ _).trans h.le⟩
  | succ n ih =>
    rw [List.range_succ, List.foldl_append]
    exact ih.next

theorem longestRun_eq (taps : Nat) :
    longestRun taps = ((List.range 64).foldl (nextRun taps) ((0, 0), (0, 0))).1 := by
  unfold longestRun nextRun
  rfl

theorem longestRun_runsTo (taps : Nat) :
    let r := longestRun taps
    r.1 + r.2 ≤ 64 ∧ (∀ i < r.2, taps.testBit (r.1 + i) = true)
      ∧ (∀ first len, first + len ≤ 64 → (∀ i < len, taps.testBit (first + i) = true) → len ≤ r.2) := by
  intro r
  have hr : r = ((List.range 64).foldl (nextRun taps) ((0, 0), (0, 0))).1 := longestRun_eq taps
  rw [hr]
  have h := runsTo_foldl taps 64
  exact ⟨h.inside, h.passes, h.longest⟩

theorem State.tune_found {taps : Nat} (h : 8 ≤ (longestRun taps).2) : s.tune taps = s.onCh fun c =>
    { c with tap := middleTap taps, lastTune := s.clock, tuneTemp := c.temp, retune := none } := by
  simp only [State.tune, if_pos h]

theorem State.tune_lower {taps : Nat} (h : (longestRun taps).2 < 8) : s.tune taps = ((s.onCh fun c => { c with
    mode := if c.mode = 7 then 5 else 6
    lastTune := if c.mode = 7 then 0 else s.clock
    tuneTemp := c.temp
    retune := none }).latch .chStat 0x40).cardCommand 6 (if s.ch.mode = 7 then 5 else 6) [] := by
  simp only [State.tune, if_neg (Nat.not_le.mpr h)]

/-- Tuning that need not wait (R353): CMD19 at each tap, and what came of it. -/
theorem State.retuneNow_idle {taps : Nat} (ho : s.ch.op = none) : s.retuneNow taps
    = (({ s with outbox := s.outbox ++ List.replicate 64 (.card 19 0 []) } : State).tune taps).latch .chStat 0x20 := by
  simp only [State.retuneNow, ho, Option.isSome_none, Bool.false_eq_true, if_false, State.cardCommands_outbox, tuningCommands,
    List.map_replicate]

theorem State.retuneNow_busy {taps : Nat} (ho : s.ch.op.isSome = true) :
    s.retuneNow taps = s.onCh fun c => { c with retune := some taps } := by
  simp only [State.retuneNow, if_pos ho]

theorem exec_cardRetuneTimer {low high : Nat} (ht : s.tunes = true) (hc : s.ch.lastTune + 4000000000 ≤ s.clock) :
    exec (.cardRetuneTimer low high) s = .next (s.retuneNow (tapsOf low high)) := by
  simp [exec, execCardRetuneTimer, ht, hc]

theorem exec_cardTempPoll_near {x : Int} {low high : Nat} (hp : s.powered = true) (hx : (x - s.ch.tuneTemp).natAbs < 15) :
    exec (.cardTempPoll x low high) s = .next { s with ch := { s.ch with temp := x } } := by
  have hx' : ¬ 15 ≤ (x - s.ch.tuneTemp).natAbs := Nat.not_le.mpr hx
  simp [exec, execCardTempPoll, hp, State.onCh, hx']

theorem exec_cardTempPoll_far {x : Int} {low high : Nat} (hp : s.powered = true) (ht : s.tunes = true)
    (hx : 15 ≤ (x - s.ch.tuneTemp).natAbs) : exec (.cardTempPoll x low high) s
      = .next ((s.onCh fun c => { c with temp := x }).retuneNow (tapsOf low high)) := by
  have ht' : (s.onCh fun c => { c with temp := x }).tunes = true := ht
  have hx' : 15 ≤ (x - (s.onCh fun c => { c with temp := x }).ch.tuneTemp).natAbs := hx
  simp only [exec, execCardTempPoll, hp, Bool.not_true, Bool.false_eq_true, if_false, ht', decide_eq_true hx', Bool.and_self,
    if_true]

/-! ### Triggers -/

theorem State.cardBlocked_busy {l : Bool} (h : s.ch.op.isSome = true) : s.cardBlocked l = some stSlotBusy := by
  simp [State.cardBlocked, h]

theorem State.cardBlocked_removed {l : Bool} (ho : s.ch.op = none) (hp : s.ch.present = false) :
    s.cardBlocked l = some stCardRemoved := by
  simp [State.cardBlocked, ho, hp]

theorem State.cardBlocked_ready {l : Bool} (ho : s.ch.op = none) (hp : s.ch.present = true)
    (hl : l = true → s.cardLabelOk = true) : s.cardBlocked l = none := by
  cases l with
  | false => simp [State.cardBlocked, ho, hp]
  | true => simp [State.cardBlocked, ho, hp, hl]

/-- The first command of a read or a write: copy A of the record selected. -/
def State.cardOpStarts (s : State) (kind : CardKind) : State :=
  (s.cardOpStep { kind := kind, step := 0, slot := s.recordSelect }).cardCommand 18 (copyLba s.recordSelect 0) []

section CardRead

variable (h : Writable s v 0x8010 2 0xCA4D)
include h

theorem exec_cardRead (hb : s.cardBlocked true = none) : Wrote (.cardRead v 0xCA4D#32) s v stOk (s.cardOpStarts .read) := by
  have hb' : (s.served v).cardBlocked true = none := hb
  exact State.writeNum_served (w := {}) (tenant := ownTenant) h rfl (k := 4) rfl (by decide) rfl (namedTenant_own v) rfl
    (by simp only [cardRead, hb']; rfl) (by decide) h.closing

theorem exec_cardRead_blocked {st : Status} (hb : s.cardBlocked true = some st) (hw : st ≠ stWaits) :
    Wrote (.cardRead v 0xCA4D#32) s v st s := by
  have hb' : (s.served v).cardBlocked true = some st := hb
  exact State.writeNum_served (w := {}) (tenant := ownTenant) h rfl (k := 4) rfl (by decide) rfl (namedTenant_own v) rfl
    (by simp only [cardRead, hb']; rfl) hw h.closing

end CardRead

section CardWrite

variable (h : Writable s v 0x8010 3 0xCA57) (hb : s.cardBlocked true = none)
include h hb

theorem exec_cardWrite_badShare (hs : s.shareOk = false) : Wrote (.cardWrite v 0xCA57#32) s v stBadDescriptor s := by
  have hb' : (s.served v).cardBlocked true = none := hb
  have hs' : (s.served v).shareOk = false := hs
  exact State.writeNum_served (w := {}) (tenant := ownTenant) h rfl (k := 4) rfl (by decide) rfl (namedTenant_own v) rfl
    (by simp only [cardWrite, hb', hs']; rfl) (by decide) h.closing

theorem exec_cardWrite (hs : s.shareOk = true) (hp : s.cardProtected = false) :
    Wrote (.cardWrite v 0xCA57#32) s v stOk (s.cardOpStarts .write) := by
  have hb' : (s.served v).cardBlocked true = none := hb
  have hs' : (s.served v).shareOk = true := hs
  have hp' : (s.served v).cardProtected = false := hp
  exact State.writeNum_served (w := {}) (tenant := ownTenant) h rfl (k := 4) rfl (by decide) rfl (namedTenant_own v) rfl
    (by simp only [cardWrite, hb', hs', hp']; rfl) (by decide) h.closing

theorem exec_cardWrite_protected (hs : s.shareOk = true) (hp : s.cardProtected = true) :
    Wrote (.cardWrite v 0xCA57#32) s v stOk (s.endCardOp stCardWriteProtected) := by
  have hb' : (s.served v).cardBlocked true = none := hb
  have hs' : (s.served v).shareOk = true := hs
  have hp' : (s.served v).cardProtected = true := hp
  exact State.writeNum_served (w := {}) (tenant := ownTenant) h rfl (k := 4) rfl (by decide) rfl (namedTenant_own v) rfl
    (by simp only [cardWrite, hb', hs', hp']; rfl) (by decide) h.closing

end CardWrite

/-- The state in which a format starts (R360). -/
def State.cardFormatStarts (s : State) : State :=
  let r := s.generate 77 8 false
  (r.2.cardOpStep { kind := .format, step := 0, slot := 0, image := r.2.newLabel r.1 }).cardCommand 24 0 []

theorem State.turned_cardFormatStarts {turn ending} : (s.turned turn ending).cardFormatStarts
    = s.cardFormatStarts.turned turn ending := by
  unfold State.cardFormatStarts
  rw [State.turned_generate]
  rfl

theorem exec_cardFormat (h : Writable s v 0x8010 4 0xCAF0) (hb : s.cardBlocked false = none) (hp : s.cardProtected = false)
    (he : s.coreEntropyBlock = none) : Wrote (.cardFormat v 0xCAF0#32) s v stOk s.cardFormatStarts := by
  obtain ⟨hc, hw⟩ := State.commutes_served (s := s) (v := v) (f := State.cardFormatStarts)
    fun _ _ _ => State.turned_cardFormatStarts
  have hb' : (s.served v).cardBlocked false = none := hb
  have hp' : (s.served v).cardProtected = false := hp
  have he' : (s.served v).coreEntropyBlock = none := he
  have hact : cardFormat 0xCAF0 (s.served v) = (s.cardFormatStarts.served v, stOk) := by
    rw [← hw]
    simp only [cardFormat, hb', hp', he']
    rfl
  exact State.writeNum_served (w := {}) (tenant := ownTenant) h rfl (k := 4) rfl (by decide) rfl (namedTenant_own v) rfl
    hact (by decide) (hc.trans h.closing)

/-- What a format changes when it starts. -/
theorem State.cardFormatStarts_eq (s : State) : ∃ id en pd n, s.cardFormatStarts = { s with
    ch := { s.ch with op := some { kind := .format, step := 0, slot := 0, image := s.newLabel id } }
    en := en, pd := pd, freeCtr := n, outbox := s.outbox ++ [.card 24 0 []] } := by
  obtain ⟨en, pd, n, hr⟩ := State.generate_poolDrew s (i := 77) (by decide) 8 false
  refine ⟨(s.generate 77 8 false).1, en, pd, n, ?_⟩
  simp only [State.cardFormatStarts]
  rw [hr]
  rfl

/-! ### CH_CFG -/

/-- A write of CH_CFG that tenant 0 can reach. -/
theorem exec_chCfgWrite {x : BitVec 32} (h : Reaches s (.bar2 0xC0008) .chCfg) :
    exec (.chCfgWrite x) s = .next (s.chCfg x) :=
  congrArg Host.Outcome.next (State.hostWrite_reached h _)

/-- MAX_MODE is among the fields. -/
theorem bitsOf_chFields (n : Nat) : bitsOf (n &&& chFields) 6 4 = bitsOf n 6 4 := by
  unfold bitsOf
  rw [← Nat.shiftRight_eq_div_pow, Nat.shiftRight_and_distrib, ← Nat.shiftRight_eq_div_pow]
  show ((n >>> 4) &&& (2 ^ 3 - 1)) % 2 ^ 3 = (n >>> 4) % 2 ^ 3
  rw [Nat.and_two_pow_sub_one_eq_mod, Nat.mod_mod]

/-- The fields of CH_CFG with its ENABLE bit. -/
theorem chCfg_word (x : BitVec 32) : BitVec.ofNat 32 (b2n (x.toNat.testBit 31) * 2 ^ 31 + (x.toNat &&& chFields))
    = x &&& 0x80000073#32 := by
  have hlow : x.toNat &&& chFields < 2 ^ 31 := (Nat.and_le_right (n := x.toNat) (m := chFields)).trans_lt (by decide)
  have hbit : b2n (x.toNat.testBit 31) * 2 ^ 31 = x.toNat &&& 2 ^ 31 := by
    rw [Nat.and_two_pow]
    cases x.toNat.testBit 31 <;> rfl
  have hsum : b2n (x.toNat.testBit 31) * 2 ^ 31 + (x.toNat &&& chFields) = x.toNat &&& (2 ^ 31 ||| chFields) := by
    rw [Nat.and_or_distrib_left, ← hbit, Nat.mul_comm]
    exact Nat.two_pow_add_eq_or_of_lt hlow _
  rw [hsum]
  refine BitVec.eq_of_toNat_eq ?_
  rw [BitVec.toNat_ofNat, BitVec.toNat_and]
  exact Nat.mod_eq_of_lt (Nat.and_le_left.trans_lt x.isLt)

theorem State.chCfg_disabled {x : BitVec 32} (he : s.ch.enabled = false) (hl : bitOf s.hg.blockLock 12 = false)
    (hm : bitsOf x.toNat 6 4 ≠ 0) :
    ∃ hg, s.chCfg x = { s with ch := { s.ch with cfg := x &&& 0x80000073#32 }, hg := hg } := by
  have hlock : bitOf (s.unitWritten chUnit 8).hg.blockLock 12 = false := hl
  have hfields : bitsOf (x.toNat &&& chFields) 6 4 ≠ 0 := by
    rw [bitsOf_chFields]
    exact hm
  refine ⟨(s.unitWritten chUnit 8).hg, ?_⟩
  have henable : ¬ ((x.toNat.testBit 31 && decide (bitsOf (x.toNat &&& chFields) 6 4 = 0)) = true) := by simp [hfields]
  simp only [State.chCfg, he, Bool.false_eq_true, if_false, hlock, if_neg henable, chCfg_word]
  rfl

theorem State.chCfg_enabled {x : BitVec 32} (he : s.ch.enabled = true) (hx : x.getLsbD 31 = true) :
    ∃ l, s.chCfg x = { s with latches := l } := by
  have hx' : x.toNat.testBit 31 = true := hx
  simp only [State.chCfg, he, if_true, hx']
  split
  · exact ⟨_, rfl⟩
  · exact ⟨_, rfl⟩

theorem State.chCfg_cleared {x : BitVec 32} (he : s.ch.enabled = true) (hx : x.getLsbD 31 = false) :
    ∃ ch l, s.chCfg x = { s with ch := ch, latches := l } ∧ ch.cfg = s.ch.cfg &&& 0x7FFFFFFF#32
      ∧ ch.op = none ∧ ch.present = false ∧ ch.powered = false := by
  have hx' : x.toNat.testBit 31 = false := hx
  obtain ⟨l, hi⟩ : ∃ l, (if (decide ((x.toNat &&& chFields) ≠ (s.ch.cfg.toNat &&& chFields)) || bitOf s.hg.blockLock 12) = true
      then s.ignoredWrite 12 else s) = { s with latches := l } := by
    split
    · exact ⟨_, rfl⟩
    · exact ⟨_, rfl⟩
  obtain ⟨status, l', hr, _⟩ := State.cardOpRemoved_eq { s with latches := l }
  simp only [State.chCfg, he, if_true, hx', Bool.false_eq_true, if_false, hi, hr]
  exact ⟨_, _, rfl, rfl, rfl, rfl, rfl⟩

end Sys2Proof.Machine

open Sys2Proof Sys2Proof.Machine

/-- Settles O53, clause by clause: each command's equation, and what `ends`, a removal and a tuning leave. -/
theorem cardHost : Obligations.CardHost := by
  intro s step ends tuned tuning
  have hends (x : State) (hx : ∃ pd, x = { s with pd := pd }) (code : Status) : ends (x.endCardOp code) code := by
    obtain ⟨pd, rfl⟩ := hx
    exact ⟨rfl, rfl, State.endCardOp_latched _ code⟩
  refine ⟨?_, ?_, ?_, ?_, ?_, ?_, ?_, ?_, ?_⟩
  · intro f hp hq hr hf h0 h3
    exact ⟨exec_cardInsertion_disabled, fun he => ⟨_, exec_cardInsertion hp hq hr hf h0 h3 he, rfl, State.testBit_chStat rfl⟩⟩
  · intro f hf
    refine ⟨fun h9 => ?_, fun h3 hr hc hs hm => ?_, fun hi h4 => ?_, fun h4 => ?_⟩
    · rw [exec_cardCommandComplete_init hf (by rw [h9]; decide)]
      simp only [State.cardInitNext, h9]
      rfl
    · rw [exec_cardCommandComplete_init hf (by rw [h3]; decide)]
      simp only [State.cardInitNext, h3, hr, hc, hs, decide_eq_true hm]
      rfl
    · exact ⟨_, exec_cardCommandComplete_initFailed hf hi h4, rfl, State.testBit_chStat rfl⟩
    · refine ⟨_, exec_cardCommandComplete_fallback hf h4, ?_⟩
      rw [State.cardStep, State.cardCommands_outbox]
      rfl
  · intro f o b hf hi ho ht
    refine ⟨fun hk h0 => ?_, fun hk h1 hwf c hc => ?_, fun hk h1 ha hb => ?_, fun hk h1 => ?_, fun hk h3 => ?_,
      fun hk h7 => ?_, fun hk h3 hb => ?_⟩
    · rcases hk with hk | hk
      · rw [exec_cardCommandComplete_read hf hi ho ht hk, State.readNext, if_pos h0]
        rfl
      · rw [exec_cardCommandComplete_write hf hi ho ht hk, State.writeNext, h0]
        rfl
    · have hread : s.readNext o b = s.loadRecord o.slot o.copyA b := by rw [State.readNext, h1]; rfl
      refine ⟨_, (exec_cardCommandComplete_read hf hi ho ht hk).trans
        (congrArg Host.Outcome.next (hread.trans (State.loadRecord_newer hc))), hends _ ⟨_, rfl⟩ stOk, ?_, ?_, ?_, ?_⟩
      · exact mapGet_mapSet_self [] _ _ _ ((MapWf_iff _ _).1 hwf)
      · exact State.num_setNum_self ..
      · exact ((State.num_setNum_ne _ (by decide) _ _).trans (State.num_setNum_ne _ (by decide) _ _)).trans
          (State.num_setNum_self ..)
      · exact (State.num_setNum_ne _ (by decide) _ _).trans (State.num_setNum_self ..)
    · have hread : s.readNext o b = s.loadRecord o.slot o.copyA b := by rw [State.readNext, h1]; rfl
      exact ⟨_, (exec_cardCommandComplete_read hf hi ho ht hk).trans
        (congrArg Host.Outcome.next (hread.trans (State.loadRecord_invalid ha hb))), hends _ ⟨_, rfl⟩ _, rfl⟩
    · have hnext := exec_cardCommandComplete_write (b := b) hf hi ho ht hk
      rw [State.writeNext, h1] at hnext
      exact ⟨_, _, hnext, rfl, rfl, State.num_setNum_self .., version_over_copyA, version_over_copyB⟩
    · rw [exec_cardCommandComplete_writeOk hf hi ho ht hk, State.writeNext, h3]
      rfl
    · have hnext := exec_cardCommandComplete_write (b := b) hf hi ho ht hk
      rw [State.writeNext, h7] at hnext
      by_cases hb : b = o.image
      · simp only [if_pos hb] at hnext ⊢
        exact ⟨_, hnext, hends _ ⟨_, rfl⟩ _, fun _ => State.num_setNum_self .., fun h => absurd hb h⟩
      · simp only [if_neg hb] at hnext ⊢
        exact ⟨_, hnext, hends _ ⟨_, rfl⟩ _, fun h => absurd h hb, fun _ => rfl⟩
    · have hnext := exec_cardCommandComplete_format (b := b) hf hi ho ht hk
      rw [State.formatNext, h3] at hnext
      simp only [if_pos hb] at hnext
      exact ⟨_, hnext, rfl, State.endCardOp_latched _ _⟩
  · intro f hf
    refine ⟨_, exec_cardRemoval hf, exec_cardTimeout hf, ?_, State.testBit_chStat rfl, fun ho => ?_, fun o ho => ?_⟩
    · obtain ⟨status, l, h, _⟩ := s.cardOpRemoved_eq
      rw [h]
      rfl
    · obtain ⟨status, l, h, hs⟩ := s.cardOpRemoved_eq
      rw [h]
      exact hs ho
    · obtain ⟨hstatus, hlatch⟩ := State.cardOpRemoved_status ho
      exact ⟨hstatus, fun h => State.testBit_latch_keeps (hlatch h)⟩
  · intro taps
    obtain ⟨h1, h2, h3⟩ := longestRun_runsTo taps
    exact ⟨h1, h2, h3, rfl⟩
  · intro low high taps run ht hc
    refine ⟨fun ho => ?_, fun ho => ⟨_, exec_cardRetuneTimer ht hc, ?_⟩⟩
    · rw [exec_cardRetuneTimer ht hc, State.retuneNow_busy ho]
      rfl
    · rw [State.retuneNow_idle ho]
      refine ⟨State.testBit_chStat rfl, fun h8 => ?_, fun h8 => ?_⟩
      · rw [State.tune_found (taps := tapsOf low high) h8]
        rfl
      · rw [State.tune_lower (taps := tapsOf low high) h8]
        refine ⟨State.testBit_latch_keeps (State.testBit_chStat rfl), fun h5 => ?_, fun h7 => ?_⟩
        · simp only [State.onCh, h5]
          rfl
        · simp only [State.onCh, h7]
          rfl
  · intro x low high taps hp
    refine ⟨exec_cardTempPoll_near hp, fun hx ht ho h8 => ⟨_, exec_cardTempPoll_far hp ht hx, ?_⟩⟩
    rw [State.retuneNow_idle (show (s.onCh fun c => { c with temp := x }).ch.op = none from ho),
      State.tune_found (taps := tapsOf low high) h8]
    exact ⟨State.testBit_chStat rfl, rfl⟩
  · intro v r first
    refine ⟨fun h => ⟨fun ho hp hl => ?_, fun ho => ?_, fun ho hp => ?_⟩, fun h ho hp hl => ?_, fun h ho hp hw he => ?_⟩
    · exact exec_cardRead h (State.cardBlocked_ready ho hp fun _ => hl)
    · exact exec_cardRead_blocked h (State.cardBlocked_busy ho) (by decide)
    · exact exec_cardRead_blocked h (State.cardBlocked_removed ho hp) (by decide)
    · have hb := State.cardBlocked_ready (l := true) ho hp fun _ => hl
      exact ⟨exec_cardWrite_badShare h hb, exec_cardWrite h hb,
        fun hs hw => ⟨_, exec_cardWrite_protected h hb hs hw, hends _ ⟨_, rfl⟩ _, rfl⟩⟩
    · obtain ⟨id, en, pd, n, hstart⟩ := s.cardFormatStarts_eq
      refine ⟨_, id, exec_cardFormat h (State.cardBlocked_ready ho hp nofun) hw he, ?_⟩
      rw [hstart]
  · intro x h
    rw [exec_chCfgWrite h]
    refine ⟨fun he hl hm => ?_, fun he hx => ?_, fun he hx => ?_⟩
    · obtain ⟨hg, hw⟩ := State.chCfg_disabled he hl hm
      exact ⟨_, rfl, by rw [hw]⟩
    · obtain ⟨l, hw⟩ := State.chCfg_enabled he hx
      exact ⟨_, rfl, by rw [hw]⟩
    · obtain ⟨ch, l, hw, hcfg, hop, hpresent, hpowered⟩ := State.chCfg_cleared he hx
      refine ⟨_, rfl, ?_⟩
      rw [hw]
      exact ⟨rfl, hcfg, hop, hpresent, hpowered⟩
end

