-- ==== Sys2Proof/Proofs/DirectoryRoundRecords.lean ====
section
-- The whole text is compiled in one process: one proof at a time keeps it within its memory.
set_option Elab.async false
/-! LEMMAS. The operations that write the Evidence Log or the journal, stop or open a reel, send to another member or change a
role commute with the round of R271 too (DirectoryRound). In the order of the model's files. -/

namespace Sys2Proof.Machine

variable {s : State} {turn : Nat} {ending : Bool}

theorem State.turned_onPwr {f} : State.onPwr f (s.turned turn ending) = (State.onPwr f s).turned turn ending := rfl

theorem State.turned_onHg {f} : State.onHg f (s.turned turn ending) = (State.onHg f s).turned turn ending := rfl

theorem State.turned_onLg {f} : State.onLg f (s.turned turn ending) = (State.onLg f s).turned turn ending := rfl

theorem State.turned_onEl {f} : State.onEl f (s.turned turn ending) = (State.onEl f s).turned turn ending := rfl

theorem State.turned_onXl {f} : State.onXl f (s.turned turn ending) = (State.onXl f s).turned turn ending := rfl

theorem State.turned_onTg {f} : State.onTg f (s.turned turn ending) = (State.onTg f s).turned turn ending := rfl

theorem State.turned_onLc {f} : State.onLc f (s.turned turn ending) = (State.onLc f s).turned turn ending := rfl

theorem State.turned_emit {o} : State.emit o (s.turned turn ending) = (State.emit o s).turned turn ending := rfl

theorem State.turned_fn {n} : State.fn (s.turned turn ending) n = State.fn s n := rfl

theorem State.turned_slot {n} : State.slot (s.turned turn ending) n = State.slot s n := rfl

theorem State.turned_onSlot {n f} : State.onSlot n f (s.turned turn ending)
    = (State.onSlot n f s).turned turn ending := rfl

theorem State.turned_onApplet {a f} : State.onApplet a f (s.turned turn ending)
    = (State.onApplet a f s).turned turn ending := rfl

theorem State.turned_port {p} : State.port (s.turned turn ending) p = State.port s p := rfl

theorem State.turned_onPort {p f} : State.onPort p f (s.turned turn ending)
    = (State.onPort p f s).turned turn ending := rfl

theorem State.turned_derives : State.derives (s.turned turn ending) = State.derives s := rfl

theorem State.turned_stands {c} : State.stands (s.turned turn ending) c = State.stands s c := rfl

theorem State.turned_sealing : State.sealing (s.turned turn ending) = State.sealing s := rfl

theorem State.turned_powered : State.powered (s.turned turn ending) = State.powered s := rfl

theorem State.turned_dmaCan {fn addr n} : State.dmaCan (s.turned turn ending) fn addr n
    = State.dmaCan s fn addr n := rfl

theorem State.turned_dmaLands {fn addr n} : State.dmaLands (s.turned turn ending) fn addr n
    = State.dmaLands s fn addr n := rfl

theorem State.turned_evidenceHead : State.evidenceHead (s.turned turn ending) = State.evidenceHead s := rfl

theorem State.turned_unarchived : State.unarchived (s.turned turn ending) = State.unarchived s := rfl

theorem State.turned_stamp : State.stamp (s.turned turn ending) = State.stamp s := rfl

theorem State.turned_evidenceBody {kind code time data} : State.evidenceBody (s.turned turn ending) kind code time data
    = State.evidenceBody s kind code time data := rfl

theorem State.turned_evidencePut {body} : State.evidencePut body (s.turned turn ending)
    = (State.evidencePut body s).turned turn ending := rfl

theorem State.turned_evidence {kind code time data eraseAlarm} : State.evidence kind code time data eraseAlarm (s.turned turn ending)
    = (State.evidence kind code time data eraseAlarm s).turned turn ending := by
  grind [State.evidence, State.turned_unarchived, State.turned_tg, State.turned_evidencePut,
    State.turned_evidenceBody, State.turned_onTg]

theorem State.turned_event {code data} : State.event code data (s.turned turn ending)
    = (State.event code data s).turned turn ending := by
  simp only [State.event, State.turned_evidence, State.turned_stamp]

theorem State.turned_causeRecord {c before after} : State.causeRecord c before after (s.turned turn ending)
    = (State.causeRecord c before after s).turned turn ending := by
  simp only [State.causeRecord, State.turned_evidence, State.turned_stamp]

theorem State.turned_reelFill : State.reelFill (s.turned turn ending) = State.reelFill s := rfl

theorem State.turned_silentDrain : State.silentDrain (s.turned turn ending) = State.silentDrain s := rfl

theorem State.turned_tapFree : State.tapFree (s.turned turn ending) = State.tapFree s := rfl

theorem State.turned_appletRecord {kind reason a commit seq body} : State.appletRecord kind reason a commit seq body (s.turned turn ending)
    = State.appletRecord kind reason a commit seq body s := rfl

theorem State.turned_discardHeld {a} : State.discardHeld a (s.turned turn ending)
    = (State.discardHeld a s).turned turn ending := by
  grind [State.discardHeld, State.turned_applet, State.turned_latch, State.turned_onApplet]

theorem State.turned_oweQueues {st} : State.oweQueues st (s.turned turn ending)
    = (State.oweQueues st s).turned turn ending := rfl

theorem State.turned_addCause {c} : State.addCause c (s.turned turn ending)
    = (State.addCause c s).turned turn ending := by
  grind [State.addCause, State.turned_stands, State.turned_onPwr]

theorem State.turned_noteEvidence : State.noteEvidence (s.turned turn ending)
    = (State.noteEvidence s).turned turn ending := by
  grind [State.noteEvidence, State.turned_unarchived, State.turned_stands, State.turned_onTg, State.turned_addCause]

theorem State.turned_noteCause {c} : State.noteCause c (s.turned turn ending)
    = (State.noteCause c s).turned turn ending := by
  unfold State.noteCause
  simp only [State.turned_stands, State.turned_noteEvidence, State.turned_causeRecord, State.turned_pwr,
    State.turned_addCause]
  split <;> rfl

theorem State.turned_reelShort : State.reelShort (s.turned turn ending) = State.reelShort s := rfl

theorem State.turned_tapShort : State.tapShort (s.turned turn ending) = State.tapShort s := rfl

theorem State.turned_noteFull : State.noteFull (s.turned turn ending) = (State.noteFull s).turned turn ending := by
  grind [State.noteFull, State.turned_reelShort, State.turned_noteCause, State.turned_latch, State.turned_tapShort]

theorem State.turned_modeAfter {c} : State.modeAfter (s.turned turn ending) c = State.modeAfter s c := rfl

theorem State.turned_fleetEnable : State.fleetEnable (s.turned turn ending) = State.fleetEnable s := rfl

theorem State.turned_fleetId : State.fleetId (s.turned turn ending) = State.fleetId s := rfl

theorem State.turned_memberId : State.memberId (s.turned turn ending) = State.memberId s := rfl

theorem State.turned_leaseBlock : State.leaseBlock (s.turned turn ending) = State.leaseBlock s := rfl

theorem State.turned_transmit {p f} : State.transmit p f (s.turned turn ending)
    = (State.transmit p f s).turned turn ending := rfl

theorem State.turned_sendPort {p f} : State.sendPort p f (s.turned turn ending)
    = (State.sendPort p f s).turned turn ending := by
  grind [State.sendPort, State.turned_port, State.turned_onPort, State.turned_clock, State.turned_transmit]

theorem State.turned_route {p m} : State.route (s.turned turn ending) p m = State.route s p m := rfl

theorem State.turned_bumpFleet {sub} : State.bumpFleet sub (s.turned turn ending)
    = (State.bumpFleet sub s).turned turn ending := rfl

theorem State.turned_sendMember {m vc x2 payload} : State.sendMember m vc x2 payload (s.turned turn ending)
    = (State.sendMember m vc x2 payload s).turned turn ending := by
  grind [State.sendMember, State.turned_route, State.turned_bumpFleet, State.turned_latch, State.turned_sendPort,
    State.turned_memberId]

theorem State.turned_sendRequest {m x1 body} : State.sendRequest m x1 body (s.turned turn ending)
    = (State.sendRequest m x1 body s).turned turn ending := by
  simp only [State.sendRequest, State.turned_xl, State.turned_onXl, State.turned_clock, State.turned_sendMember]

theorem State.turned_portMay {p} : State.portMay (s.turned turn ending) p = State.portMay s p := rfl

theorem State.turned_startPort {p} : State.startPort p (s.turned turn ending)
    = (State.startPort p s).turned turn ending := by
  grind [State.startPort, State.turned_port, State.turned_portMay, State.turned_onPort, State.turned_clock]

theorem State.turned_fleetRecord {kind action reason n other first last} : State.fleetRecord (s.turned turn ending) kind action reason n other first last
    = State.fleetRecord s kind action reason n other first last := rfl

theorem State.turned_grantLimit {n} : State.grantLimit (s.turned turn ending) n = State.grantLimit s n := rfl

theorem State.turned_ownLeases {n} : State.ownLeases (s.turned turn ending) n = State.ownLeases s n := rfl

theorem State.turned_cacheUsed : State.cacheUsed (s.turned turn ending) = State.cacheUsed s := rfl

theorem State.turned_evictSlot {n} : State.evictSlot n (s.turned turn ending)
    = (State.evictSlot n s).turned turn ending := by
  grind [State.evictSlot, State.turned_lg, State.turned_onLg]

theorem State.turned_evictable : State.evictable (s.turned turn ending) = State.evictable s := rfl

theorem State.turned_recorderDigest : State.recorderDigest (s.turned turn ending) = State.recorderDigest s := rfl

theorem State.turned_reelCadence : State.reelCadence (s.turned turn ending) = State.reelCadence s := rfl

theorem State.turned_escrowFec : State.escrowFec (s.turned turn ending) = State.escrowFec s := rfl

theorem State.turned_statusLimit : State.statusLimit (s.turned turn ending) = State.statusLimit s := rfl

theorem State.turned_ackLimit : State.ackLimit (s.turned turn ending) = State.ackLimit s := rfl

theorem State.turned_policyDigest : State.policyDigest (s.turned turn ending) = State.policyDigest s := rfl

theorem State.turned_reelSlate {kind reason count gapFirst gapLast waived} : State.reelSlate (s.turned turn ending) kind reason count gapFirst gapLast waived
    = State.reelSlate s kind reason count gapFirst gapLast waived := rfl

theorem State.turned_refuseReel {code} : State.refuseReel code (s.turned turn ending)
    = (State.refuseReel code s).turned turn ending := rfl

theorem State.turned_startRunOut {cause} : State.startRunOut cause (s.turned turn ending)
    = (State.startRunOut cause s).turned turn ending := rfl

theorem State.turned_portDown {p} : State.portDown p (s.turned turn ending)
    = (State.portDown p s).turned turn ending := by
  grind [State.portDown, State.turned_port, State.turned_latch, State.turned_startPort, State.turned_onPort]

theorem State.turned_freshGrants {n serial} : State.freshGrants n serial (s.turned turn ending)
    = (State.freshGrants n serial s).turned turn ending := rfl

theorem State.turned_serveAgain {n} : State.serveAgain n (s.turned turn ending)
    = (State.serveAgain n s).turned turn ending := rfl

theorem State.turned_dmaWrite {fn addr b} : State.dmaWrite fn addr b (s.turned turn ending)
    = (State.dmaWrite fn addr b s).turned turn ending := by
  have hcan : (State.latch (.fnStat fn) 1 (s.turned turn ending)).dmaCan fn 0 0
      = (State.latch (.fnStat fn) 1 s).dmaCan fn 0 0 := by
    rw [State.turned_latch, State.turned_dmaCan]
  unfold State.dmaWrite
  rw [State.turned_dmaLands]
  dsimp only
  rw [hcan]
  split
  · rfl
  · split
    · rfl
    · rfl

theorem State.turned_dmaSend {fn a} : State.dmaSend fn a (s.turned turn ending)
    = ((State.dmaSend fn a s).1.turned turn ending, (State.dmaSend fn a s).2) := by
  induction a generalizing s with
  | nil => rfl
  | cons p ps ih =>
    unfold State.dmaSend
    dsimp only
    rw [State.turned_dmaLands, State.turned_dmaWrite]
    split
    · exact ih
    · rfl

theorem State.turned_wakeSlot {a} : State.wakeSlot a (s.turned turn ending)
    = (State.wakeSlot a s).turned turn ending :=
  State.turned_foldl (fun _ _ => rfl) _

theorem State.turned_startPorts : (s.turned turn ending).startPorts = s.startPorts.turned turn ending :=
  State.turned_foldl (fun _ _ => State.turned_startPort) _

theorem State.turned_applyPolicy : (s.turned turn ending).applyPolicy = s.applyPolicy.turned turn ending :=
  State.turned_foldl (fun _ _ => State.turned_applyNum) _

theorem State.turned_makeRoom {fuel} : State.makeRoom fuel (s.turned turn ending)
    = (State.makeRoom fuel s).turned turn ending := by
  induction fuel generalizing s with
  | zero => rfl
  | succ fuel ih =>
    have hroom : (decide ((s.turned turn ending).cacheUsed + 4 ≤ cacheRoom) || (s.turned turn ending).lg.writesStopped)
        = (decide (s.cacheUsed + 4 ≤ cacheRoom) || s.lg.writesStopped) := by
      rw [State.turned_cacheUsed]
      rfl
    unfold State.makeRoom
    rw [hroom, State.turned_evictable]
    split
    · rfl
    · cases s.evictable with
      | nil => rfl
      | cons n ns =>
        dsimp only
        rw [State.turned_takeFree, State.turned_evictSlot, ih]
        rfl

theorem State.turned_tapCopy {b} : State.tapCopy b (s.turned turn ending) = (State.tapCopy b s).turned turn ending := by
  grind [State.tapCopy, State.turned_lg, State.turned_silentDrain, State.turned_onLg, State.turned_dmaSend]

theorem State.turned_journal {body tail} : State.journal body tail (s.turned turn ending)
    = (State.journal body tail s).turned turn ending := by
  unfold State.journal
  simp only [State.turned_lg, State.turned_onLg, State.turned_pwr, State.turned_tapCopy]
  rfl

theorem State.turned_makeResident {n} : State.makeResident n (s.turned turn ending)
    = (State.makeResident n s).turned turn ending := by
  unfold State.makeResident
  simp only [State.turned_lg, State.turned_onLg, State.turned_makeRoom]
  split <;> rfl

theorem State.turned_soil {n} : State.soil n (s.turned turn ending) = (State.soil n s).turned turn ending := by
  simp only [State.soil, State.turned_onLg, State.turned_makeResident]

theorem State.turned_openReel : State.openReel (s.turned turn ending) = (State.openReel s).turned turn ending := by
  simp only [State.openReel, State.turned_applyPolicy, State.turned_generate, State.turned_onEl, State.turned_pwr,
    State.turned_reelCadence, State.turned_lg, State.turned_clock]

theorem State.turned_setRoles {n home mirror mirrored leased epoch} : State.setRoles n home mirror mirrored leased epoch (s.turned turn ending)
    = (State.setRoles n home mirror mirrored leased epoch s).turned turn ending := by
  simp only [State.setRoles, State.turned_soil, State.turned_onSlot]

theorem State.turned_drawEnd {reason pendingStatus} : State.drawEnd reason pendingStatus (s.turned turn ending)
    = (State.drawEnd reason pendingStatus s).turned turn ending := by
  have hdraw : (s.turned turn ending).sz.draw = s.sz.draw := rfl
  have hend (u : State) (d : DrawClaim) :
      State.wakeSlot d.slot (((u.turned turn ending).onDrbg 76 fun d => { epoch := (d.epoch + 1) % 65536 }).onSz
        fun z => { z with draw := none })
      = (State.wakeSlot d.slot ((u.onDrbg 76 fun d => { epoch := (d.epoch + 1) % 65536 }).onSz
        fun z => { z with draw := none })).turned turn ending :=
    State.turned_wakeSlot (s := (u.onDrbg 76 fun d => { epoch := (d.epoch + 1) % 65536 }).onSz fun z => { z with draw
      := none })
  have hdrop (u : State) (d : DrawClaim) : (if d.uncommitted = true then (u.turned turn ending).discardHeld d.slot
      else u.turned turn ending) = (if d.uncommitted = true then u.discardHeld d.slot else u).turned turn ending := by
    rw [State.turned_discardHeld, ← apply_ite (State.turned turn ending)]
  unfold State.drawEnd
  rw [hdraw]
  cases s.sz.draw with
  | none => rfl
  | some d =>
    cases reason with
    | none =>
      dsimp only
      rw [hdrop]
      split
      · rw [State.turned_serviceEnd, hend]
      · rw [hend]
    | some r =>
      dsimp only
      rw [State.turned_appletRecord, State.turned_journal, hdrop]
      split
      · rw [State.turned_serviceEnd, hend]
      · rw [hend]

theorem State.turned_enterHeld {code} : State.enterHeld code (s.turned turn ending)
    = (State.enterHeld code s).turned turn ending := by
  have hheld : (s.turned turn ending).onPwr (fun p => { p with mode := .held })
      = (s.onPwr fun p => { p with mode := .held }).turned turn ending := rfl
  have hwait (u : State) (c : Nat) (st : Status) :
      State.serviceEnd c st ((u.turned turn ending).onEn fun e => { e with drawWait := none })
      = (State.serviceEnd c st (u.onEn fun e => { e with drawWait := none })).turned turn ending :=
    State.turned_serviceEnd (s := u.onEn fun e => { e with drawWait := none })
  have hdrbg (u : State) (f : Instance → Instance) :
      (u.turned turn ending).onDrbg 76 f = (u.onDrbg 76 f).turned turn ending := rfl
  unfold State.enterHeld
  dsimp only
  rw [hheld, State.turned_oweQueues, State.turned_abandonManifests, State.turned_failTakes]
  generalize State.failTakes _ _ _ = u
  have hdraw : (u.turned turn ending).sz.draw = u.sz.draw := rfl
  rw [hdraw]
  cases u.sz.draw
  case' none =>
    dsimp only
    rw [hdrbg]
    generalize State.onDrbg _ _ _ = w
  case' some d =>
    dsimp only
    rw [State.turned_drawEnd]
    generalize State.drawEnd _ _ _ = w
  all_goals
    have hen : (w.turned turn ending).en.drawWait = w.en.drawWait := rfl
    rw [hen]
    cases w.en.drawWait with
    | none => exact State.turned_noteFull
    | some c =>
      dsimp only
      rw [hwait, State.turned_noteFull]

theorem State.turned_afterEvidence : (s.turned turn ending).afterEvidence = s.afterEvidence.turned turn ending := by
  unfold State.afterEvidence
  dsimp only
  rw [State.turned_noteEvidence, State.turned_stands, State.turned_stands, State.turned_sealing, State.turned_enterHeld,
    ← apply_ite (State.turned turn ending)]

theorem State.turned_logEvent {code data} : State.logEvent code data (s.turned turn ending)
    = (State.logEvent code data s).turned turn ending := by
  unfold State.logEvent
  rw [State.turned_event, State.turned_afterEvidence]

theorem State.turned_raiseCauseWith {c code} : State.raiseCauseWith c code (s.turned turn ending)
    = (State.raiseCauseWith c code s).turned turn ending := by
  unfold State.raiseCauseWith
  dsimp only
  rw [State.turned_stands, State.turned_modeAfter, State.turned_addCause, State.turned_pwr, State.turned_causeRecord,
    ← apply_ite (State.turned turn ending), State.turned_enterHeld, ← apply_ite (State.turned turn ending),
    State.turned_afterEvidence, ← apply_ite (State.turned turn ending)]

theorem State.turned_raiseCause {c} : State.raiseCause c (s.turned turn ending)
    = (State.raiseCause c s).turned turn ending := State.turned_raiseCauseWith

theorem State.turned_afterJournal : (s.turned turn ending).afterJournal = s.afterJournal.turned turn ending := by
  unfold State.afterJournal
  dsimp only
  rw [State.turned_reelShort, State.turned_latch, State.turned_raiseCause, ← apply_ite (State.turned turn ending),
    State.turned_tapShort, State.turned_latch, State.turned_raiseCause, ← apply_ite (State.turned turn ending)]

theorem State.turned_append {body tail} : State.append body tail (s.turned turn ending)
    = (State.append body tail s).turned turn ending := by
  unfold State.append
  rw [State.turned_journal, State.turned_afterJournal]

theorem State.turned_noticeMaintenance : (s.turned turn ending).noticeMaintenance
    = s.noticeMaintenance.turned turn ending := by
  unfold State.noticeMaintenance
  rw [State.turned_reelSlate, State.turned_append, State.turned_el, ← apply_ite (State.turned turn ending)]

theorem State.turned_refuseCert {serial code} : State.refuseCert serial code (s.turned turn ending)
    = (State.refuseCert serial code s).turned turn ending := by
  have hlc : (s.turned turn ending).onLc (fun l => { l with certStatus := code, certBuffer := [] })
      = (s.onLc fun l => { l with certStatus := code, certBuffer := [] }).turned turn ending := rfl
  unfold State.refuseCert
  dsimp only
  rw [hlc, State.turned_latch, State.turned_logEvent]

theorem State.turned_setMaintenance {rights} : State.setMaintenance rights (s.turned turn ending)
    = (State.setMaintenance rights s).turned turn ending := by
  have hlc : (s.turned turn ending).onLc (fun l => { l with maint := true, rights := allowedRights l.state rights })
      = (s.onLc fun l => { l with maint := true, rights := allowedRights l.state rights }).turned turn ending := rfl
  have hkrf (u : State) : (u.turned turn ending).onKrf (fun k => { k with journal := none })
      = (u.onKrf fun k => { k with journal := none }).turned turn ending := rfl
  unfold State.setMaintenance
  dsimp only
  rw [hlc, State.turned_derives, hkrf, ← apply_ite (State.turned turn ending), State.turned_lc, State.turned_lc,
    State.turned_logEvent, State.turned_noticeMaintenance, ← apply_ite (State.turned turn ending)]

theorem State.turned_grantLease {n holder} : State.grantLease n holder (s.turned turn ending)
    = ((State.grantLease n holder s).1.turned turn ending, (State.grantLease n holder s).2) := by
  have hxl (u : State) (f : Xl → Xl) : (u.turned turn ending).onXl f = (u.onXl f).turned turn ending := rfl
  unfold State.grantLease
  dsimp only
  rw [State.turned_applyNum, State.turned_grantLimit, State.turned_leaseBlock, hxl, State.turned_fleetRecord,
    State.turned_append]

theorem State.turned_wantLease {n c} : State.wantLease n c (s.turned turn ending)
    = (State.wantLease n c s).turned turn ending := by
  unfold State.wantLease
  dsimp only
  rw [State.turned_slot, State.turned_ownLeases, State.turned_leaseBlock, State.turned_memberId,
    State.turned_grantLimit,
    State.turned_grantLease, State.turned_xl, State.turned_sendRequest]
  simp only [← apply_ite (State.turned turn ending)]

theorem State.turned_assignRole {n m leased} : State.assignRole n m leased (s.turned turn ending)
    = (State.assignRole n m leased s).turned turn ending := by
  unfold State.assignRole
  dsimp only
  rw [State.turned_slot, State.turned_memberId, State.turned_setRoles, State.turned_slot, State.turned_freshGrants,
    ← apply_ite (State.turned turn ending), State.turned_serveAgain, State.turned_fleetRecord, State.turned_append,
    State.turned_slot, State.turned_wantLease]

theorem State.turned_stopReel {cause} : State.stopReel cause (s.turned turn ending)
    = (State.stopReel cause s).turned turn ending := by
  have hstop : (if (decide (cause ≠ endDrain) && (State.startRunOut cause (s.turned turn ending)).sealing) = true
        then State.raiseCause .reelEnded (State.startRunOut cause (s.turned turn ending))
        else State.startRunOut cause (s.turned turn ending))
      = (if (decide (cause ≠ endDrain) && (State.startRunOut cause s).sealing) = true
        then State.raiseCause .reelEnded (State.startRunOut cause s) else State.startRunOut cause s).turned turn
          ending := by
    rw [State.turned_startRunOut, State.turned_sealing, State.turned_raiseCause, ← apply_ite (State.turned turn ending)]
  have hel : (s.turned turn ending).el.state = s.el.state := rfl
  unfold State.stopReel
  rw [hel]
  cases s.el.state with
  | opening => exact State.turned_refuseReel
  | pickup => exact hstop
  | running => exact hstop
  | idle => rfl
  | runout => rfl
  | cut => rfl

end Sys2Proof.Machine
end

