-- ==== Sys2Proof/Proofs/LifeCycleKept.lean ====
section
-- The whole text is compiled in one process: one proof at a time keeps it within its memory.
set_option Elab.async false
/-! LEMMAS. Life cycle, rights and debug: transitions and burns, certificates, challenge and response, and the TAP (R395 to
R410). -/

namespace Sys2Proof.Machine

variable {s : State} {v : Viewer}

/-! ### Records while the Evidence Log has room -/

/-- The Guard after one record of the Evidence Log: at most one more is there, and nothing else that a reader here needs has
changed. -/
structure Tg.Logged (t u : Tg) : Prop where
  nextSeq : u.nextSeq ≤ t.nextSeq + 1
  mark : u.mark = t.mark
  rootKey : u.rootKey = t.rootKey
  erased : u.erased = t.erased
  gangwaysKeyed : u.gangwaysKeyed = t.gangwaysKeyed

theorem State.evidence_quiet (s : State) (kind code time : Nat) (data : Bytes) (e : Bool) :
    ∃ tg, s.evidence kind code time data e = { s with tg := tg } ∧ s.tg.Logged tg := by
  simp only [State.evidence]
  split
  · exact ⟨_, rfl, Nat.le_refl _, rfl, rfl, rfl, rfl⟩
  · exact ⟨_, rfl, Nat.le_succ _, rfl, rfl, rfl, rfl⟩

/-- U after a record. -/
theorem Tg.Logged.unarchived {tg : Tg} (h : s.tg.Logged tg) {n : Nat} (hu : s.unarchived + 1 < n) :
    ({ s with tg := tg } : State).unarchived < n := by
  have hu' : s.tg.nextSeq - s.tg.mark + 1 < n := hu
  have hn := h.nextSeq
  have hm := h.mark
  show tg.nextSeq - tg.mark < n
  omega

/-- Where the log has room nothing follows a record. -/
theorem State.afterEvidence_quiet (hu : s.unarchived < 16320) : s.afterEvidence = s := by
  have hn : s.noteEvidence = s := by simp [State.noteEvidence, hu]
  simp [State.afterEvidence, hn]

/-- An EVENT changes the Evidence Log alone, by at most one record, while the log has room (R387, R388). -/
theorem State.logEvent_quiet (hu : s.unarchived + 1 < 16320) (code : Nat) (data : Bytes) :
    ∃ tg, s.logEvent code data = { s with tg := tg } ∧ s.tg.Logged tg := by
  obtain ⟨tg, h, hlogged⟩ := s.evidence_quiet 4 code s.stamp data false
  have hevent : s.event code data = { s with tg := tg } := h
  refine ⟨tg, ?_, hlogged⟩
  rw [State.logEvent, hevent, State.afterEvidence_quiet (hlogged.unarchived hu)]

/-- The latch of LC_STAT, of which the statements speak. -/
theorem State.testBit_lcStat {bits i : Nat} (h : bits.testBit i = true) :
    ((s.latch .lcStat bits).latched .lcStat .maker).testBit i = true :=
  State.testBit_latch (List.mem_cons_of_mem _ (List.mem_singleton.mpr rfl)) h

/-! ### Rights -/

/-- Maintenance is set with rights, while no reel runs (R399): the Vault's derivations and the journal key go in Fielded alone. -/
theorem State.setMaintenance_idle (hu : s.unarchived + 1 < 16320) (hr : s.el.state ≠ .running) (rights : Nat) :
    ∃ tg krf, s.setMaintenance rights = { s with
        lc := { s.lc with maint := true, rights := allowedRights s.lc.state rights }, krf := krf, tg := tg }
      ∧ (s.lc.state = 3 → krf = { s.krf with journal := none })
      ∧ (s.derives = true → s.lc.state ≠ 3 → krf = s.krf) := by
  let a := s.onLc fun l => { l with maint := true, rights := allowedRights l.state rights }
  let b := if a.derives then a else a.onKrf fun k => { k with journal := none }
  obtain ⟨krf, hb, hfielded, hother⟩ : ∃ krf, b = { a with krf := krf }
      ∧ (s.lc.state = 3 → krf = { s.krf with journal := none }) ∧ (s.derives = true → s.lc.state ≠ 3 → krf = s.krf) := by
    cases hd : a.derives with
    | true =>
      refine ⟨s.krf, by simp only [b, hd, if_true]; rfl, fun h3 => ?_, fun _ _ => rfl⟩
      simp [a, State.derives, State.onLc, h3] at hd
    | false =>
      refine ⟨{ s.krf with journal := none }, by simp only [b, hd, Bool.false_eq_true, if_false]; rfl, fun _ => rfl, fun hs h3 => ?_⟩
      have hs' : a.derives = true := by
        simp only [State.derives, Bool.and_eq_true, Bool.not_eq_true', decide_eq_true_eq] at hs ⊢
        obtain ⟨⟨⟨hroot, herased⟩, hscrapped⟩, _⟩ := hs
        exact ⟨⟨⟨hroot, herased⟩, hscrapped⟩, by simp [a, State.onLc, h3]⟩
      rw [hs'] at hd
      cases hd
  have hset : s.setMaintenance rights
      = if s.lc.maint then b else (b.logEvent 0x0006 (be 1 b.lc.state ++ be 7 0)).noticeMaintenance := rfl
  cases hw : s.lc.maint with
  | true =>
    refine ⟨s.tg, krf, ?_, hfielded, hother⟩
    rw [hset, hw, if_pos rfl, hb]
    rfl
  | false =>
    have hub : b.unarchived + 1 < 16320 := by rw [hb]; exact hu
    obtain ⟨tg, hlog, _⟩ := State.logEvent_quiet hub 0x0006 (be 1 b.lc.state ++ be 7 0)
    refine ⟨tg, krf, ?_, hfielded, hother⟩
    have hidle : ({ b with tg := tg } : State).el.state ≠ .running := by rw [hb]; exact hr
    rw [hset, hw, if_neg Bool.false_ne_true, hlog, State.noticeMaintenance, if_neg hidle, hb]
    rfl

/-! ### Certificates -/

theorem State.refuseCert_quiet (hu : s.unarchived + 1 < 16320) (serial code : Nat) :
    ∃ tg l, s.refuseCert serial code = { s with
        lc := { s.lc with certStatus := code, certBuffer := [] }, tg := tg, latches := l }
      ∧ ((s.refuseCert serial code).latched .lcStat .maker).testBit 3 = true := by
  let x := (s.onLc fun l => { l with certStatus := code, certBuffer := [] }).latch .lcStat 8
  obtain ⟨tg, hlog, _⟩ := State.logEvent_quiet (s := x) hu 0x0103 (be 4 serial ++ be 1 code ++ be 3 0)
  have heq : s.refuseCert serial code = { x with tg := tg } := hlog
  refine ⟨tg, x.latches, heq, ?_⟩
  rw [heq]
  exact State.testBit_lcStat (s := s.onLc fun l => { l with certStatus := code, certBuffer := [] }) rfl

theorem State.checkCert_refused {code : Nat} (hf : s.certFailure s.lc.certBuffer = some code) :
    s.checkCert = s.refuseCert (beAt s.lc.certBuffer 8 8) code := by
  simp only [State.checkCert, hf]

/-- A certificate that passes gives its rights (R404). -/
theorem State.checkCert_accepted (hu : s.unarchived + 2 < 16320) (hr : s.el.state ≠ .running)
    (hf : s.certFailure s.lc.certBuffer = none) : ∃ tg krf l, s.checkCert = { s with
        lc := { s.lc with
          maint := true
          rights := allowedRights s.lc.state (beAt s.lc.certBuffer 4 4)
          certStatus := 1
          certSerial := beAt s.lc.certBuffer 8 8
          certBuffer := [] }
        krf := krf, tg := tg, latches := l }
      ∧ (s.lc.state = 3 → krf = { s.krf with journal := none }) ∧ (s.derives = true → s.lc.state ≠ 3 → krf = s.krf)
      ∧ (s.checkCert.latched .lcStat .maker).testBit 2 = true := by
  let c := s.lc.certBuffer
  let x := (s.onLc fun l => { l with certStatus := 1, certSerial := beAt c 8 8, certBuffer := [] }).latch .lcStat 4
  obtain ⟨tg, hlog, hlogged⟩ := State.logEvent_quiet (s := x) (by
    have hx : x.unarchived = s.unarchived := rfl
    omega) 0x0102 (be 4 (beAt c 8 8) ++ be 1 (allowedRights s.lc.state (beAt c 4 4)) ++ be 3 0)
  have huy : ({ x with tg := tg } : State).unarchived + 1 < 16320 := by
    have hroom := hlogged.unarchived (n := 16319) (by
      have hx : x.unarchived = s.unarchived := rfl
      omega)
    omega
  obtain ⟨tg', krf, hset, h3, hother⟩ := State.setMaintenance_idle huy hr (beAt c 4 4)
  have hcheck : s.checkCert = ({ x with tg := tg } : State).setMaintenance (beAt c 4 4) := by
    rw [← hlog]
    simp only [State.checkCert, hf]
    rfl
  have hderives : ({ x with tg := tg } : State).derives = s.derives := by
    simp only [State.derives, hlogged.rootKey, hlogged.erased]
    rfl
  refine ⟨tg', krf, x.latches, hcheck.trans hset, h3, fun hd h => hother (hderives.trans hd) h, ?_⟩
  rw [hcheck, hset]
  exact State.testBit_lcStat (s := s.onLc fun l => { l with certStatus := 1, certSerial := beAt c 8 8, certBuffer := [] }) rfl

/-! ### Transitions -/

theorem exec_lcRequest {x : BitVec 8} {st : Status} {t : State} (h : Writable s v 0x9800 2 x.toNat)
    (hact : lcRequest v x.toNat (s.served v) = (t.served v, st)) (hst : st ≠ stWaits) (hc : t.sp = s.sp) :
    Wrote (.lcRequest v x) s v st t :=
  State.writeNum_served (w := {}) (tenant := ownTenant) h rfl (k := 1) rfl x.isLt rfl (namedTenant_own v) rfl hact hst
    (by rw [hc]; exact h.closing)

section Transition

variable {l : Nat} (hb : s.lc.burning = none)
include hb

/-- The Maker burns to Integrator, with its right (Table 17.2). -/
theorem lcRequest_integrator (hm : s.pwr.mode = .standby) (hl : s.lc.state = 1) (hmaint : s.lc.maint = true) :
    lcRequest .maker 2 s = if bitOf s.lc.rights 3 then (s.startBurn 2 1, stOk) else (s, stAccessDenied) := by
  cases hr : bitOf s.lc.rights 3 with
  | true => simp [lcRequest, hb, hm, hl, hmaint, State.hasRight, hr]
  | false => simp [lcRequest, hb, hm, hl, hmaint, State.hasRight, hr]

theorem lcRequest_scrapped (hm : s.pwr.mode = .standby) (hl : s.lc.state = 1 ∨ s.lc.state = 2 ∨ s.lc.state = 4)
    (hmaint : s.lc.maint = true) (he : s.el.state = .idle) (hf : s.fleetEnable = false) (hr : bitOf s.lc.rights 4 = true) :
    lcRequest .maker 5 s = (s.startBurn 5 1, stOk) := by
  rcases hl with hl | hl | hl
  · simp [lcRequest, hb, hm, hl, hmaint, State.hasRight, hr, State.mayScrap, he, hf]
  · simp [lcRequest, hb, hm, hl, hmaint, State.hasRight, hr, State.mayScrap, he, hf]
  · simp [lcRequest, hb, hm, hl, hmaint, State.hasRight, hr, State.mayScrap, he, hf]

theorem lcRequest_fielded (hm : s.pwr.mode = .standby) (hl : s.lc.state = 2) (hmaint : s.lc.maint = false) :
    lcRequest (.tenant 0) 3 s = (s.startBurn 3 2, stOk) := by
  simp [lcRequest, hb, hm, hl, hmaint]

/-- The Regulator stages what its Ceremony will burn (R396). -/
theorem lcRequest_staged {x : Nat} (hm : s.pwr.mode = .ceremony) (hl : s.lc.state = 3)
    (hx : x = 4 ∨ x = 5 ∧ s.el.state = .idle ∧ s.fleetEnable = false) :
    lcRequest .regulator x s = (s.onLc fun l => { l with staged := some (x, 3) }, stOk) := by
  rcases hx with rfl | ⟨rfl, he, hf⟩
  · simp [lcRequest, hb, hm, hl]
  · simp [lcRequest, hb, hm, hl, State.mayScrap, he, hf]

omit hb in
/-- No transition leads back (Table 17.2). -/
theorem lcRequest_back (v : Viewer) {x : Nat} (hx : x ≤ s.lc.state) : lcRequest v x s = (s, stModeRefused) := by
  unfold lcRequest
  dsimp only
  split
  · rfl
  · split
    · rw [if_pos (by simp; omega)]
    · rw [if_pos (by simp; omega)]
    · rw [if_neg (by simp; omega)]
    · rw [if_neg (by simp; omega)]
    · rw [if_neg (by simp; omega)]
    · rfl

end Transition

theorem lcRequest_burning (v : Viewer) {x : Nat} (hb : s.lc.burning ≠ none) : lcRequest v x s = (s, stModeRefused) := by
  unfold lcRequest
  rw [if_pos (Option.isSome_iff_ne_none.mpr hb)]

theorem exec_lcXfer {x : BitVec 32} (h : Reaches s (.bar2 0xE0008) .lcXfer) :
    exec (.lcXfer x) s = .next (s.lcXferWrite x) :=
  congrArg Host.Outcome.next (State.hostWrite_reached h _)

theorem lcXfer_key (x : BitVec 32) : bitsOf x.toNat 31 16 = x.toNat / 65536 :=
  Nat.mod_eq_of_lt (Nat.div_lt_of_lt_mul x.isLt)

theorem State.lcXferWrite_burns {x : BitVec 32} (hk : x.toNat / 65536 = 0x5C4A) (h5 : x.toNat % 16 = 5)
    (hm : s.pwr.mode = .quarantine) (hb : s.lc.burning = none) (hl : s.lc.state ≠ 5) :
    s.lcXferWrite x = s.startBurn 5 2 := by
  have h5' : bitsOf x.toNat 3 0 = 5 := by simpa [bitsOf] using h5
  simp [State.lcXferWrite, lcXfer_key, hk, h5', hm, hb, hl]

theorem State.lcXferWrite_denied {x : BitVec 32}
    (h : x.toNat / 65536 ≠ 0x5C4A ∨ x.toNat % 16 ≠ 5 ∨ s.pwr.mode ≠ .quarantine) : s.lcXferWrite x = s.denied := by
  have h5 : bitsOf x.toNat 3 0 = x.toNat % 16 := by simp [bitsOf]
  unfold State.lcXferWrite
  dsimp only
  rw [lcXfer_key, h5, if_pos]
  rcases h with h | h | h
  · simp [h]
  · simp [h]
  · simp [h]

/-! ### The end of a burn -/

theorem State.portsDown_down (s : State) (p : Nat) : (s.portsDown.port p).state = .down := by
  have hmap : ∀ ports : List (Nat × Port),
      (mapGet {} (ports.map fun e => (e.1, ({ cfg := e.2.cfg } : Port))) p).state = .down := by
    intro ports
    induction ports with
    | nil => rfl
    | cons e es ih =>
      simp only [List.map_cons, mapGet]
      split
      · rfl
      · exact ih
  exact hmap s.xl.ports

/-- The fuses after a burn. -/
theorem fuses_burnt (f : Vector Nat 4) {dest : Nat} (h2 : 2 ≤ dest) (h5 : dest ≤ 5) (i : Fin 4) :
    (f.setIfInBounds (dest - 2) 3)[i] = if i.val + 2 = dest then 3 else f[i] := by
  rw [Fin.getElem_fin, Vector.getElem_setIfInBounds]
  by_cases h : i.val + 2 = dest
  · rw [if_pos h, if_pos (by omega)]
  · rw [if_neg h, if_neg (by omega)]
    rfl

/-- The state once the fuses are burnt and the transition is recorded (R397). -/
theorem exec_lcBurnComplete (hu : s.unarchived + 1 < 16320) {dest who : Nat} (hb : s.lc.burning = some (dest, who)) :
    ∃ (tg : Tg) (t : State), exec .lcBurnComplete s = .next t.retireIfScrapped ∧ t = { s with
        lc := { s.lc with
          fuses := s.lc.fuses.setIfInBounds (dest - 2) 3, state := dest, burning := none, maint := false, rights := 0 }
        tg := tg, latches := t.latches }
      ∧ (t.latched .lcStat .maker).testBit 0 = true := by
  let x := (s.onLc fun l => { l with
      fuses := l.fuses.setIfInBounds (dest - 2) 3, state := dest, burning := none, maint := false, rights := 0 }).latch .lcStat 1
  obtain ⟨tg, hlog, _⟩ := State.logEvent_quiet (s := x) hu 0x0101 (be 1 s.lc.state ++ be 1 dest ++ be 1 who ++ be 5 0)
  refine ⟨tg, { x with tg := tg }, ?_, rfl, State.testBit_lcStat (s := s.onLc _) rfl⟩
  rw [← hlog]
  simp only [exec, execLcBurnComplete, hb]
  rfl

theorem State.inRecovery_of (hm : s.pwr.mode = .standby) (hc : s.pwr.causes ≠ []) : s.inRecovery = true := by
  simp [State.inRecovery, hm, hc]

/-! ### Challenge and response -/

/-- A draw leaves every number but those that it applies. -/
theorem State.num_generate (s : State) (i n : Nat) (resist : Bool) {index sub inst : Nat}
    (h8 : objKey index sub inst ≠ objKey 0x4800 8 0) (h9 : objKey index sub inst ≠ objKey 0x4800 9 0) (d : Nat) :
    (s.generate i n resist).2.num index sub inst d = s.num index sub inst d := by
  have happly : ((s.applyNum 0x4800 8 0).applyNum 0x4800 9 0).num index sub inst d = s.num index sub inst d :=
    (State.num_applyNum _ h9 d).trans (State.num_applyNum _ h8 d)
  have htake (t : State) : t.takeBlock.2.num index sub inst d = t.num index sub inst d := by
    unfold State.takeBlock
    split
    · rfl
    · rfl
  have hreseed : (s.reseed i).num index sub inst d = s.num index sub inst d := by
    have hnote (t : State) : (t.noteReseed i).num index sub inst d = t.num index sub inst d := by
      unfold State.noteReseed
      split
      · rfl
      · rfl
    unfold State.reseed
    rw [hnote]
    exact (htake _).trans happly
  unfold State.generate
  dsimp only
  split
  · exact hreseed
  · rfl

/-- The body of a challenge (R405). -/
def State.challengeBody (s : State) (nonce : Bytes) : Bytes :=
  [0x4A, 0x01, 0x03, 0x00] ++ be 4 s.rightsRequested ++ be 8 unitId ++ be 4 s.pwr.bootCount ++ be 4 s.tg.nextSeq
    ++ be 8 s.tb.deviceTime ++ nonce

/-- The state with a new challenge. -/
def State.challenged (s : State) : State :=
  let r := s.generate 77 32 false
  let b := r.2.challengeBody r.1
  (r.2.takeFree 1).onLc fun l => { l with challenge := b ++ deviceSign r.2.freeCtr b, debugStatus := 1 }

theorem State.turned_challenged {turn ending} : (s.turned turn ending).challenged = s.challenged.turned turn ending := by
  unfold State.challenged
  rw [State.turned_generate]
  rfl

theorem exec_debugChallengeIssue (h : Writable s v 0x9810 2 0xD3B6) (hl : s.lc.state = 3) (hm : s.pwr.mode = .standby)
    (he : s.coreEntropyBlock = none) : Wrote (.debugChallengeIssue v 0xD3B6#32) s v stOk s.challenged := by
  obtain ⟨hc, hw⟩ := State.commutes_served (s := s) (v := v) (f := State.challenged) fun _ _ _ => State.turned_challenged
  have he' : (s.served v).coreEntropyBlock = none := he
  have hact : debugChallengeIssue 0xD3B6 (s.served v) = (s.challenged.served v, stOk) := by
    rw [← hw]
    simp only [debugChallengeIssue, State.served_lc, State.served_pwr, hl, hm, he']
    rfl
  exact State.writeNum_served (w := {}) (tenant := ownTenant) h rfl (k := 4) rfl (by decide) rfl (namedTenant_own v) rfl
    hact (by decide) (hc.trans h.closing)

theorem State.challenged_eq (s : State) : ∃ nonce k en pd n, nonce.length = 32 ∧ s.challenged = { s with
    lc := { s.lc with challenge := s.challengeBody nonce ++ deviceSign k (s.challengeBody nonce), debugStatus := 1 }
    en := en, pd := pd, freeCtr := n } := by
  obtain ⟨en, pd, n, hr⟩ := State.generate_poolDrew s (i := 77) (by decide) 32 false
  have hrights : (s.generate 77 32 false).2.rightsRequested = s.rightsRequested :=
    State.num_generate s 77 32 false (by decide) (by decide) 0
  refine ⟨(s.generate 77 32 false).1, n, en, pd, n + 1, State.generate_length .., ?_⟩
  have hbody : (s.generate 77 32 false).2.challengeBody (s.generate 77 32 false).1
      = s.challengeBody (s.generate 77 32 false).1 := by
    unfold State.challengeBody
    rw [hrights, hr]
  simp only [State.challenged, hbody]
  rw [hr]
  rfl

theorem State.refuseResponse_quiet (hu : s.unarchived + 1 < 16320) (code : Nat) : ∃ tg, s.refuseResponse code
    = { s with lc := { s.lc with debugStatus := code, challenge := [] }, tg := tg } := by
  obtain ⟨tg, hlog, _⟩ := State.logEvent_quiet (s := s.onLc fun l => { l with debugStatus := code, challenge := [] }) hu
    0x0104 (be 1 code ++ be 7 0)
  exact ⟨tg, hlog⟩

theorem State.turned_refuseResponse {code turn ending} : State.refuseResponse code (s.turned turn ending)
    = (s.refuseResponse code).turned turn ending :=
  State.turned_logEvent (s := s.onLc fun l => { l with debugStatus := code, challenge := [] })

/-- The state once a response has been accepted. -/
def State.responded (r : Bytes) (s : State) : State :=
  (s.onLc fun l => { l with challenge := [], debugStatus := 2 }).setMaintenance (beAt r 4 4)

theorem State.responded_idle (hu : s.unarchived + 1 < 16320) (hr : s.el.state ≠ .running) (r : Bytes) :
    ∃ tg krf, s.responded r = { s with
        lc := { s.lc with
          challenge := [], debugStatus := 2, maint := true, rights := allowedRights s.lc.state (beAt r 4 4) }
        krf := krf, tg := tg }
      ∧ (s.lc.state = 3 → krf = { s.krf with journal := none }) ∧ (s.derives = true → s.lc.state ≠ 3 → krf = s.krf) :=
  State.setMaintenance_idle (s := s.onLc fun l => { l with challenge := [], debugStatus := 2 }) hu hr (beAt r 4 4)

theorem State.turned_responded {r : Bytes} {turn ending} : State.responded r (s.turned turn ending)
    = (s.responded r).turned turn ending :=
  State.turned_setMaintenance (s := s.onLc fun l => { l with challenge := [], debugStatus := 2 })

section Response

variable (h : Writable s v 0x9810 5 0xD3C7)
include h

/-- What a response does, where its action commutes with the round. -/
theorem writeObj_response {f : State → State} (hf : ∀ s turn ending, f (s.turned turn ending) = (f s).turned turn ending)
    (hact : debugResponseSubmit 0xD3C7 (s.served v) = (f (s.served v), stOk)) :
    (Host.Outcome.next (s.writeObj {} v ownTenant 0x9810 5 (objBytes v 0x9810 5 0xD3C7)) : Host.Outcome State Fault Refusal)
      = .next (((f s).served v).emit (.directory v stOk [])) := by
  obtain ⟨hc, hw⟩ := State.commutes_served (s := s) (v := v) hf
  exact State.writeNum_served h rfl (k := 4) rfl (by decide) rfl (namedTenant_own v) rfl (hact.trans (by rw [hw]))
    (by decide) (hc.trans h.closing)

theorem writeObj_response_unread (hd : s.dmaOk 0 (s.num 0x9810 4 0 0) 4787 = false) :
    (Host.Outcome.next (s.writeObj {} v ownTenant 0x9810 5 (objBytes v 0x9810 5 0xD3C7)) : Host.Outcome State Fault Refusal)
      = .next ((((s.dmaReadFailed 0).refuseResponse 0x17).served v).emit (.directory v stOk [])) := by
  have hd' : (s.served v).dmaOk 0 ((s.served v).num 0x9810 4 0 0) 4787 = false := hd
  exact writeObj_response h (f := fun t => (t.dmaReadFailed 0).refuseResponse 0x17)
    (fun t _ _ => State.turned_refuseResponse (s := t.dmaReadFailed 0)) (by simp only [debugResponseSubmit, hd']; rfl)

variable (hd : s.dmaOk 0 (s.num 0x9810 4 0 0) 4787 = true)
include hd

theorem writeObj_response_refused {code : Nat}
    (hr : s.responseFailure (s.dmaBytes (s.num 0x9810 4 0 0) 4787) = some code) :
    (Host.Outcome.next (s.writeObj {} v ownTenant 0x9810 5 (objBytes v 0x9810 5 0xD3C7)) : Host.Outcome State Fault Refusal)
      = .next (((s.refuseResponse code).served v).emit (.directory v stOk [])) := by
  have hd' : (s.served v).dmaOk 0 ((s.served v).num 0x9810 4 0 0) 4787 = true := hd
  have hr' : (s.served v).responseFailure ((s.served v).dmaBytes ((s.served v).num 0x9810 4 0 0) 4787) = some code := hr
  exact writeObj_response h (f := State.refuseResponse code) (fun _ _ _ => State.turned_refuseResponse)
    (by simp only [debugResponseSubmit, hd', hr']; rfl)

theorem writeObj_response_accepted (hr : s.responseFailure (s.dmaBytes (s.num 0x9810 4 0 0) 4787) = none) :
    (Host.Outcome.next (s.writeObj {} v ownTenant 0x9810 5 (objBytes v 0x9810 5 0xD3C7)) : Host.Outcome State Fault Refusal)
      = .next (((s.responded (s.dmaBytes (s.num 0x9810 4 0 0) 4787)).served v).emit (.directory v stOk [])) := by
  have hd' : (s.served v).dmaOk 0 ((s.served v).num 0x9810 4 0 0) 4787 = true := hd
  have hr' : (s.served v).responseFailure ((s.served v).dmaBytes ((s.served v).num 0x9810 4 0 0) 4787) = none := hr
  exact writeObj_response h (f := State.responded (s.dmaBytes (s.num 0x9810 4 0 0) 4787))
    (fun _ _ _ => State.turned_responded) (by simp only [debugResponseSubmit, hd', hr']; rfl)

end Response

/-! ### The TAP -/

theorem State.tapDenied_eq (s : State) : ∃ l, s.tapDenied = { s with lc := { s.lc with tapInstr := 0xFF }, latches := l }
    ∧ (s.tapDenied.latched .lcStat .maker).testBit 1 = true :=
  ⟨_, rfl, State.testBit_lcStat (s := s.tapLoad 0xFF) rfl⟩

theorem State.cardRemoved_absent (hf : s.ch.facts = none) : s.cardRemoved = s := by
  simp only [State.cardRemoved, hf, if_true]

theorem SCore.apply_run (c : SCore) (p : PendWrite) : (c.apply p).run = c.run ∧ (c.apply p).resumeTo = c.resumeTo := by
  unfold SCore.apply
  split
  · exact ⟨rfl, rfl⟩
  · exact ⟨rfl, rfl⟩
  · exact ⟨rfl, rfl⟩
  · exact ⟨rfl, rfl⟩
  · exact ⟨rfl, rfl⟩

/-- Whether a core runs does not wait for its pending writes. -/
theorem SCore.settle_run (c : SCore) : c.settle.run = c.run ∧ c.settle.resumeTo = c.resumeTo :=
  List.foldlRecOn (motive := fun x : SCore => x.run = c.run ∧ x.resumeTo = c.resumeTo)
    (c.pend.filter fun p : PendWrite => decide (p.dist = 0)) SCore.apply ⟨rfl, rfl⟩ fun x hx p _ => ⟨(x.apply_run p).1.trans hx.1, (x.apply_run p).2.trans hx.2⟩

theorem State.core_onCore (hw : mapWf {} s.sz.cores = true) (n : Nat) (f : SCore → SCore) :
    (s.onCore n f).core n = f (s.core n) ∧ ∀ m, m ≠ n → (s.onCore n f).core m = s.core m :=
  ⟨mapGet_mapSet_self _ _ _ _ ((MapWf_iff _ _).1 hw), fun _ hm => mapGet_mapSet_ne _ _ _ _ _ hm⟩

theorem State.coreResult_ok (s : State) (x : Nat) : s.coreResult false x = s.emit (.jtag 73 x) := by
  simp [State.coreResult, b2n]

section CoreOps

variable {n : Nat}

theorem State.debugCore_halt (hr : (s.core n).settle.run = .running) : s.debugCore n .halt
    = State.emit (.jtag 73 0) (s.onCore n fun c => { c with run := .debug, resumeTo := c.run }) := by
  simp [State.debugCore, hr, State.coreResult_ok]

theorem State.debugCore_resume (hr : (s.core n).settle.run = .debug) : s.debugCore n .resume
    = State.emit (.jtag 73 0) (s.onCore n fun c => { c with run := c.resumeTo, resumeTo := .running }) := by
  simp [State.debugCore, hr, State.coreResult_ok]

theorem State.debugCore_step (hr : (s.core n).settle.run = .debug) (ht : (s.core n).settle.resumeTo = .running) :
    s.debugCore n .step = State.emit (.jtag 73 0) (s.onCore n fun c => { c with run := .stepping }) := by
  simp [State.debugCore, hr, ht, State.coreResult_ok]

end CoreOps

section Debugger

variable {n : Nat} {op : CoreOp} (hp : s.powered = true)
include hp

theorem exec_dbgCore_denied (hr : s.hasRight 0 = false) : exec (.dbgCore n op) s = .next s.tapDenied := by
  simp [exec, execDbgCore, hp, hr]

theorem exec_dbgReg_denied {x : BitVec 97} (hr : s.hasRight 0 = false) : exec (.dbgReg x) s = .next s.tapDenied := by
  simp [exec, execDbgReg, hp, hr]

theorem exec_dbgDir_denied {b : Bytes} (hr : s.hasRight 1 = false) : exec (.dbgDir b) s = .next s.tapDenied := by
  simp [exec, execDbgDir, hp, hr]

theorem exec_dbgScan_denied (hr : s.hasRight 7 = false ∨ s.pwr.mode = .retired) : exec .dbgScan s = .next s.tapDenied := by
  rcases hr with hr | hr
  · simp [exec, execDbgScan, hp, hr]
  · simp [exec, execDbgScan, hp, hr]

variable (hr : s.hasRight 0 = true)
include hr

theorem exec_dbgCore (hn : n < 192) (hd : (s.tapLoad 0x22).drawHolds n = false) :
    exec (.dbgCore n op) s = .next ((s.tapLoad 0x22).debugCore n op) := by
  simp [exec, execDbgCore, hp, hr, hd, hn]

theorem exec_dbgCore_drawing (hd : (s.tapLoad 0x22).drawHolds n = true) :
    exec (.dbgCore n op) s = .next ((s.tapLoad 0x22).coreResult true 0) := by
  simp [exec, execDbgCore, hp, hr, hd]

theorem exec_dbgReg {x : BitVec 97} : exec (.dbgReg x) s
    = .next ((s.tapLoad 0x20).dbgReg (bitOf x.toNat 96) (bitsOf x.toNat 95 64) (x.toNat % 2 ^ 64)) := by
  simp [exec, execDbgReg, hp, hr]

end Debugger

section BareRegister

variable {off : Nat} {r : Reg} (hr : r ∈ [.modeStat, .blockLock, .parAddr]) (ha : off % 4 = 0)
  (ho : s.openWord (.bar2 off) 0 = some (r, false)) (hx : s.regField .maker 0 r false < 2 ^ 32)
  (hm : s.mayAccess .maker (.bar2 off) = true)
include hr ha ho hx hm

/-- The Maker's read of a register of BAR2 that latches nothing (R292). -/
theorem State.readReg_bare :
    s.readReg .maker (.bar2 off) 4 = s.emit (.readData .maker (.bar2 off) (s.regField .maker 0 r false)) := by
  have hun : s.unsupported .maker (.bar2 off) = false := by simp [State.unsupported, Loc.viewer]
  have hws : s.wordsAt (.bar2 off) 4 = some [(r, false)] := by simp [State.wordsAt, ho]
  have hval : ofBe (be 4 (s.regField .maker 0 r false)) = s.regField .maker 0 r false := by
    rw [ofBe_be]
    exact Nat.mod_eq_of_lt hx
  have hoff : (Loc.bar2 off).offset % 4 = 0 := ha
  simp only [List.mem_cons, List.not_mem_nil, or_false] at hr
  rcases hr with rfl | rfl | rfl
  · simp [State.readReg, hun, hm, hoff, hws, State.regWord, State.regRead, rcOf, Loc.fn, hval]
  · simp [State.readReg, hun, hm, hoff, hws, State.regWord, State.regRead, rcOf, Loc.fn, hval]
  · simp [State.readReg, hun, hm, hoff, hws, State.regWord, State.regRead, rcOf, Loc.fn, hval]

theorem State.dbgReg_bare (hl : off < 0x100000) (x : Nat) :
    s.dbgReg false off x = s.emit (.jtag 97 (off * 2 ^ 64 + s.regField .maker 0 r false)) := by
  have hread := State.readReg_bare hr ha ho hx hm
  have hws : s.wordsAt (.bar2 off) 4 = some [(r, false)] := by simp [State.wordsAt, ho]
  have hoff : (Loc.bar2 off).offset % 4 = 0 := ha
  have hl' : ¬ 0x100000 ≤ off := Nat.not_le.mpr hl
  simp only [List.mem_cons, List.not_mem_nil, or_false] at hr
  rcases hr with rfl | rfl | rfl
  · simp [State.dbgReg, ho, hws, hoff, hl', hread, State.emit, b2n]
  · simp [State.dbgReg, ho, hws, hoff, hl', hread, State.emit, b2n]
  · simp [State.dbgReg, ho, hws, hoff, hl', hread, State.emit, b2n]

end BareRegister

/-- DBG_DIR runs a request of the Maker path, while nothing else of the Directory waits (R408). -/
theorem exec_dbgDir {b : Bytes} (hp : s.powered = true) (hr : s.hasRight 1 = true) (hd : s.dirFree)
    {r : DirReq} (hq : parseRequest .maker .jtag 4096 (b.take 4096) = r) {y : State × DirReq × Bool}
    (hy : ((s.tapLoad 0x21).served .maker).runEntries {} r.entries r = y) (hw : y.2.2 = false)
    (hc : y.1.sp.closing = false) : exec (.dbgDir b) s = .next (y.1.emit (.jtagBytes y.2.1.response)) := by
  obtain ⟨hsink, hviewer⟩ := parseRequest_sink .maker .jtag 4096 (b.take 4096)
  rw [hq] at hsink hviewer
  have hsub : State.submit {} r (s.tapLoad 0x21) = y.1.finishReq y.2.1 :=
    State.submit_runs (s := s.tapLoad 0x21) hd (by rw [hviewer]; exact hy) hw
  have hjtag : y.2.1.sink = .jtag := by
    rw [← hy]
    exact (State.runEntries_keeps {} r.entries r _).1.trans hsink
  have hfin : y.1.finishReq y.2.1 = y.1.emit (.jtagBytes y.2.1.response) := by
    rw [State.finishReq, State.respondReq, hjtag]
    exact State.spClose_id hc
  simp [exec, execDbgDir, hp, hr, hq, hsub, hfin]

/-! ### DBG_SCAN -/

/-- What DBG_SCAN has cleared by the end of its work on the compute and the keys, and keeps so from then on (R408). -/
structure State.Cleared (key : Option Bytes) (t : State) : Prop where
  rootKey : t.tg.rootKey = key
  journal : t.krf.journal = none
  handles : ∀ e ∈ t.krf.handles, ∀ x, e.2 = some x → x.privatePart = []
  cores : t.sz.cores = []
  firstSeed : t.en.firstSeed = false

/-- `t` has the keys, cores, entropy and session of `s`, but perhaps not its journal key. -/
structure State.Vital (s t : State) : Prop where
  rootKey : t.tg.rootKey = s.tg.rootKey
  handles : t.krf.handles = s.krf.handles
  journal : s.krf.journal = none → t.krf.journal = none
  cores : t.sz.cores = s.sz.cores
  firstSeed : t.en.firstSeed = s.en.firstSeed
  session : t.sp.session = s.sp.session

theorem State.Vital.refl (s : State) : s.Vital s := ⟨rfl, rfl, id, rfl, rfl, rfl⟩

theorem State.Vital.trans {s t u : State} (h : s.Vital t) (h' : t.Vital u) : s.Vital u :=
  ⟨h'.rootKey.trans h.rootKey, h'.handles.trans h.handles, h'.journal ∘ h.journal, h'.cores.trans h.cores,
    h'.firstSeed.trans h.firstSeed, h'.session.trans h.session⟩

theorem State.Cleared.keeps {key : Option Bytes} {s t : State} (h : s.Cleared key) (hv : s.Vital t) : t.Cleared key :=
  ⟨hv.rootKey.trans h.rootKey, hv.journal h.journal, hv.handles ▸ h.handles, hv.cores.trans h.cores,
    hv.firstSeed.trans h.firstSeed⟩

/-- What follows a record while nothing is sealed: the Evidence Log, and a cause that may stand in addition. -/
theorem State.afterEvidence_unsealed (hs : s.sealing = false) : ∃ tg cs, s.afterEvidence
    = { s with tg := tg, pwr := { s.pwr with causes := s.pwr.causes ++ cs } } ∧ s.tg.Logged tg := by
  have hkept : s.tg.Logged s.tg := ⟨Nat.le_succ _, rfl, rfl, rfl, rfl⟩
  have hself : s = { s with tg := s.tg, pwr := { s.pwr with causes := s.pwr.causes ++ [] } } := by rw [List.append_nil]
  obtain ⟨tg, cs, hn, hlogged⟩ : ∃ tg cs, s.noteEvidence
      = { s with tg := tg, pwr := { s.pwr with causes := s.pwr.causes ++ cs } } ∧ s.tg.Logged tg := by
    unfold State.noteEvidence
    split
    · exact ⟨s.tg, [], hself, hkept⟩
    · next hroom =>
      have hst : s.stands .evidenceFull = false := by
        cases h : s.stands .evidenceFull with
        | false => rfl
        | true => simp [h] at hroom
      refine ⟨{ s.tg with suppressed := s.tg.suppressed + 1 }, [.evidenceFull], ?_, ⟨Nat.le_succ _, rfl, rfl, rfl, rfl⟩⟩
      simp only [State.addCause, hst, Bool.false_eq_true, if_false]
      rfl
  refine ⟨tg, cs, ?_, hlogged⟩
  have hsealing : s.noteEvidence.sealing = false := by rw [hn]; exact hs
  rw [← hn]
  simp only [State.afterEvidence, hsealing, Bool.and_false, Bool.false_eq_true, if_false]

/-- A cause is recorded while nothing is sealed. -/
theorem State.causeRecord_unsealed (hs : s.sealing = false) (c : Cause) (hc : c ≠ .entropyLatch) (before after : Mode) :
    ∃ tg cs, ((s.addCause c).causeRecord c before after).afterEvidence
        = { s with tg := tg, pwr := { s.pwr with causes := s.pwr.causes ++ cs } }
      ∧ c ∈ s.pwr.causes ++ cs ∧ tg.rootKey = s.tg.rootKey ∧ tg.gangwaysKeyed = s.tg.gangwaysKeyed := by
  obtain ⟨cs, hadd, hmem⟩ : ∃ cs, s.addCause c = { s with pwr := { s.pwr with causes := s.pwr.causes ++ cs } }
      ∧ c ∈ s.pwr.causes ++ cs := by
    have hmem := s.mem_addCause c
    cases hst : s.stands c with
    | true =>
      have hkept : s.addCause c = s := by simp only [State.addCause, hst, if_true]
      rw [hkept] at hmem
      exact ⟨[], by rw [hkept, List.append_nil], List.mem_append_left _ hmem⟩
    | false =>
      refine ⟨[c], ?_, List.mem_append_right _ (List.mem_singleton_self c)⟩
      simp only [State.addCause, hst, Bool.false_eq_true, if_false, hc]
      rfl
  obtain ⟨tg, hrec, hlogged⟩ := (s.addCause c).evidence_quiet 3 c.code (s.addCause c).stamp
    (be 1 before.code ++ be 1 after.code) false
  have hrec' : (s.addCause c).causeRecord c before after
      = { s with tg := tg, pwr := { s.pwr with causes := s.pwr.causes ++ cs } } := by
    refine hrec.trans ?_
    rw [hadd]
  rw [hadd] at hlogged
  obtain ⟨tg', cs', hafter, hlogged'⟩ := State.afterEvidence_unsealed
    (s := { s with tg := tg, pwr := { s.pwr with causes := s.pwr.causes ++ cs } }) hs
  refine ⟨tg', cs ++ cs', ?_, ?_, hlogged'.rootKey.trans hlogged.rootKey, hlogged'.gangwaysKeyed.trans hlogged.gangwaysKeyed⟩
  · rw [hrec', hafter, List.append_assoc]
  · rw [← List.append_assoc]
    exact List.mem_append_left _ hmem

theorem State.raiseCause_vital (hs : s.sealing = false) {c : Cause} (ha : c ≠ .holdAlarm) (he : c ≠ .eraseAlarm)
    (hl : c ≠ .entropyLatch) : s.Vital (s.raiseCause c) := by
  cases hst : s.stands c with
  | true =>
    have hkept : s.raiseCause c = s := by simp [State.raiseCause, State.raiseCauseWith, hst]
    rw [hkept]
    exact .refl s
  | false =>
    obtain ⟨tg, cs, h, _, hroot, _⟩ := s.causeRecord_unsealed hs c hl s.pwr.mode s.pwr.mode
    rw [State.raiseCause_eq hs hst ha he, h]
    exact ⟨hroot, rfl, id, rfl, rfl, rfl⟩

theorem State.sendMember_vital (s : State) (m vc type : Nat) (payload : Bytes) : s.Vital (s.sendMember m vc type payload) := by
  have hport (p : Nat) (f : QFrame) : s.Vital (s.sendPort p f) := by
    unfold State.sendPort
    dsimp only
    split
    · exact .refl s
    · split
      · exact ⟨rfl, rfl, id, rfl, rfl, rfl⟩
      · exact ⟨rfl, rfl, id, rfl, rfl, rfl⟩
  unfold State.sendMember
  dsimp only
  split
  · exact ⟨rfl, rfl, id, rfl, rfl, rfl⟩
  · split
    · exact .refl s
    · exact hport _ _

theorem State.retireIfScrapped_vital (s : State) : s.Vital s.retireIfScrapped := by
  unfold State.retireIfScrapped
  split
  · exact ⟨rfl, rfl, fun _ => rfl, rfl, rfl, rfl⟩
  · exact .refl s

theorem State.endCeremony_vital (s : State) : s.Vital s.endCeremony := by
  unfold State.endCeremony
  split
  · exact .refl s
  · extract_lets back done mode units xl lc tg cause told
    have hlc : s.Vital lc := ⟨rfl, rfl, id, rfl, rfl, rfl⟩
    have htg : s.Vital tg := by
      unfold tg
      split
      · exact hlc
      · exact ⟨rfl, rfl, id, rfl, rfl, rfl⟩
    have hmode : tg.pwr.mode = if back = true then .quarantine else .standby := by
      unfold tg
      split
      · rfl
      · rfl
    have hsealing : tg.sealing = false := by
      rw [State.sealing, hmode]
      cases back with
      | true => rfl
      | false => rfl
    have hcause : s.Vital cause := by
      unfold cause
      split
      · exact htg.trans (State.raiseCause_vital hsealing (by decide) (by decide) (by decide))
      · exact htg
    have htold : s.Vital told := by
      unfold told
      split
      · exact hcause.trans (List.foldlRecOn (motive := fun u : State => cause.Vital u) _ _ (.refl cause)
          fun u hu m _ => hu.trans (u.sendMember_vital m 3 0x05 []))
      · exact hcause
    exact htold.trans told.retireIfScrapped_vital

theorem State.dropSession_cleared {key : Option Bytes} (h : s.Cleared key) :
    s.dropSession.Cleared key ∧ s.dropSession.sp.session = none := by
  unfold State.dropSession
  extract_lets was closed latched pd
  have hpd : pd.Cleared key ∧ pd.sp.session = none := by
    unfold pd latched
    split
    · exact ⟨⟨h.rootKey, h.journal, h.handles, h.cores, h.firstSeed⟩, rfl⟩
    · exact ⟨⟨h.rootKey, h.journal, h.handles, h.cores, h.firstSeed⟩, rfl⟩
  split
  · exact ⟨hpd.1.keeps pd.endCeremony_vital, pd.endCeremony_vital.session.trans hpd.2⟩
  · exact hpd

theorem State.wipeCompute_cleared (s : State) : s.clearKrf.wipeCompute.Cleared s.tg.rootKey := by
  refine ⟨rfl, rfl, fun e he x hx => ?_, rfl, rfl⟩
  obtain ⟨d, _, rfl⟩ := List.mem_map.mp he
  obtain ⟨k, _, rfl⟩ := Option.map_eq_some_iff.mp hx
  rfl

theorem State.wakeSlot_tg (s : State) (a : Nat) : (s.wakeSlot a).tg = s.tg := by
  obtain ⟨_, h⟩ := s.wakeSlot_eq a
  rw [h]

/-- The end of a draw without a record leaves the Guard as it is. -/
theorem State.drawEnd_silent (s : State) : (s.drawEnd none none).tg = s.tg := by
  unfold State.drawEnd
  cases s.sz.draw with
  | none => rfl
  | some d =>
    dsimp only
    have hdrop : (if d.uncommitted = true then s.discardHeld d.slot else s).tg = s.tg := by
      split
      · obtain ⟨_, _, h⟩ := s.discardHeld_eq d.slot
        rw [h]
      · rfl
    rw [State.wakeSlot_tg]
    cases d.waiting with
    | none => exact hdrop
    | some c => exact hdrop

/-- What a scan leaves (R408): every item of Table 16.5 but the root key is cleared, and Wake stops with DEBUG_SCAN. -/
theorem State.scan_leaves (s : State) : s.scan.pwr.mode = .wake ∧ .debugScan ∈ s.scan.pwr.causes
    ∧ s.scan.tg.rootKey = s.tg.rootKey ∧ s.scan.krf.journal = none
    ∧ (∀ e ∈ s.scan.krf.handles, ∀ x, e.2 = some x → x.privatePart = []) ∧ s.scan.sz.cores = []
    ∧ s.scan.td.inflight = [] ∧ s.scan.lg.slots = [] ∧ s.scan.sp.session = none ∧ s.scan.el.keyed = false
    ∧ s.scan.en.firstSeed = false ∧ s.scan.tg.gangwaysKeyed = [] := by
  unfold State.scan
  extract_lets anchor drawn dropped zeroed td tg shield lc before pwr
  obtain ⟨hcleared, hsession⟩ := State.dropSession_cleared drawn.wipeCompute_cleared
  obtain ⟨tg', cs, h, hmem, hroot, hgangways⟩ := pwr.causeRecord_unsealed rfl .debugScan (by decide) before .wake
  have hkey : drawn.tg.rootKey = s.tg.rootKey := congrArg Tg.rootKey s.drawEnd_silent
  rw [h]
  exact ⟨rfl, hmem, hroot.trans (hcleared.rootKey.trans hkey), hcleared.journal, hcleared.handles, hcleared.cores, rfl, rfl,
    hsession, rfl, hcleared.firstSeed, hgangways⟩

theorem exec_dbgScan (hp : s.powered = true) (hr : s.hasRight 7 = true) (hm : s.pwr.mode ≠ .retired) :
    exec .dbgScan s = .next (s.tapLoad 0x23).scan := by
  simp [exec, execDbgScan, hp, hr, hm]

end Sys2Proof.Machine

open Sys2Proof Sys2Proof.Machine

/-- Settles O55, clause by clause: each command's equation, with the one record that may follow it and what a certificate, a
response and a scan leave. -/
theorem lifeCycle : Obligations.LifeCycle := by
  intro s hu denied kept checked
  have hu1 : s.unarchived + 1 < 16320 := Nat.lt_of_succ_lt hu
  have hdenied : denied s.tapDenied := by
    obtain ⟨l, h, hbit⟩ := s.tapDenied_eq
    exact ⟨by rw [h], hbit⟩
  have hchecked (a : State) (ha : a.unarchived + 2 < 16320) : checked a a.lc.certBuffer a.checkCert := by
    refine ⟨fun code hf => ?_, fun hf hr => ?_⟩
    · obtain ⟨tg, l, h, hbit⟩ := a.refuseCert_quiet (Nat.lt_of_succ_lt ha) (beAt a.lc.certBuffer 8 8) code
      rw [State.checkCert_refused hf]
      exact ⟨by rw [h], hbit⟩
    · obtain ⟨tg, krf, l, h, h3, hother, hbit⟩ := State.checkCert_accepted ha hr hf
      refine ⟨by rw [h]; rfl, ⟨fun hl => ?_, fun hd hl => ?_⟩, hbit⟩
      · rw [h]
        exact h3 hl
      · rw [h]
        exact hother hd hl
  refine ⟨?_, ?_, ?_, ?_, ?_, ?_, ?_, ?_, ?_⟩
  · intro hb v x h l burns
    have hb' : (s.served v).lc.burning = none := hb
    refine ⟨?_, ?_, ?_, fun hx => ?_⟩
    · rintro rfl hm hmaint
      refine ⟨?_, ?_, ?_⟩
      · rintro rfl hl hr
        have hr' : bitOf (s.served .maker).lc.rights 3 = true := hr
        exact exec_lcRequest h ((lcRequest_integrator hb' hm hl hmaint).trans (by rw [if_pos hr']; rfl)) (by decide) rfl
      · rintro rfl hl he hf hr
        exact exec_lcRequest h ((lcRequest_scrapped hb' hm hl hmaint he hf hr).trans rfl) (by decide) rfl
      · rintro rfl hl hr
        have hr' : bitOf (s.served .maker).lc.rights 3 ≠ true := by
          rw [show bitOf (s.served .maker).lc.rights 3 = false from hr]
          exact Bool.false_ne_true
        exact exec_lcRequest h ((lcRequest_integrator hb' hm hl hmaint).trans (if_neg hr')) (by decide) rfl
    · rintro rfl rfl hl hm hmaint
      exact exec_lcRequest h ((lcRequest_fielded hb' hm hl hmaint).trans rfl) (by decide) rfl
    · rintro rfl hl hm hx
      have hx' : x.toNat = 4 ∨ x.toNat = 5 ∧ s.el.state = .idle ∧ s.fleetEnable = false := by
        rcases hx with rfl | ⟨rfl, he⟩
        · exact .inl rfl
        · exact .inr ⟨rfl, he⟩
      exact exec_lcRequest h ((lcRequest_staged hb' hm hl hx').trans rfl) (by decide) rfl
    · exact exec_lcRequest h (lcRequest_back v (s := s.served v) hx) (by decide) rfl
  · intro v x h hb
    exact exec_lcRequest h (lcRequest_burning v (s := s.served v) hb) (by decide) rfl
  · intro x h
    rw [exec_lcXfer h]
    refine ⟨fun hk h5 hm hb hl => ?_, fun hx => ?_⟩
    · rw [State.lcXferWrite_burns hk h5 hm hb hl]
      rfl
    · rw [State.lcXferWrite_denied hx]
      exact ⟨_, rfl, rfl, State.testBit_lcStat rfl⟩
  · intro dest who hb h2 h5
    obtain ⟨tg, t, hexec, ht, hbit⟩ := exec_lcBurnComplete hu1 hb
    have hlc : t.retireIfScrapped.lc = t.lc ∧ t.retireIfScrapped.latches = t.latches := by
      unfold State.retireIfScrapped
      split
      · exact ⟨rfl, rfl⟩
      · exact ⟨rfl, rfl⟩
    have hburnt : t.lc = { s.lc with
        fuses := s.lc.fuses.setIfInBounds (dest - 2) 3, state := dest, burning := none, maint := false, rights := 0 } := by
      rw [ht]
    have hmode : t.pwr.mode = s.pwr.mode := by rw [ht]
    have hstate : t.lc.state = dest := by rw [hburnt]
    refine ⟨t.retireIfScrapped, hexec, ?_, fun i => ?_, ?_, fun hstay => ?_, fun h5 hgo => ?_⟩
    · rw [hlc.1, hburnt]
    · rw [hlc.1, hburnt]
      exact fuses_burnt s.lc.fuses h2 h5 i
    · rw [State.latched, hlc.2]
      exact hbit
    · have hkept : t.retireIfScrapped = t := by
        unfold State.retireIfScrapped
        rw [hstate, hmode, if_neg]
        simp only [Bool.and_eq_true, Bool.or_eq_true, decide_eq_true_eq]
        tauto
      rw [hkept, ht]
    · have hretired : t.retireIfScrapped = t.enterRetired := by
        unfold State.retireIfScrapped
        rw [hstate, hmode, if_pos]
        simpa [h5] using hgo
      rw [hretired]
      exact ⟨rfl, rfl, t.portsDown_down⟩
  · intro hdue
    exact ⟨s.checkCert, by simp [exec, execCertCheck, hdue], hchecked s hu⟩
  · intro x env u h hx
    have hexec : exec (.lcCertGo x env) s = .next (u.certGo x) :=
      congrArg Host.Outcome.next (State.hostWrite_reached (s := u) h _)
    rw [hexec]
    refine ⟨fun hm hc => ⟨fun hd => ⟨_, rfl, ?_⟩, fun hd => ⟨_, rfl, ?_⟩⟩, fun hn => ⟨_, rfl, ?_⟩⟩
    · have hrec : u.inRecovery = true := State.inRecovery_of hm hc
      have hd' : u.dmaOk 0 u.lc.certAddr 4851 = true := hd
      have hgo : u.certGo x = (u.onLc fun l => { l with certBuffer := u.dmaBytes l.certAddr 4851 }).checkCert := by
        simp only [State.certGo, hx, hrec, hd', Bool.not_true, Bool.false_eq_true, if_false]
      rw [hgo]
      exact hchecked (u.onLc fun l => { l with certBuffer := u.dmaBytes l.certAddr 4851 }) hu
    · have hrec : u.inRecovery = true := State.inRecovery_of hm hc
      have hd' : u.dmaOk 0 u.lc.certAddr 4851 = false := hd
      have hgo : u.certGo x = (u.dmaReadFailed 0).refuseCert 0 0x15 := by
        simp only [State.certGo, hx, hrec, hd', Bool.not_true, Bool.not_false, Bool.false_eq_true, if_false, if_true]
      obtain ⟨tg, l, h, hbit⟩ := (u.dmaReadFailed 0).refuseCert_quiet hu1 0 0x15
      rw [hgo]
      exact ⟨by rw [h]; rfl, hbit⟩
    · have hrec : u.inRecovery = false := by
        have hn' : u.pwr.mode ≠ .standby ∨ u.pwr.causes = [] := hn
        rcases hn' with hn' | hn'
        · simp [State.inRecovery, hn']
        · simp [State.inRecovery, hn']
      have hgo : u.certGo x = u.denied := by
        simp only [State.certGo, hx, hrec, Bool.not_true, Bool.not_false, Bool.false_eq_true, if_false, if_true]
      rw [hgo]
      exact ⟨rfl, State.testBit_lcStat rfl⟩
  · intro v h hl hm he
    obtain ⟨nonce, k, en, pd, n, hlen, heq⟩ := s.challenged_eq
    exact ⟨s.challenged, nonce, k, exec_debugChallengeIssue h hl hm he, by rw [heq], hlen, by rw [heq]; rfl⟩
  · intro v env u r h
    refine ⟨fun hd => ?_, fun hd => ⟨fun code hr => ?_, fun hmaint hel => ?_⟩⟩
    · obtain ⟨tg, heq⟩ := (u.dmaReadFailed 0).refuseResponse_quiet hu1 0x17
      exact ⟨_, writeObj_response_unread h hd, by rw [heq]; rfl⟩
    · obtain ⟨tg, heq⟩ := u.refuseResponse_quiet hu1 code
      exact ⟨_, writeObj_response_refused h hd hr, by rw [heq]; rfl⟩
    · cases hr : u.responseFailure r with
      | some code => exact ⟨_, writeObj_response_refused h hd hr, nofun⟩
      | none =>
        obtain ⟨tg, krf, heq, h3, hother⟩ := State.responded_idle (s := u) hu1 hel r
        refine ⟨u.responded r, writeObj_response_accepted h hd hr, fun _ => ?_⟩
        rw [heq]
        exact ⟨⟨h3, hother⟩, rfl⟩
  · intro hp loads
    have hright {k : Nat} (h : s.lc.maint = false ∨ bitOf s.lc.rights k = false) : s.hasRight k = false := by
      rcases h with h | h
      · simp [State.hasRight, h]
      · simp [State.hasRight, h]
    have hheld {k : Nat} (hm : s.lc.maint = true) (h : bitOf s.lc.rights k = true) : s.hasRight k = true := by
      simp [State.hasRight, hm, h]
    refine ⟨?_, ?_, ?_, ?_, fun pins pre => ?_, fun c hm => ?_, fun c hm => ?_, fun d hb => ?_, fun d hb hf => ?_,
      fun core op x hr => ?_, fun hm hr => ?_, fun b hr => ?_, fun b hm hr hd => ?_, fun hr => ?_, fun hm hr hmode => ?_⟩
    · simp only [exec, execTapReset, hp, if_true]
      rfl
    · simp only [exec, execIdcode, hp, if_true]
      rfl
    · simp only [exec, execBypass, hp, if_true]
      rfl
    · simp only [exec, execLcStatus, hp, if_true]
      rfl
    · simp only [exec, execSamplePreload, hp, Bool.not_true, Bool.false_eq_true, if_false]
      rfl
    · simp only [exec, execLcAuth, hp, Bool.not_true, Bool.false_eq_true, if_false, hm]
      rfl
    · refine ⟨s.tapDenied, ?_, hdenied⟩
      simp only [exec, execLcAuth, hp, Bool.not_true, Bool.false_eq_true, if_false, hm, if_true]
    · refine ⟨s.tapDenied, hdenied, ?_, ?_⟩
      · simp only [exec, execExtest, hp, Bool.not_true, Bool.false_eq_true, if_false, hb]
      · simp only [exec, execClamp, hp, Bool.not_true, Bool.false_eq_true, if_false, hb]
    · refine ⟨?_, ?_⟩
      · simp only [exec, execExtest, hp, Bool.not_true, Bool.false_eq_true, if_false, hb, if_true]
        exact congrArg Host.Outcome.next (State.cardRemoved_absent hf)
      · simp only [exec, execClamp, hp, Bool.not_true, Bool.false_eq_true, if_false, hb, if_true]
        exact congrArg Host.Outcome.next (State.cardRemoved_absent hf)
    · exact ⟨s.tapDenied, hdenied, exec_dbgCore_denied hp (hright hr), exec_dbgReg_denied hp (hright hr)⟩
    · have hheld0 := hheld hm hr
      refine ⟨fun n hn hd => ?_, fun n op hd => ?_, ?_⟩
      · intro c
        have hexec (op : CoreOp) : exec (.dbgCore n op) s = .next ((loads 0x22).debugCore n op) :=
          exec_dbgCore hp hheld0 hn hd
        obtain ⟨hrun, hresume⟩ := ((loads 0x22).core n).settle_run
        refine ⟨fun hc hwf => ?_, fun hc => ?_, fun hc hto hwf => ?_, fun i => ?_, fun i => ?_, fun i => ?_⟩
        · obtain ⟨hself, hothers⟩ := State.core_onCore (s := loads 0x22) hwf n fun c => { c with run := .debug, resumeTo := c.run }
          refine ⟨_, (hexec .halt).trans (congrArg Host.Outcome.next (State.debugCore_halt hc)), rfl, ?_, ?_, hothers⟩
          · exact congrArg SCore.run hself
          · exact (congrArg SCore.resumeTo hself).trans (hrun.symm.trans hc)
        · exact ⟨_, (hexec .resume).trans (congrArg Host.Outcome.next (State.debugCore_resume hc)), rfl⟩
        · obtain ⟨hself, _⟩ := State.core_onCore (s := loads 0x22) hwf n fun c => { c with run := .stepping }
          exact ⟨_, (hexec .step).trans (congrArg Host.Outcome.next (State.debugCore_step hc hto)), congrArg SCore.run hself⟩
        · rw [hexec, State.debugCore]
          exact congrArg Host.Outcome.next (State.coreResult_ok _ _)
        · rw [hexec, State.debugCore]
          exact congrArg Host.Outcome.next (State.coreResult_ok _ _)
        · rw [hexec, State.debugCore]
          exact congrArg Host.Outcome.next (State.coreResult_ok _ _)
      · rw [exec_dbgCore_drawing hp hheld0 hd]
        rfl
      · intro x r u off hx ha hl ho hmem hacc hval
        have hread : bitOf x.toNat 96 = false := hx
        rw [exec_dbgReg hp hheld0, hread]
        exact congrArg Host.Outcome.next (State.dbgReg_bare hmem ha ho hval hacc hl _)
    · exact ⟨s.tapDenied, exec_dbgDir_denied hp (hright hr), hdenied⟩
    · intro r y hw hc
      exact exec_dbgDir hp (hheld hm hr) hd rfl rfl hw hc
    · refine ⟨s.tapDenied, exec_dbgScan_denied hp ?_, hdenied⟩
      rcases hr with hr | hr | hr
      · exact .inl (hright (.inl hr))
      · exact .inl (hright (.inr hr))
      · exact .inr hr
    · exact ⟨_, exec_dbgScan hp (hheld hm hr) hmode, (s.tapLoad 0x23).scan_leaves⟩
end

