-- ==== Sys2Proof/Proofs/EscrowReelKept.lean ====
section
-- The whole text is compiled in one process: one proof at a time keeps it within its memory.
set_option Elab.async false
/-! LEMMAS. A reel of the Escrow Line: opening, pickup, frames, status, stalls, run-out and the receive lanes (R307 to R319). -/

namespace Sys2Proof.Machine

variable {s : State} {v : Viewer}

/-- The latches of EL_REEL and EL_LANE_STAT, of which the statements speak. -/
theorem State.testBit_elReel {bits i : Nat} (h : bits.testBit i = true) :
    ((s.latch .elReel bits).latched .elReel (.tenant 0)).testBit i = true :=
  State.testBit_latch (List.mem_cons_self ..) h

theorem State.testBit_elLane {bits i : Nat} (h : bits.testBit i = true) :
    ((s.latch (.elLane 0) bits).latched (.elLane 0) (.tenant 0)).testBit i = true :=
  State.testBit_latch (List.mem_cons_self ..) h

/-! ### Opening -/

/-- The policy comes into force in the Directory alone. -/
theorem State.applyPolicy_eq (s : State) : ∃ pd, s.applyPolicy = { s with pd := pd } := by
  have hfold (l : List Nat) : ∀ u : State, ∃ pd, l.foldl (fun s k => s.applyNum 0x7010 k 0) u = { u with pd := pd } := by
    induction l with
    | nil => exact fun u => ⟨u.pd, rfl⟩
    | cons k ks ih =>
      intro u
      obtain ⟨pd', h'⟩ : ∃ pd, u.applyNum 0x7010 k 0 = { u with pd := pd } :=
        ⟨_, u.applyNum_pd 0x7010 k 0⟩
      obtain ⟨pd, h⟩ := ih (u.applyNum 0x7010 k 0)
      refine ⟨pd, h.trans ?_⟩
      rw [h']
  exact hfold [1, 2, 3, 4, 5] s

/-- The ephemeral point is the secret's (R309). -/
theorem State.openReel_ephemeral (s : State) : s.openReel.el.ephemeral = p384Point s.openReel.el.secret := by
  simp only [State.openReel, State.onEl]

/-- A reel opens (R309, R311). -/
theorem State.openReel_eq (s : State) : ∃ t : State, s.openReel = t
    ∧ t = { s with el := t.el, en := t.en, pd := t.pd, freeCtr := t.freeCtr } ∧ t.el.state = .opening
    ∧ t.el.ephemeral = p384Point t.el.secret
    ∧ t.el.frameSeq = 0 ∧ t.el.keyed = false ∧ t.el.reelCount = s.el.reelCount + 1 ∧ t.el.openStart = s.clock
    ∧ t.el.reelId = s.pwr.bootCount % 2 ^ 20 * 2 ^ 44 + (s.el.reelCount + 1) ∧ t.el.openCount = s.lg.journalCount
    ∧ t.el.cadence = t.reelCadence ∧ t.el.waived = s.el.waiver ∧ t.el.waiver = false := by
  obtain ⟨pd, hp⟩ := s.applyPolicy_eq
  obtain ⟨en, pd', n, hr⟩ := State.generate_poolDrew ({ s with pd := pd } : State) (i := 77) (by decide) 88 false
  have hpoint := s.openReel_ephemeral
  refine ⟨s.openReel, rfl, ?_, ?_, hpoint, ?_⟩
  · simp only [State.openReel, hp]
    rw [hr]
    rfl
  · rfl
  · simp only [State.openReel, hp]
    rw [hr]
    exact ⟨rfl, rfl, rfl, rfl, rfl, rfl, rfl, rfl, rfl⟩

theorem exec_reelOpen {env : HostEnv} (h : Writable (s.applyEnv env) v 0x7000 4 0xE1A) (hm : s.mayOpenReel = true)
    (he : s.coreEntropyBlock = none) : exec (.reelOpen v 0xE1A#32 env) s
      = .next (((s.applyEnv env).openReel.served v).emit (.directory v stOk [])) := by
  obtain ⟨hc, hw⟩ := State.commutes_served (s := s.applyEnv env) (v := v) (f := State.openReel)
    fun _ _ _ => State.turned_openReel
  have hm' : ((s.applyEnv env).served v).mayOpenReel = true := hm
  have he' : ((s.applyEnv env).served v).coreEntropyBlock = none := he
  have hact : reelOpen 0xE1A ((s.applyEnv env).served v) = ((s.applyEnv env).openReel.served v, stOk) := by
    rw [← hw]
    simp only [reelOpen, hm', he']
    rfl
  exact State.writeNum_served (w := {}) (tenant := ownTenant) h rfl (k := 4) rfl (by decide) rfl (namedTenant_own v) rfl
    hact (by decide) (hc.trans h.closing)

theorem exec_pickupWaive (h : Writable s v 0x7000 0xB 0x5C1E) :
    Wrote (.pickupWaive v 0x5C1E#32) s v stOk { s with el := { s.el with waiver := true } } :=
  State.writeNum_served (w := {}) (tenant := ownTenant) h rfl (k := 4) rfl (by decide) rfl (namedTenant_own v) rfl
    rfl (by decide) h.closing

/-! ### The recorder's answer -/

section Opening

variable (hs : s.serdes = true) (ho : s.el.state = .opening)
include hs ho

theorem exec_openAck_refused {f : OpenAckFields} {c : Nat} (hf : f.reelId = s.el.reelId) (hr : s.ackRefusal f = some c) :
    exec (.openAck f) s = .next (s.refuseReel c) := by
  simp [exec, execOpenAck, hs, ho, hf, hr]

theorem exec_openAck_accepted {f : OpenAckFields} (hf : f.reelId = s.el.reelId) (hr : s.ackRefusal f = none) :
    exec (.openAck f) s = .next (s.acceptAck f) := by
  simp [exec, execOpenAck, hs, ho, hf, hr]

theorem exec_recorderRefuse : exec (.recorderRefuse s.el.reelId) s = .next (s.refuseReel 0x15) := by
  simp [exec, execRecorderRefuse, hs, ho]

omit hs in
theorem exec_openTimeout (hc : s.el.openStart + 1000000000 ≤ s.clock) : exec .openTimeout s = .next (s.refuseReel 0x14) := by
  simp [exec, execOpenTimeout, ho, hc]

end Opening

/-- The reel that an accepted OPEN_ACK keys (R312, R313), before it is known whether anything is to be picked up. -/
def State.keyedReel (f : OpenAckFields) (s : State) : State :=
  let z := p384Shared s.el.secret f.ephemeral
  let th := Config.sha384 (slice s.el.openSent 0 624 ++ ackBytes f)
  { s with
    lg := { s.lg with reel := s.lg.reel.filter fun r => f.heldCount < r.last }
    el := { s.el with
      heldCount := f.heldCount
      sentCount := f.heldCount
      sentPart := 0
      keyed := true
      secret := 0
      kFw := reelKey z 1 32 th
      kSt := reelKey z 2 32 th
      saltFw := (reelKey z 3 8 th).take 4
      saltSt := (reelKey z 3 8 th).drop 4
      lastTag := th.take 16
      runOut := f.runOut
      heldContinuity := slice f.heldContinuity 0 32
      lastStatus := s.clock
      goodSince := s.clock } }

theorem State.acceptAck_eq (s : State) (f : OpenAckFields) : s.acceptAck f
    = if f.heldCount = s.lg.journalCount then (s.keyedReel f).appendOpening.reelRunning
      else (s.keyedReel f).onEl fun e => { e with state := .pickup } := by
  have hkeyed : ((((s.onEl fun e => { e with sentCount := f.heldCount, sentPart := 0 }).heldTo f.heldCount).onEl fun e =>
      { e.keyReel f with
        runOut := f.runOut
        heldContinuity := slice f.heldContinuity 0 32
        lastStatus := s.clock
        goodSince := s.clock }) : State) = s.keyedReel f := by
    simp [State.heldTo, State.keyedReel, State.onEl, State.onLg, El.keyReel]
  rw [← hkeyed]
  rfl

/-! ### Slates -/

theorem State.policyDigest_length (s : State) : s.policyDigest.length = 32 := out_length ..

theorem State.reelSlate_length (s : State) (kind reason count gapFirst gapLast : Nat) (waived : Bool) :
    (s.reelSlate kind reason count gapFirst gapLast waived).length = 96 := by
  simp [State.reelSlate, State.policyDigest_length]

/-- A slate of the reel while the journal has room: the journal alone, one record longer. -/
theorem State.append_slate (hr : s.roomy) (kind reason count gapFirst gapLast : Nat) (waived : Bool) :
    ∃ lg, s.append (s.reelSlate kind reason count gapFirst gapLast waived) [] = { s with lg := lg }
      ∧ lg.journalCount = s.lg.journalCount + 1 := by
  obtain ⟨htap, hroom⟩ := hr
  rw [State.append_roomy htap (by omega) (by rw [State.reelSlate_length]; decide), State.journal_untapped htap]
  exact ⟨_, rfl, rfl⟩

/-- The opening slate (R314 to R316). -/
theorem State.appendOpening_eq (hr : s.roomy) : ∃ lg, s.appendOpening
    = { s with lg := lg, el := { s.el with segmentStart := lg.journalCount, waived := false } }
      ∧ lg.journalCount = s.lg.journalCount + 1 := by
  unfold State.appendOpening
  extract_lets gap body opened
  obtain ⟨lg, h, hn⟩ := State.append_slate hr 0x20 0 s.el.heldCount (if gap then s.el.heldCount + 1 else 0)
    (if gap then s.bufferFirst - 1 else 0) gap
  have hopened : opened = { s with lg := lg } := h
  refine ⟨lg, ?_, hn⟩
  rw [hopened]
  rfl

/-- What the recorder holds no longer fills the reel buffer. -/
theorem State.roomy_keyedReel (hr : s.roomy) (f : OpenAckFields) : (s.keyedReel f).roomy := by
  obtain ⟨htap, hroom⟩ := hr
  have hfill : (s.keyedReel f).reelFill ≤ s.reelFill :=
    (List.filter_sublist.map _).sum_le_sum fun _ _ => Nat.zero_le _
  exact ⟨htap, by omega⟩

/-! ### Pickup -/

section Pickup

variable (hp : s.el.state = .pickup) (hs : s.el.segmentStart = 0)
include hp hs

theorem exec_pickupVerified (hn : s.hostPartNeeded = false) : exec .pickupVerified s = .next s.appendOpening := by
  simp [exec, execPickupVerified, hp, hs, hn]

theorem exec_pickupVerified_failed (hn : s.hostPartNeeded = true) (hh : s.hostPart = none) : ∃ l, exec .pickupVerified s = .next { s with
    el := { s.el with state := .runout, result := endPickup, stopCause := endPickup, stopClock := s.clock }, latches := l } := by
  have hexec : exec .pickupVerified s = .next (((if s.hostPartUnread then s.dmaReadFailed 0 else s).onEl fun e =>
      { e with result := endPickup }).startRunOut endPickup) := by
    simp [exec, execPickupVerified, hp, hs, hn, hh]
  rw [hexec]
  split
  · exact ⟨_, rfl⟩
  · exact ⟨_, rfl⟩

end Pickup

/-! ### Frames -/

/-- A frame's body is the next bytes of the records in order (R308). -/
theorem fillBody_bytes : ∀ (l : List JournalRec) (part room sent : Nat), part ≤ ((l.head?.map fun r => r.bytes.length).getD 0) →
    (fillBody l part room sent).1 = (((l.flatMap (·.bytes)).drop part).take room)
  | [], part, room, sent, _ => by simp [fillBody]
  | r :: rs, part, room, sent, h => by
    have hpart : part ≤ r.bytes.length := h
    have hdrop : ((r :: rs).flatMap (·.bytes)).drop part = r.bytes.drop part ++ rs.flatMap (·.bytes) := by
      rw [List.flatMap_cons, List.drop_append_of_le_length hpart]
    rw [hdrop, fillBody]
    by_cases hfit : (r.bytes.drop part).length ≤ room
    · rw [if_pos hfit]
      dsimp only
      rw [fillBody_bytes rs 0 _ r.last (Nat.zero_le _), List.take_append, List.take_of_length_le hfit, List.drop_zero]
    · rw [if_neg hfit, List.take_append_of_le_length (Nat.le_of_not_le hfit)]

/-- The boundary at a frame changes the reel's registers alone (R297). -/
theorem State.copyEl_eq (s : State) : ∃ active pend, s.copyEl
    = { s with el := { s.el with cfgActive := active, cfgPend := pend } } := by
  unfold State.copyEl
  split
  · exact ⟨_, _, rfl⟩
  · exact ⟨_, _, rfl⟩

/-- The bytes of the next frame's body, the count of the last record that is then sent whole, and the part of the next. -/
def State.nextBody (s : State) : Bytes × Nat × Nat := fillBody s.toSend s.el.sentPart 8128 s.el.sentCount

/-- The header of the next authenticated frame outside pickup. -/
def State.frameHead (s : State) (flags : Nat) : Bytes :=
  s.frameHeader (if s.nextBody.1 = [] then 2 else 1) flags s.nextBody.1.length (s.el.frameSeq + 1)
    (firstRecordAt s.toSend s.el.sentPart s.nextBody.1.length)

/-- The next frame goes out with these flags (R307). -/
def State.frameSent (s : State) (flags : Nat) : State :=
  let h := s.frameHead flags
  let c := s.el.seal (s.el.frameSeq + 1) h s.nextBody.1
  (s.emit (.escrowFrame ((s.el.frameSeq + 1) % 4) (if s.nextBody.1 = [] then 2 else 1) (h ++ c.1 ++ c.2))).onEl fun e => { e with
    frameSeq := s.el.frameSeq + 1
    lastTag := c.2
    sentCount := s.nextBody.2.1
    sentPart := s.nextBody.2.2
    streamOffset := e.streamOffset + s.nextBody.1.length
    frames := e.frames ++ [(s.el.frameSeq + 1, s.clock)] }

theorem nextType (b : Bytes) (hp : s.el.state ≠ .pickup) :
    (if b.length = 0 then 2 else if s.el.state = .pickup then 3 else 1) = if b = [] then 2 else 1 := by
  simp only [List.length_eq_zero_iff, hp, if_false]

theorem State.sendFrame_running (hr : s.el.state = .running) (he : s.el.ending = false) : s.sendFrame = s.frameSent 0 := by
  have hp : s.el.state ≠ .pickup := by rw [hr]; decide
  unfold State.sendFrame
  extract_lets l x fill runout final type seq h c emitted sent
  have hfinal : final = false := by simp only [final, he, Bool.false_and]
  have hrunout : runout = false := by simp only [runout, hr]; rfl
  have htype : type = if s.nextBody.1 = [] then 2 else 1 := nextType _ hp
  have hh : h = s.frameHead 0 := by
    unfold h
    rw [hrunout, hfinal, htype]
    rfl
  have hsent : sent = s.frameSent 0 := by
    unfold sent emitted c
    rw [hh, htype]
    rfl
  have hstate : sent.el.state = .running := hr
  rw [hfinal, hstate, hsent]
  rfl

theorem State.sendFrame_final (hr : s.el.state = .runout) (he : s.el.ending = true)
    (hc : s.el.endCount = 0 ∨ s.el.endCount ≤ s.nextBody.2.1) : s.sendFrame = (s.frameSent 3).endReel := by
  have hp : s.el.state ≠ .pickup := by rw [hr]; decide
  unfold State.sendFrame
  extract_lets l x fill runout final type seq h c emitted sent
  have hfinal : final = true := by
    have hc' : s.el.endCount = 0 ∨ s.el.endCount ≤ x.2.1 := hc
    simpa [final, he] using hc'
  have hrunout : runout = true := by simp only [runout, hr]; rfl
  have htype : type = if s.nextBody.1 = [] then 2 else 1 := nextType _ hp
  have hh : h = s.frameHead 3 := by
    unfold h
    rw [hrunout, hfinal, htype]
    rfl
  have hsent : sent = s.frameSent 3 := by
    unfold sent emitted c
    rw [hh, htype]
    rfl
  rw [hfinal, if_pos rfl, hsent]

/-- The OPEN frame has gone out on every lane (R309). -/
def State.openFramesSent (s : State) : State :=
  State.onEl (fun e => { e with openSent := s.openFrame }) (State.takeFree 1 { s with
    outbox := s.outbox ++ [0, 1, 2, 3].map fun l => Out.escrowFrame l 4 (slice s.openFrame 0 8192) })

section Tick

variable (hp : s.powered = true) (ht : s.el.transmit = true)
include hp ht

theorem exec_reelFrameTick_sends (hs : s.el.state = .running ∨ s.el.state = .runout) :
    exec .reelFrameTick s = .next s.sendFrame.copyEl := by
  rcases hs with hs | hs
  · simp [exec, execReelFrameTick, hp, ht, hs]
  · simp [exec, execReelFrameTick, hp, ht, hs]

theorem exec_reelFrameTick_opening (hs : s.el.state = .opening) : ∃ t, exec .reelFrameTick s = .next t ∧ t = { s with
      el := t.el
      freeCtr := t.freeCtr
      outbox := s.outbox ++ [0, 1, 2, 3].map fun l => .escrowFrame l 4 (slice s.openFrame 0 8192) }
    ∧ t.el.openSent = s.openFrame ∧ t.el.state = .opening := by
  have hexec : exec .reelFrameTick s = .next s.openFramesSent.copyEl := by
    simp [exec, execReelFrameTick, hp, ht, hs, State.emit, State.openFramesSent]
  obtain ⟨active, pend, h⟩ := s.openFramesSent.copyEl_eq
  refine ⟨_, hexec, ?_⟩
  rw [h]
  exact ⟨rfl, rfl, hs⟩

end Tick

/-- The frame of a running reel, field by field. -/
theorem State.frameHead_eq (s : State) (flags : Nat) : ∃ first, s.frameHead flags
    = be 4 0x544D524C ++ be 1 (if s.nextBody.1 = [] then 2 else 1) ++ be 1 flags ++ be 2 s.nextBody.1.length
      ++ be 8 s.el.reelId ++ be 8 (s.el.frameSeq + 1) ++ be 8 s.el.streamOffset ++ be 2 first ++ be 6 0
      ++ be 8 s.tb.deviceTime :=
  ⟨_, rfl⟩

theorem State.frameHead_take (s : State) (flags : Nat) (b : Bytes) : (s.frameHead flags ++ b).take 6
    = be 4 0x544D524C ++ be 1 (if s.nextBody.1 = [] then 2 else 1) ++ be 1 flags := by
  obtain ⟨first, h⟩ := s.frameHead_eq flags
  rw [h]
  simp only [List.append_assoc]
  rw [← List.append_assoc, ← List.append_assoc]
  exact List.take_left' (by simp)

theorem exec_reelEndAppend (hr : s.el.state = .runout) (he : s.el.ending = false)
    (hc : s.el.stopClock + s.el.runOut * 1000000 ≤ s.clock + 5000000) (hs : s.el.segmentStart ≠ 0) :
    exec .reelEndAppend s = .next ((s.append (s.reelSlate 0x22 s.el.stopCause
      (s.lg.journalCount + 1 + 1 - s.el.segmentStart) 0 0 false) []).onEl fun e =>
        { e with ending := true, endCount := s.lg.journalCount + 1 }) := by
  simp [exec, execReelEndAppend, hr, he, Nat.not_lt.mpr hc, hs]

/-! ### Status -/

theorem State.heldTo_eq (s : State) (n : Nat) : ∃ count part, s.heldTo n = { s with
    lg := { s.lg with reel := s.lg.reel.filter fun r => n < r.last }
    el := { s.el with heldCount := n, sentCount := count, sentPart := part } } :=
  ⟨_, _, rfl⟩

/-- What an accepted status frame reports is taken; it may ask for a stop (R310, R317, R319). -/
theorem State.takeStatus_eq (s : State) (f : StatusFields) : ∃ (u : State) (good count part : Nat), u = { s with
      lg := { s.lg with reel := s.lg.reel.filter fun r => f.heldCount < r.last }
      el := { s.el with
        statusSeq := f.statusSeq, goodSince := good, lastStatus := s.clock, ackSeq := f.ackSeq
        frames := s.el.frames.filter fun x => f.ackSeq < x.1
        heldCount := f.heldCount, sentCount := count, sentPart := part } }
    ∧ s.takeStatus f = if f.stop || f.broken then
        (u.latch .elReel 0x20).stopReel (if f.broken then endBroken else endRecorder) else u :=
  ⟨_, _, _, _, rfl, rfl⟩

theorem exec_statusFrame_dropped {f : StatusFields} (hp : s.powered = true) (ha : s.statusAccepted f = false) :
    exec (.statusFrame f) s = .next { s with el := { s.el with statusDropped := s.el.statusDropped + 1 } } := by
  simp only [exec, execStatusFrame, hp, ha, Bool.not_true, Bool.false_eq_true, if_false]
  rfl

theorem exec_statusFrame_taken {f : StatusFields} (hp : s.powered = true) (ha : s.statusAccepted f = true) :
    exec (.statusFrame f) s = .next (s.takeStatus f) := by
  simp only [exec, execStatusFrame, hp, ha, Bool.not_true, Bool.false_eq_true, if_false, if_true]

theorem State.stopReel_running (hr : s.el.state = .running) (hs : s.sealing = false) (cause : Nat) :
    s.stopReel cause = s.startRunOut cause := by
  have hs' : (s.startRunOut cause).sealing = false := hs
  simp only [State.stopReel, hr, hs', Bool.and_false, Bool.false_eq_true, if_false]

theorem exec_reelStop (h : Writable s v 0x7000 5 0xE50) (hr : s.el.state = .running) (hs : s.sealing = false) :
    Wrote (.reelStop v 0xE50#32) s v stOk (s.startRunOut endRequest) := by
  have hact : reelStop 0xE50 (s.served v) = ((s.startRunOut endRequest).served v, stOk) := by
    simp only [reelStop, State.stopReel_running (s := s.served v) hr hs]
    rfl
  exact State.writeNum_served (w := {}) (tenant := ownTenant) h rfl (k := 4) rfl (by decide) rfl (namedTenant_own v) rfl
    hact (by decide) h.closing

/-! ### Stalls -/

theorem exec_statusLimitExpiry (hr : s.el.state = .running) (hs : s.el.stalled = false)
    (hl : s.el.lastStatus + s.statusLimit * 1000000 ≤ s.clock) : exec .statusLimitExpiry s = .next s.stallReel := by
  simp [exec, execStatusLimitExpiry, hr, hs, hl]

theorem exec_ackLimitExpiry (hr : s.el.state = .running) (hs : s.el.stalled = false) {x : Nat × Nat} (hx : x ∈ s.el.frames)
    (hl : x.2 + s.ackLimit * 1000000 ≤ s.clock) : exec .ackLimitExpiry s = .next s.stallReel := by
  have hover : s.ackOverdue = true := List.any_eq_true.mpr ⟨x, hx, decide_eq_true hl⟩
  simp [exec, execAckLimitExpiry, hr, hs, hover]

/-! ### Receive lanes -/

theorem setBit_set {v i : Nat} (h : v.testBit i = false) : setBit v i true = v + 2 ^ i := by
  simp [setBit, h]

theorem setBit_clear {v i : Nat} (h : v.testBit i = true) : setBit v i false = v - 2 ^ i := by
  simp [setBit, h]

end Sys2Proof.Machine

open Sys2Proof Sys2Proof.Machine

/-- Settles O49, clause by clause: the equation of each command of the Escrow Line, the journal with room for one slate, and
`fillBody` by induction on the records still to be sent. -/
theorem escrowReel : Obligations.EscrowReel := by
  intro s
  have hrefuse (code : Nat) : s.refuseReel code = { s with
        el := { s.el.unkeyed with state := .idle, result := code, waived := false }
        latches := (s.refuseReel code).latches }
      ∧ ((s.refuseReel code).latched .elReel (.tenant 0)).testBit 2 = true :=
    ⟨rfl, State.testBit_elReel (s := s.onEl _) rfl⟩
  refine ⟨?_, ?_, ?_, fun v h => exec_pickupWaive h, ?_, fillBody_bytes, ?_, ?_, ?_, ?_, ?_, ?_, ?_, ?_, ?_, ?_⟩
  · intro v env u h hm he
    obtain ⟨t, ht, hkept⟩ := u.openReel_eq
    exact ⟨t, by rw [exec_reelOpen h hm he, ht], hkept⟩
  · intro hs ho refused
    refine ⟨?_, ⟨_, exec_recorderRefuse hs ho, hrefuse 0x15⟩, fun hc => ⟨_, exec_openTimeout ho hc, hrefuse 0x14⟩⟩
    intro f hf z th
    cases hr : s.ackRefusal f with
    | some c =>
      refine ⟨_, exec_openAck_refused hs ho hf hr, fun h0 => ?_, fun c' hc => ?_, nofun, nofun⟩
      · have hc : s.ackRefusal f = some 0x10 := by simp [State.ackRefusal, h0]
        obtain rfl : c = 0x10 := Option.some.inj (hr.symm.trans hc)
        exact hrefuse 0x10
      · obtain rfl : c = c' := Option.some.inj hc
        exact hrefuse c
    | none =>
      have hdigest : s.recorderDigest ≠ 0 := fun h0 => by simp [State.ackRefusal, h0] at hr
      refine ⟨_, exec_openAck_accepted hs ho hf hr, fun h0 => absurd h0 hdigest, nofun, fun _ hn => ?_, fun _ hn hroom => ?_⟩
      · rw [State.acceptAck_eq, if_neg hn]
        rfl
      · rw [State.acceptAck_eq, if_pos hn]
        obtain ⟨lg, h, hcount⟩ := State.appendOpening_eq (State.roomy_keyedReel hroom f)
        rw [h]
        exact ⟨rfl, rfl, hcount, hcount⟩
  · intro hp hs hn hr
    obtain ⟨lg, h, hcount⟩ := State.appendOpening_eq hr
    refine ⟨_, exec_pickupVerified hp hs hn, ?_⟩
    rw [h]
    exact ⟨rfl, hp, hcount, hcount⟩
  · intro hp ht hr he body seq type cipher
    obtain ⟨first, hh⟩ := s.frameHead_eq 0
    obtain ⟨active, pend, hcopy⟩ := (s.frameSent 0).copyEl_eq
    refine ⟨_, s.frameHead 0, first, exec_reelFrameTick_sends hp ht (.inl hr), ?_⟩
    rw [State.sendFrame_running hr he, hcopy]
    refine ⟨?_, hh, ?_, rfl, rfl, rfl, hr⟩
    · simp only [State.frameSent, State.onEl, State.emit, El.seal]
      rfl
    · simp only [State.frameSent, State.onEl, State.emit, El.seal]
      rfl
  · intro f hp
    refine ⟨exec_statusFrame_dropped hp, fun ha hstop hbroken => ⟨_, exec_statusFrame_taken hp ha, ?_⟩⟩
    obtain ⟨u, good, count, part, hu, ht⟩ := s.takeStatus_eq f
    rw [ht, hstop, hbroken, Bool.or_self, if_neg Bool.false_ne_true, hu]
    exact ⟨rfl, rfl, rfl, rfl, rfl, rfl, rfl⟩
  · intro hr hs
    exact ⟨exec_statusLimitExpiry hr hs, fun x hx => exec_ackLimitExpiry hr hs hx⟩
  · intro hs hk hg hl hf
    simp [exec, execStallRecovery, hs, hk, hg, hl, hf, State.onEl]
  · intro hc hf hm
    have hclear : s.clearCause .reelBufferFull = { s with pwr := { s.pwr with causes := [] } } := by
      simp [State.clearCause, State.onPwr, hc]
    have hst : s.stands .reelBufferFull = true := by simp [State.stands, hc]
    have hfill : ¬ 2 ^ 29 < s.reelFill := Nat.not_lt.mpr hf
    have hexec : exec .reelBufferResume s = .next (if (s.clearCause .reelBufferFull).pwr.mode = .held
        && (s.clearCause .reelBufferFull).pwr.causes = [] then (s.clearCause .reelBufferFull).onPwr fun p => { p with mode := .service }
        else s.clearCause .reelBufferFull) := by
      simp only [exec, execReelBufferResume, hst, decide_eq_false hfill, Bool.not_true, Bool.or_self, Bool.false_eq_true, if_false]
    rw [hexec, hclear]
    simp [hm, State.onPwr]
  · intro v h hr hs
    exact exec_reelStop h hr hs
  · intro hr he hc hs hroom
    obtain ⟨lg, h, hn⟩ := State.append_slate hroom 0x22 s.el.stopCause (s.lg.journalCount + 1 + 1 - s.el.segmentStart) 0 0 false
    refine ⟨_, exec_reelEndAppend hr he hc hs, ?_⟩
    rw [h]
    exact ⟨rfl, hn⟩
  · intro hp hs hn hh
    obtain ⟨l, h⟩ := exec_pickupVerified_failed hp hs hn hh
    exact ⟨_, h, rfl⟩
  · intro hp ht
    refine ⟨exec_reelFrameTick_opening hp ht, ?_⟩
    intro hr he hc type
    obtain ⟨active, pend, hcopy⟩ := ((s.frameSent 3).endReel).copyEl_eq
    refine ⟨_, s.frameHead 3 ++ (s.el.seal (s.el.frameSeq + 1) (s.frameHead 3) s.nextBody.1).1
      ++ (s.el.seal (s.el.frameSeq + 1) (s.frameHead 3) s.nextBody.1).2, exec_reelFrameTick_sends hp ht (.inr hr), ?_⟩
    rw [State.sendFrame_final hr he hc, hcopy]
    refine ⟨rfl, ?_, rfl, rfl, rfl, rfl, rfl, State.testBit_elReel (s := (s.frameSent 3).onEl _) rfl⟩
    rw [List.append_assoc]
    exact s.frameHead_take 3 _
  · intro f hp ha hr hs hstop
    obtain ⟨u, good, count, part, hu, ht⟩ := s.takeStatus_eq f
    have hany : (f.stop || f.broken) = true := by simpa using hstop
    have hur : (u.latch .elReel 0x20).el.state = .running := by rw [hu]; exact hr
    have hus : (u.latch .elReel 0x20).sealing = false := by rw [hu]; exact hs
    have hclock : u.clock = s.clock := by rw [hu]
    refine ⟨_, exec_statusFrame_taken hp ha, ?_⟩
    rw [ht, if_pos hany, State.stopReel_running hur hus]
    exact ⟨rfl, rfl, hclock, State.testBit_elReel (s := u) rfl⟩
  · intro hp
    refine ⟨fun l hl hs hb => ?_, fun l hl hb => ?_, fun l hl => ?_, fun l hl => ?_⟩
    · have hset : setBit s.el.rxLock l true = s.el.rxLock + 2 ^ l := setBit_set hb
      simp [exec, execEscrowLaneBlockLock, hp, Nat.not_le.mpr hl, hs, State.onEl, hset]
    · have hset : setBit s.el.rxLock l false = s.el.rxLock - 2 ^ l := setBit_clear hb
      refine ⟨(s.onEl fun e => { e with rxLock := s.el.rxLock - 2 ^ l }).latch (.elLane 0) (2 ^ (8 + l)), ?_, rfl,
        State.testBit_elLane (by simp)⟩
      simp [exec, execEscrowLaneBlockLock, hp, Nat.not_le.mpr hl, hb, State.onEl, hset]
    · simp [exec, execUncorrectableCodeword, hp, Nat.not_le.mpr hl]
    · simp [exec, execUncorrectableCodeword, hp, Nat.not_le.mpr hl]
end

