-- ==== Sys2Proof/Proofs/TamperKept.lean ====
section
-- The whole text is compiled in one process: one proof at a time keeps it within its memory.
set_option Elab.async false
/-! LEMMAS. The Guard and the Evidence Log: what a change of mode leaves of the Guard, the erase, windows and their records, and
re-provisioning (R367, R370, R374 to R391). -/

namespace Sys2Proof.Machine

variable {s t u : State} {v : Viewer}

/-! ### Latches only gain bits -/

/-- Every bit that stands in a latch of `s` stands in that of `t`. -/
structure State.Latching (s t : State) : Prop where
  stands : ∀ (r : RcReg) (v : Viewer) (i : Nat), (s.latched r v).testBit i = true → (t.latched r v).testBit i = true

theorem State.Latching.of_eq (h : t.latches = s.latches) : s.Latching t where
  stands r v i hb := by
    rw [State.latched, h]
    exact hb

theorem State.Latching.trans (h : s.Latching t) (h' : t.Latching u) : s.Latching u where
  stands r v i := h'.stands r v i ∘ h.stands r v i

theorem State.Latching.foldl {α : Type} {f : State → α → State} (h : ∀ (s : State) (a : α), s.Latching (f s a)) (l : List α)
    (s : State) : s.Latching (l.foldl f s) :=
  List.foldlRecOn (motive := s.Latching) l f (.of_eq rfl) fun _ hs a _ => hs.trans (h _ a)

theorem State.latch_latching (s : State) (r : RcReg) (b : Nat) : s.Latching (s.latch r b) :=
  ⟨fun _ _ _ => State.testBit_latch_keeps⟩

theorem State.dmaWrite_latching (s : State) (fn addr : Nat) (b : Bytes) : s.Latching (s.dmaWrite fn addr b) := by
  simp only [State.dmaWrite]
  split
  · exact .of_eq rfl
  · split
    · exact (s.latch_latching ..).trans (.of_eq rfl)
    · exact s.latch_latching ..

theorem State.dmaSend_latching (fn : Nat) : ∀ (ps : List (Nat × Bytes)) (s : State), s.Latching (s.dmaSend fn ps).1
  | [], _ => .of_eq rfl
  | p :: ps, s => by
    have hw := s.dmaWrite_latching fn p.1 p.2
    simp only [State.dmaSend]
    split
    · exact hw.trans (State.dmaSend_latching fn ps _)
    · exact hw

theorem State.journal_latching (s : State) (body tail : Bytes) : s.Latching (s.journal body tail) := by
  have htap (u : State) (b : Bytes) : u.Latching (u.tapCopy b) := by
    simp only [State.tapCopy]
    split
    · exact .of_eq rfl
    · split
      · exact .of_eq rfl
      · exact (State.dmaSend_latching ..).trans (.of_eq rfl)
  have hlg (f : Lg → Lg) : s.Latching (s.onLg f) := .of_eq rfl
  exact (hlg _).trans (htap _ _)

theorem State.serviceEnd_latching (s : State) (core : Nat) (status : Status) : s.Latching (s.serviceEnd core status) := by
  obtain ⟨_, _, h⟩ := s.serviceEnd_eq core status
  rw [h]
  exact .of_eq rfl

theorem State.writeResult_latching (s : State) (core space offset : Nat) (b : Bytes) :
    s.Latching (s.writeResult core space offset b) := by
  simp only [State.writeResult]
  split
  · exact .of_eq rfl
  · exact .of_eq rfl

theorem State.msix_latching (s : State) (fn v : Nat) : s.Latching (s.msix fn v) := by
  simp only [State.msix]
  split
  · exact .of_eq rfl
  · split
    · exact .of_eq rfl
    · exact .of_eq rfl

theorem State.discardHeld_latching (s : State) (a : Nat) : s.Latching (s.discardHeld a) := by
  simp only [State.discardHeld]
  split
  · exact .of_eq rfl
  · split
    · exact .of_eq rfl
    · exact (s.latch_latching ..).trans (.of_eq rfl)

theorem State.wakeSlot_latching (s : State) (a : Nat) : s.Latching (s.wakeSlot a) := by
  obtain ⟨_, h⟩ := s.wakeSlot_eq a
  rw [h]
  exact .of_eq rfl

theorem State.completeTake_latching (s : State) (t : Take) (status : Status) (outcome : Nat) :
    s.Latching (s.completeTake t status outcome) := by
  have hc : s.Latching (s.countTake t.tenant outcome) := .of_eq rfl
  have hq (u : State) (n q : Nat) (f : QPair → QPair) : u.Latching (u.onQ n q f) := .of_eq rfl
  simp only [State.completeTake]
  split
  · split
    · split
      · exact hc.trans ((State.writeResult_latching ..).trans (State.serviceEnd_latching ..))
      · exact hc
    · exact hc
  · split
    · exact hc
    · split
      · exact hc.trans (hq ..)
      · split
        · exact hc.trans ((State.dmaWrite_latching ..).trans ((hq ..).trans (State.msix_latching ..)))
        · exact hc.trans ((State.dmaWrite_latching ..).trans (hq ..))

/-! ### What a change of mode leaves of the Guard -/

/-- `u` is the Guard `t` but for its Evidence Log, and for whether a re-provisioning awaits its cause. -/
def Tg.Appended (t u : Tg) : Prop := ∃ q n h x r, u = { t with
  queue := q, nextSeq := n, head := h, suppressed := x, reprovisioned := r }

theorem Tg.Appended.refl (t : Tg) : t.Appended t := ⟨_, _, _, _, _, rfl⟩

theorem Tg.Appended.trans {t u w : Tg} (h : t.Appended u) (h' : u.Appended w) : t.Appended w := by
  obtain ⟨_, _, _, _, _, rfl⟩ := h
  obtain ⟨_, _, _, _, _, rfl⟩ := h'
  exact ⟨_, _, _, _, _, rfl⟩

/-- From `s` to `t` the Guard gains records alone, the key handles, the time, the boot count and the life cycle stay, and no
latch loses a bit. -/
structure State.Kept (s t : State) : Prop where
  tg : s.tg.Appended t.tg
  handles : t.krf.handles = s.krf.handles
  time : t.tb = s.tb
  boot : t.pwr.bootCount = s.pwr.bootCount
  lcState : t.lc.state = s.lc.state
  latched : s.Latching t

theorem State.Kept.trans (h : s.Kept t) (h' : t.Kept u) : s.Kept u :=
  ⟨h.tg.trans h'.tg, h'.handles.trans h.handles, h'.time.trans h.time, h'.boot.trans h.boot, h'.lcState.trans h.lcState,
    h.latched.trans h'.latched⟩

/-- In addition the whole key register file and the mode stay. -/
structure State.Guarded (s t : State) : Prop extends s.Kept t where
  krf : t.krf = s.krf
  mode : t.pwr.mode = s.pwr.mode

theorem State.Guarded.of_eq (htg : t.tg = s.tg) (hk : t.krf = s.krf) (htb : t.tb = s.tb) (hp : t.pwr = s.pwr) (hlc : t.lc = s.lc)
    (hl : s.Latching t) : s.Guarded t :=
  ⟨⟨htg ▸ .refl _, hk ▸ rfl, htb, hp ▸ rfl, hlc ▸ rfl, hl⟩, hk, hp ▸ rfl⟩

theorem State.Guarded.refl (s : State) : s.Guarded s := .of_eq rfl rfl rfl rfl rfl (.of_eq rfl)

theorem State.Guarded.trans (h : s.Guarded t) (h' : t.Guarded u) : s.Guarded u :=
  ⟨h.toKept.trans h'.toKept, h'.krf.trans h.krf, h'.mode.trans h.mode⟩

theorem State.Guarded.foldl {α : Type} {f : State → α → State} (h : ∀ (s : State) (a : α), s.Guarded (f s a)) (l : List α)
    (s : State) : s.Guarded (l.foldl f s) :=
  List.foldlRecOn (motive := s.Guarded) l f (.refl s) fun _ hs a _ => hs.trans (h _ a)

theorem State.Finished.guarded (h : s.Finished t) (hl : s.Latching t) : s.Guarded t := by
  obtain ⟨_, _, _, _, _, _, _, _, _, _, rfl⟩ := h
  exact .of_eq rfl rfl rfl rfl rfl hl

theorem State.journal_guarded (s : State) (body tail : Bytes) : s.Guarded (s.journal body tail) := by
  have hl := s.journal_latching body tail
  obtain ⟨_, _, _, _, _, _, _, h⟩ := s.journal_eq body tail
  rw [h] at hl ⊢
  exact .of_eq rfl rfl rfl rfl rfl hl

theorem State.serviceEnd_guarded (s : State) (core : Nat) (status : Status) : s.Guarded (s.serviceEnd core status) :=
  (s.serviceEnd_finished ..).guarded (s.serviceEnd_latching ..)

theorem State.discardHeld_guarded (s : State) (a : Nat) : s.Guarded (s.discardHeld a) := by
  have hl := s.discardHeld_latching a
  obtain ⟨_, _, h⟩ := s.discardHeld_eq a
  rw [h] at hl ⊢
  exact .of_eq rfl rfl rfl rfl rfl hl

theorem State.wakeSlot_guarded (s : State) (a : Nat) : s.Guarded (s.wakeSlot a) := by
  have hl := s.wakeSlot_latching a
  obtain ⟨_, h⟩ := s.wakeSlot_eq a
  rw [h] at hl ⊢
  exact .of_eq rfl rfl rfl rfl rfl hl

theorem State.onCounts_guarded (s : State) (n : Nat) (f : TakeCounts → TakeCounts) : s.Guarded (s.onCounts n f) :=
  .of_eq rfl rfl rfl rfl rfl (.of_eq rfl)

theorem State.failTakes_guarded (s : State) (p : Take → Bool) (code : Status) : s.Guarded (s.failTakes p code) :=
  .of_eq rfl rfl rfl rfl rfl (.of_eq rfl)

theorem State.oweQueues_guarded (s : State) (code : Status) : s.Guarded (s.oweQueues code) :=
  .of_eq rfl rfl rfl rfl rfl (.of_eq rfl)

theorem State.onDrbg_guarded (s : State) (i : Nat) (f : Instance → Instance) : s.Guarded (s.onDrbg i f) :=
  .of_eq rfl rfl rfl rfl rfl (.of_eq rfl)

theorem State.onEn_guarded (s : State) (f : En → En) : s.Guarded (s.onEn f) := .of_eq rfl rfl rfl rfl rfl (.of_eq rfl)

theorem State.onSz_guarded (s : State) (f : Sz → Sz) : s.Guarded (s.onSz f) := .of_eq rfl rfl rfl rfl rfl (.of_eq rfl)

theorem State.onTd_guarded (s : State) (f : Td → Td) : s.Guarded (s.onTd f) := .of_eq rfl rfl rfl rfl rfl (.of_eq rfl)

theorem State.onHg_guarded (s : State) (f : Hg → Hg) : s.Guarded (s.onHg f) := .of_eq rfl rfl rfl rfl rfl (.of_eq rfl)

theorem State.onLh_guarded (s : State) (f : Lh → Lh) : s.Guarded (s.onLh f) := .of_eq rfl rfl rfl rfl rfl (.of_eq rfl)

theorem State.abandonManifests_guarded (s : State) (p : Manifest → Bool) (code : Status) :
    s.Guarded (s.abandonManifests p code) := by
  unfold State.abandonManifests
  extract_lets gone counted failed released
  have hc : s.Guarded counted := .foldl (fun u (m : Manifest) => (u.onCounts_guarded m.tenant _)) gone s
  exact hc.trans ((counted.failTakes_guarded ..).trans ((failed.onLh_guarded _).trans (released.onTd_guarded _)))

theorem State.drawEnd_guarded (s : State) (reason : Option Nat) (pending : Option Status) :
    s.Guarded (s.drawEnd reason pending) := by
  unfold State.drawEnd
  split
  · exact .refl s
  · extract_lets journaled discarded returned wiped ended
    have hj : s.Guarded journaled := by
      unfold journaled
      split
      · exact .refl s
      · exact s.journal_guarded ..
    have hd : journaled.Guarded discarded := by
      unfold discarded
      split
      · exact journaled.discardHeld_guarded _
      · exact .refl journaled
    have hr : discarded.Guarded returned := by
      unfold returned
      split
      · exact discarded.serviceEnd_guarded ..
      · exact .refl discarded
    have he : returned.Guarded ended := (returned.onDrbg_guarded 76 _).trans (wiped.onSz_guarded _)
    exact hj.trans (hd.trans (hr.trans (he.trans (ended.wakeSlot_guarded _))))

theorem State.evidence_guarded (s : State) (kind code time : Nat) (data : Bytes) (e : Bool) :
    s.Guarded (s.evidence kind code time data e) := by
  simp only [State.evidence]
  split
  · exact ⟨⟨⟨_, _, _, _, _, rfl⟩, rfl, rfl, rfl, rfl, .of_eq rfl⟩, rfl, rfl⟩
  · exact ⟨⟨⟨_, _, _, _, _, rfl⟩, rfl, rfl, rfl, rfl, .of_eq rfl⟩, rfl, rfl⟩

theorem State.addCause_guarded (s : State) (c : Cause) : s.Guarded (s.addCause c) := by
  simp only [State.addCause]
  split
  · exact .refl s
  · exact ⟨⟨.refl _, rfl, rfl, rfl, rfl, .of_eq rfl⟩, rfl, rfl⟩

theorem State.noteEvidence_guarded (s : State) : s.Guarded s.noteEvidence := by
  simp only [State.noteEvidence]
  split
  · exact .refl s
  · exact (s.addCause_guarded _).trans ⟨⟨⟨_, _, _, _, _, rfl⟩, rfl, rfl, rfl, rfl, .of_eq rfl⟩, rfl, rfl⟩

theorem State.noteCause_guarded (s : State) (c : Cause) : s.Guarded (s.noteCause c) := by
  simp only [State.noteCause]
  split
  · exact .refl s
  · exact (s.addCause_guarded c).trans ((State.evidence_guarded ..).trans (State.noteEvidence_guarded _))

theorem State.latch_guarded (s : State) (r : RcReg) (b : Nat) : s.Guarded (s.latch r b) :=
  .of_eq rfl rfl rfl rfl rfl (s.latch_latching r b)

theorem State.noteFull_guarded (s : State) : s.Guarded s.noteFull := by
  unfold State.noteFull
  extract_lets reel
  have hr : s.Guarded reel := by
    unfold reel
    split
    · exact (s.latch_guarded ..).trans (State.noteCause_guarded ..)
    · exact .refl s
  split
  · exact hr.trans ((reel.latch_guarded ..).trans (State.noteCause_guarded ..))
  · exact hr

theorem State.Guarded.held (h : s.Guarded t) :
    (s.onPwr fun p => { p with mode := .held }).Guarded (t.onPwr fun p => { p with mode := .held }) :=
  ⟨⟨h.tg, h.handles, h.time, h.boot, h.lcState, ⟨h.latched.stands⟩⟩, h.krf, rfl⟩

/-- Entry to Held (R28). -/
theorem State.enterHeld_guarded (s : State) (code : Status) :
    (s.onPwr fun p => { p with mode := .held }).Guarded (s.enterHeld code) := by
  unfold State.enterHeld
  extract_lets held abandoned failed ended returned
  have hh : (s.onPwr fun p => { p with mode := .held }).Guarded held := State.oweQueues_guarded ..
  have hf : held.Guarded failed := (held.abandonManifests_guarded ..).trans (abandoned.failTakes_guarded ..)
  have he : failed.Guarded ended := by
    unfold ended
    split
    · exact failed.drawEnd_guarded ..
    · exact failed.onDrbg_guarded ..
  have hr : ended.Guarded returned := by
    unfold returned
    split
    · exact (ended.onEn_guarded _).trans (State.serviceEnd_guarded ..)
    · exact .refl ended
  exact hh.trans (hf.trans (he.trans (hr.trans returned.noteFull_guarded)))

theorem State.afterEvidence_guarded (hs : s.sealing = false) : s.Guarded s.afterEvidence := by
  have hn := s.noteEvidence_guarded
  have hsealing : s.noteEvidence.sealing = false := by rw [State.sealing, hn.mode]; exact hs
  simp only [State.afterEvidence, hsealing, Bool.and_false, Bool.false_eq_true, if_false]
  exact hn

/-- A cause that arises while nothing is sealed. -/
theorem State.raiseCause_guarded (hs : s.sealing = false) (c : Cause) : s.Guarded (s.raiseCause c) := by
  have hmode : s.modeAfter c = s.pwr.mode := by simp only [State.modeAfter, hs, Bool.and_false, Bool.false_eq_true, if_false]
  unfold State.raiseCause State.raiseCauseWith
  split
  · exact .refl s
  · extract_lets before after added recorded held
    have hr : s.Guarded recorded := by
      refine (s.addCause_guarded c).trans ?_
      unfold recorded
      split
      · exact .refl added
      · exact added.evidence_guarded ..
    have hh : held = recorded := by
      have hstay : ¬(after = .held ∧ before ≠ .held) := fun ⟨ha, hb⟩ => hb (hmode.symm.trans ha)
      unfold held
      rw [if_neg (by simpa using hstay)]
    rw [hh]
    exact hr.trans (State.afterEvidence_guarded (by rw [State.sealing, hr.mode]; exact hs))

/-- A cause with effect Held that arises in Service or Draw (R27, R28). -/
theorem State.raiseCause_holds (hs : s.sealing = true) {c : Cause} (hst : s.stands c = false) (hc : c.rank = 2) :
    (s.onPwr fun p => { p with mode := .held }).Guarded (s.raiseCause c) := by
  have hafter : s.modeAfter c = .held := by simp [State.modeAfter, hs, hc]
  have hbefore : s.pwr.mode ≠ .held := fun h => by simp [State.sealing, h] at hs
  unfold State.raiseCause State.raiseCauseWith
  rw [hst, if_neg Bool.false_ne_true]
  extract_lets before after added recorded held
  have hr : s.Guarded recorded := by
    refine (s.addCause_guarded c).trans ?_
    unfold recorded
    split
    · exact .refl added
    · exact added.evidence_guarded ..
  have hh : (s.onPwr fun p => { p with mode := .held }).Guarded held := by
    have hheld : held = recorded.enterHeld stHeld := by
      unfold held
      rw [if_pos (by simpa using And.intro hafter hbefore)]
    rw [hheld]
    exact hr.held.trans (recorded.enterHeld_guarded stHeld)
  exact hh.trans (State.afterEvidence_guarded (by rw [State.sealing, hh.mode]; rfl))

theorem State.sendMember_guarded (s : State) (m vc type : Nat) (payload : Bytes) :
    s.Guarded (s.sendMember m vc type payload) := by
  have hport (p : Nat) (f : QFrame) : s.Guarded (s.sendPort p f) := by
    unfold State.sendPort
    dsimp only
    split
    · exact .refl s
    · split
      · exact .of_eq rfl rfl rfl rfl rfl (.of_eq rfl)
      · exact .of_eq rfl rfl rfl rfl rfl (.of_eq rfl)
  unfold State.sendMember
  dsimp only
  split
  · exact (s.latch_guarded ..).trans (.of_eq rfl rfl rfl rfl rfl (.of_eq rfl))
  · split
    · exact .refl s
    · exact hport _ _

theorem State.retireIfScrapped_kept (s : State) : s.Kept s.retireIfScrapped := by
  unfold State.retireIfScrapped
  split
  · exact ⟨.refl _, rfl, rfl, rfl, rfl, .of_eq rfl⟩
  · exact (State.Guarded.refl s).toKept

/-- A Ceremony that ends leaves a mode in which nothing is sealed, and goes to Retired from Scrapped alone. -/
structure State.Ended (s t : State) : Prop extends s.Kept t where
  unsealed : t.sealing = false
  retired : s.lc.state ≠ 5 → t.pwr.mode ≠ .retired

theorem State.Ended.guarded (h : s.Ended t) (hg : t.Guarded u) : s.Ended u :=
  ⟨h.toKept.trans hg.toKept, by rw [State.sealing, hg.mode]; exact h.unsealed, fun hl => hg.mode ▸ h.retired hl⟩

theorem State.Ended.retireIfScrapped (h : s.Ended t) : s.Ended t.retireIfScrapped := by
  refine ⟨h.toKept.trans t.retireIfScrapped_kept, ?_, fun hl => ?_⟩
  · unfold State.retireIfScrapped
    split
    · rfl
    · exact h.unsealed
  · have hstay : t.retireIfScrapped = t := by
      have hl' : t.lc.state ≠ 5 := by rw [h.lcState]; exact hl
      simp [State.retireIfScrapped, hl']
    rw [hstay]
    exact h.retired hl

/-- The end of a Ceremony raises its cause while nothing is sealed. -/
theorem State.endCeremony_ended (hm : s.pwr.mode = .ceremony) : s.Ended s.endCeremony := by
  unfold State.endCeremony
  rw [if_neg (not_not_intro hm)]
  extract_lets back done mode units xl lc tg cause told
  have hmode : lc.pwr.mode = if back = true then .quarantine else .standby := rfl
  have hlc : s.Ended lc := by
    refine ⟨⟨.refl _, rfl, rfl, rfl, rfl, .of_eq rfl⟩, ?_, fun _ => ?_⟩
    · rw [State.sealing, hmode]
      cases back with
      | true => rfl
      | false => rfl
    · rw [hmode]
      cases back with
      | true => exact nofun
      | false => exact nofun
  have htg : s.Ended tg := by
    unfold tg
    split
    · exact hlc
    · exact hlc.guarded ⟨⟨⟨_, _, _, _, _, rfl⟩, rfl, rfl, rfl, rfl, .of_eq rfl⟩, rfl, rfl⟩
  have hcause : s.Ended cause := by
    unfold cause
    split
    · exact htg.guarded (tg.raiseCause_guarded htg.unsealed _)
    · exact htg
  have htold : s.Ended told := by
    unfold told
    split
    · exact hcause.guarded (State.Guarded.foldl (fun u m => u.sendMember_guarded m 3 0x05 []) _ cause)
    · exact hcause
  exact htold.retireIfScrapped

theorem State.endCeremony_kept (s : State) : s.Kept s.endCeremony := by
  by_cases hm : s.pwr.mode = .ceremony
  · exact (State.endCeremony_ended hm).toKept
  · have hsame : s.endCeremony = s := by simp only [State.endCeremony, ne_eq, hm, not_false_eq_true, if_true]
    rw [hsame]
    exact (State.Guarded.refl s).toKept

/-! ### Alarms -/

/-- What an alarm or a warning leaves first: when the source was outside its range, and the latches. -/
def State.alarmed (k : Nat) (s : State) : State := ((s.leftRange k).latch .tgAlarm (2 ^ k)).latch .alarmsSeen (2 ^ k)

/-- The latches of an alarm, as the statements name them. -/
def State.Seen (k : Nat) (t : State) : Prop :=
  (t.latched .tgAlarm .maker).testBit k = true ∧ (t.latched .alarmsSeen .regulator).testBit k = true

theorem State.Seen.keeps {k : Nat} (h : s.Seen k) (hl : s.Latching t) : t.Seen k :=
  ⟨hl.stands _ _ _ h.1, hl.stands _ _ _ h.2⟩

theorem State.alarmed_seen (s : State) (k : Nat) : (s.alarmed k).Seen k := by
  have hmaker : Viewer.maker ∈ (s.leftRange k).rcViewers .tgAlarm := List.mem_cons_of_mem _ (List.mem_singleton.mpr rfl)
  have hregulator : Viewer.regulator ∈ ((s.leftRange k).latch .tgAlarm (2 ^ k)).rcViewers .alarmsSeen :=
    List.mem_append_right _ (List.mem_cons_self ..)
  exact ⟨State.testBit_latch_keeps (State.testBit_latch hmaker (Nat.testBit_two_pow_self ..)),
    State.testBit_latch hregulator (Nat.testBit_two_pow_self ..)⟩

/-- An alarm while no window is open. -/
theorem State.alarm_eq {m k : Nat} (hk : sourceOf m = some k) (hw : s.tg.window = none) : s.alarm m =
    if s.isErase k then (if s.tg.erased then (s.alarmed k).postErase k else (s.alarmed k).joinWindow m k true).enterQuarantine
    else (if s.tg.erased then (s.alarmed k).postErase k else (s.alarmed k).joinWindow m k false).holdAction k := by
  have hexpire : s.expireWindow = s := by simp only [State.expireWindow, hw]
  have hnone : (s.alarmed k).tg.window = none := hw
  have herased : (s.alarmed k).tg.erased = s.tg.erased := rfl
  simp only [State.alarm, hk, hexpire]
  rw [← State.alarmed]
  simp only [hnone, herased, decide_true, Bool.true_and]
  cases s.isErase k with
  | true => rfl
  | false => rfl

/-- The window that an alarm opens (R379). -/
theorem State.joinWindow_opens {m k : Nat} {e : Bool} (hw : s.tg.window = none) : s.joinWindow m k e = { s with tg := { s.tg with
    window := some { sources := 2 ^ k, first := m, count := 1, perSource := [(k, 1)], erase := e, time := s.stamp, start := s.clock } } } := by
  simp only [State.joinWindow, hw]
  rfl

section Armed

variable {m : MonitorReading} {k : Nat} (hp : s.powered = true) (ha : s.monitorArmed m.monitor = true)
  (hk : sourceOf m.monitor = some k) (ho : s.outputs m = true)
include hp ha hk ho

theorem exec_eraseAlarm_armed (he : s.isErase k = true) : exec (.eraseAlarm m) s = .next (s.alarm m.monitor) := by
  simp [exec, execEraseAlarm, State.monitorErases, State.alarmIfArmed, hp, ha, hk, ho, he]

theorem exec_holdAlarm_armed (he : s.isErase k = false) : exec (.holdAlarm m) s = .next (s.alarm m.monitor) := by
  simp [exec, execHoldAlarm, State.monitorErases, State.alarmIfArmed, hp, ha, hk, ho, he]

omit hk in
theorem exec_postEraseAlarm_armed (he : s.tg.erased = true) : exec (.postEraseAlarm m) s = .next (s.alarm m.monitor) := by
  simp [exec, execPostEraseAlarm, State.alarmIfArmed, hp, ha, ho, he]

end Armed


/-! ### HOLD alarms (R374) -/

/-- What a HOLD alarm marks before it acts. -/
def State.holds (k : Nat) (s : State) : State := s.onTg fun t => { t with
  holdActive := if t.holdActive.contains k then t.holdActive else k :: t.holdActive }

theorem State.mem_holds (s : State) (k : Nat) : k ∈ (s.holds k).tg.holdActive := by
  show k ∈ if s.tg.holdActive.contains k then s.tg.holdActive else k :: s.tg.holdActive
  split
  next h => exact List.contains_iff_mem.mp h
  next => exact List.mem_cons_self ..

/-- What acts on a HOLD alarm leaves the Guard, the keys and the latches (R374). -/
theorem State.holdAction_kept (s : State) (k : Nat) : (s.holds k).Kept (s.holdAction k) := by
  unfold State.holdAction
  extract_lets held
  have hheld : held = s.holds k := rfl
  rw [hheld]
  split
  next h => exact (State.endCeremony_kept _).trans (State.raiseCause_guarded (State.endCeremony_ended h).unsealed _).toKept
  next h => exact (State.raiseCause_guarded (by simp only [State.sealing, h]; rfl) _).toKept
  next h => exact (State.Guarded.refl _).toKept
  next h => exact (State.Guarded.refl _).toKept
  next hc hd hq hr =>
    cases hs : (s.holds k).sealing with
    | false => exact (State.raiseCause_guarded hs _).toKept
    | true =>
      cases hst : (s.holds k).stands .holdAlarm with
      | true =>
        have hsame : (s.holds k).raiseCause .holdAlarm = s.holds k := by
          simp only [State.raiseCause, State.raiseCauseWith, hst, if_true]
        rw [hsame]
        exact (State.Guarded.refl _).toKept
      | false =>
        have hmode : (s.holds k).Kept ((s.holds k).onPwr fun p => { p with mode := .held }) :=
          ⟨.refl _, rfl, rfl, rfl, rfl, .of_eq rfl⟩
        exact hmode.trans (State.raiseCause_holds hs hst rfl).toKept

/-- Cause HOLD_ALARM has no record of its own (R374). -/
theorem State.raiseCause_holdAlarm_recorded (hs : s.sealing = false) : s.Recorded (s.raiseCause .holdAlarm) := by
  cases hst : s.stands .holdAlarm with
  | true =>
    have hsame : s.raiseCause .holdAlarm = s := by simp only [State.raiseCause, State.raiseCauseWith, hst, if_true]
    rw [hsame]
    exact s.recorded_tg s.tg
  | false =>
    have hadd := s.addCause_recorded (c := .holdAlarm) nofun
    have hraise : s.raiseCause .holdAlarm = (s.addCause .holdAlarm).afterEvidence := by
      simp [State.raiseCause, State.raiseCauseWith, hst, State.modeAfter, hs]
    rw [hraise]
    exact hadd.trans (State.afterEvidence_recorded (hadd.sealing.trans hs))

theorem State.holdAction_sealing {k : Nat} (hm : s.pwr.mode = .service ∨ s.pwr.mode = .draw) (hst : s.stands .holdAlarm = false) :
    (s.holdAction k).pwr.mode = .held ∧ .holdAlarm ∈ (s.holdAction k).pwr.causes := by
  have haction : s.holdAction k = (s.holds k).raiseCause .holdAlarm := by
    rcases hm with hm | hm
    · simp only [State.holdAction, State.onTg, hm]
      rfl
    · simp only [State.holdAction, State.onTg, hm]
      rfl
  have hs : (s.holds k).sealing = true := by
    rcases hm with hm | hm
    · simp [State.sealing, State.holds, State.onTg, hm]
    · simp [State.sealing, State.holds, State.onTg, hm]
  rw [haction]
  exact ⟨(State.raiseCause_holds hs hst rfl).mode, ((s.holds k).raiseCause_upheld (c := .holdAlarm) nofun).2⟩

/-- In the other modes from Wake to Held the cause alone is new. -/
theorem State.holdAction_unsealed {k : Nat}
    (hm : s.pwr.mode = .wake ∨ s.pwr.mode = .selfTest ∨ s.pwr.mode = .standby ∨ s.pwr.mode = .held) :
    .holdAlarm ∈ (s.holdAction k).pwr.causes
    ∧ ∃ tg cs, s.holdAction k = { s with tg := tg, pwr := { s.pwr with causes := cs } } := by
  have haction : s.holdAction k = (s.holds k).raiseCause .holdAlarm := by
    rcases hm with hm | hm | hm | hm
    all_goals
      simp only [State.holdAction, State.onTg, hm]
      rfl
  have hs : (s.holds k).sealing = false := by
    rcases hm with hm | hm | hm | hm
    all_goals simp [State.sealing, State.holds, State.onTg, hm]
  rw [haction]
  obtain ⟨tg, cs, h⟩ := State.raiseCause_holdAlarm_recorded hs
  exact ⟨((s.holds k).raiseCause_upheld (c := .holdAlarm) nofun).2, tg, _, h⟩

/-! ### Records -/

/-- A record with its place in the log goes to the queue (R386, R387). -/
def State.Logs (s t : State) (kind code time : Nat) (data : Bytes) : Prop :=
  let body := s.evidenceBody kind code time data
  let h := Config.sha256 (0x56 :: s.evidenceHead ++ body)
  t.tg.nextSeq = s.tg.nextSeq + 1 ∧ t.tg.head = h ∧ t.tg.queue = s.tg.queue ++ [(s.tg.nextSeq, body ++ h.take 8)]

theorem State.evidence_put (hu : s.unarchived < 16320) (hq : s.tg.queue.length < 8) (kind code time : Nat) (data : Bytes)
    (e : Bool) : s.evidence kind code time data e = s.evidencePut (s.evidenceBody kind code time data) := by
  simp [State.evidence, hu, hq]

theorem State.unarchived_succ (hn : t.tg.nextSeq = s.tg.nextSeq + 1) (hm : t.tg.mark = s.tg.mark)
    (hu : s.unarchived + 1 < 16320) : t.unarchived < 16320 := by
  have hu' : s.tg.nextSeq - s.tg.mark + 1 < 16320 := hu
  show t.tg.nextSeq - t.tg.mark < 16320
  omega

/-- An EVENT is logged where the log and its queue have room. -/
theorem State.logEvent_put (hu : s.unarchived + 1 < 16320) (hq : s.tg.queue.length < 8) (code : Nat) (data : Bytes) :
    s.logEvent code data = s.evidencePut (s.evidenceBody 4 code s.stamp data) := by
  have hevent : s.event code data = s.evidencePut (s.evidenceBody 4 code s.stamp data) :=
    State.evidence_put (Nat.lt_of_succ_lt hu) hq ..
  rw [State.logEvent, hevent]
  exact State.afterEvidence_quiet (State.unarchived_succ (s := s) rfl rfl hu)

/-! ### Warnings (R370) -/

/-- What a warning leaves before its record. -/
def State.warned (k : Nat) (s : State) : State := ((s.leftRange k).latch .tgWarn (2 ^ k)).latch .warningsSeen (2 ^ k)

theorem State.warned_eq (s : State) (k : Nat) : ∃ l, s.warned k = { s.leftRange k with latches := l } := ⟨_, rfl⟩

theorem State.warned_latched (s : State) (k : Nat) : ((s.warned k).latched .tgWarn .maker).testBit k = true
    ∧ ((s.warned k).latched .warningsSeen .regulator).testBit k = true := by
  have hmaker : Viewer.maker ∈ (s.leftRange k).rcViewers .tgWarn := List.mem_cons_of_mem _ (List.mem_singleton.mpr rfl)
  have hregulator : Viewer.regulator ∈ ((s.leftRange k).latch .tgWarn (2 ^ k)).rcViewers .warningsSeen :=
    List.mem_append_right _ (List.mem_cons_self ..)
  exact ⟨State.testBit_latch_keeps (State.testBit_latch hmaker (Nat.testBit_two_pow_self ..)),
    State.testBit_latch hregulator (Nat.testBit_two_pow_self ..)⟩

/-- The record of a warning that is due, with its count since the one before. -/
def State.warningLogged (m k : Nat) (s : State) : State :=
  (s.evidencePut (s.evidenceBody 2 0 s.stamp (alarmData (2 ^ k) m (1 + mapGet 0 s.tg.warnBack k)))).onTg fun t => { t with
    warnBack := mapSet 0 t.warnBack k 0
    warnLast := mapSet none t.warnLast k (some s.clock) }

theorem State.warningRecord_due {m k : Nat} (he : s.tg.erased = false) (hw : s.tg.window = none) (hu : s.unarchived + 1 < 16320)
    (hq : s.tg.queue.length < 8) (hdue : rateDue s.tg.warnLast k s.clock = true) :
    s.warningRecord m k = s.warningLogged m k := by
  simp only [State.warningRecord, he, hw, hdue, State.evidence_put (Nat.lt_of_succ_lt hu) hq, Option.isSome_none, Bool.or_self,
    Bool.false_eq_true, if_false, if_true]
  exact State.afterEvidence_quiet (State.unarchived_succ (s := s) rfl rfl hu)

theorem State.warningRecord_counted {m k : Nat} (he : s.tg.erased = false) (hw : s.tg.window = none)
    (hdue : rateDue s.tg.warnLast k s.clock = false) : s.warningRecord m k = s.onTg fun t => { t with
      warnBack := mapSet 0 t.warnBack k (mapGet 0 t.warnBack k + 1) } := by
  simp only [State.warningRecord, he, hw, hdue, Option.isSome_none, Bool.or_self, Bool.false_eq_true, if_false]

theorem exec_monitorWarning_armed {m : MonitorReading} {k : Nat} (hp : s.powered = true) (ha : s.monitorArmed m.monitor = true)
    (hk : sourceOf m.monitor = some k) (hw : s.tg.window = none) (hwarns : warns m = true) :
    exec (.monitorWarning m) s = .next ((s.warned k).warningRecord m.monitor k) := by
  have hexpire : s.expireWindow = s := by simp only [State.expireWindow, hw]
  simp only [exec, execMonitorWarning, hk, hp, ha, hwarns, hexpire, Bool.and_self, if_true]
  rfl

/-! ### The window closes (R377, R379) -/

theorem exec_coalescingWindowClose_over {w : AlarmWindow} (hp : s.powered = true) (hw : s.tg.window = some w)
    (hc : w.start + 1000 ≤ s.clock) : exec .coalescingWindowClose s = .next s.closeAlarmWindow := by
  simp [exec, execCoalescingWindowClose, State.expireWindow, hp, hw, hc]

theorem State.sendCut_eq (s : State) (kind sources index : Nat) : ∃ o, s.sendCut kind sources index
    = { s with outbox := o, el := { s.el with transmit := false } } := by
  cases ht : s.el.transmit with
  | false =>
    refine ⟨s.outbox, ?_⟩
    have hoff : s.sendCut kind sources index = s := by simp only [State.sendCut, ht, Bool.not_false, if_true]
    rw [hoff, ← ht]
  | true =>
    have hemit (f : Bytes) (l : Nat) (n : List Nat) : ∀ u : State, ∃ o,
        n.foldl (fun s _ => s.emit (.escrowFrame l 0x43 f)) u = { u with outbox := o } := fun u =>
      List.foldlRecOn (motive := fun t : State => ∃ o, t = { u with outbox := o }) n _ ⟨_, rfl⟩ fun t ht _ _ => by
        obtain ⟨_, rfl⟩ := ht
        exact ⟨_, rfl⟩
    have hlanes (f : Bytes) : ∃ o, (List.range 4).foldl (fun s l => if bitOf s.el.rxLock l then
        (List.range 8).foldl (fun s _ => s.emit (.escrowFrame l 0x43 f)) s else s) s = { s with outbox := o } :=
      List.foldlRecOn (motive := fun t : State => ∃ o, t = { s with outbox := o }) _ _ ⟨_, rfl⟩ fun t ht l _ => by
        obtain ⟨_, rfl⟩ := ht
        split
        · obtain ⟨_, h⟩ := hemit f l (List.range 8) { s with outbox := _ }
          exact ⟨_, h⟩
        · exact ⟨_, rfl⟩
    obtain ⟨o, h⟩ := hlanes (s.cutFrame kind sources index)
    refine ⟨o, ?_⟩
    simp only [State.sendCut, ht, Bool.not_true, Bool.false_eq_true, if_false, h]
    rfl

/-- The ALARM record of an erase, and the cut (R377). -/
theorem State.closeAlarmWindow_erase {w : AlarmWindow} (hw : s.tg.window = some w) (he : w.erase = true)
    (hu : s.unarchived + 1 < 16320) : ∃ o x, s.closeAlarmWindow
      = { (s.onTg fun t => { t with window := none }).evidencePut (s.evidenceBody 1 1 w.time (alarmData w.sources w.first w.count)) with
        outbox := o, el := { s.el with transmit := x } }
      ∧ (s.pwr.mode ≠ .retired → x = false) := by
  unfold State.closeAlarmWindow
  rw [hw]
  dsimp only
  rw [if_pos he]
  have hput : (s.onTg fun t => { t with window := none }).evidence 1 1 w.time (alarmData w.sources w.first w.count) true
      = (s.onTg fun t => { t with window := none }).evidencePut (s.evidenceBody 1 1 w.time (alarmData w.sources w.first w.count)) :=
    rfl
  rw [hput]
  generalize hv : (s.onTg fun t => { t with window := none }).evidencePut
    (s.evidenceBody 1 1 w.time (alarmData w.sources w.first w.count)) = v
  have hmode : v.pwr.mode = s.pwr.mode := by rw [← hv]; rfl
  have hroom (o : List Out) (x : Bool) : ({ v with outbox := o, el := { v.el with transmit := x } } : State).afterEvidence
      = { v with outbox := o, el := { v.el with transmit := x } } := by
    rw [← hv]
    exact State.afterEvidence_quiet (State.unarchived_succ (s := s) rfl rfl hu)
  have hel : v.el = s.el := by rw [← hv]; rfl
  rw [← hel]
  by_cases hr : s.pwr.mode = .retired
  · rw [if_pos (hmode.trans hr)]
    exact ⟨v.outbox, v.el.transmit, hroom _ _, fun h => absurd hr h⟩
  · obtain ⟨o, hcut⟩ := v.sendCut_eq cutErase w.sources ((s.onTg fun t => { t with window := none }).tg.nextSeq % 16384)
    rw [if_neg (fun h => hr (hmode.symm.trans h)), hcut]
    exact ⟨o, false, hroom _ _, fun _ => rfl⟩

/-- The ALARM record of a HOLD window that is due. -/
def State.holdLogged (w : AlarmWindow) (s : State) : State :=
  (s.evidencePut (s.evidenceBody 1 2 w.time (alarmData w.sources w.first
    (w.count + ((sourcesIn w.sources).map fun k => mapGet 0 s.tg.holdBack k).sum)))).onTg fun t => { t with
      holdBack := (sourcesIn w.sources).foldl (fun m k => mapSet 0 m k 0) t.holdBack
      holdLast := (sourcesIn w.sources).foldl (fun m k => mapSet none m k (some s.clock)) t.holdLast }

theorem State.holdRecord_due {w : AlarmWindow} (hu : s.unarchived < 16320) (hq : s.tg.queue.length < 8)
    (hdue : (sourcesIn w.sources).any (fun k => rateDue s.tg.holdLast k s.clock) = true) : s.holdRecord w = s.holdLogged w := by
  unfold State.holdRecord
  extract_lets ks n logged
  have hlogged : logged = _ := State.evidence_put hu hq ..
  have hclock : logged.clock = s.clock := by rw [hlogged]; rfl
  rw [if_pos hdue, hclock, hlogged]
  rfl

theorem State.holdRecord_counted {w : AlarmWindow}
    (hdue : (sourcesIn w.sources).any (fun k => rateDue s.tg.holdLast k s.clock) = false) :
    s.holdRecord w = s.onTg fun t => { t with
      holdBack := w.perSource.foldl (fun m e => mapSet 0 m e.1 (mapGet 0 m e.1 + e.2)) t.holdBack } := by
  unfold State.holdRecord
  extract_lets ks n logged
  rw [if_neg (by rw [hdue]; exact Bool.false_ne_true)]

section HoldWindow

variable {w : AlarmWindow} (hw : s.tg.window = some w) (he : w.erase = false)
include hw he

theorem State.closeAlarmWindow_due (hu : s.unarchived + 1 < 16320) (hq : s.tg.queue.length < 8)
    (hdue : (sourcesIn w.sources).any (fun k => rateDue s.tg.holdLast k s.clock) = true) :
    s.closeAlarmWindow = (s.onTg fun t => { t with window := none }).holdLogged w := by
  simp only [State.closeAlarmWindow, hw, he, Bool.false_eq_true, if_false]
  rw [State.holdRecord_due (s := s.onTg fun t => { t with window := none }) (Nat.lt_of_succ_lt hu) hq hdue]
  exact State.afterEvidence_quiet (State.unarchived_succ (s := s) rfl rfl hu)

theorem State.closeAlarmWindow_counted (hu : s.unarchived < 16320)
    (hdue : (sourcesIn w.sources).any (fun k => rateDue s.tg.holdLast k s.clock) = false) :
    s.closeAlarmWindow = s.onTg fun t => { t with
      window := none
      holdBack := w.perSource.foldl (fun m e => mapSet 0 m e.1 (mapGet 0 m e.1 + e.2)) t.holdBack } := by
  simp only [State.closeAlarmWindow, hw, he, Bool.false_eq_true, if_false]
  rw [State.holdRecord_counted (s := s.onTg fun t => { t with window := none }) hdue]
  exact State.afterEvidence_quiet hu

end HoldWindow

theorem mapGet_foldl_set {α : Type} [DecidableEq α] {d v : α} (hv : v ≠ d) {ks : List Nat} {k : Nat} (hk : k ∈ ks)
    (m : List (Nat × α)) : mapGet d (ks.foldl (fun m k => mapSet d m k v) m) k = v := by
  have h := mapGet_foldl_mapSet (d := d) (g := fun _ => v) (fun _ => hv) (fun _ => rfl) ks m k
  rw [if_pos hk] at h
  exact h

/-! ### Takes end at an erase (R49, R81) -/

/-- In addition no take enters or leaves the In-Flight Table. -/
structure State.Emptied (s t : State) : Prop extends s.Guarded t where
  inflight : t.td.inflight = s.td.inflight

theorem State.Emptied.refl (s : State) : s.Emptied s := ⟨.refl s, rfl⟩

theorem State.Emptied.trans (h : s.Emptied t) (h' : t.Emptied u) : s.Emptied u :=
  ⟨h.toGuarded.trans h'.toGuarded, h'.inflight.trans h.inflight⟩

theorem State.Finished.emptied (h : s.Finished t) (hl : s.Latching t) : s.Emptied t := by
  refine ⟨h.guarded hl, ?_⟩
  obtain ⟨_, _, _, _, _, _, _, _, _, _, rfl⟩ := h
  rfl

theorem State.completeTake_emptied (s : State) (t : Take) (status : Status) (outcome : Nat) :
    s.Emptied (s.completeTake t status outcome) :=
  (s.completeTake_finished ..).emptied (s.completeTake_latching ..)

theorem State.refuseTake_emptied (s : State) (t : Take) (status : Status) : s.Emptied (s.refuseTake t status) := by
  have hseals (u : State) : u.Emptied u.admitSeals := by
    refine u.admitSeals_admitted.finished.emptied ?_
    obtain ⟨_, _, h⟩ := u.admitSeals_admitted
    rw [h]
    exact .of_eq rfl
  have htaken : s.Emptied (s.onTd fun x => { x with fetched := x.fetched.filter (·.id ≠ t.id) }) := ⟨s.onTd_guarded _, rfl⟩
  exact htaken.trans ((State.completeTake_emptied ..).trans (hseals _))

theorem State.fetchFrom_emptied (s : State) (k : Nat) : s.Emptied (s.fetchFrom k) := by
  have hq (u : State) (n q : Nat) (f : QPair → QPair) : u.Emptied (u.onQ n q f) := ⟨u.onHg_guarded _, rfl⟩
  have hlatch (u : State) (r : RcReg) (b : Nat) : u.Emptied (u.latch r b) := ⟨u.latch_guarded r b, rfl⟩
  have hturn (f : Hg → Hg) : s.Emptied (s.onHg f) := ⟨s.onHg_guarded f, rfl⟩
  have htd (u : State) (n : Nat) (f : List Take) : u.Emptied (u.onTd fun x => { x with nextId := n, fetched := f }) :=
    ⟨u.onTd_guarded _, rfl⟩
  unfold State.fetchFrom
  extract_lets t q p turned addr head
  split
  · exact (hturn _).trans ((hlatch ..).trans ((hlatch ..).trans (hq ..)))
  · exact (hturn _).trans ((hq ..).trans (htd ..))

/-- The fuel is too large for the equations of `emptyQueues`; the recursor is used as it is. -/
theorem State.emptyQueues_emptied (s : State) (st : Status) (fuel : Nat) : s.Emptied (State.emptyQueues st fuel s) := by
  delta State.emptyQueues
  induction fuel generalizing s with
  | zero => exact .refl s
  | succ fuel ih =>
    rw [brecOn_succ]
    generalize Nat.brecOn (motive := fun _ => State → State) fuel (State.emptyQueues._f st) = rest at ih ⊢
    delta State.emptyQueues._f
    dsimp only
    generalize s.nextPair = next
    cases next with
    | none => exact .refl s
    | some k =>
      refine (s.fetchFrom_emptied k).trans (.trans ?_ (ih _))
      split
      · exact State.refuseTake_emptied ..
      · exact .refl _

/-- Every take ends; the In-Flight Table is empty. -/
theorem State.quarantineTakes_guarded (s : State) : s.Guarded s.quarantineTakes ∧ s.quarantineTakes.td.inflight = [] := by
  unfold State.quarantineTakes
  extract_lets fetched ended gone
  have hfetched : s.Guarded fetched := .foldl (fun u t => (u.completeTake_emptied t stQuarantine 0).toGuarded) _ s
  have hended : fetched.Guarded ended := .foldl (fun u t => (u.completeTake_emptied t stQuarantine 3).toGuarded) _ fetched
  have hgone : s.Guarded gone := hfetched.trans (hended.trans (ended.onTd_guarded _))
  have hempty : gone.td.inflight = [] := rfl
  have howe (u : State) : u.Emptied (u.oweQueues stQuarantine) := ⟨u.oweQueues_guarded _, rfl⟩
  have hqueues (fuel : Nat) : gone.Emptied (if gone.fetches then gone.emptyQueues stQuarantine fuel else gone) := by
    split
    · exact gone.emptyQueues_emptied stQuarantine fuel
    · exact .refl gone
  generalize 512 * 65536 = fuel
  have hall := (hqueues fuel).trans (howe _)
  exact ⟨hgone.trans hall.toGuarded, hall.inflight.trans hempty⟩

/-! ### The erase (R375 to R377, Table 16.5) -/

/-- Engines and Lattice Units are idle, the Bank and the Sezel cores hold nothing, and no take is in flight. -/
structure State.Wiped (t : State) : Prop where
  engines : ∀ e ∈ t.li.engines, e.2.running = none
  units : ∀ e ∈ t.lh.units, e.2.running = none
  reserve : t.en.reserve = []
  inflight : t.td.inflight = []

/-- From `s` to `t` engines, Bank and takes stay, and no Lattice Unit starts. -/
structure State.Still (s t : State) : Prop where
  li : t.li = s.li
  en : t.en = s.en
  td : t.td = s.td
  units : (∀ e ∈ s.lh.units, e.2.running = none) → ∀ e ∈ t.lh.units, e.2.running = none

theorem State.Still.of_eq (hli : t.li = s.li) (hen : t.en = s.en) (htd : t.td = s.td) (hlh : t.lh = s.lh) : s.Still t :=
  ⟨hli, hen, htd, fun h => hlh ▸ h⟩

theorem State.Still.refl (s : State) : s.Still s := .of_eq rfl rfl rfl rfl

theorem State.Still.trans (h : s.Still t) (h' : t.Still u) : s.Still u :=
  ⟨h'.li.trans h.li, h'.en.trans h.en, h'.td.trans h.td, h'.units ∘ h.units⟩

theorem State.Wiped.still (h : s.Wiped) (hs : s.Still t) : t.Wiped :=
  ⟨hs.li ▸ h.engines, hs.units h.units, hs.en ▸ h.reserve, hs.td ▸ h.inflight⟩

theorem State.sendMember_still (s : State) (m vc type : Nat) (payload : Bytes) : s.Still (s.sendMember m vc type payload) := by
  have hport (p : Nat) (f : QFrame) : s.Still (s.sendPort p f) := by
    unfold State.sendPort
    dsimp only
    split
    · exact .refl s
    · split
      · exact .of_eq rfl rfl rfl rfl
      · exact .of_eq rfl rfl rfl rfl
  unfold State.sendMember
  dsimp only
  split
  · exact .of_eq rfl rfl rfl rfl
  · split
    · exact .refl s
    · exact hport _ _

theorem State.releaseUnits_still (s : State) (p : UnitUser → Bool) : s.Still (s.releaseUnits p) := by
  refine ⟨rfl, rfl, rfl, fun h e he => ?_⟩
  obtain ⟨d, hd, rfl⟩ := List.mem_map.mp he
  have hidle : d.2.running = none := h d hd
  rw [hidle]
  exact hidle

theorem State.retireIfScrapped_still (s : State) : s.Still s.retireIfScrapped := by
  unfold State.retireIfScrapped
  split
  · exact .of_eq rfl rfl rfl rfl
  · exact .refl s

theorem State.endCeremony_still (s : State) : s.Still s.endCeremony := by
  unfold State.endCeremony
  split
  · exact .refl s
  · extract_lets back done mode units xl lc tg cause told
    have hlc : s.Still lc := by
      have hmode : s.Still mode := .of_eq rfl rfl rfl rfl
      have hrest : (mode.releaseUnits (· = .anchor .importPair)).Still lc := .of_eq rfl rfl rfl rfl
      exact hmode.trans ((mode.releaseUnits_still _).trans hrest)
    have htg : s.Still tg := by
      unfold tg
      split
      · exact hlc
      · exact hlc.trans (.of_eq rfl rfl rfl rfl)
    have hsealing : tg.sealing = false := by
      have hmode : tg.pwr.mode = if back = true then .quarantine else .standby := by
        unfold tg
        split
        · rfl
        · rfl
      rw [State.sealing, hmode]
      cases back with
      | true => rfl
      | false => rfl
    have hcause : s.Still cause := by
      unfold cause
      split
      · obtain ⟨⟨_, _, h⟩, _⟩ := State.raiseCause_recorded hsealing (c := .ledgerRoot) nofun nofun nofun
        rw [h]
        exact htg.trans (.of_eq rfl rfl rfl rfl)
      · exact htg
    have htold : s.Still told := by
      unfold told
      split
      · exact hcause.trans (List.foldlRecOn (motive := cause.Still) _ _ (.refl cause)
          fun _ hu m _ => hu.trans (State.sendMember_still ..))
      · exact hcause
    exact htold.trans told.retireIfScrapped_still

theorem State.dropSession_still (s : State) : s.Still s.dropSession := by
  unfold State.dropSession
  extract_lets was closed latched pd
  have hpd : s.Still pd := by
    unfold pd latched
    split
    · exact .of_eq rfl rfl rfl rfl
    · exact .of_eq rfl rfl rfl rfl
  split
  · exact hpd.trans pd.endCeremony_still
  · exact hpd

theorem State.onPd_guarded (s : State) (f : Pd → Pd) : s.Guarded (s.onPd f) := .of_eq rfl rfl rfl rfl rfl (.of_eq rfl)

theorem State.dropSession_kept (s : State) : s.Kept s.dropSession
    ∧ (s.lc.state ≠ 5 → s.pwr.mode ≠ .retired → s.dropSession.pwr.mode ≠ .retired) := by
  unfold State.dropSession
  extract_lets was closed latched pd
  have hclosed : s.Guarded closed := .of_eq rfl rfl rfl rfl rfl (.of_eq rfl)
  have hlatched : closed.Guarded latched := by
    unfold latched
    split
    · exact closed.latch_guarded ..
    · exact .refl closed
  have hpd : s.Guarded pd := hclosed.trans (hlatched.trans (latched.onPd_guarded _))
  split
  · refine ⟨hpd.toKept.trans pd.endCeremony_kept, fun hl hm => ?_⟩
    by_cases hc : pd.pwr.mode = .ceremony
    · exact (State.endCeremony_ended hc).retired (by rw [hpd.lcState]; exact hl)
    · have hsame : pd.endCeremony = pd := by simp only [State.endCeremony, ne_eq, hc, not_false_eq_true, if_true]
      rw [hsame, hpd.mode]
      exact hm
  · exact ⟨hpd.toKept, fun _ hm => by rw [hpd.mode]; exact hm⟩


/-- The erase up to the end of the session (Table 16.5): keys, the Guard's secrets, and the compute parts. -/
def State.erasing (s : State) : State :=
  let s := s.clearKrf
  let s := s.onTg fun t => { t with rootKey := none, erased := true, reprovisioning := false,
                                    reprovisioned := false, gangwaysKeyed := [], gangwaysStopped := [],
                                    shieldPattern := t.shieldPattern + 1 }
  let s := s.rekeyShield.drawEnd none none
  let s := s.onLi fun l => { l with engines := l.engines.map fun e =>
    if e.2.running.isSome then (e.1, { e.2 with status := stQuarantine.toNat, detail := 0 }) else e }
  s.wipeCompute

/-- What is lost after the session (Tables 2.10 and 16.5), in the mode that was. -/
def State.lost (s : State) : State :=
  let s := ((((s.zeroLedger.portsDown.onXl fun x => { x with leases := [], grantLimit := [], acked := [] }).cardOff).cutReel).loseVol).loseWrm
  s.onLc fun l => { l with maint := false, rights := 0, staged := none }

/-- What `lost` leaves of a state whose session is over. -/
structure State.Lost (s t : State) : Prop where
  boot : t.pwr.bootCount = s.pwr.bootCount
  time : t.tb.deviceTime = s.tb.deviceTime
  guard : t.tg = { s.tg with reprovisionStatus := 0 }
  krf : t.krf = s.krf
  session : t.sp.session = s.sp.session
  keyed : t.el.keyed = false
  firstSeed : t.en.firstSeed = s.en.firstSeed
  reserve : t.en.reserve = s.en.reserve
  cores : t.sz.cores = s.sz.cores
  regions : t.sz.regions = []
  engines : t.li.engines = s.li.engines.map fun e => (e.1, { e.2 with owner := 0xFF, epoch := 0 })
  units : t.lh.units = s.lh.units
  inflight : t.td.inflight = s.td.inflight
  ledger : t.lg.slots = [] ∧ t.lg.rootCtr = [] ∧ t.lg.keys = []
  ports : t.xl.ports = s.xl.ports.map fun e => (e.1, { cfg := e.2.cfg })
  card : t.ch.powered = false
  latches : t.latches = s.latches

/-- What Quarantine leaves of it. -/
structure State.Quarantined (s t : State) : Prop extends s.Lost t where
  mode : t.pwr.mode = .quarantine
  cause : .eraseAlarm ∈ t.pwr.causes

theorem State.lost_krf (s : State) : s.lost.krf = s.krf := by
  simp only [State.lost, State.loseWrm, State.loseVol, State.loseVolFields, State.loseClass, State.cutReel, State.cardOff,
    State.portsDown, State.zeroLedger, State.onLc, State.onXl, State.onPd, State.onEl, State.onCh, State.onLg]

theorem State.lost_latches (s : State) : s.lost.latches = s.latches := by
  simp only [State.lost, State.loseWrm, State.loseVol, State.loseVolFields, State.loseClass, State.cutReel, State.cardOff,
    State.portsDown, State.zeroLedger, State.onLc, State.onXl, State.onPd, State.onEl, State.onCh, State.onLg]

theorem State.lost_leaves (s : State) : s.Lost s.lost :=
  ⟨rfl, rfl, rfl, s.lost_krf, rfl, rfl, rfl, rfl, rfl, rfl, rfl, rfl, rfl, ⟨rfl, rfl, rfl⟩, rfl, rfl, s.lost_latches⟩

theorem State.addCause_eq (s : State) {c : Cause} (hc : c ≠ .entropyLatch) : ∃ cs,
    s.addCause c = s.onPwr (fun p => { p with causes := cs }) ∧ c ∈ cs := by
  have hmem := s.mem_addCause c
  cases hst : s.stands c with
  | true =>
    have hsame : s.addCause c = s := by simp only [State.addCause, hst, if_true]
    rw [hsame] at hmem ⊢
    exact ⟨s.pwr.causes, rfl, hmem⟩
  | false =>
    refine ⟨s.pwr.causes ++ [c], ?_, List.mem_append_right _ (List.mem_singleton_self c)⟩
    simp only [State.addCause, hst, Bool.false_eq_true, if_false, hc]
    rfl

/-- The entry itself, from what is lost. -/
theorem State.Lost.quarantined {d : State} (h : s.Lost d) (hl : d.lc.state ≠ 5) :
    let a := if d.silentDrain then d.onHg fun h => { h with queues := [] } else d
    let b := a.onPwr fun p => { p with
      mode := .quarantine, wakeStep := max p.wakeStep 7, entering := none, ceremonyFrom := none, drain := none, s0 := some a.clock }
    s.Quarantined ((b.onEn fun e => { e with stopped := false }).addCause .eraseAlarm).retireIfScrapped := by
  extract_lets a b
  obtain ⟨q, ha⟩ : ∃ q, a = d.onHg fun h => { h with queues := q } := by
    unfold a
    split
    · exact ⟨[], rfl⟩
    · exact ⟨d.hg.queues, rfl⟩
  obtain ⟨cs, hadd, hmem⟩ := (b.onEn fun e => { e with stopped := false }).addCause_eq (c := .eraseAlarm) nofun
  have hlife : b.lc.state = d.lc.state := by
    unfold b
    rw [ha]
    rfl
  have hstay (u : State) (h : u.lc.state = b.lc.state) : u.retireIfScrapped = u := by
    have hu : u.lc.state ≠ 5 := by rw [h, hlife]; exact hl
    simp [State.retireIfScrapped, hu]
  rw [hadd, hstay ((b.onEn fun e => { e with stopped := false }).onPwr fun p => { p with causes := cs }) rfl]
  unfold b
  rw [ha]
  exact ⟨⟨h.boot, h.time, h.guard, h.krf, h.session, h.keyed, h.firstSeed, h.reserve, h.cores, h.regions, h.engines, h.units,
    h.inflight, h.ledger, h.ports, h.card, h.latches⟩, rfl, hmem⟩

theorem State.enterQuarantine_leaves (s : State) (hm : s.quarantineTakes.erasing.dropSession.pwr.mode ≠ .retired)
    (hl : s.quarantineTakes.erasing.dropSession.lc.state ≠ 5) :
    s.quarantineTakes.erasing.dropSession.Quarantined s.enterQuarantine := by
  have hlost : s.enterQuarantine = (
      let d := s.quarantineTakes.erasing.dropSession.lost
      if d.pwr.mode = .retired then d
      else
        let a := if d.silentDrain then d.onHg fun h => { h with queues := [] } else d
        let b := a.onPwr fun p => { p with
          mode := .quarantine, wakeStep := max p.wakeStep 7, entering := none, ceremonyFrom := none, drain := none, s0 := some a.clock }
        ((b.onEn fun e => { e with stopped := false }).addCause .eraseAlarm).retireIfScrapped) := rfl
  have hmode (d : State) : d.lost.pwr.mode = d.pwr.mode := rfl
  rw [hlost]
  dsimp only
  rw [if_neg (by rw [hmode]; exact hm)]
  exact (State.lost_leaves _).quarantined hl

/-- What the erase up to the end of the session leaves. -/
structure State.Scrubbed (s w : State) : Prop extends w.Cleared none, w.Wiped where
  erased : w.tg.erased = true
  gangways : w.tg.gangwaysKeyed = []
  window : w.tg.window = s.tg.window
  log : w.tg.log = s.tg.log
  unwrapped : ∀ e ∈ w.krf.handles, ∀ x, e.2 = some x → x.state ≠ .unwrapped
  time : w.tb = s.tb
  boot : w.pwr.bootCount = s.pwr.bootCount
  lcState : w.lc.state = s.lc.state
  latched : s.Latching w
  mode : w.pwr.mode = s.pwr.mode

/-- The secrets of the key register file and of the Guard go first. -/
def State.keysErased (s : State) : State :=
  (s.clearKrf.onTg fun t => { t with
    rootKey := none, erased := true, reprovisioning := false, reprovisioned := false, gangwaysKeyed := [], gangwaysStopped := []
    shieldPattern := t.shieldPattern + 1 }).rekeyShield

theorem State.keysErased_handles (s : State) : ∀ e ∈ s.keysErased.krf.handles, ∀ x, e.2 = some x →
    x.privatePart = [] ∧ x.state ≠ .unwrapped := by
  intro e he x hx
  obtain ⟨d, _, rfl⟩ := List.mem_map.mp he
  obtain ⟨k, _, rfl⟩ := Option.map_eq_some_iff.mp hx
  refine ⟨rfl, ?_⟩
  dsimp only
  split
  · exact nofun
  next h => exact h

theorem State.wipeCompute_wiped (s : State) (h : s.td.inflight = []) : s.wipeCompute.Wiped := by
  refine ⟨fun e he => ?_, fun e he => ?_, rfl, h⟩
  · obtain ⟨_, _, rfl⟩ := List.mem_map.mp he
    rfl
  · obtain ⟨_, _, rfl⟩ := List.mem_map.mp he
    rfl

theorem State.erasing_scrubbed (s : State) (h : s.td.inflight = []) : s.Scrubbed s.erasing := by
  have hdraw := s.keysErased.drawEnd_guarded none none
  have htd := s.keysErased.drawEnd_td none none
  have herasing : s.erasing = ((s.keysErased.drawEnd none none).onLi fun l => { l with engines := l.engines.map fun e =>
    if e.2.running.isSome then (e.1, { e.2 with status := stQuarantine.toNat, detail := 0 }) else e }).wipeCompute := rfl
  have hlatch : s.keysErased.latches = s.latches := rfl
  have hhandles := s.keysErased_handles
  have hjournal : s.keysErased.krf.journal = none := rfl
  rw [herasing]
  generalize s.keysErased.drawEnd none none = k at hdraw htd ⊢
  have hkept : s.tg.log = s.keysErased.tg.log ∧ s.tg.window = s.keysErased.tg.window := ⟨rfl, rfl⟩
  have herased : s.keysErased.tg.erased = true ∧ s.keysErased.tg.rootKey = none ∧ s.keysErased.tg.gangwaysKeyed = [] :=
    ⟨rfl, rfl, rfl⟩
  obtain ⟨_, _, _, _, _, htg⟩ := hdraw.tg
  have hwiped := (k.onLi fun l => { l with engines := l.engines.map fun e =>
    if e.2.running.isSome then (e.1, { e.2 with status := stQuarantine.toNat, detail := 0 }) else e }).wipeCompute_wiped
    ((congrArg Td.inflight htd).trans h)
  refine { toCleared := ⟨?_, ?_, ?_, rfl, rfl⟩, toWiped := hwiped, erased := ?_, gangways := ?_, window := ?_, log := ?_,
           unwrapped := ?_, time := hdraw.time, boot := hdraw.boot, lcState := hdraw.lcState, latched := ?_, mode := hdraw.mode }
  · show k.tg.rootKey = none
    rw [htg]
    exact herased.2.1
  · show k.krf.journal = none
    rw [hdraw.krf]
    exact hjournal
  · intro e he x hx
    exact (hhandles e (hdraw.handles ▸ he) x hx).1
  · show k.tg.erased = true
    rw [htg]
    exact herased.1
  · show k.tg.gangwaysKeyed = []
    rw [htg]
    exact herased.2.2
  · show k.tg.window = s.tg.window
    rw [htg, hkept.2]
  · show k.tg.log = s.tg.log
    rw [htg, hkept.1]
  · intro e he x hx
    exact (hhandles e (hdraw.handles ▸ he) x hx).2
  · have hk : k.Latching _ := State.Latching.of_eq (t := (k.onLi fun l => { l with engines := l.engines.map fun e =>
      if e.2.running.isSome then (e.1, { e.2 with status := stQuarantine.toNat, detail := 0 }) else e }).wipeCompute) rfl
    exact (State.Latching.of_eq hlatch).trans (hdraw.latched.trans hk)

/-- What an ERASE alarm leaves (R375 to R377, Table 16.5). -/
structure State.Erased (s t : State) : Prop extends t.Wiped where
  mode : t.pwr.mode = .quarantine
  cause : .eraseAlarm ∈ t.pwr.causes
  erased : t.tg.erased = true
  rootKey : t.tg.rootKey = none
  gangways : t.tg.gangwaysKeyed = []
  window : t.tg.window = s.tg.window
  journal : t.krf.journal = none
  handles : ∀ e ∈ t.krf.handles, ∀ x, e.2 = some x → x.privatePart = [] ∧ x.state ≠ .unwrapped
  session : t.sp.session = none
  keyed : t.el.keyed = false
  firstSeed : t.en.firstSeed = false
  cores : t.sz.cores = []
  regions : t.sz.regions = []
  ledger : t.lg.slots = [] ∧ t.lg.rootCtr = [] ∧ t.lg.keys = []
  ports : ∀ p, (t.port p).state = .down
  card : t.ch.powered = false
  log : t.tg.log = s.tg.log
  time : t.tb.deviceTime = s.tb.deviceTime
  boot : t.pwr.bootCount = s.pwr.bootCount
  latched : s.Latching t

theorem State.enterQuarantine_erased (hm : s.pwr.mode ≠ .retired) (hl : s.lc.state ≠ 5) : s.Erased s.enterQuarantine := by
  obtain ⟨htakes, hempty⟩ := s.quarantineTakes_guarded
  have hscrub := State.erasing_scrubbed s.quarantineTakes hempty
  obtain ⟨hkept, hretired⟩ := s.quarantineTakes.erasing.dropSession_kept
  have hlife : s.quarantineTakes.erasing.lc.state ≠ 5 := by rw [hscrub.lcState, htakes.lcState]; exact hl
  have hmode : s.quarantineTakes.erasing.pwr.mode ≠ .retired := by rw [hscrub.mode, htakes.mode]; exact hm
  have hq := s.enterQuarantine_leaves (hretired hlife hmode) (by rw [hkept.lcState]; exact hlife)
  obtain ⟨hcleared, hsession⟩ := State.dropSession_cleared hscrub.toCleared
  have hwiped := hscrub.toWiped.still s.quarantineTakes.erasing.dropSession_still
  obtain ⟨_, _, _, _, _, htg⟩ := hkept.tg
  obtain ⟨_, _, _, _, _, htg'⟩ := htakes.tg
  generalize s.quarantineTakes.erasing.dropSession = d at *
  refine { toWiped := ⟨?_, hq.units ▸ hwiped.units, hq.reserve.trans hwiped.reserve, hq.inflight.trans hwiped.inflight⟩
           mode := hq.mode, cause := hq.cause, erased := ?_, rootKey := ?_, gangways := ?_, window := ?_
           journal := hq.krf ▸ hcleared.journal, handles := ?_, session := hq.session.trans hsession, keyed := hq.keyed
           firstSeed := hq.firstSeed.trans hcleared.firstSeed, cores := hq.cores.trans hcleared.cores, regions := hq.regions
           ledger := hq.ledger, ports := ?_, card := hq.card, log := ?_, time := ?_, boot := ?_, latched := ?_ }
  · intro e he
    rw [hq.engines] at he
    obtain ⟨g, hg, rfl⟩ := List.mem_map.mp he
    exact hwiped.engines g hg
  · rw [hq.guard, htg]
    exact hscrub.erased
  · rw [hq.guard, htg]
    exact hscrub.rootKey
  · rw [hq.guard, htg]
    exact hscrub.gangways
  · rw [hq.guard, htg]
    exact hscrub.window.trans (by rw [htg'])
  · rw [hq.krf, hkept.handles]
    exact fun e he x hx => ⟨hscrub.handles e he x hx, hscrub.unwrapped e he x hx⟩
  · intro p
    rw [State.port, hq.ports]
    exact d.portsDown_down p
  · rw [hq.guard, htg]
    exact hscrub.log.trans (by rw [htg'])
  · rw [hq.time, hkept.time, hscrub.time, htakes.time]
  · rw [hq.boot, hkept.boot, hscrub.boot, htakes.boot]
  · exact htakes.latched.trans (hscrub.latched.trans (hkept.latched.trans (.of_eq hq.latches)))

/-! ### The Vault and the gangways (R369, R378, R382, R384) -/

theorem exec_vaultModeAlarm {m : MonitorReading} {k : Nat} (hm : s.pwr.mode = .vault) (ho : s.outputs m = true)
    (ha : s.monitorArmed m.monitor = true) (hk : sourceOf m.monitor = some k) (he : s.tg.erased = false) :
    exec (.vaultModeAlarm [m]) s = .next ((s.onTg fun t => { t with rootKey := none, erased := true }).evidence 1 1 s.stamp
      (alarmData (2 ^ k) m.monitor 1) true) := by
  simp only [exec, execVaultModeAlarm, hm, if_true, List.filter_cons, ho, List.filter_nil, List.map_cons, List.map_nil,
    State.batteryAlarm, ha, he, List.filterMap_cons, hk, List.filterMap_nil, List.foldl_cons, List.foldl_nil, Nat.zero_or,
    List.length_cons, List.length_nil, Bool.false_eq_true, if_false]
  rfl

theorem exec_shieldCompare_same (hm : s.pwr.mode ≠ .dark) (hf : s.fusedOff 0 = false) :
    exec (.shieldCompare []) s = .next (s.onTg fun t => { t with shieldPattern := t.shieldPattern + 1 }) := by
  by_cases hv : s.pwr.mode = .vault
  · simp [exec, execShieldCompare, hf, hv, State.onTg, State.batteryAlarm]
  · simp [exec, execShieldCompare, hm, hf, hv, State.onTg]

theorem exec_gangwayRekeyed {g : Nat} (hg : g < 13) (hp : s.powered = true) (hw : 6 ≤ s.pwr.wakeStep)
    (hs : g ∉ s.tg.gangwaysStopped) (hk : g ∉ s.tg.gangwaysKeyed) :
    exec (.gangwayRekeyed g) s = .next (s.onTg fun t => { t with gangwaysKeyed := t.gangwaysKeyed ++ [g] }) := by
  simp [exec, execGangwayRekeyed, hg, hp, hw, hs, hk]

/-- With group GANGWAY powered the failure is the ERASE alarm of its monitor. -/
theorem exec_gangwayAuthenticationFailure_alarm {g : Nat} (hg : g < 13) (hp : s.powered = true) (hk : g ∈ s.tg.gangwaysKeyed)
    (hf : s.fusedOff 3 = false) :
    exec (.gangwayAuthenticationFailure g) s = exec (.eraseAlarm ⟨0xB000 + g, .check⟩) s := by
  have hsource : (0xB000 + g) / 4096 = 11 := by omega
  have hsrc : sourceOf (0xB000 + g) = some 3 := by simp only [sourceOf, hsource]
  have houtputs : s.outputs ⟨0xB000 + g, .check⟩ = true := by
    simp only [State.outputs, trips, hsource, Bool.true_or]
  have herases : s.monitorErases (0xB000 + g) = true := by
    simp only [State.monitorErases, hsrc, State.isErase]
    simp
  simp only [exec, execGangwayAuthenticationFailure, execEraseAlarm, hp, hf, houtputs, herases,
    List.contains_iff_mem.mpr hk, Bool.not_true, Bool.or_self, Bool.false_eq_true, Bool.and_self, if_false, if_true]

/-- With the group fused off the gangway stops (R384). -/
theorem exec_gangwayAuthenticationFailure_stop {g : Nat} (hp : s.powered = true) (hk : g ∈ s.tg.gangwaysKeyed)
    (hf : s.fusedOff 3 = true) : exec (.gangwayAuthenticationFailure g) s = .next ((s.onTg fun t => { t with
      gangwaysKeyed := t.gangwaysKeyed.filter (· ≠ g)
      gangwaysStopped := t.gangwaysStopped ++ [g] }).raiseCause .integrityStop) := by
  simp only [exec, execGangwayAuthenticationFailure, hp, hf, List.contains_iff_mem.mpr hk, Bool.not_true, Bool.or_self,
    Bool.false_eq_true, if_false, if_true]

/-! ### Archive, fuses and re-provisioning (R367, R383, R388, R391) -/

theorem exec_evidenceArchiveMarkWrite {x : BitVec 32} {st : Status} (h : Writable s v 0x9100 2 x.toNat)
    (hact : evidenceArchiveMark x.toNat (s.served v) = (t.served v, st)) (hst : st ≠ stWaits) (hc : t.sp.closing = s.sp.closing) :
    Wrote (.evidenceArchiveMarkWrite v x) s v st t :=
  State.writeNum_served (w := {}) (tenant := ownTenant) h rfl (k := 4) rfl x.isLt rfl (namedTenant_own v) rfl hact hst
    (hc.trans h.closing)

theorem exec_tamperEraseFusedWrite {x : BitVec 32} {burnt : Bool} {st : Status} (h : Writable s v 0x9000 1 x.toNat)
    (hact : tamperEraseFused x.toNat burnt (s.served v) = (t.served v, st)) (hst : st ≠ stWaits)
    (hc : t.sp.closing = s.sp.closing) : Wrote (.tamperEraseFusedWrite v ⟨x, burnt⟩) s v st t :=
  State.writeNum_served (w := { burnt := burnt }) (tenant := ownTenant) h rfl (k := 4) rfl x.isLt rfl (namedTenant_own v) rfl
    hact hst (hc.trans h.closing)

theorem exec_tamperGroupDisableWrite {x : BitVec 32} {burnt : Bool} {st : Status} (h : Writable s v 0x9000 2 x.toNat)
    (hact : tamperGroupDisable v x.toNat burnt (s.served v) = (t.served v, st)) (hst : st ≠ stWaits)
    (hc : t.sp.closing = s.sp.closing) : Wrote (.tamperGroupDisableWrite v ⟨x, burnt⟩) s v st t :=
  State.writeNum_served (w := { burnt := burnt }) (tenant := ownTenant) h rfl (k := 4) rfl x.isLt rfl (namedTenant_own v) rfl
    hact hst (hc.trans h.closing)

theorem exec_reprovision {st : Status} (h : Writable s v 0x9200 1 0x9A1E)
    (hact : reprovision 0x9A1E (s.served v) = (t.served v, st)) (hst : st ≠ stWaits) (hc : t.sp.closing = s.sp.closing) :
    Wrote (.reprovision v 0x9A1E#32) s v st t :=
  State.writeNum_served (w := {}) (tenant := ownTenant) h rfl (k := 4) rfl (by decide) rfl (namedTenant_own v) rfl hact hst
    (hc.trans h.closing)

theorem exec_evidenceHeadSignatureRead (h : Readable s v 0x9100 6) : exec (.evidenceHeadSignatureRead v) s
    = .next ((s.served v).emit (.directory v stOk s.headSignature)) := by
  have hx (o : Obj) (hb : o.type.isBytes = true) (inst : Nat) : s.objVal v o inst 0x9100 6 = .ok (.bytes s.headSignature) := by
    simp [State.objVal, State.checkedVal, hb, State.bytesVal]
  exact congrArg Host.Outcome.next (State.ask_bytes h (namedTenant_own v) rfl rfl rfl (hx _ rfl _)
    (by rw [State.headSignature, deviceSign, out_length]; decide))

/-- A change of the Guard with the EVENT it is recorded by, on the state that serves the write. -/
theorem State.served_logs (s : State) (f : Tg → Tg) (code : Nat) (data : Bytes) :
    ((s.onTg f).logEvent code data).sp.closing = s.sp.closing
    ∧ (State.onTg f (s.served v)).logEvent code data = ((s.onTg f).logEvent code data).served v :=
  State.commutes_served (f := fun s => (s.onTg f).logEvent code data) fun _ _ _ => by
    rw [State.turned_onTg, State.turned_logEvent]

/-- The EVENT that records a change of the Guard which leaves the log's place. -/
theorem State.changed_logs {f : Tg → Tg} (hu : (s.onTg f).unarchived + 1 < 16320) (hq : (f s.tg).queue = s.tg.queue)
    (hlen : s.tg.queue.length < 8) (hn : (f s.tg).nextSeq = s.tg.nextSeq) (hh : (f s.tg).head = s.tg.head) (code : Nat)
    (data : Bytes) : ∃ tg, (s.onTg f).logEvent code data = { s with tg := { f s.tg with
      queue := tg.queue, nextSeq := tg.nextSeq, head := tg.head } } ∧ s.Logs { s with tg := tg } 4 code s.stamp data := by
  refine ⟨((s.onTg f).logEvent code data).tg, ?_⟩
  have hlen' : (s.onTg f).tg.queue.length < 8 := by
    show (f s.tg).queue.length < 8
    rw [hq]
    exact hlen
  rw [State.logEvent_put hu hlen']
  refine ⟨rfl, ?_⟩
  have hbody : (s.onTg f).evidenceBody 4 code (s.onTg f).stamp data = s.evidenceBody 4 code s.stamp data := by
    simp only [State.evidenceBody, State.onTg, hn]
    rfl
  have hhead : (s.onTg f).evidenceHead = s.evidenceHead := by
    simp only [State.evidenceHead, State.onTg, hn, hh]
  rw [hbody]
  simp only [State.Logs, State.evidencePut, hhead]
  simp only [State.onTg, hn, hq, and_self]

/-- An EVENT while the log has room: the queue and the log's place alone. -/
theorem State.logEvent_appends (hu : s.unarchived + 1 < 16320) (code : Nat) (data : Bytes) : ∃ q n h x, s.logEvent code data
    = s.onTg (fun t => { t with queue := q, nextSeq := n, head := h, suppressed := x }) ∧ n ≤ s.tg.nextSeq + 1 := by
  obtain ⟨q, n, h, x, hevent, hn⟩ : ∃ q n h x, s.event code data
      = s.onTg (fun t => { t with queue := q, nextSeq := n, head := h, suppressed := x }) ∧ n ≤ s.tg.nextSeq + 1 := by
    simp only [State.event, State.evidence]
    split
    · exact ⟨_, _, _, _, rfl, Nat.le_refl _⟩
    · exact ⟨_, _, _, _, rfl, Nat.le_succ _⟩
  refine ⟨q, n, h, x, ?_, hn⟩
  rw [State.logEvent, hevent]
  refine State.afterEvidence_quiet ?_
  have hu' : s.tg.nextSeq - s.tg.mark + 1 < 16320 := hu
  show n - s.tg.mark < 16320
  omega

/-- Step 1 of R391. -/
theorem State.recordPostErase_eq (hu : s.unarchived + 1 < 16320) : ∃ tg, s.recordPostErase = { s with tg := tg }
    ∧ tg.postCount = 0 ∧ tg.mark = s.tg.mark ∧ tg.nextSeq ≤ s.tg.nextSeq + 1 := by
  unfold State.recordPostErase
  split
  next hzero => exact ⟨s.tg, rfl, hzero, rfl, Nat.le_succ _⟩
  next =>
    extract_lets data
    obtain ⟨_, _, _, _, h, hn⟩ := State.logEvent_appends (s := s.onTg fun t => { t with postSources := 0, postCount := 0 }) hu
      0x000A data
    rw [h]
    exact ⟨_, rfl, rfl, rfl, hn⟩

/-- Steps 2 to 4 of R391: the new root key, no handle, and the causes that end. -/
def State.rerooted (s : State) : State :=
  let r := s.noiseBlock.2.generate 77 32 false
  let s := r.2.onTg fun t => { t with
    rootKey := some (List.zipWith (· ^^^ ·) s.noiseBlock.1 r.1)
    erased := false
    reprovisioning := false
    reprovisioned := true
    reprovisionStatus := 1 }
  let s := s.onKrf fun k => { k with handles := [] }
  (s.clearCause .eraseAlarm).clearCause .vaultLost

theorem State.rerooted_eq (s : State) : ∃ (en : En) (pd : Pd) (c : Nat) (r : Bytes), s.rerooted = { s with
      tg := { s.tg with
        rootKey := some (List.zipWith (· ^^^ ·) (Config.sha512 (s.freeBytes 144)) r)
        erased := false
        reprovisioning := false
        reprovisioned := true
        reprovisionStatus := 1 }
      krf := { s.krf with handles := [] }
      pwr := { s.pwr with causes := (s.pwr.causes.filter (· ≠ .eraseAlarm)).filter (· ≠ .vaultLost) }
      en := en, pd := pd, freeCtr := c }
    ∧ r.length = 32 := by
  obtain ⟨en, pd, c, hdrew⟩ := State.generate_poolDrew s.noiseBlock.2 (i := 77) (by decide) 32 false
  refine ⟨en, pd, c, (s.noiseBlock.2.generate 77 32 false).1, ?_, State.generate_length ..⟩
  unfold State.rerooted
  extract_lets r keyed cleared
  have hr : r.2 = _ := hdrew
  unfold cleared keyed
  rw [hr]
  rfl

theorem exec_reprovisionComplete (hr : s.tg.reprovisioning = true) (hm : s.pwr.mode = .ceremony) (hu : s.unarchived ≤ 15360) :
    ∃ (tg : Tg) (en : En) (pd : Pd) (c : Nat) (cs : List Cause) (r : Bytes), exec .reprovisionComplete s = .next { s with
      tg := tg, krf := { s.krf with handles := [] }, pwr := { s.pwr with causes := cs }, en := en, pd := pd, freeCtr := c }
    ∧ tg.erased = false ∧ r.length = 32
    ∧ tg.rootKey = some (List.zipWith (· ^^^ ·) (Config.sha512 (s.freeBytes 144)) r) ∧ tg.reprovisionStatus = 1
    ∧ tg.reprovisioning = false ∧ tg.reprovisioned = true ∧ tg.postCount = 0
    ∧ ∀ c, c ∈ cs → c ∈ s.pwr.causes ∧ c ≠ .eraseAlarm ∧ c ≠ .vaultLost := by
  obtain ⟨tg, hpost, hcount, hmark, hseq⟩ := State.recordPostErase_eq (s := s) (by omega)
  obtain ⟨en, pd, c, r, hroot, hlen⟩ := s.recordPostErase.rerooted_eq
  have hroom : s.recordPostErase.rerooted.unarchived + 1 < 16320 := by
    have hu' : s.tg.nextSeq - s.tg.mark ≤ 15360 := hu
    rw [hroot, hpost]
    show tg.nextSeq - tg.mark + 1 < 16320
    omega
  obtain ⟨q, n, h, x, hlog, -⟩ := State.logEvent_appends hroom 0x000B (be 4 s.recordPostErase.rerooted.pwr.bootCount ++ be 4 0)
  have hexec : exec .reprovisionComplete s = .next (s.recordPostErase.rerooted.logEvent 0x000B
      (be 4 s.recordPostErase.rerooted.pwr.bootCount ++ be 4 0)) := by
    have hunfold : exec .reprovisionComplete s = .next (if !s.tg.reprovisioning then s else
      let s := s.recordPostErase.rerooted.logEvent 0x000B (be 4 s.recordPostErase.rerooted.pwr.bootCount ++ be 4 0)
      if s.pwr.mode = .standby then (s.onTg fun t => { t with reprovisioned := false }).raiseCause .ledgerRoot else s) := rfl
    have hmode : (s.recordPostErase.rerooted.logEvent 0x000B
        (be 4 s.recordPostErase.rerooted.pwr.bootCount ++ be 4 0)).pwr.mode ≠ .standby := by
      rw [hlog, hroot, hpost]
      show s.pwr.mode ≠ .standby
      rw [hm]
      decide
    rw [hunfold, hr]
    simp only [Bool.not_true, Bool.false_eq_true, if_false, hmode]
  rw [hexec, hlog, hroot, hpost]
  refine ⟨_, en, pd, c, _, r, rfl, rfl, hlen, rfl, rfl, rfl, rfl, hcount, fun c hc => ?_⟩
  simp only [List.mem_filter, decide_eq_true_eq] at hc
  exact ⟨hc.1.1, hc.1.2, hc.2⟩

/-- The state that an alarm leaves while its window opens, before it acts. -/
def State.windowOpen (m k : Nat) (e : Bool) (l : List (Nat × Nat)) (s : State) : State := { s with
  latches := l
  tg := { s.tg with
    outside := mapSet 0 s.tg.outside k s.clock
    window := some { sources := 2 ^ k, first := m, count := 1, perSource := [(k, 1)], erase := e, time := s.stamp, start := s.clock } } }

theorem State.alarmed_eq (s : State) (k : Nat) : ∃ l, s.alarmed k = { s.leftRange k with latches := l } := ⟨_, rfl⟩

theorem State.alarm_opens {m k : Nat} (hk : sourceOf m = some k) (hw : s.tg.window = none) (he : s.tg.erased = false) :
    ∃ l, State.Seen k { s with latches := l }
      ∧ (s.isErase k = true → s.alarm m = (s.windowOpen m k true l).enterQuarantine)
      ∧ (s.isErase k = false → s.alarm m = (s.windowOpen m k false l).holdAction k) := by
  have hseen := s.alarmed_seen k
  have hopen (e : Bool) := State.joinWindow_opens (s := s.alarmed k) (m := m) (k := k) (e := e) hw
  obtain ⟨l, hl⟩ := s.alarmed_eq k
  rw [State.alarm_eq hk hw, he]
  simp only [Bool.false_eq_true, if_false, hopen]
  rw [hl] at hseen ⊢
  refine ⟨l, hseen, fun h => ?_, fun h => ?_⟩
  · rw [if_pos h]
    rfl
  · rw [if_neg (by rw [h]; exact Bool.false_ne_true)]
    rfl

theorem State.holdAction_quiet {k : Nat} (hm : s.pwr.mode = .quarantine ∨ s.pwr.mode = .retired) : s.holdAction k = s.holds k := by
  rcases hm with hm | hm
  · simp only [State.holdAction, State.onTg, hm]
    rfl
  · simp only [State.holdAction, State.onTg, hm]
    rfl

/-- An alarm after an erase is counted (R381). -/
theorem State.alarm_postErase {m k : Nat} (hk : sourceOf m = some k) (hw : s.tg.window = none) (he : s.tg.erased = true)
    (hn : s.isErase k = false) (hm : s.pwr.mode = .quarantine) :
    ∃ l, State.Seen k { s with latches := l } ∧ s.alarm m = ({ s.leftRange k with latches := l }.postErase k).holds k := by
  have hseen := s.alarmed_seen k
  obtain ⟨l, hl⟩ := s.alarmed_eq k
  rw [State.alarm_eq hk hw, hn, he, if_neg Bool.false_ne_true, if_pos rfl]
  rw [hl] at hseen ⊢
  exact ⟨l, hseen, State.holdAction_quiet (.inl hm)⟩

theorem exec_holdSourceInRange_over {k : Nat} (h : mapGet 0 s.tg.outside k + 10000000 ≤ s.clock) :
    exec (.holdSourceInRange k) s = .next (s.onTg fun t => { t with holdActive := t.holdActive.filter (· ≠ k) }) := by
  simp only [exec, execHoldSourceInRange, Nat.not_lt.mpr h, if_false]

theorem exec_holdSourceInRange_early {k : Nat} (h : s.clock < mapGet 0 s.tg.outside k + 10000000) :
    exec (.holdSourceInRange k) s = .next s := by
  simp only [exec, execHoldSourceInRange, h, if_true]

theorem exec_evidenceWriteDone {seq : Nat} {b : Bytes} {q : List (Nat × Bytes)} (hq : s.tg.queue = (seq, b) :: q)
    (hm : s.pwr.mode ≠ .dark) : exec .evidenceWriteDone s = .next (s.onTg fun t => { t with
      log := mapSet [] t.log (seq % 16384) b, queue := q }) := by
  simp [exec, execEvidenceWriteDone, hq, hm]

/-- A stop of a gangway, in any mode (R384). -/
theorem State.gangwayStop_leaves (hst : s.stands .integrityStop = false) (f : Tg → Tg) : (s.onTg f).Kept ((s.onTg f).raiseCause .integrityStop)
    ∧ ((s.onTg f).raiseCause .integrityStop).krf = s.krf
    ∧ ((s.onTg f).raiseCause .integrityStop).pwr.mode = if s.pwr.mode = .service ∨ s.pwr.mode = .draw then .held else s.pwr.mode := by
  cases hs : (s.onTg f).sealing with
  | true =>
    have h := State.raiseCause_holds hs hst rfl
    have hmode : s.pwr.mode = .service ∨ s.pwr.mode = .draw := by
      simp only [State.sealing, Bool.or_eq_true, decide_eq_true_eq] at hs
      exact hs
    have hheld : (s.onTg f).Kept ((s.onTg f).onPwr fun p => { p with mode := .held }) := ⟨.refl _, rfl, rfl, rfl, rfl, .of_eq rfl⟩
    rw [if_pos hmode]
    exact ⟨hheld.trans h.toKept, h.krf, h.mode⟩
  | false =>
    have h := State.raiseCause_guarded hs .integrityStop
    have hmode : ¬(s.pwr.mode = .service ∨ s.pwr.mode = .draw) := by
      simp only [State.sealing, Bool.or_eq_false_iff, decide_eq_false_iff_not] at hs
      exact not_or.mpr hs
    rw [if_neg hmode]
    exact ⟨h.toKept, h.krf, h.mode⟩

theorem evidenceArchiveMark_moved {x : Nat} (hlow : s.tg.mark ≤ x) (hhigh : x ≤ s.tg.nextSeq) (hnone : s.tg.suppressed = 0) :
    evidenceArchiveMark x s = (s.onTg fun t => { t with mark := x }, stOk) := by
  simp [evidenceArchiveMark, Nat.not_lt.mpr hlow, Nat.not_lt.mpr hhigh, State.onTg, hnone]

/-- The suppressed count is recorded and cleared (R388). -/
theorem evidenceArchiveMark_records {x : Nat} (hlow : s.tg.mark ≤ x) (hhigh : x ≤ s.tg.nextSeq) (hsome : s.tg.suppressed ≠ 0)
    (hroom : s.tg.nextSeq - x ≤ 15360) : evidenceArchiveMark x s
      = ((s.onTg fun t => { t with mark := x, suppressed := 0 }).logEvent 0x0009 (be 4 s.tg.suppressed ++ be 4 0), stOk) := by
  unfold evidenceArchiveMark
  rw [if_neg (by simp [Nat.not_lt.mpr hlow, Nat.not_lt.mpr hhigh])]
  extract_lets marked n
  have hunarchived : marked.unarchived ≤ 15360 := hroom
  have hn : n ≠ 0 := hsome
  rw [if_pos (by simp [hunarchived, hn])]
  rfl

theorem evidenceArchiveMark_refused {x : Nat} (h : x < s.tg.mark ∨ s.tg.nextSeq < x) :
    evidenceArchiveMark x s = (s, stModeRefused) := by
  simp [evidenceArchiveMark, h]

theorem tamperEraseFused_burns {n : Nat} (hset : n &&& s.tg.eraseFused = s.tg.eraseFused) (hin : n &&& 0xFE0 = n)
    (hnew : n ≠ s.tg.eraseFused) : tamperEraseFused n true s
      = ((s.onTg fun t => { t with eraseFused := n }).logEvent 0x0008 (be 4 n ++ be 4 0), stOk) := by
  simp [tamperEraseFused, hset, hin, hnew]

theorem tamperEraseFused_fails {n : Nat} (hset : n &&& s.tg.eraseFused = s.tg.eraseFused) (hin : n &&& 0xFE0 = n)
    (hnew : n ≠ s.tg.eraseFused) : tamperEraseFused n false s = (s, stInternalFault) := by
  simp [tamperEraseFused, hset, hin, hnew]

theorem tamperEraseFused_refused {n : Nat} (h : n &&& s.tg.eraseFused ≠ s.tg.eraseFused ∨ n &&& 0xFE0 ≠ n) (burnt : Bool) :
    tamperEraseFused n burnt s = (s, stModeRefused) := by
  simp [tamperEraseFused, h]

theorem tamperGroupDisable_may {n : Nat} (hmaint : s.lc.maint = true) (hl : s.lc.state = 1 ∨ s.lc.state = 2)
    (hr : bitOf s.lc.rights 5 = true) (hn : n ≤ 255) (burnt : Bool) : tamperGroupDisable .maker n burnt s
      = if burnt then ((s.onTg fun t => { t with groupsBurnt := s.tg.groupsBurnt ||| n }).logEvent 0x0007
          (be 4 (s.tg.groupsBurnt ||| n) ++ be 4 0), stOk) else (s, stInternalFault) := by
  have hright : s.groupFuseRight = true := hr
  have hstate : ¬(s.lc.state ≠ 1 ∧ s.lc.state ≠ 2) := by omega
  cases burnt with
  | true => simp [tamperGroupDisable, hmaint, hright, Nat.not_lt.mpr hn, hstate]
  | false => simp [tamperGroupDisable, hmaint, hright, Nat.not_lt.mpr hn, hstate]

theorem tamperGroupDisable_denied {n : Nat} (h1 : s.lc.state ≠ 1) (h2 : s.lc.state ≠ 2) (burnt : Bool) :
    tamperGroupDisable .maker n burnt s = (s, stAccessDenied) := by
  simp [tamperGroupDisable, h1, h2]

section Reprovision

variable (hm : s.pwr.mode = .ceremony) (hneed : s.tg.erased = true ∨ s.stands .vaultLost = true)
include hm hneed

theorem reprovision_busy (hr : s.tg.reprovisioning = true) : reprovision 0x9A1E s = (s, stSlotBusy) := by
  have hneed' : (s.tg.erased || s.stands .vaultLost) = true := by simpa using hneed
  simp [reprovision, hm, hneed', hr]

theorem reprovision_checked (hr : s.tg.reprovisioning = false) {code : Nat} (hc : s.reprovisionCheck = some code) :
    reprovision 0x9A1E s = (s.onTg fun t => { t with reprovisionStatus := code }, stOk) := by
  have hneed' : (s.tg.erased || s.stands .vaultLost) = true := by simpa using hneed
  simp [reprovision, hm, hneed', hr, hc]

theorem reprovision_starts (hr : s.tg.reprovisioning = false) (hc : s.reprovisionCheck = none) :
    reprovision 0x9A1E s = (s.onTg fun t => { t with reprovisioning := true }, stOk) := by
  have hneed' : (s.tg.erased || s.stands .vaultLost) = true := by simpa using hneed
  simp [reprovision, hm, hneed', hr, hc]

end Reprovision

theorem State.reprovisionCheck_full (h : 15360 < s.unarchived) : s.reprovisionCheck = some 0x10 := by
  simp [State.reprovisionCheck, h]

theorem State.reprovisionCheck_time (h : s.unarchived ≤ 15360) (ht : s.tb.dtValid = false) : s.reprovisionCheck = some 0x11 := by
  simp [State.reprovisionCheck, Nat.not_lt.mpr h, ht]

theorem State.reprovisionCheck_seed (h : s.unarchived ≤ 15360) (ht : s.tb.dtValid = true) (hs : s.en.firstSeed = false) :
    s.reprovisionCheck = some 0x12 := by
  simp [State.reprovisionCheck, Nat.not_lt.mpr h, ht, hs]

theorem State.reprovisionCheck_passes (h : s.unarchived ≤ 15360) (ht : s.tb.dtValid = true) (hs : s.en.firstSeed = true) :
    s.reprovisionCheck = none := by
  simp [State.reprovisionCheck, Nat.not_lt.mpr h, ht, hs]

end Sys2Proof.Machine

open Sys2Proof Sys2Proof.Machine

/-- Settles O54, clause by clause: the equation of each command, with what `enterQuarantine_erased` and `holdAction_kept` say of
the two classes of alarm. -/
theorem tamper : Obligations.Tamper := by
  intro s hu hq logged seen opens quiet
  have hu0 : s.unarchived < 16320 := Nat.lt_of_succ_lt hu
  refine ⟨?_, ?_, fun k => ⟨exec_holdSourceInRange_over, exec_holdSourceInRange_early⟩, ?_, exec_shieldCompare_same, ?_, ?_, ?_, ?_, ?_⟩
  · intro m k hp ha hk hw
    refine ⟨fun ho he herased hmode hlife => ?_, fun ho he herased => ?_, fun ho he herased hmode => ?_, fun hwarn herased => ?_⟩
    · obtain ⟨l, hseen, halarm, -⟩ := State.alarm_opens hk hw herased
      have h := State.enterQuarantine_erased (s := s.windowOpen m.monitor k true l) hmode hlife
      refine ⟨_, exec_eraseAlarm_armed hp ha hk ho he, ?_⟩
      rw [halarm he]
      exact ⟨h.mode, h.cause, h.erased, h.rootKey, h.gangways, h.window, State.Seen.keeps (s := s.windowOpen m.monitor k true l)
        hseen h.latched, h.journal, h.handles, h.session, h.keyed, h.firstSeed, h.reserve, h.cores,
        fun e he => absurd (h.regions ▸ he) List.not_mem_nil, h.engines, h.units, h.inflight, h.ledger.1, h.ledger.2.1, h.ledger.2.2,
        h.ports, h.card, h.log, h.time, h.boot⟩
    · obtain ⟨l, hseen, -, halarm⟩ := State.alarm_opens hk hw herased
      have hkept := (s.windowOpen m.monitor k false l).holdAction_kept k
      have hmem := (s.windowOpen m.monitor k false l).mem_holds k
      obtain ⟨_, _, _, _, _, htg⟩ := hkept.tg
      refine ⟨_, exec_holdAlarm_armed hp ha hk ho he, ?_⟩
      rw [halarm he]
      refine ⟨by rw [htg]; rfl, by rw [htg]; exact hmem, State.Seen.keeps (s := (s.windowOpen m.monitor k false l).holds k) hseen
        hkept.latched, by rw [htg]; rfl, hkept.handles, fun hm hst => ?_, fun hm => ?_, fun hm => ?_⟩
      · exact State.holdAction_sealing (s := s.windowOpen m.monitor k false l) hm hst
      · obtain ⟨hcause, tg, cs, h⟩ := State.holdAction_unsealed (s := s.windowOpen m.monitor k false l) (k := k) hm
        refine ⟨hcause, ?_⟩
        rw [h]
        rfl
      · show quiet _
        rw [State.holdAction_quiet (s := s.windowOpen m.monitor k false l) hm]
        rfl
    · obtain ⟨l, hseen, halarm⟩ := State.alarm_postErase hk hw herased he hmode
      refine ⟨_, exec_postEraseAlarm_armed hp ha ho herased, ?_⟩
      rw [halarm]
      exact ⟨rfl, hseen, rfl, hw, rfl, rfl⟩
    · obtain ⟨htg, hregulator⟩ := s.warned_latched k
      obtain ⟨l, hl⟩ := s.warned_eq k
      rw [hl] at htg hregulator
      cases hdue : rateDue s.tg.warnLast k s.clock with
      | true =>
        refine ⟨(s.warned k).warningLogged m.monitor k, ?_, ?_⟩
        · rw [exec_monitorWarning_armed hp ha hk hw hwarn, hl]
          exact congrArg Host.Outcome.next (State.warningRecord_due (s := { s.leftRange k with latches := l }) herased hw hu hq hdue)
        · rw [hl]
          exact ⟨rfl, htg, hregulator, fun _ => ⟨⟨rfl, rfl, rfl⟩, mapGet_mapSet_listed _ (Option.some_ne_none _) _ _⟩, nofun⟩
      | false =>
        refine ⟨(s.warned k).onTg fun t => { t with warnBack := mapSet 0 t.warnBack k (mapGet 0 t.warnBack k + 1) }, ?_, ?_⟩
        · rw [exec_monitorWarning_armed hp ha hk hw hwarn, hl]
          exact congrArg Host.Outcome.next (State.warningRecord_counted (s := { s.leftRange k with latches := l }) herased hw hdue)
        · rw [hl]
          exact ⟨rfl, htg, hregulator, nofun, fun _ => ⟨rfl, mapGet_mapSet_listed _ (Nat.succ_ne_zero _) _ _⟩⟩
  · intro w hp hw hc
    refine ⟨_, exec_coalescingWindowClose_over hp hw hc, ?_⟩
    cases he : w.erase with
    | true =>
      obtain ⟨o, x, h, hx⟩ := State.closeAlarmWindow_erase hw he hu
      rw [h]
      exact ⟨rfl, fun _ => ⟨⟨rfl, rfl, rfl⟩, rfl, hx⟩, nofun⟩
    | false =>
      cases hdue : (sourcesIn w.sources).any fun k => rateDue s.tg.holdLast k s.clock with
      | true =>
        rw [State.closeAlarmWindow_due hw he hu hq hdue]
        exact ⟨rfl, nofun, fun _ => ⟨rfl, fun _ => ⟨⟨rfl, rfl, rfl⟩, fun k hk => mapGet_foldl_set (Option.some_ne_none _) hk _⟩,
          fun h => absurd (hdue.symm.trans h) (by decide)⟩⟩
      | false =>
        rw [State.closeAlarmWindow_counted hw he hu0 hdue]
        exact ⟨rfl, nofun, fun _ => ⟨rfl, fun h => absurd (hdue.symm.trans h) (by decide), fun _ => rfl⟩⟩
  · intro m k hm ho ha hk he
    exact ⟨_, exec_vaultModeAlarm hm ho ha hk he, rfl, rfl⟩
  · intro g hg hp
    refine ⟨fun hw hs hk => exec_gangwayRekeyed hg hp hw hs hk, fun hk hf => exec_gangwayAuthenticationFailure_alarm hg hp hk hf,
      fun hk hf hst => ?_⟩
    obtain ⟨hkept, hkrf, hmode⟩ := State.gangwayStop_leaves hst fun t => { t with
      gangwaysKeyed := t.gangwaysKeyed.filter (· ≠ g)
      gangwaysStopped := t.gangwaysStopped ++ [g] }
    obtain ⟨_, _, _, _, _, htg⟩ := hkept.tg
    refine ⟨_, exec_gangwayAuthenticationFailure_stop hp hk hf, ?_, ?_, (State.raiseCause_upheld _ (c := .integrityStop) nofun).2,
      hmode, by rw [htg]; rfl, hkrf⟩
    · rw [htg]
      exact fun h => (of_decide_eq_true (List.mem_filter.mp h).2) rfl
    · rw [htg]
      exact List.mem_append_right _ (List.mem_singleton_self g)
  · intro seq b q hqueue hm hwf
    exact ⟨_, exec_evidenceWriteDone hqueue hm, rfl, mapGet_mapSet_self _ _ _ _ ((MapWf_iff _ _).mp hwf),
      fun n hn => mapGet_mapSet_ne _ _ _ _ _ hn⟩
  · intro v
    refine ⟨fun x h => ⟨fun hlow hhigh hnone => ?_, fun hlow hhigh hsome hroom => ?_, fun hout => ?_⟩, exec_evidenceHeadSignatureRead,
      ?_, fun h hm hneed => ⟨fun hr => ?_, ?_⟩⟩
    · exact exec_evidenceArchiveMarkWrite h (evidenceArchiveMark_moved (s := s.served v) hlow hhigh hnone) (by decide) rfl
    · obtain ⟨hc, hserved⟩ := s.served_logs (v := v) (fun t => { t with mark := x.toNat, suppressed := 0 }) 0x0009
        (be 4 s.tg.suppressed ++ be 4 0)
      obtain ⟨tg, hlog, hlogs⟩ := State.changed_logs (s := s) (f := fun t => { t with mark := x.toNat, suppressed := 0 })
        (show s.tg.nextSeq - x.toNat + 1 < 16320 by omega) rfl hq rfl rfl 0x0009 (be 4 s.tg.suppressed ++ be 4 0)
      refine ⟨_, exec_evidenceArchiveMarkWrite h ((evidenceArchiveMark_records (s := s.served v) hlow hhigh hsome hroom).trans
        (congrArg (·, stOk) hserved)) (by decide) hc, ?_⟩
      rw [hlog]
      exact ⟨rfl, rfl, rfl, hlogs⟩
    · exact exec_evidenceArchiveMarkWrite h (evidenceArchiveMark_refused (s := s.served v) hout) (by decide) rfl
    · intro x n h
      refine ⟨fun hset hin hnew => ?_, fun hout burnt =>
        exec_tamperEraseFusedWrite h (tamperEraseFused_refused (s := s.served v) hout burnt) (by decide) rfl⟩
      obtain ⟨hc, hserved⟩ := s.served_logs (v := v) (fun t => { t with eraseFused := n }) 0x0008 (be 4 n ++ be 4 0)
      obtain ⟨tg, hlog, hlogs⟩ := State.changed_logs (s := s) (f := fun t => { t with eraseFused := n }) hu rfl hq rfl rfl 0x0008
        (be 4 n ++ be 4 0)
      refine ⟨_, exec_tamperEraseFusedWrite h ((tamperEraseFused_burns (s := s.served v) hset hin hnew).trans
        (congrArg (·, stOk) hserved)) (by decide) hc, ?_⟩
      rw [hlog]
      exact ⟨rfl, rfl, hlogs, exec_tamperEraseFusedWrite h (tamperEraseFused_fails (s := s.served v) hset hin hnew) (by decide) rfl⟩
    · exact exec_reprovision h (reprovision_busy (s := s.served v) hm hneed hr) (by decide) rfl
    · intro hr ends
      have hends {code : Nat} (hc : (s.served v).reprovisionCheck = some code) : ends code :=
        exec_reprovision h ((reprovision_checked (s := s.served v) hm hneed hr hc).trans rfl) (by decide) rfl
      exact ⟨fun hfull => hends (State.reprovisionCheck_full (s := s.served v) hfull),
        fun hroom ht => hends (State.reprovisionCheck_time (s := s.served v) hroom ht),
        fun hroom ht hseed => hends (State.reprovisionCheck_seed (s := s.served v) hroom ht hseed),
        fun hroom ht hseed => exec_reprovision h ((reprovision_starts (s := s.served v) hm hneed hr
          (State.reprovisionCheck_passes (s := s.served v) hroom ht hseed)).trans rfl) (by decide) rfl⟩
  · intro x n h
    refine ⟨fun hmaint hl hr hn => ?_, fun h1 h2 burnt =>
      exec_tamperGroupDisableWrite h (tamperGroupDisable_denied (s := s.served .maker) h1 h2 burnt) (by decide) rfl⟩
    have hmay := tamperGroupDisable_may (s := s.served .maker) hmaint hl hr hn
    obtain ⟨hc, hserved⟩ := s.served_logs (v := .maker) (fun t => { t with groupsBurnt := s.tg.groupsBurnt ||| n }) 0x0007
      (be 4 (s.tg.groupsBurnt ||| n) ++ be 4 0)
    obtain ⟨tg, hlog, hlogs⟩ := State.changed_logs (s := s) (f := fun t => { t with groupsBurnt := s.tg.groupsBurnt ||| n }) hu rfl hq
      rfl rfl 0x0007 (be 4 (s.tg.groupsBurnt ||| n) ++ be 4 0)
    refine ⟨_, exec_tamperGroupDisableWrite h (hmay false) (by decide) rfl, exec_tamperGroupDisableWrite h
      ((hmay true).trans (congrArg (·, stOk) hserved)) (by decide) hc, ?_⟩
    rw [hlog]
    exact ⟨rfl, rfl, rfl, hlogs⟩
  · intro hr hm hroom
    obtain ⟨tg, en, pd, c, cs, r, h, herased, hlen, hroot, hstatus, hdone, hre, hcount, hcs⟩ := exec_reprovisionComplete hr hm hroom
    exact ⟨_, r, h, rfl, herased, hlen, hroot, hstatus, hdone, hre, hcount, hcs⟩
end

