-- ==== Sys2Proof/Proofs/FleetPorts.lean ====
section
-- The whole text is compiled in one process: one proof at a time keeps it within its memory.
set_option Elab.async false
/-! LEMMAS. Ports and frames of the Crossing Links: bring-up, failures, what a frame that comes in changes, and frames
that leave (R327 to R333, R339, R345, R347). -/

namespace Sys2Proof.Machine

variable {s : State} {p : Nat}

/-! ### A port among the ports -/

theorem State.port_onPort (hw : mapWf {} s.xl.ports = true) (f : Port → Port) : (s.onPort p f).port p = f (s.port p) :=
  mapGet_mapSet_self _ _ _ _ ((MapWf_iff _ _).mp hw)

theorem State.port_onPort_ne {r : Nat} (h : r ≠ p) (f : Port → Port) : (s.onPort p f).port r = s.port r :=
  mapGet_mapSet_ne _ _ _ _ _ h

theorem State.ports_onPort (hw : mapWf {} s.xl.ports = true) (f : Port → Port) : mapWf {} (s.onPort p f).xl.ports = true :=
  (MapWf_iff _ _).mpr (((MapWf_iff _ _).mp hw).mapSet ..)

theorem State.onPort_onPort {f : Port → Port} (h : f (s.port p) ≠ {}) (g : Port → Port) :
    (s.onPort p f).onPort p g = s.onPort p fun q => g (f q) := by
  have hget : mapGet {} (mapSet {} s.xl.ports p (f (s.port p))) p = f (s.port p) := mapGet_mapSet_listed _ h _ _
  have hports : mapSet {} (mapSet {} s.xl.ports p (f (s.port p))) p
      (g (mapGet {} (mapSet {} s.xl.ports p (f (s.port p))) p)) = mapSet {} s.xl.ports p (g (f (s.port p))) := by
    rw [hget, mapSet_mapSet h]
  exact congrArg (fun m => { s with xl := { s.xl with ports := m } }) hports

/-- A change of a port depends on that port's value alone. -/
theorem State.onPort_congr {f g : Port → Port} (h : f (s.port p) = g (s.port p)) : s.onPort p f = s.onPort p g :=
  congrArg (fun q => { s with xl := { s.xl with ports := mapSet {} s.xl.ports p q } }) h

/-- The latch of a port, of which the statements speak. -/
theorem State.testBit_xlPort {bits i : Nat} (h : bits.testBit i = true) :
    ((s.latch (.xlPort p) bits).latched (.xlPort p) .maker).testBit i = true :=
  State.testBit_latch (List.mem_cons_of_mem _ (List.mem_singleton.mpr rfl)) h

/-- A port may train by its configuration and what lies outside the ports (R329). -/
theorem State.portMay_onPort (hw : mapWf {} s.xl.ports = true) {f : Port → Port} (hf : (f (s.port p)).cfg = (s.port p).cfg) :
    (s.onPort p f).portMay p = s.portMay p := by
  have hport := State.port_onPort (p := p) hw f
  have hon : ((s.onPort p f).port p).enabled = (s.port p).enabled := by simp only [Port.enabled, hport, hf]
  unfold State.portMay
  rw [hon]
  rfl

theorem State.cfg_of_portMay (h : s.portMay p = true) : (s.port p).cfg ≠ 0 := by
  intro h0
  simp [State.portMay, Port.enabled, h0] at h

/-- The port goes DOWN: it has fallen, and the latch tells where it was UP. -/
theorem State.portDown_eq (hw : mapWf {} s.xl.ports = true) : s.portDown p
    = (if (s.port p).state = .up then s.latch (.xlPort p) 2 else s).onPort p fun _ => s.fallen p := by
  obtain ⟨t, ht, l, rfl⟩ : ∃ t : State, t = (if (s.port p).state = .up then s.latch (.xlPort p) 2 else s)
      ∧ ∃ l, t = { s with latches := l } := by
    refine ⟨_, rfl, ?_⟩
    split
    · exact ⟨_, rfl⟩
    · exact ⟨_, rfl⟩
  rw [State.portDown, ← ht]
  generalize ha : ({ s with latches := l } : State) = a
  have hwa : mapWf {} a.xl.ports = true := by rw [← ha]; exact hw
  have hfallen : s.fallen p = a.fallen p := by rw [← ha]; rfl
  have hport := State.port_onPort (p := p) hwa fun q => ({ cfg := q.cfg } : Port)
  have hmay := State.portMay_onPort (p := p) hwa (f := fun q => ({ cfg := q.cfg } : Port)) rfl
  rw [hfallen]
  unfold State.startPort
  simp only [hport, hmay, State.fallen]
  by_cases h : a.portMay p = true
  · have hlisted : ({ cfg := (a.port p).cfg } : Port) ≠ {} := fun he => State.cfg_of_portMay h (congrArg Port.cfg he)
    simp only [h, decide_true, Bool.and_self, if_true]
    exact State.onPort_onPort (f := fun q => ({ cfg := q.cfg } : Port)) hlisted _
  · simp only [Bool.not_eq_true] at h
    simp only [h, Bool.and_false, Bool.false_eq_true, if_false]
    exact State.onPort_congr rfl

/-- What a port's fall leaves: the port has fallen, the others stand, and the latch tells. -/
theorem State.portDown_up (hw : mapWf {} s.xl.ports = true) (hu : (s.port p).state = .up) :
    s.portDown p = { s with xl := { s.xl with ports := (s.portDown p).xl.ports }, latches := (s.portDown p).latches }
    ∧ (s.portDown p).port p = s.fallen p ∧ ((s.portDown p).latched (.xlPort p) .maker).testBit 1 = true
    ∧ ∀ q, q ≠ p → (s.portDown p).port q = s.port q := by
  have h := State.portDown_eq (p := p) hw
  rw [if_pos hu] at h
  rw [h]
  refine ⟨rfl, State.port_onPort (s := s.latch (.xlPort p) 2) hw _, State.testBit_xlPort (s := s) rfl, fun q hq => ?_⟩
  exact State.port_onPort_ne (s := s.latch (.xlPort p) 2) hq _

/-- A failure of authentication: the latch, the counter and a record (R331). -/
theorem State.authFailed_eq (hu : s.unarchived + 1 < 16320) (claimed : Nat) : ∃ tg, s.authFailed p claimed = { s with
      latches := (s.latch (.xlPort p) 4).latches
      pd := (s.bumpFleet 0xA).pd
      tg := tg } := by
  obtain ⟨tg, h, -⟩ := State.logEvent_quiet (s := (s.latch (.xlPort p) 4).bumpFleet 0xA) hu 0x0005
    (be 1 p ++ [0] ++ be 2 claimed ++ be 4 0)
  exact ⟨tg, h⟩

theorem State.num_of_nums {t : State} (h : t.pd.nums = s.pd.nums) (index sub inst d : Nat) :
    t.num index sub inst d = s.num index sub inst d := by
  simp only [State.num, h]

theorem State.num_bumpFleet (s : State) (sub : Nat) : (s.bumpFleet sub).num 0x7800 sub 0 0 = s.num 0x7800 sub 0 0 + 1 :=
  State.num_setNum_self ..

/-- A failure of authentication and then another state of the port. -/
theorem State.authFailed_onPort (hw : mapWf {} s.xl.ports = true) (hu : s.unarchived + 1 < 16320) (claimed : Nat)
    (f : Port → Port) : ∃ t, (s.authFailed p claimed).onPort p f = t
    ∧ t = { s with
      xl := { s.xl with ports := t.xl.ports }
      latches := t.latches
      pd := { s.pd with nums := t.pd.nums }
      tg := t.tg }
    ∧ t.port p = f (s.port p) ∧ (t.latched (.xlPort p) .maker).testBit 2 = true ∧ (∀ q, q ≠ p → t.port q = s.port q)
    ∧ t.num 0x7800 0xA 0 0 = s.num 0x7800 0xA 0 0 + 1 := by
  obtain ⟨tg, h⟩ := State.authFailed_eq (p := p) hu claimed
  refine ⟨_, rfl, ?_⟩
  rw [h]
  refine ⟨rfl, ?_, State.testBit_xlPort (s := s) rfl, fun q hq => ?_,
    (State.num_of_nums (s := s.bumpFleet 0xA) rfl ..).trans (State.num_bumpFleet s 0xA)⟩
  · exact mapGet_mapSet_self _ _ _ _ ((MapWf_iff _ _).mp hw)
  · exact mapGet_mapSet_ne _ _ _ _ _ hq

/-! ### Bring-up (R329, R330) -/

theorem helloBytes_length (nonce ephemeral cert : Bytes) (fleet member : Nat) :
    (helloBytes nonce ephemeral cert fleet member).length = 448 := by
  simp [helloBytes, slice]
  omega

/-- The frame in which a port sends a HELLO, as its bytes say (R327, R330). -/
def helloFrame (member p : Nat) (b : Bytes) : Out :=
  .linkFrame p 3 1 0xFFFF member false 0 0 0 b (linkHeader
    { vc := 3, type := 1, dest := 0xFFFF, src := member, down := false, payload := b } 0 0 0 ++ b ++ List.replicate 16 0)

theorem State.sendHello_eq (s : State) (p : Nat) (sig : Bytes) : s.sendHello p sig
    = { s with outbox := s.outbox ++ [helloFrame s.memberId p ((s.port p).hello ++ slice sig 0 96)] } := rfl

/-- The lanes have locked: the port keys with a HELLO of its own. -/
theorem State.portLanesLocked (hw : mapWf {} s.xl.ports = true) (ht : (s.port p).state = .training)
    (hm : s.portMay p = true) (hd : s.serdes = true) (he : s.coreEntropyBlock = none) : ∃ t nonce d,
      let hello := helloBytes nonce (p384Point d) deviceCert s.fleetId s.memberId
      exec (.portLanesLocked p) s = .next t ∧ t = { s with
        xl := { s.xl with ports := t.xl.ports }
        en := t.en
        pd := t.pd
        freeCtr := t.freeCtr
        outbox := s.outbox ++ [helloFrame s.memberId p (hello ++ List.replicate 96 0)] }
      ∧ t.port p = { s.port p with state := .keying, since := s.clock, hello := hello, helloSigned := false, secret := d }
      ∧ hello.length = 448 ∧ ∀ q, q ≠ p → t.port q = s.port q := by
  obtain ⟨en, pd, c, hr⟩ := State.generate_poolDrew s (i := 79) (by decide) 88 false
  let d := p384Scalar ((s.generate 79 88 false).1.drop 32)
  let nonce := (s.generate 79 88 false).1
  have hfleet : (s.generate 79 88 false).2.fleetId = s.fleetId := State.num_generate s 79 88 false (by decide) (by decide) 0
  have hmember : (s.generate 79 88 false).2.memberId = s.memberId :=
    State.num_generate s 79 88 false (by decide) (by decide) 0xFFFF
  let keying := fun q : Port => { q with
    state := .keying, since := s.clock, hello := helloBytes nonce (p384Point d) deviceCert s.fleetId s.memberId
    helloSigned := false, secret := d }
  let g := (s.generate 79 88 false).2
  have hgp : g.port p = s.port p := by rw [show g = _ from hr]; rfl
  have hwg : mapWf {} g.xl.ports = true := by rw [show g = _ from hr]; exact hw
  have hport : (g.onPort p keying).port p = keying (s.port p) := (State.port_onPort hwg keying).trans (congrArg keying hgp)
  refine ⟨(g.onPort p keying).sendHello p [], nonce, d, ?_, ?_, hport, helloBytes_length .., fun q hq => ?_⟩
  · have hclock : (s.generate 79 88 false).2.clock = s.clock := by rw [hr]
    simp only [exec, execPortLanesLocked, ht, hm, hd, he, hfleet, hmember, hclock]
    rfl
  · have hm' : (g.onPort p keying).memberId = s.memberId := hmember
    rw [State.sendHello_eq, hport, hm']
    have hg : g = { s with en := en, pd := pd, freeCtr := c } := hr
    have hself : (keying (s.port p)).hello ++ slice ([] : Bytes) 0 96
        = helloBytes nonce (p384Point d) deviceCert s.fleetId s.memberId ++ List.replicate 96 0 := rfl
    rw [hself]
    clear_value g
    subst hg
    rfl
  · refine (State.port_onPort_ne (s := g) hq keying).trans ?_
    rw [show g = _ from hr]
    rfl

theorem exec_trainingTimeout (ht : (s.port p).state = .training) (h : (s.port p).since + 100000000 ≤ s.clock) :
    exec (.trainingTimeout p) s = .next (s.retryPort p) := by
  simp [exec, execTrainingTimeout, ht, h]

theorem exec_keyingTimeout (ht : (s.port p).state = .keying) (h : (s.port p).since + 5000000 ≤ s.clock) :
    exec (.keyingTimeout p) s = .next ((s.authFailed p (s.port p).partner).retryPort p) := by
  simp [exec, execKeyingTimeout, ht, h]

theorem exec_hello_refused {h : HelloFields} (ht : (s.port p).state = .keying) (hs : h.signed = true)
    (ha : s.helloAccepted h = false) : exec (.hello p h) s = .next ((s.authFailed p h.memberId).retryPort p) := by
  simp [exec, execHello, ht, hs, ha]

theorem exec_hello_unsigned {h : HelloFields} (ht : (s.port p).state = .keying) (hs : h.signed = false) :
    exec (.hello p h) s = .next (s.signHello p h) := by
  simp [exec, execHello, ht, hs]

theorem exec_hello_accepted {h : HelloFields} (ht : (s.port p).state = .keying) (hs : h.signed = true)
    (ha : s.helloAccepted h = true) (hd : (s.port p).helloSigned = true) :
    exec (.hello p h) s = .next (s.portUp p h) := by
  simp [exec, execHello, ht, hs, ha, State.signHello, hd]

theorem exec_hello_up {h : HelloFields} (ht : (s.port p).state = .up) : exec (.hello p h) s = .next (s.portDown p) := by
  simp [exec, execHello, ht]

/-- This side's HELLO goes out signed. -/
theorem State.signHello_eq (hw : mapWf {} s.xl.ports = true) (hs : (s.port p).helloSigned = false) (h : HelloFields) :
    ∃ t, s.signHello p h = t ∧ t = { s with
      xl := { s.xl with ports := t.xl.ports }
      freeCtr := s.freeCtr + 1
      outbox := s.outbox ++ [helloFrame s.memberId p ((s.port p).hello
        ++ slice (deviceSign s.freeCtr (0x4C :: s.linkHash p h)) 0 96)] }
    ∧ (∀ q, q ≠ p → t.port q = s.port q) ∧ t.port p = { s.port p with helloSigned := true, partner := h.memberId } := by
  let a := (s.takeFree 1).onPort p fun q => { q with helloSigned := true, partner := h.memberId }
  have hport : a.port p = { s.port p with helloSigned := true, partner := h.memberId } :=
    State.port_onPort (s := s.takeFree 1) hw _
  have heq : s.signHello p h = a.sendHello p (deviceSign s.freeCtr (0x4C :: s.linkHash p h)) := by
    rw [State.signHello, if_neg (by rw [hs]; exact Bool.false_ne_true)]
  have hother (q : Nat) (hq : q ≠ p) : a.port q = s.port q :=
    State.port_onPort_ne (s := s.takeFree 1) hq fun q => { q with helloSigned := true, partner := h.memberId }
  refine ⟨_, heq, ?_, hother, hport⟩
  rw [State.sendHello_eq, hport]
  rfl

/-- The port's wait after a failure ends (Table 14.4). -/
theorem exec_keyingRetry {c : Nat} (hw : mapWf {} s.xl.ports = true) (ht : (s.port p).state = .down)
    (hr : (s.port p).retryAt = some c) (hc : c ≤ s.clock) : exec (.keyingRetry p) s = .next
      (s.onPort p fun q => if s.portMay p then { q with retryAt := none, state := .training, since := s.clock }
        else { q with retryAt := none }) := by
  let calm := fun q : Port => { q with retryAt := none }
  have hport : (s.onPort p calm).port p = calm (s.port p) := State.port_onPort hw calm
  have hmay : (s.onPort p calm).portMay p = s.portMay p := State.portMay_onPort hw rfl
  have hexec : exec (.keyingRetry p) s = .next ((s.onPort p calm).startPort p) := by
    simp only [exec, execKeyingRetry, hr, if_pos hc]
    rfl
  rw [hexec, State.startPort]
  simp only [hport, hmay, calm, ht]
  by_cases h : s.portMay p = true
  · have hlisted : calm (s.port p) ≠ {} := fun he => State.cfg_of_portMay h (congrArg Port.cfg he)
    simp only [h, decide_true, Bool.and_self, if_true]
    exact congrArg Host.Outcome.next (State.onPort_onPort (f := calm) hlisted _)
  · simp only [Bool.not_eq_true] at h
    simp only [h, Bool.and_false, Bool.false_eq_true, if_false]

theorem exec_linkIdleTimeout (ht : (s.port p).state = .up) (h : (s.port p).lastFrame + 100000 ≤ s.clock) :
    exec (.linkIdleTimeout p) s = .next (s.portDown p) := by
  simp [exec, execLinkIdleTimeout, ht, h]

theorem exec_creditStallTimer {vc c : Nat} (h : mapGet none (s.port p).stalledSince vc = some c)
    (hc : c + 1000000 < s.clock) : exec (.creditStallTimer p vc) s = .next (s.latch (.xlPort p) 0x10) := by
  simp [exec, execCreditStallTimer, h, hc]

/-! ### Frames that leave (R328, R332) -/

/-- A frame leaves at once where none waits and the port holds its credits. -/
theorem State.sendPort_free {f : QFrame} (hu : (s.port p).state = .up) (hq : (s.port p).queue = [])
    (hc : frameUnits f.payload.length ≤ (s.port p).credit f.vc) : s.sendPort p f = s.transmit p f := by
  simp [State.sendPort, hu, hq, Nat.not_lt.mpr hc]

theorem State.transmit_eq (s : State) (p : Nat) (f : QFrame) : s.transmit p f = { s with
    xl := { s.xl with ports := (s.transmit p f).xl.ports }
    outbox := s.outbox ++ [s.outFrame p f.vc f.type f.dest f.src f.down f.payload] } := rfl

theorem State.sendMember_sends {m vc type up : _} {payload : Bytes} (h : s.sends m vc payload.length p up) :
    s.sendMember m vc type payload = s.transmit p
      { vc := vc, type := type, dest := m, src := s.memberId, down := !up, payload := payload } := by
  obtain ⟨hr, hu, hq, hc⟩ := h
  simp only [State.sendMember, hr]
  exact State.sendPort_free hu hq hc

theorem exec_creditTick (ht : (s.port p).state = .up) (h : (s.port p).lastSent + 10000 ≤ s.clock)
    (hq : (s.port p).queue = []) (hc : 1 ≤ (s.port p).credit 3) : exec (.creditTick p) s = .next (s.transmit p
      { vc := 3, type := 0x03, dest := 0xFFFF, src := s.memberId, down := false, payload := [] }) := by
  simp only [exec, execCreditTick, ht, h, decide_true, Bool.and_self, if_true]
  exact congrArg Host.Outcome.next (State.sendPort_free ht hq (by simpa [frameUnits] using hc))

theorem State.transmit_port (hw : mapWf {} s.xl.ports = true) (f : QFrame) :
    ((s.transmit p f).port p).txSeq = (s.port p).txSeq + 1 ∧ ((s.transmit p f).port p).lastSent = s.clock
      ∧ ((s.transmit p f).port p).state = (s.port p).state
      ∧ ∀ q, q ≠ p → (s.transmit p f).port q = s.port q := by
  have hport (g : Port → Port) (o : Out) : ((s.emit o).onPort p g).port p = g (s.port p) := State.port_onPort (s := s.emit o) hw g
  refine ⟨?_, ?_, ?_, fun q hq => ?_⟩
  · rw [State.transmit, hport]
  · rw [State.transmit, hport]
    rfl
  · rw [State.transmit, hport]
  · exact State.port_onPort_ne (s := s.emit _) hq _

/-- Sending changes ports and the outbox alone. -/
theorem State.drainPort_ported (p : Nat) : ∀ (fs : List QFrame) (s : State), ∃ m o, s.drainPort p fs
    = { s with xl := { s.xl with ports := m }, outbox := s.outbox ++ o }
  | [], s => ⟨s.xl.ports, [], by simp [State.drainPort]⟩
  | f :: fs, s => by
    unfold State.drainPort
    extract_lets q t
    obtain ⟨m, o, ht⟩ : ∃ m o, t = { s with xl := { s.xl with ports := m }, outbox := s.outbox ++ o } := by
      unfold t
      split
      · exact ⟨_, [], by rw [List.append_nil]; rfl⟩
      · exact ⟨_, _, rfl⟩
    obtain ⟨m', o', h⟩ := State.drainPort_ported p fs t
    exact ⟨m', o ++ o', by rw [h, ht, List.append_assoc]⟩

theorem State.flushPort_ported (s : State) (p : Nat) : ∃ m o, s.flushPort p
    = { s with xl := { s.xl with ports := m }, outbox := s.outbox ++ o } := by
  obtain ⟨m, o, h⟩ := State.drainPort_ported p (s.port p).queue (s.onPort p fun q => { q with queue := [] })
  refine ⟨(s.flushPort p).xl.ports, o, ?_⟩
  simp only [State.flushPort, h]
  rfl

theorem Port.listed_of_up {q : Port} (h : q.state = .up) : q ≠ {} := fun he =>
  PortState.noConfusion (h.symm.trans (congrArg Port.state he))

theorem State.flushPort_quiet (hu : (s.port p).state = .up) (hq : (s.port p).queue = []) :
    s.flushPort p = s.onPort p fun q => { q with stalledSince := [] } := by
  have hnone (l : List (Nat × Option Nat)) : l.filter (fun e => ([] : List QFrame).any fun g => g.vc = e.1) = [] := by simp
  have hlisted : ({ s.port p with queue := [] } : Port) ≠ {} := Port.listed_of_up hu
  unfold State.flushPort
  show (((s.onPort p fun q => { q with queue := [] }).drainPort p (s.port p).queue).onPort p _) = _
  rw [hq]
  simp only [State.drainPort]
  rw [State.onPort_onPort (f := fun q => { q with queue := [] }) hlisted]
  refine State.onPort_congr ?_
  rw [hnone, ← hq]

/-! ### Frames that come in (R327, R331) -/

/-- The port after a good frame has come in, where no frame waited. -/
def Port.heard (h : LinkHdr) (clock : Nat) (q : Port) : Port := { q with
  rxSeq := h.seq
  lastFrame := clock
  credits := mapSet 64 q.credits h.creditVc (min 64 (q.credit h.creditVc + h.creditCount))
  owed := mapSet 0 q.owed h.vc (mapGet 0 q.owed h.vc + frameUnits h.length) }

/-- The state after a good frame, before the frames that waited go out. -/
def State.heard (h : LinkHdr) (s : State) : State := (s.onPort h.port (Port.heard h s.clock)).onXl fun x => { x with
  memberSeen := mapSet 0 x.memberSeen h.src s.clock
  lost := x.lost.filter (· ≠ h.src) }

theorem State.frameIn_good {h : LinkHdr} (hu : (s.port h.port).state = .up) (ht : h.tagOk = true)
    (hs : h.seq = (s.port h.port).rxSeq + 1) : s.frameIn h = ((s.heard h).flushPort h.port, true) := by
  unfold State.frameIn
  dsimp only
  rw [if_neg (by simp [hu]), if_neg (by simp [ht]), if_neg (by simp [hs])]
  rfl

/-- A good frame changes the ports, when its sender was seen last, and sends frames that waited. -/
theorem State.frameIn_frame {h : LinkHdr} (hu : (s.port h.port).state = .up) (ht : h.tagOk = true)
    (hs : h.seq = (s.port h.port).rxSeq + 1) : ∃ m o, (s.frameIn h).1 = { s with
      xl := { s.xl with ports := m, memberSeen := mapSet 0 s.xl.memberSeen h.src s.clock, lost := s.xl.lost.filter (· ≠ h.src) }
      outbox := s.outbox ++ o } := by
  obtain ⟨m, o, hf⟩ := State.flushPort_ported (s.heard h) h.port
  exact ⟨m, o, by rw [State.frameIn_good hu ht hs, hf]; rfl⟩

/-- Where no frame waited, no frame goes out. -/
theorem State.frameIn_quiet {h : LinkHdr} (hu : (s.port h.port).state = .up) (ht : h.tagOk = true)
    (hs : h.seq = (s.port h.port).rxSeq + 1) (hq : (s.port h.port).queue = []) : (s.frameIn h).1 = { s with
      xl := { s.xl with
        ports := mapSet {} s.xl.ports h.port { Port.heard h s.clock (s.port h.port) with stalledSince := [] }
        memberSeen := mapSet 0 s.xl.memberSeen h.src s.clock
        lost := s.xl.lost.filter (· ≠ h.src) } } := by
  have hup : (Port.heard h s.clock (s.port h.port)).state = .up := hu
  have hheard : (s.heard h).port h.port = Port.heard h s.clock (s.port h.port) :=
    mapGet_mapSet_listed _ (Port.listed_of_up hup) _ _
  have hports : mapSet {} (s.heard h).xl.ports h.port { (s.heard h).port h.port with stalledSince := [] }
      = mapSet {} s.xl.ports h.port { Port.heard h s.clock (s.port h.port) with stalledSince := [] } := by
    rw [hheard]
    exact mapSet_mapSet (Port.listed_of_up hup) ..
  rw [State.frameIn_good hu ht hs, State.flushPort_quiet (by rw [hheard, hup]) (by rw [hheard]; exact hq)]
  exact congrArg (fun m => ({ s.heard h with xl := { (s.heard h).xl with ports := m } } : State)) hports

theorem State.frameIn_badTag {h : LinkHdr} (hu : (s.port h.port).state = .up) (ht : h.tagOk = false) :
    s.frameIn h = ((s.authFailed h.port (s.port h.port).partner).portDown h.port, false) := by
  simp [State.frameIn, hu, ht]

theorem State.frameIn_badSeq {h : LinkHdr} (hu : (s.port h.port).state = .up) (ht : h.tagOk = true)
    (hs : h.seq ≠ (s.port h.port).rxSeq + 1) : s.frameIn h = (s.portDown h.port, false) := by
  simp [State.frameIn, hu, ht, hs]

theorem State.receive_refused {h : LinkHdr} (hr : (s.frameIn h).2 = false) (type : Nat) (b : Bytes) (f : State → State) :
    s.receive h type b f = (s.frameIn h).1 := by
  simp [State.receive, hr]

/-- A frame that arrives acts. -/
theorem State.receive_arrives {h : LinkHdr} {type : Nat} (ha : Arrives s h type) (b : Bytes) (f : State → State) :
    s.receive h type b f = f (s.frameIn h).1 := by
  obtain ⟨hu, ht, hs, hv, hd⟩ := ha
  have hgood : (s.frameIn h).2 = true := by rw [State.frameIn_good hu ht hs]
  have hroute : (s.frameIn h).1.route = s.route := by
    obtain ⟨m, o, hf⟩ := State.frameIn_frame hu ht hs
    rw [hf]
    rfl
  unfold State.receive
  dsimp only
  rw [hgood, hroute, if_neg (by simp), if_neg (by simp [hv])]
  rcases hd with hd | ⟨hv, hl⟩
  · rw [if_pos hd]
  · split
    · rfl
    · simp only [hv, Bool.not_true, Bool.false_eq_true, if_false]


/-! ### Where a frame that came in goes (R327, R332, R333) -/

theorem State.receive_good {h : LinkHdr} (hu : (s.port h.port).state = .up) (ht : h.tagOk = true)
    (hs : h.seq = (s.port h.port).rxSeq + 1) {type : Nat} (hv : vcOf type = some h.vc) (hd : h.dest ≠ 0xFFFF) (b : Bytes)
    (f : State → State) : s.receive h type b f
      = let u := (s.frameIn h).1
        let e := u.route h.port h.dest
        if !e.valid then u.routeViolation h.port else if e.isLocal then f u else u.forwardFrame h type b := by
  have hgood : (s.frameIn h).2 = true := by rw [State.frameIn_good hu ht hs]
  unfold State.receive
  dsimp only
  rw [hgood, if_neg (by simp), if_neg (by simp [hv]), if_neg hd]

theorem exec_linkFrameDiscard_wrongVc {h : LinkHdr} (hu : (s.port h.port).state = .up) (ht : h.tagOk = true)
    (hs : h.seq = (s.port h.port).rxSeq + 1) {type : Nat} (hv : vcOf type ≠ some h.vc) :
    exec (.linkFrameDiscard h type) s = .next ((s.frameIn h).1.bumpFleet 0xA) := by
  have hgood : (s.frameIn h).2 = true := by rw [State.frameIn_good hu ht hs]
  simp [exec, execLinkFrameDiscard, hgood, hv]

/-- A frame for another member leaves on the port of its entry. -/
theorem State.forwardFrame_sent {h : LinkHdr} {type : Nat} {b : Bytes} {r : Route} (hr : s.route h.port h.dest = r)
    (hd : h.wentDown = false ∨ r.up = false) (hu : (s.port r.out).state = .up) (hq : (s.port r.out).queue = [])
    (hc : frameUnits b.length ≤ (s.port r.out).credit h.vc) : s.forwardFrame h type b = s.transmit r.out
      { vc := h.vc, type := type, dest := h.dest, src := h.src, down := h.wentDown || !r.up, payload := b } := by
  have hway : (h.wentDown && r.up) = false := by rcases hd with hd | hd <;> simp [hd]
  unfold State.forwardFrame
  dsimp only
  rw [hr, hway, if_neg Bool.false_ne_true]
  exact State.sendPort_free hu hq hc

theorem State.forwardFrame_violates {h : LinkHdr} {type : Nat} {b : Bytes} (hw : h.wentDown = true)
    (hr : (s.route h.port h.dest).up = true) : s.forwardFrame h type b = s.routeViolation h.port := by
  simp [State.forwardFrame, hw, hr]

/-! ### Requests and responses (R328) -/

/-- Originating a frame changes ports, a latch, a counter and the outbox alone. -/
theorem State.sendMember_sent (s : State) (m vc type : Nat) (b : Bytes) : ∃ ports l nums o, s.sendMember m vc type b = { s with
    xl := { s.xl with ports := ports }, latches := l, pd := { s.pd with nums := nums }, outbox := s.outbox ++ o } := by
  have hport (p : Nat) (f : QFrame) : ∃ ports l nums o, s.sendPort p f = { s with
      xl := { s.xl with ports := ports }, latches := l, pd := { s.pd with nums := nums }, outbox := s.outbox ++ o } := by
    unfold State.sendPort
    dsimp only
    split
    · exact ⟨_, _, _, [], by rw [List.append_nil]⟩
    · split
      · exact ⟨_, _, _, [], by rw [List.append_nil]; rfl⟩
      · exact ⟨_, _, _, _, rfl⟩
  unfold State.sendMember
  dsimp only
  split
  · exact ⟨_, _, _, [], by rw [List.append_nil]; rfl⟩
  · split
    · exact ⟨_, _, _, [], by rw [List.append_nil]⟩
    · exact hport _ _

theorem State.asRequest_fresh {h : LinkHdr} (hf : s.fresh h) (f : State → State) : s.asRequest h f = f s := by
  have hnone : s.xl.answered.find? (fun a => a.src = h.src && a.reqId = h.reqId) = none := by
    rw [List.find?_eq_none]
    intro a ha
    simpa using hf a ha
  simp only [State.asRequest, hnone]

theorem State.asRequest_answered {h : LinkHdr} {a : Answer}
    (hf : s.xl.answered.find? (fun a => a.src = h.src && a.reqId = h.reqId) = some a) (f : State → State) :
    s.asRequest h f = s.sendMember h.src 1 a.type a.payload := by
  simp only [State.asRequest, hf]

theorem State.takeRequest_asked {h : LinkHdr} {type : Nat} {r : LinkReq} (ha : s.asked h type r) :
    s.takeRequest h type = some (r, { s with xl := { s.xl with
      requests := s.xl.requests.filter fun q => q.reqId ≠ h.reqId } }) := by
  have hid : r.reqId = h.reqId := by
    have hfound := List.find?_some ha
    simp only [Bool.and_eq_true, decide_eq_true_eq] at hfound
    exact hfound.1.1
  have ha' : s.xl.requests.find? (fun r => r.reqId = h.reqId && r.dest = h.src && r.type = type) = some r := ha
  simp only [State.takeRequest, ha', Option.map_some, hid]
  rfl

/-- A frame that arrives finds the state of before, but for its port, when its sender was seen and frames that waited. -/
theorem State.frameIn_arrives {h : LinkHdr} {type : Nat} (ha : Arrives s h type) : ∃ m o, (s.frameIn h).1 = { s with
      xl := { s.xl with ports := m, memberSeen := mapSet 0 s.xl.memberSeen h.src s.clock, lost := s.xl.lost.filter (· ≠ h.src) }
      outbox := s.outbox ++ o } := by
  obtain ⟨hu, ht, hs, -⟩ := ha
  exact State.frameIn_frame hu ht hs

/-- A peer's request of the Directory is run and answered (R345). -/
theorem exec_dirReq {h : LinkHdr} {b : Bytes} {y : State × DirReq × Bool} (ha : Arrives s h 0x12) (hd : s.dirFree)
    (hf : s.fresh h)
    (hy : ((s.frameIn h).1.served (.peer h.port)).runEntries {} (parseRequest (.peer h.port) (.peer h) 4088 b).entries
      (parseRequest (.peer h.port) (.peer h) 4088 b) = y) (hw : y.2.2 = false) (hc : y.1.sp.closing = false) :
    exec (.dirReq h b) s = .next (y.1.respond h 0x22 y.2.1.response) := by
  obtain ⟨m, o, hu⟩ := State.frameIn_arrives ha
  obtain ⟨hk, hv⟩ := parseRequest_sink (.peer h.port) (.peer h) 4088 b
  have hdu : (s.frameIn h).1.dirFree := by rw [hu]; exact hd
  have hfu : (s.frameIn h).1.fresh h := by rw [hu]; exact hf
  have hsink : y.2.1.sink = .peer h := by
    rw [← hy]
    exact (State.runEntries_keeps {} _ _ _).1.trans hk
  have hstay : (y.1.respond h 0x22 y.2.1.response).sp.closing = false := by
    obtain ⟨ports, l, nums, o, hsent⟩ := State.sendMember_sent (y.1.onXl fun x => { x with answered := x.answered
      ++ [{ src := h.src, reqId := h.reqId, type := 0x22, payload := be 8 h.reqId ++ y.2.1.response }] }) h.src 1 0x22
      (be 8 h.reqId ++ y.2.1.response)
    rw [State.respond, hsent]
    exact hc
  have hrun := State.submit_runs (w := {}) (r := parseRequest (.peer h.port) (.peer h) 4088 b) (y := y) hdu
    (by rw [hv]; exact hy) hw
  have hexec : exec (.dirReq h b) s = .next ((s.frameIn h).1.submit {} (parseRequest (.peer h.port) (.peer h) 4088 b)) := by
    simp only [exec, execDirReq]
    rw [State.receive_arrives ha, State.asRequest_fresh hfu]
  rw [hexec, hrun, State.finishReq, State.respondReq, hsink]
  exact congrArg Host.Outcome.next (State.spClose_id hstay)

theorem exec_dirReq_again {h : LinkHdr} {b : Bytes} {a : Answer} (ha : Arrives s h 0x12)
    (hf : (s.frameIn h).1.xl.answered.find? (fun a => a.src = h.src && a.reqId = h.reqId) = some a) :
    exec (.dirReq h b) s = .next ((s.frameIn h).1.sendMember h.src 1 a.type a.payload) := by
  simp only [exec, execDirReq]
  rw [State.receive_arrives ha, State.asRequest_answered hf]

theorem exec_dirResp {h : LinkHdr} {b : Bytes} {r : LinkReq} (ha : Arrives s h 0x22)
    (hr : (s.frameIn h).1.asked h 0x12 r) : exec (.dirResp h b) s = .next (State.emit (.directory (.peer h.port) stOk b)
      { (s.frameIn h).1 with xl := { (s.frameIn h).1.xl with
        requests := (s.frameIn h).1.xl.requests.filter fun q => q.reqId ≠ h.reqId } }) := by
  simp only [exec, execDirResp]
  rw [State.receive_arrives ha]
  simp only [State.takeRequest_asked hr]

/-- A request without its response is sent again after 1 ms. -/
theorem exec_linkRequestResend {id : Nat} {r : LinkReq} {up : Bool}
    (hr : s.xl.requests.find? (fun r => r.reqId = id) = some r) (hc : r.sent + 1000000 ≤ s.clock)
    (hs : s.sends r.dest 0 r.payload.length p up) : exec (.linkRequestResend id) s = .next
      ((s.onXl fun x => { x with requests := x.requests.map fun q =>
          if q.reqId = id then { q with sent := s.clock } else q }).transmit p
        { vc := 0, type := r.type, dest := r.dest, src := s.memberId, down := !up, payload := r.payload }) := by
  simp only [exec, execLinkRequestResend, hr, if_pos hc]
  exact congrArg Host.Outcome.next (State.sendMember_sends (s := s.onXl _) hs)

theorem exec_heartbeatTick (he : s.fleetEnable = true) (hc : s.xl.lastHeartbeat + 500000 ≤ s.clock) :
    exec .heartbeatTick s = .next (s.partners.foldl (fun s m => State.sendMember m 3 0x02 [] s)
      (s.onXl fun x => { x with lastHeartbeat := s.clock })) := by
  simp only [exec, execHeartbeatTick, he, hc, decide_true, Bool.and_self, if_true]
  rfl


/-! ### Objects that act on the ports (R347) -/

/-- `t` is `s` but for its ports and latches. -/
structure State.Ported (s t : State) : Prop where
  wf : mapWf {} t.xl.ports = true
  same : t = { s with xl := { s.xl with ports := t.xl.ports }, latches := t.latches }

theorem State.Ported.refl (hw : mapWf {} s.xl.ports = true) : s.Ported s := ⟨hw, rfl⟩

theorem State.Ported.trans {t u : State} (h : s.Ported t) (h' : t.Ported u) : s.Ported u := by
  refine ⟨h'.wf, h'.same.trans ?_⟩
  rw [h.same]

/-- A port may train, and falls, by itself and what lies outside the ports. -/
theorem State.Ported.portMay {t : State} (h : s.Ported t) (hp : (t.port p).cfg = (s.port p).cfg) :
    t.portMay p = s.portMay p := by
  have hon : (t.port p).enabled = (s.port p).enabled := by simp only [Port.enabled, hp]
  unfold State.portMay
  rw [hon, h.same]
  rfl

theorem State.Ported.fallen {t : State} (h : s.Ported t) (hp : t.port p = s.port p) : t.fallen p = s.fallen p := by
  have hclock : t.clock = s.clock := by rw [h.same]
  simp only [State.fallen, h.portMay (p := p) (by rw [hp]), hp, hclock]

/-- One step per port, each of which turns its own port into what `F` says: so every port of the list becomes. -/
theorem State.Ported.foldl {g : State → Nat → State} {F : State → Nat → Port}
    (hg : ∀ t p, mapWf {} t.xl.ports = true → t.Ported (g t p) ∧ (g t p).port p = F t p ∧ ∀ q, q ≠ p → (g t p).port q = t.port q)
    (hF : ∀ t u p, State.Ported t u → u.port p = t.port p → F u p = F t p) :
    ∀ (l : List Nat) (s : State), mapWf {} s.xl.ports = true → l.Nodup → s.Ported (l.foldl g s)
      ∧ (∀ p ∈ l, (l.foldl g s).port p = F s p) ∧ ∀ p, p ∉ l → (l.foldl g s).port p = s.port p
  | [], s, hw, _ => ⟨.refl hw, fun _ h => absurd h List.not_mem_nil, fun _ _ => rfl⟩
  | p :: ps, s, hw, hn => by
    obtain ⟨hp, hps⟩ := List.nodup_cons.mp hn
    obtain ⟨hstep, hself, hother⟩ := hg s p hw
    obtain ⟨hrest, hin, hout⟩ := State.Ported.foldl hg hF ps (g s p) hstep.wf hps
    refine ⟨hstep.trans hrest, fun q hq => ?_, fun q hq => ?_⟩
    · rcases List.mem_cons.mp hq with rfl | hq
      · exact (hout q hp).trans hself
      · have hne : q ≠ p := fun he => hp (he ▸ hq)
        exact (hin q hq).trans (hF s _ q hstep (hother q hne))
    · rw [List.mem_cons, not_or] at hq
      obtain ⟨hne, hq⟩ := hq
      exact (hout q hq).trans (hother q hne)

theorem State.portDown_ported (hw : mapWf {} s.xl.ports = true) (p : Nat) : s.Ported (s.portDown p)
    ∧ (s.portDown p).port p = s.fallen p ∧ ∀ q, q ≠ p → (s.portDown p).port q = s.port q := by
  rw [State.portDown_eq hw]
  split
  · exact ⟨⟨State.ports_onPort (s := s.latch (.xlPort p) 2) hw _, rfl⟩, State.port_onPort (s := s.latch (.xlPort p) 2) hw _,
      fun q hq => State.port_onPort_ne (s := s.latch (.xlPort p) 2) hq _⟩
  · exact ⟨⟨State.ports_onPort hw _, rfl⟩, State.port_onPort hw _, fun q hq => State.port_onPort_ne hq _⟩

theorem State.startPort_ported (hw : mapWf {} s.xl.ports = true) (p : Nat) : s.Ported (s.startPort p)
    ∧ (s.startPort p).port p = (if (s.port p).state = .down && (s.port p).retryAt = none && s.portMay p then
        { s.port p with state := .training, since := s.clock } else s.port p)
    ∧ ∀ q, q ≠ p → (s.startPort p).port q = s.port q := by
  unfold State.startPort
  dsimp only
  split
  · exact ⟨⟨State.ports_onPort hw _, rfl⟩, State.port_onPort hw _, fun q hq => State.port_onPort_ne hq _⟩
  · exact ⟨.refl hw, rfl, fun _ _ => rfl⟩

theorem State.startPort_latches (s : State) (p : Nat) : (s.startPort p).latches = s.latches := by
  unfold State.startPort
  dsimp only
  split
  · rfl
  · rfl

theorem ports_nodup : ([0, 1, 2, 3] : List Nat).Nodup := by decide

theorem mem_ports (hp : p < 4) : p ∈ [0, 1, 2, 3] := by
  simp only [List.mem_cons, List.not_mem_nil, or_false]
  omega

/-- The ports that may train start (R329). -/
theorem State.startPorts_eq (hw : mapWf {} s.xl.ports = true) :
    s.startPorts = { s with xl := { s.xl with ports := s.startPorts.xl.ports } }
    ∧ ∀ p < 4, (s.port p).state = .down → (s.port p).retryAt = none →
      (s.startPorts.port p).state = if s.startPorts.portMay p then .training else .down := by
  obtain ⟨hported, hin, -⟩ := State.Ported.foldl (g := fun s p => s.startPort p) (fun t p hwt => t.startPort_ported hwt p)
    (fun t u p htu hp => by
      have hclock : u.clock = t.clock := by rw [htu.same]
      simp only [hp, htu.portMay (p := p) (by rw [hp]), hclock]) [0, 1, 2, 3] s hw ports_nodup
  have hlatches : s.startPorts.latches = s.latches := by
    simp only [State.startPorts, List.foldl_cons, List.foldl_nil, State.startPort_latches]
  refine ⟨?_, fun p hp hd hr => ?_⟩
  · refine hported.same.trans ?_
    rw [show (List.foldl _ s _).latches = s.latches from hlatches]
    rfl
  · have hport : s.startPorts.port p = _ := hin p (mem_ports hp)
    have hcfg : (s.startPorts.port p).cfg = (s.port p).cfg := by
      rw [hport]
      split
      · rfl
      · rfl
    rw [State.Ported.portMay (t := s.startPorts) hported hcfg, hport, hd, hr]
    cases s.portMay p
    · simpa using hd
    · rfl

/-- A port with the member goes DOWN (R347). -/
def State.dropMember (m : Nat) (s : State) (p : Nat) : State :=
  if (s.port p).state = .up && (s.port p).partner = m then s.portDown p else s

theorem State.dropMembers_eq (hw : mapWf {} s.xl.ports = true) (m : Nat) :
    s.Ported ([0, 1, 2, 3].foldl (State.dropMember m) s)
    ∧ ∀ p < 4, ([0, 1, 2, 3].foldl (State.dropMember m) s).port p
      = if (s.port p).state = .up && (s.port p).partner = m then s.fallen p else s.port p := by
  obtain ⟨hported, hin, -⟩ := State.Ported.foldl (g := State.dropMember m)
    (F := fun t p => if (t.port p).state = .up && (t.port p).partner = m then t.fallen p else t.port p)
    (fun t p hwt => by
      unfold State.dropMember
      split
      · exact t.portDown_ported hwt p
      · exact ⟨.refl hwt, rfl, fun _ _ => rfl⟩)
    (fun t u p htu hp => by
      rw [hp, htu.fallen hp]) [0, 1, 2, 3] s hw ports_nodup
  exact ⟨hported, fun p hp => hin p (mem_ports hp)⟩

/-- A port that is not DOWN goes DOWN (R331). -/
def State.stopPort (s : State) (p : Nat) : State := if (s.port p).state = .down then s else s.portDown p

theorem State.stopPorts_eq (hw : mapWf {} s.xl.ports = true) : s.Ported ([0, 1, 2, 3].foldl State.stopPort s)
    ∧ ∀ p < 4, ([0, 1, 2, 3].foldl State.stopPort s).port p = if (s.port p).state = .down then s.port p else s.fallen p := by
  obtain ⟨hported, hin, -⟩ := State.Ported.foldl (g := State.stopPort)
    (F := fun t p => if (t.port p).state = .down then t.port p else t.fallen p)
    (fun t p hwt => by
      unfold State.stopPort
      split
      · exact ⟨.refl hwt, rfl, fun _ _ => rfl⟩
      · exact t.portDown_ported hwt p)
    (fun t u p htu hp => by
      rw [hp, htu.fallen hp]) [0, 1, 2, 3] s hw ports_nodup
  exact ⟨hported, fun p hp => hin p (mem_ports hp)⟩

theorem State.fallen_not_up (s : State) (p : Nat) : (s.fallen p).state ≠ .up := by
  unfold State.fallen
  split
  · exact PortState.noConfusion
  · exact PortState.noConfusion

theorem State.fallen_down (h : s.portMay p = false) : (s.fallen p).state = .down := by
  rw [State.fallen, if_neg (by rw [h]; exact Bool.false_ne_true)]

/-- MemberUnitId's objects are the only ones at their indices (Table 14.11). -/
theorem objects_memberUnitId : ∀ o ∈ objects, o.lo ≤ 0x7903 → 0x7900 ≤ o.hi → o.type = .u64 := by decide +kernel

theorem findObj_memberUnitId {q r : Nat} {o : Obj} (hq : q < 4) (ho : findObj (0x7900 + q) r = some o) : o.type = .u64 := by
  have hin := List.mem_of_find?_eq_some ho
  have hfound := List.find?_some ho
  simp only [Bool.and_eq_true, decide_eq_true_eq] at hfound
  obtain ⟨⟨⟨hlo, hhi⟩, -⟩, -⟩ := hfound
  exact objects_memberUnitId o hin (by omega) (by omega)

theorem actionOf_memberUnitId {q : Nat} (hq : q < 4) (w : World) (v : Viewer) (inst r n : Nat) :
    actionOf w v inst (0x7900 + q) r n [] = some (memberUnitId (q * 256 + r) n) := by
  interval_cases q
  · rfl
  · rfl
  · rfl
  · rfl


theorem State.turned_dropMember {m p turn : Nat} {ending : Bool} :
    State.dropMember m (s.turned turn ending) p = (s.dropMember m p).turned turn ending := by
  grind [State.dropMember, State.turned_port, State.turned_portDown]

theorem State.turned_stopPort {p turn : Nat} {ending : Bool} :
    State.stopPort (s.turned turn ending) p = (s.stopPort p).turned turn ending := by
  grind [State.stopPort, State.turned_port, State.turned_portDown]

/-- What a write of MemberUnitId does. -/
def State.memberSet (m x : Nat) (s : State) : State :=
  [0, 1, 2, 3].foldl (State.dropMember m) (s.setNum (0x7900 + m / 256) (m % 256) 0 x)

theorem exec_memberUnitIdWrite {v : Viewer} {m : Nat} {x : BitVec 64} (hm : m < 1024)
    (h : Writable s v (0x7900 + m / 256) (m % 256) x.toNat) :
    Wrote (.memberUnitIdWrite v m x) s v stOk (s.memberSet m x.toNat) := by
  have hq : m / 256 < 4 := by omega
  obtain ⟨hc, hw⟩ := State.commutes_served (s := s) (v := v) (f := State.memberSet m x.toNat)
    fun s _ _ => State.turned_foldl (s := s.setNum ..) (fun _ _ => State.turned_dropMember) _
  have hobj := h
  obtain ⟨-, -, o, ho, -⟩ := hobj
  have htype := findObj_memberUnitId hq ho
  have hwrite := State.writeNum_served (w := {}) (tenant := ownTenant) (k := 8) (st := stOk) (t := s.memberSet m x.toNat) h ho
    (by rw [htype]; rfl) x.isLt (by rw [htype]; rfl) (namedTenant_own v)
    ((actionOf_memberUnitId hq {} v ..).trans (by rw [show m / 256 * 256 + m % 256 = m by omega]))
    (by rw [← hw]; rfl) (by decide) (hc.trans h.closing)
  simp only [Wrote, exec, execMemberUnitIdWrite, State.writeCell, if_pos hm]
  exact hwrite

theorem exec_fleetEnableWrite_on {v : Viewer} (h : Writable s v 0x7800 1 1)
    (hd : ∀ d b, s.lc.staged = some (d, b) → d ≠ 5) :
    Wrote (.fleetEnableWrite v 1#8) s v stOk (s.setNum 0x7800 1 0 1).startPorts := by
  obtain ⟨hc, hw⟩ := State.commutes_served (s := s) (v := v) (f := fun s => (s.setNum 0x7800 1 0 1).startPorts)
    fun s _ _ => State.turned_startPorts (s := s.setNum 0x7800 1 0 1)
  have hact : fleetEnable 1 (s.served v) = (((s.setNum 0x7800 1 0 1).startPorts).served v, stOk) := by
    rw [← hw]
    have hlc : (s.served v).lc.staged = s.lc.staged := rfl
    unfold fleetEnable
    rw [hlc]
    match hst : s.lc.staged with
    | none => rfl
    | some (d, b) => simp [hd d b hst]
  exact State.writeNum_served (w := {}) (tenant := ownTenant) h rfl (k := 1) rfl (by decide) rfl (namedTenant_own v) rfl
    hact (by decide) (hc.trans h.closing)

theorem exec_fleetEnableWrite_off {v : Viewer} (h : Writable s v 0x7800 1 0) :
    Wrote (.fleetEnableWrite v 0#8) s v stOk ([0, 1, 2, 3].foldl State.stopPort (s.setNum 0x7800 1 0 0)) := by
  obtain ⟨hc, hw⟩ := State.commutes_served (s := s) (v := v)
    (f := fun s => [0, 1, 2, 3].foldl State.stopPort (s.setNum 0x7800 1 0 0))
    fun s _ _ => State.turned_foldl (s := s.setNum ..) (fun _ _ => State.turned_stopPort) _
  have hact : fleetEnable 0 (s.served v) = (([0, 1, 2, 3].foldl State.stopPort (s.setNum 0x7800 1 0 0)).served v, stOk) := by
    rw [← hw]
    rfl
  exact State.writeNum_served (w := {}) (tenant := ownTenant) h rfl (k := 1) rfl (by decide) rfl (namedTenant_own v) rfl
    hact (by decide) (hc.trans h.closing)

/-- The port is keyed and UP (R330). -/
theorem State.portUp_eq (hw : mapWf {} s.xl.ports = true) (h : HelloFields) :
    s.portUp p h = { s with xl := { s.xl with ports := (s.portUp p h).xl.ports }, latches := (s.portUp p h).latches }
    ∧ (∀ q, q ≠ p → (s.portUp p h).port q = s.port q) ∧ ((s.portUp p h).latched (.xlPort p) .maker).testBit 0 = true
    ∧ let key := linkKey (p384Shared (s.port p).secret h.ephemeral)
      let th := s.linkHash p h
      let low := decide (s.memberId < h.memberId)
      (s.portUp p h).port p = {
        cfg := (s.port p).cfg, state := .up, partner := h.memberId, lastFrame := s.clock, lastSent := s.clock
        kTx := if low then key 1 32 th else key 2 32 th, kRx := if low then key 2 32 th else key 1 32 th
        saltTx := if low then (key 3 8 th).take 4 else (key 3 8 th).drop 4
        saltRx := if low then (key 3 8 th).drop 4 else (key 3 8 th).take 4 } :=
  ⟨rfl, fun _ hq => mapGet_mapSet_ne _ _ _ _ _ hq, State.testBit_xlPort (s := s.onPort p _) rfl,
    mapGet_mapSet_self _ _ _ _ ((MapWf_iff _ _).mp hw)⟩

/-- A number is written, and then ports change. -/
theorem State.Ported.written {t : State} {index sub inst x : Nat} (h : (s.setNum index sub inst x).Ported t) (d : Nat) :
    t.num index sub inst d = x ∧ t = { s with
      xl := { s.xl with ports := t.xl.ports }, latches := t.latches, pd := { s.pd with nums := t.pd.nums } } := by
  obtain ⟨ports, l, rfl⟩ : ∃ ports l, t = { s.setNum index sub inst x with
    xl := { s.xl with ports := ports }, latches := l } := ⟨_, _, h.same⟩
  exact ⟨State.num_setNum_self s .., rfl⟩

/-- The member has its unit, and no port stays UP with it (R347). -/
theorem State.memberSet_eq (hw : mapWf {} s.xl.ports = true) (m x : Nat) : ∃ t, s.memberSet m x = t ∧ t.memberUnit m = x
    ∧ t = { s with xl := { s.xl with ports := t.xl.ports }, latches := t.latches, pd := { s.pd with nums := t.pd.nums } }
    ∧ ∀ p < 4, ((s.port p).state = .up → (s.port p).partner = m → (t.port p).state ≠ .up)
      ∧ ((s.port p).state ≠ .up ∨ (s.port p).partner ≠ m → t.port p = s.port p) := by
  obtain ⟨hported, hports⟩ := State.dropMembers_eq (s := s.setNum (0x7900 + m / 256) (m % 256) 0 x) hw m
  have hset : [0, 1, 2, 3].foldl (State.dropMember m) (s.setNum (0x7900 + m / 256) (m % 256) 0 x) = s.memberSet m x := rfl
  obtain ⟨hnum, heq⟩ := hported.written 0
  rw [hset] at hnum heq hports
  refine ⟨_, rfl, hnum, heq, fun p hp => ?_⟩
  have hport (q : Nat) : (s.setNum (0x7900 + m / 256) (m % 256) 0 x).port q = s.port q := rfl
  rw [hports p hp, hport p]
  refine ⟨fun hup hm => ?_, fun hn => ?_⟩
  · rw [hup, hm]
    simp only [decide_true, Bool.and_self, if_true]
    exact State.fallen_not_up _ p
  · by_cases h : (s.port p).state = .up ∧ (s.port p).partner = m
    · obtain ⟨hup, hm⟩ := h
      exact hn.elim (absurd hup) (absurd hm)
    · exact if_neg (by simpa only [Bool.and_eq_true, decide_eq_true_eq] using h)

/-- FleetEnable is 1: the ports that may train start (R347). -/
theorem State.fleetOn_eq (hw : mapWf {} s.xl.ports = true) : ∃ t, (s.setNum 0x7800 1 0 1).startPorts = t
    ∧ t.fleetEnable = true
    ∧ t = { s with xl := { s.xl with ports := t.xl.ports }, pd := { s.pd with nums := t.pd.nums } }
    ∧ ∀ p < 4, (s.port p).state = .down → (s.port p).retryAt = none →
      (t.port p).state = if t.portMay p then .training else .down := by
  obtain ⟨heq, hstate⟩ := State.startPorts_eq (s := s.setNum 0x7800 1 0 1) hw
  refine ⟨_, rfl, ?_⟩
  generalize (s.setNum 0x7800 1 0 1).startPorts = t at heq hstate
  obtain ⟨ports, rfl⟩ : ∃ ports, t = { s.setNum 0x7800 1 0 1 with xl := { s.xl with ports := ports } } := ⟨_, heq⟩
  exact ⟨decide_eq_true (State.num_setNum_self s ..), rfl, hstate⟩

/-- FleetEnable is 0: every port is DOWN (R347). -/
theorem State.fleetOff_eq (hw : mapWf {} s.xl.ports = true) : ∃ t, [0, 1, 2, 3].foldl State.stopPort (s.setNum 0x7800 1 0 0) = t
    ∧ t.fleetEnable = false
    ∧ t = { s with xl := { s.xl with ports := t.xl.ports }, latches := t.latches, pd := { s.pd with nums := t.pd.nums } }
    ∧ ∀ p < 4, (t.port p).state = .down := by
  obtain ⟨hported, hports⟩ := State.stopPorts_eq (s := s.setNum 0x7800 1 0 0) hw
  obtain ⟨hnum, heq⟩ := hported.written 0
  have hoff (t : State) (ht : t.num 0x7800 1 0 0 = 0) : t.fleetEnable = false := decide_eq_false (by
    rw [ht]
    decide)
  have hmay (p : Nat) : (s.setNum 0x7800 1 0 0).portMay p = false := by
    unfold State.portMay
    rw [hoff _ (State.num_setNum_self s ..)]
    simp only [Bool.and_false, Bool.false_and]
  refine ⟨_, rfl, hoff _ hnum, heq, fun p hp => ?_⟩
  rw [hports p hp]
  split
  · next hdown => exact hdown
  · exact State.fallen_down (hmay p)

/-- A counter of the Fleet is no condition of training. -/
theorem State.fallen_authFailed (hu : s.unarchived + 1 < 16320) (claimed : Nat) :
    (s.authFailed p claimed).fallen p = s.fallen p := by
  obtain ⟨tg, h⟩ := State.authFailed_eq (p := p) hu claimed
  have hnum (sub d : Nat) (hs : objKey 0x7800 sub 0 ≠ objKey 0x7800 0xA 0) :
      (s.authFailed p claimed).num 0x7800 sub 0 d = s.num 0x7800 sub 0 d := by
    have hnums : (s.authFailed p claimed).pd.nums = (s.bumpFleet 0xA).pd.nums := by rw [h]
    exact (State.num_of_nums hnums ..).trans (State.num_setNum_ne s hs _ d)
  have hmay : (s.authFailed p claimed).portMay p = s.portMay p := by
    unfold State.portMay State.fleetEnable State.fleetId State.memberId
    rw [hnum 1 0 (by decide), hnum 2 0 (by decide), hnum 3 0xFFFF (by decide), h]
    rfl
  unfold State.fallen
  rw [hmay, h]
  rfl

/-- A bad tag: a failure of authentication, and the port goes DOWN (R331). -/
theorem State.authFailed_portDown (hw : mapWf {} s.xl.ports = true) (hup : (s.port p).state = .up)
    (hu : s.unarchived + 1 < 16320) (claimed : Nat) : ∃ t, (s.authFailed p claimed).portDown p = t
    ∧ (t = { s with
      xl := { s.xl with ports := t.xl.ports }
      latches := t.latches
      pd := { s.pd with nums := t.pd.nums }
      tg := t.tg }
    ∧ t.port p = s.fallen p ∧ (t.latched (.xlPort p) .maker).testBit 2 = true ∧ (∀ q, q ≠ p → t.port q = s.port q)
    ∧ t.num 0x7800 0xA 0 0 = s.num 0x7800 0xA 0 0 + 1) ∧ (t.latched (.xlPort p) .maker).testBit 1 = true := by
  obtain ⟨tg, h⟩ := State.authFailed_eq (p := p) hu claimed
  have hfallen := State.fallen_authFailed (p := p) hu claimed
  generalize s.authFailed p claimed = a at h hfallen ⊢
  have hwa : mapWf {} a.xl.ports = true := by rw [h]; exact hw
  have hupa : (a.port p).state = .up := by rw [h]; exact hup
  have hport (q : Nat) : a.port q = s.port q := by rw [h]; rfl
  obtain ⟨heq, hself, hbit, hother⟩ := State.portDown_up hwa hupa
  have hbit2 : ((a.portDown p).latched (.xlPort p) .maker).testBit 2 = true := by
    rw [State.portDown_eq hwa, if_pos hupa, h]
    exact State.testBit_latch_keeps (s := { s with latches := (s.latch (.xlPort p) 4).latches })
      (State.testBit_xlPort (s := s) rfl)
  refine ⟨_, rfl, ⟨?_, hself.trans hfallen, hbit2, fun q hq => (hother q hq).trans (hport q), ?_⟩, hbit⟩
  · obtain ⟨ports, l, ht⟩ : ∃ ports l, a.portDown p = { a with xl := { a.xl with ports := ports }, latches := l } :=
      ⟨_, _, heq⟩
    rw [ht, h]
    rfl
  · have hnums : (a.portDown p).pd.nums = (s.bumpFleet 0xA).pd.nums := by rw [heq, h]
    exact (State.num_of_nums hnums ..).trans (State.num_bumpFleet s 0xA)

/-- What a good frame changes where none waited. -/
theorem State.frameIn_quiet_port {h : LinkHdr} (hw : mapWf {} s.xl.ports = true) (hu : (s.port h.port).state = .up)
    (ht : h.tagOk = true) (hs : h.seq = (s.port h.port).rxSeq + 1) (hq : (s.port h.port).queue = [])
    (hc : mapWf 64 (s.port h.port).credits = true) (ho : mapWf 0 (s.port h.port).owed = true) :
    let u := (s.frameIn h).1
    let p := h.port
    let q := s.port p
    (∀ r, r ≠ p → u.port r = s.port r)
    ∧ u.port p = { q with
      rxSeq := h.seq, lastFrame := s.clock, stalledSince := [], credits := (u.port p).credits, owed := (u.port p).owed }
    ∧ (u.port p).credit h.creditVc = min 64 (q.credit h.creditVc + h.creditCount)
    ∧ (∀ vc, vc ≠ h.creditVc → (u.port p).credit vc = q.credit vc)
    ∧ mapGet 0 (u.port p).owed h.vc = mapGet 0 q.owed h.vc + (40 + h.length + 255) / 256 := by
  intro u p q
  have hself : u.port p = { Port.heard h s.clock q with stalledSince := [] } := by
    unfold u
    rw [State.frameIn_quiet hu ht hs hq]
    exact mapGet_mapSet_self _ _ _ _ ((MapWf_iff _ _).mp hw)
  have hother (r : Nat) (hr : r ≠ p) : u.port r = s.port r := by
    unfold u
    rw [State.frameIn_quiet hu ht hs hq]
    exact mapGet_mapSet_ne _ _ _ _ _ hr
  rw [hself]
  exact ⟨hother, rfl, mapGet_mapSet_self _ _ _ _ ((MapWf_iff _ _).mp hc), fun vc hvc => mapGet_mapSet_ne _ _ _ _ _ hvc,
    mapGet_mapSet_self _ _ _ _ ((MapWf_iff _ _).mp ho)⟩

end Sys2Proof.Machine

open Sys2Proof Sys2Proof.Machine

/-- Settles O50: what a command does to a port is a change of that port alone, by `State.portDown_eq` where it falls; a frame
that is good goes on from `State.frameIn`, whose frame `State.frameIn_arrives` gives, by `State.receive_arrives` where it is
for this member and by its route where not. -/
theorem fleetLinks : Obligations.FleetLinks := by
  unfold Obligations.FleetLinks
  intro s hw retry hello others fell failed
  have hfell (p : Nat) (hu : (s.port p).state = .up) : fell (s.portDown p) p := State.portDown_up hw hu
  have hfailed (p claimed : Nat) (hu : s.unarchived + 1 < 16320) : failed ((s.authFailed p claimed).retryPort p) p (retry p) := by
    obtain ⟨tg, htg⟩ := State.authFailed_eq (p := p) hu claimed
    have hclock : (s.authFailed p claimed).clock = s.clock := by rw [htg]
    have heq : (s.authFailed p claimed).retryPort p = (s.authFailed p claimed).onPort p fun q =>
        { cfg := q.cfg, retryAt := some (s.clock + 1000000000) } := by rw [State.retryPort, hclock]
    obtain ⟨t, ht, hrest⟩ := State.authFailed_onPort (p := p) hw hu claimed fun q =>
      { cfg := q.cfg, retryAt := some (s.clock + 1000000000) }
    rw [heq, ht]
    exact hrest
  refine ⟨fun p ht => ⟨fun hm hd he => ?_, fun hc => exec_trainingTimeout ht hc⟩,
    fun p ht hu => ⟨fun hc => ⟨_, exec_keyingTimeout ht hc, hfailed p _ hu⟩, fun h => ?_⟩,
    fun p c ht hr hc => exec_keyingRetry hw ht hr hc,
    fun p ht => ⟨fun hc => ⟨_, exec_linkIdleTimeout ht hc, hfell p ht⟩, fun h => ⟨_, exec_hello_up ht, hfell p ht⟩, ?_, ?_, ?_,
      fun vc c h hc => exec_creditStallTimer h hc⟩,
    ?_, ?_, ?_, ?_, ?_⟩
  · obtain ⟨t, nonce, d, h1, h2, h3, h4, h5⟩ := State.portLanesLocked hw ht hm hd he
    exact ⟨t, nonce, d, h1, h2, h3, h4, h5⟩
  · intro own other th key
    refine ⟨fun hs ha => ⟨_, exec_hello_refused ht hs ha, hfailed p _ hu⟩, fun hs ha hd => ?_, fun hs hd => ?_⟩
    · obtain ⟨h1, h2, h3, h4⟩ := State.portUp_eq (p := p) hw h
      refine ⟨_, exec_hello_accepted ht hs ha hd, h1, h2, h3, fun hl => ?_, fun hl => ?_⟩
      · rw [h4]
        simp only [hl, decide_true, if_true]
        rfl
      · rw [h4]
        simp only [Nat.lt_asymm hl, decide_false, Bool.false_eq_true, if_false]
        rfl
    · obtain ⟨t, h1, h2, h3, h4⟩ := State.signHello_eq hw hd h
      exact ⟨t, (exec_hello_unsigned ht hs).trans (congrArg Host.Outcome.next h1), h2, h3, h4⟩
  · intro h hp htag hs
    subst hp
    have hin := State.frameIn_badSeq ht htag hs
    have hrec (type : Nat) (b : Bytes) (f : State → State) : s.receive h type b f = s.portDown h.port := by
      rw [State.receive_refused (by rw [hin]), hin]
    exact ⟨_, hfell h.port ht, congrArg Host.Outcome.next (hrec ..), congrArg Host.Outcome.next (hrec ..),
      fun type b => congrArg Host.Outcome.next (hrec ..)⟩
  · intro h hp htag hu
    subst hp
    have hin := State.frameIn_badTag ht htag
    obtain ⟨t, heq, hfail, hbit⟩ := State.authFailed_portDown hw ht hu (s.port h.port).partner
    exact ⟨t, hfail, hbit, fun type => congrArg Host.Outcome.next (by simp [hin, heq])⟩
  · intro hc hq h1
    obtain ⟨h2, h3, h4, h5⟩ := State.transmit_port (p := p) hw
      { vc := 3, type := 0x03, dest := 0xFFFF, src := s.memberId, down := false, payload := [] }
    exact ⟨_, exec_creditTick ht hc hq h1, State.transmit_eq .., h2, h3, h4.trans ht, h5⟩
  · intro h p q u
    refine ⟨fun ha => congrArg Host.Outcome.next (State.receive_arrives ha ..),
      fun ha => congrArg Host.Outcome.next (State.receive_arrives ha ..), fun hu ht hs => ⟨fun hq hc ho hm => ?_,
        fun type hv => exec_linkFrameDiscard_wrongVc hu ht hs hv, ?_⟩, ?_, ?_⟩
    · obtain ⟨h1, h2, h3, h4, h5⟩ := State.frameIn_quiet_port hw hu ht hs hq hc ho
      have hin : u = _ := State.frameIn_quiet hu ht hs hq
      refine ⟨?_, ?_, h1, h2, h3, h4, h5⟩
      · rw [hin]
      · rw [hin]
        exact mapGet_mapSet_self _ _ _ _ ((MapWf_iff _ _).mp hm)
    · intro type b hv hd r dropped
      have hgood := State.receive_good hu ht hs hv hd b fun s => s
      refine ⟨fun hr => ?_, fun hr hl => ⟨fun hdown hup => ?_, fun hway hup hq hc => ?_⟩⟩
      · refine congrArg Host.Outcome.next (hgood.trans ?_)
        show (if (!r.valid) = true then _ else _) = dropped
        rw [hr]
        rfl
      · refine congrArg Host.Outcome.next (hgood.trans ?_)
        show (if (!r.valid) = true then _ else if r.isLocal = true then _ else u.forwardFrame h type b) = dropped
        rw [hr, hl, State.forwardFrame_violates hdown hup]
        rfl
      · refine ⟨_, congrArg Host.Outcome.next (hgood.trans ?_), State.transmit_eq u r.out
          { vc := h.vc, type := type, dest := h.dest, src := h.src, down := h.wentDown || !r.up, payload := b }⟩
        show (if (!r.valid) = true then _ else if r.isLocal = true then _ else u.forwardFrame h type b) = _
        rw [hr, hl, State.forwardFrame_sent rfl hway hup hq hc]
        rfl
    · intro ha hd b r y
      exact ⟨fun hf hwait hc => exec_dirReq ha hd hf rfl hwait hc, fun a hf => exec_dirReq_again ha hf⟩
    · exact fun ha r b hr => exec_dirResp ha hr
  · exact fun id r p up hr hc hs => ⟨_, exec_linkRequestResend hr hc hs, rfl⟩
  · refine fun he hc => ⟨fun hn => ?_, fun m p up hm hs => ?_⟩
    · rw [exec_heartbeatTick he hc, hn]
      rfl
    · refine ⟨_, ?_, State.transmit_eq (s.onXl fun x => { x with lastHeartbeat := s.clock }) p
        { vc := 3, type := 2, dest := m, src := s.memberId, down := !up, payload := [] }⟩
      rw [exec_heartbeatTick he hc, hm, List.foldl_cons, List.foldl_nil]
      exact congrArg Host.Outcome.next (State.sendMember_sends (s := s.onXl fun x => { x with lastHeartbeat := s.clock }) hs)
  · intro v m x hm h
    obtain ⟨t, heq, hrest⟩ := State.memberSet_eq hw m x.toNat
    exact ⟨t, heq ▸ exec_memberUnitIdWrite hm h, hrest⟩
  · refine fun v => ⟨fun h hd => ?_, fun h => ?_⟩
    · obtain ⟨t, heq, hrest⟩ := State.fleetOn_eq hw
      exact ⟨t, heq ▸ exec_fleetEnableWrite_on h hd, hrest⟩
    · obtain ⟨t, heq, hrest⟩ := State.fleetOff_eq hw
      exact ⟨t, heq ▸ exec_fleetEnableWrite_off h, hrest⟩

end

