-- ==== Sys2Proof/Proofs/FleetRoleSteps.lean ====
section
-- The whole text is compiled in one process: one proof at a time keeps it within its memory.
set_option Elab.async false
/-! LEMMAS. What an operation on the role of one slot changes: roles, grants, the ledger cache, a record in the journal, and
frames to other members (R328, R334 to R344). -/

namespace Sys2Proof.Machine

variable {s t u : State} {n k l : Nat} {f g : Slot → Slot}

/-! ### The frame of a role's operation -/

/-- `t` is `s` after an operation on the role of slot `n` with `k` journal records: the slot is as `f` says, and the other
slots are as they were. -/
structure State.Roled (n k : Nat) (f : Slot → Slot) (s t : State) : Prop where
  same : t = { s with
    xl := t.xl
    lg := { s.lg with
      journalCount := t.lg.journalCount
      continuity := t.lg.continuity
      anchor := t.lg.anchor
      reel := t.lg.reel
      reelWritten := t.lg.reelWritten
      slots := t.lg.slots
      resident := t.lg.resident
      nodes := t.lg.nodes
      tree := t.lg.tree
      dirty := t.lg.dirty
      dirtyNodes := t.lg.dirtyNodes
      suspended := t.lg.suspended }
    pd := { s.pd with nums := t.pd.nums, staged := t.pd.staged }
    latches := t.latches
    outbox := t.outbox
    freeCtr := t.freeCtr }
  others : ∀ m, m ≠ n → t.slot m = s.slot m
  self : t.slot n = f (s.slot n)
  routes : t.xl.routes = s.xl.routes
  holder : t.xl.ceremonyHolder = s.xl.ceremonyHolder
  member : t.memberId = s.memberId
  count : t.lg.journalCount = s.lg.journalCount + k
  fill : t.reelFill ≤ s.reelFill + 512 * k
  wf : mapWf {} s.lg.slots = true → mapWf {} t.lg.slots = true

theorem State.Roled.trans (h : s.Roled n k f t) (h' : t.Roled n l g u) : s.Roled n (k + l) (fun x => g (f x)) u where
  same := by
    refine h'.same.trans ?_
    rw [h.same]
  others := fun m hm => (h'.others m hm).trans (h.others m hm)
  self := h'.self.trans (congrArg g h.self)
  routes := h'.routes.trans h.routes
  holder := h'.holder.trans h.holder
  member := h'.member.trans h.member
  count := by rw [h'.count, h.count, Nat.add_assoc]
  fill := by
    have h1 := h.fill
    have h2 := h'.fill
    omega
  wf := fun hw => h'.wf (h.wf hw)

theorem State.Roled.refl (n : Nat) (s : State) : s.Roled n 0 id s where
  same := rfl
  others := fun _ _ => rfl
  self := rfl
  routes := rfl
  holder := rfl
  member := rfl
  count := rfl
  fill := Nat.le_refl _
  wf := id

/-- What an operation makes of the slot is said of the slot as it was. -/
theorem State.Roled.congr (h : s.Roled n k f t) (hf : f (s.slot n) = g (s.slot n)) : s.Roled n k g t :=
  { h with self := h.self.trans hf }

/-- An operation that follows one without a record and leaves the slot. -/
theorem State.Roled.after (h : s.Roled n 0 id t) (h' : t.Roled n k f u) : s.Roled n k f u := by
  have hk := h.trans h'
  rw [Nat.zero_add] at hk
  exact hk

/-- The tap is off, and the reel buffer has room for `k` records more. -/
def State.Spare (k : Nat) (s : State) : Prop := s.lg.tapLog2 = 0 ∧ s.reelFill + 512 * k + 2 ^ 20 ≤ 2 ^ 30

theorem State.spare_of_roomy (hr : s.roomy) (hk : k ≤ 128) : s.Spare k := by
  obtain ⟨htap, hroom⟩ := hr
  exact ⟨htap, by omega⟩

theorem State.Roled.spare (h : s.Roled n k f t) (hs : s.Spare (k + l)) : t.Spare l := by
  obtain ⟨htap, hroom⟩ := hs
  have hfill := h.fill
  refine ⟨?_, by omega⟩
  rw [h.same]
  exact htap

/-- What changes the Fleet's state but the routes and the Ceremony's holder. -/
theorem State.onXl_roled (s : State) (n : Nat) (f : Xl → Xl) (hr : (f s.xl).routes = s.xl.routes)
    (hc : (f s.xl).ceremonyHolder = s.xl.ceremonyHolder) : s.Roled n 0 id (s.onXl f) where
  same := rfl
  others := fun _ _ => rfl
  self := rfl
  routes := hr
  holder := hc
  member := rfl
  count := rfl
  fill := Nat.le_refl _
  wf := id

theorem State.onSlot_roled (hw : mapWf {} s.lg.slots = true) (n : Nat) (f : Slot → Slot) : s.Roled n 0 f (s.onSlot n f) where
  same := rfl
  others := fun _ hm => mapGet_mapSet_ne _ _ _ _ _ hm
  self := mapGet_mapSet_self _ _ _ _ ((MapWf_iff _ _).mp hw)
  routes := rfl
  holder := rfl
  member := rfl
  count := rfl
  fill := Nat.le_refl _
  wf := fun hw => (MapWf_iff _ _).mpr (((MapWf_iff _ _).mp hw).mapSet ..)

theorem State.Cached.roled (h : s.Cached t) (n : Nat) : s.Roled n 0 id t := by
  obtain ⟨c, r, nodes, d, dn, tree, rfl⟩ := h
  exact { same := rfl, others := fun _ _ => rfl, self := rfl, routes := rfl, holder := rfl, member := rfl, count := rfl
          fill := Nat.le_refl _, wf := id }

theorem State.soil_cached (s : State) (n : Nat) : s.Cached (s.soil n) := by
  obtain ⟨c, r, nodes, d, dn, tree, h⟩ := s.makeResident_cached n
  refine ⟨c, r, nodes, (s.soil n).lg.dirty, dn, tree, ?_⟩
  simp only [State.soil, h]
  rfl

theorem State.serveAgain_roled (s : State) (m n : Nat) : s.Roled n 0 id (s.serveAgain m) where
  same := rfl
  others := fun _ _ => rfl
  self := rfl
  routes := rfl
  holder := rfl
  member := rfl
  count := rfl
  fill := Nat.le_refl _
  wf := id

/-! ### Roles in a slot's flags (R334) -/

theorem setBit_cleared {v i : Nat} (h : v.testBit i = true) : v = 2 ^ i + (v - 2 ^ i) := by
  have := Nat.ge_two_pow_of_testBit h
  omega

theorem testBit_setBit (v i : Nat) (b : Bool) : (setBit v i b).testBit i = b := by
  by_cases h : v.testBit i = b
  · rw [setBit, if_pos h, h]
  · cases b with
    | true =>
      have hv : v.testBit i = false := Bool.eq_false_iff.mpr h
      rw [setBit_set hv, Nat.add_comm, Nat.testBit_two_pow_add_eq, hv, Bool.not_false]
    | false =>
      have hv : v.testBit i = true := Bool.eq_true_of_not_eq_false h
      have hw := hv
      rw [setBit_cleared hv, Nat.testBit_two_pow_add_eq] at hw
      rw [setBit_clear hv]
      simpa using hw

theorem testBit_setBit_lower {v i j : Nat} (hj : j < i) (b : Bool) : (setBit v i b).testBit j = v.testBit j := by
  by_cases h : v.testBit i = b
  · rw [setBit, if_pos h]
  · cases b with
    | true => rw [setBit_set (Bool.eq_false_iff.mpr h), Nat.add_comm, Nat.testBit_two_pow_add_gt hj]
    | false =>
      have hv : v.testBit i = true := Bool.eq_true_of_not_eq_false h
      have hl := Nat.testBit_two_pow_add_gt hj (v - 2 ^ i)
      rw [← setBit_cleared hv] at hl
      rw [setBit_clear hv, hl]
/-- A slot takes roles. -/
def Slot.takeRoles (home mirror : Nat) (mirrored leased : Bool) (epoch : Nat) (x : Slot) : Slot := { x with
  home := home
  mirror := mirror
  roleEpoch := epoch % 65536
  flags := setBit (setBit x.flags 0 mirrored) 1 leased }

theorem Slot.takeRoles_mirrored (home mirror : Nat) (mirrored leased : Bool) (epoch : Nat) (x : Slot) :
    (x.takeRoles home mirror mirrored leased epoch).mirrored = mirrored :=
  (testBit_setBit_lower (by decide) _).trans (testBit_setBit ..)

theorem Slot.takeRoles_leased (home mirror : Nat) (mirrored leased : Bool) (epoch : Nat) (x : Slot) :
    (x.takeRoles home mirror mirrored leased epoch).leased = leased := testBit_setBit ..

theorem State.setRoles_roled (hw : mapWf {} s.lg.slots = true) (n home mirror : Nat) (mirrored leased : Bool) (epoch : Nat) :
    s.Roled n 0 (Slot.takeRoles home mirror mirrored leased epoch) (s.setRoles n home mirror mirrored leased epoch) :=
  (State.onSlot_roled hw n (Slot.takeRoles home mirror mirrored leased epoch)).trans ((State.soil_cached _ n).roled n)

theorem State.freshGrants_roled (s : State) (m serial n : Nat) : s.Roled n 0 id (s.freshGrants m serial) :=
  s.onXl_roled n _ rfl rfl

theorem State.installGrants_roled (s : State) (r : RoleFields) (n : Nat) : s.Roled n 0 id (s.installGrants r) := by
  unfold State.installGrants
  exact s.onXl_roled n _ rfl rfl

theorem State.applyNum_roled (s : State) {index sub inst : Nat} (hk : objKey 0x7800 3 0 ≠ objKey index sub inst) (n : Nat) :
    s.Roled n 0 id (s.applyNum index sub inst) := by
  have hmember : (s.applyNum index sub inst).memberId = s.memberId := State.num_applyNum s hk 0xFFFF
  have hpd : (s.applyNum index sub inst).pd = { s.pd with
      nums := (s.applyNum index sub inst).pd.nums, staged := (s.applyNum index sub inst).pd.staged } := by
    unfold State.applyNum
    split
    · rfl
    · rfl
  rw [s.applyNum_pd index sub inst] at hmember ⊢
  exact { same := congrArg (fun pd => { s with pd := pd }) hpd, others := fun _ _ => rfl, self := rfl, routes := rfl
          holder := rfl, member := hmember, count := rfl, fill := Nat.le_refl _, wf := id }

/-- Originating a frame counts no more than a violation of its route. -/
theorem State.num_sendMember (s : State) (m vc type : Nat) (b : Bytes) {index sub inst : Nat}
    (hk : objKey index sub inst ≠ objKey 0x7800 0xB 0) (d : Nat) :
    (s.sendMember m vc type b).num index sub inst d = s.num index sub inst d := by
  have hport (p : Nat) (f : QFrame) : (s.sendPort p f).num index sub inst d = s.num index sub inst d := by
    unfold State.sendPort
    dsimp only
    split
    · rfl
    · split
      · rfl
      · rfl
  unfold State.sendMember
  dsimp only
  split
  · exact State.num_setNum_ne (s.latch (.xlPort 0) 8) hk _ _
  · split
    · rfl
    · exact hport _ _

theorem State.sendMember_member (s : State) (m vc type : Nat) (b : Bytes) : (s.sendMember m vc type b).memberId = s.memberId :=
  s.num_sendMember m vc type b (by decide) 0xFFFF

/-- A frame that this member originates. -/
theorem State.sendMember_roled (s : State) (m vc type : Nat) (b : Bytes) (n : Nat) : s.Roled n 0 id (s.sendMember m vc type b) := by
  have hmember := s.sendMember_member m vc type b
  obtain ⟨ports, l, nums, o, h⟩ := s.sendMember_sent m vc type b
  rw [h] at hmember ⊢
  exact { same := rfl, others := fun _ _ => rfl, self := rfl, routes := rfl, holder := rfl, member := hmember, count := rfl
          fill := Nat.le_refl _, wf := id }

theorem State.sendRequest_roled (s : State) (m type : Nat) (b : Bytes) (n : Nat) : s.Roled n 0 id (s.sendRequest m type b) :=
  (s.onXl_roled n _ rfl rfl).trans (State.sendMember_roled _ m 0 type _ n)

theorem State.respond_roled (s : State) (h : LinkHdr) (type : Nat) (b : Bytes) (n : Nat) : s.Roled n 0 id (s.respond h type b) :=
  (s.onXl_roled n _ rfl rfl).trans (State.sendMember_roled _ h.src 1 type _ n)

theorem State.fleetRecord_length (s : State) (kind action reason n other first last : Nat) :
    (s.fleetRecord kind action reason n other first last).length = 96 := by
  simp [State.fleetRecord]

/-- A record of roles while the journal has room: the journal alone. -/
theorem State.appendFleet_eq (hs : s.Spare 1) (kind action reason m other first last : Nat) :
    s.append (s.fleetRecord kind action reason m other first last) []
      = s.journal (s.fleetRecord kind action reason m other first last) [] := by
  obtain ⟨htap, hroom⟩ := hs
  refine State.append_fits htap ?_
  rw [State.fleetRecord_length, List.length_nil]
  omega

theorem State.appendFleet_roled (hs : s.Spare 1) (kind action reason m other first last n : Nat) :
    s.Roled n 1 id (s.append (s.fleetRecord kind action reason m other first last) []) := by
  rw [State.appendFleet_eq hs]
  obtain ⟨htap, -⟩ := hs
  have hlen := s.fleetRecord_length kind action reason m other first last
  generalize s.fleetRecord kind action reason m other first last = b at hlen
  have hfill : (s.journal b []).reelFill = s.reelFill + (b.length + 32 + ([] : Bytes).length) := (s.journal_appended b []).fill
  have hle : (s.journal b []).reelFill ≤ s.reelFill + 512 * 1 := by
    rw [hfill, hlen]
    exact Nat.add_le_add_left (by decide) _
  rw [State.journal_untapped htap] at hle ⊢
  exact { same := rfl, others := fun _ _ => rfl, self := rfl, routes := rfl, holder := rfl, member := rfl, count := rfl
          fill := hle, wf := id }

/-- What an operation leaves for a frame to leave as it would have before: ports, routes and the outbox. -/
structure State.Hushed (s t : State) : Prop where
  ports : t.xl.ports = s.xl.ports
  routes : t.xl.routes = s.xl.routes
  outbox : t.outbox = s.outbox
  member : t.memberId = s.memberId

theorem State.Cached.hushed (h : s.Cached t) : s.Hushed t := by
  obtain ⟨c, r, nodes, d, dn, tree, rfl⟩ := h
  exact ⟨rfl, rfl, rfl, rfl⟩

theorem State.Hushed.trans (h : s.Hushed t) (h' : t.Hushed u) : s.Hushed u :=
  ⟨h'.ports.trans h.ports, h'.routes.trans h.routes, h'.outbox.trans h.outbox, h'.member.trans h.member⟩

theorem State.setRoles_hushed (s : State) (n home mirror : Nat) (mirrored leased : Bool) (epoch : Nat) :
    s.Hushed (s.setRoles n home mirror mirrored leased epoch) :=
  have hslot : s.Hushed (s.onSlot n (Slot.takeRoles home mirror mirrored leased epoch)) := ⟨rfl, rfl, rfl, rfl⟩
  hslot.trans (State.soil_cached _ n).hushed

/-- A frame that would leave at once leaves at once. -/
theorem State.Hushed.sends (h : s.Hushed t) {m vc type p : Nat} {up : Bool} {b : Bytes} (hs : s.sends m vc b.length p up) :
    (t.sendMember m vc type b).outbox = s.outbox ++ [s.outFrame p vc type m s.memberId (!up) b] := by
  have hport : t.port p = s.port p := by simp only [State.port, h.ports]
  have hs' : t.sends m vc b.length p up := by
    unfold State.sends State.route
    rw [hport, h.routes]
    exact hs
  rw [State.sendMember_sends hs', State.transmit_eq, h.outbox, h.member]
  unfold State.outFrame
  rw [hport]

theorem State.Hushed.responds (h : s.Hushed t) {k : LinkHdr} {type p : Nat} {up : Bool} {b : Bytes}
    (hs : s.sends k.src 1 (8 + b.length) p up) : (t.respond k type b).outbox
      = s.outbox ++ [s.outFrame p 1 type k.src s.memberId (!up) (be 8 k.reqId ++ b)] := by
  have hx : s.Hushed (t.onXl fun x => { x with answered := x.answered
      ++ [{ src := k.src, reqId := k.reqId, type := type, payload := be 8 k.reqId ++ b }] }) :=
    ⟨h.ports, h.routes, h.outbox, h.member⟩
  exact hx.sends (by rw [List.length_append, be_length]; exact hs)

/-- A record of roles sends nothing. -/
theorem State.appendFleet_kept (hs : s.Spare 1) (kind action reason m other first last : Nat) : ∃ lg : Lg,
    s.append (s.fleetRecord kind action reason m other first last) [] = { s with lg := lg } := by
  rw [State.appendFleet_eq hs]
  obtain ⟨htap, -⟩ := hs
  rw [State.journal_untapped htap]
  exact ⟨_, rfl⟩

/-! ### Leases (R335) -/

/-- The next lease of a slot, as its authority grants it. -/
def State.nextLease (s : State) (n holder : Nat) : Lease :=
  { slot := n, holder := holder, first := s.grantLimit n + 1
    last := min (s.grantLimit n + (s.applyNum 0x7800 4 0).leaseBlock) (2 ^ 64 - 1) }

/-- The grant table has a lease more (R335). -/
def State.leased (n : Nat) (l : Lease) (s : State) : State := s.onXl fun x => { x with
  grantLimit := mapSet 0 x.grantLimit n l.last, leases := x.leases ++ [l] }

theorem State.grantLease_eq (s : State) (n holder : Nat) : s.grantLease n holder
    = (let a := (s.applyNum 0x7800 4 0).leased n (s.nextLease n holder)
       a.append (a.fleetRecord 0x51 1 0 n holder (s.nextLease n holder).first (s.nextLease n holder).last) []
      , s.nextLease n holder) := by
  have hlimit : (s.applyNum 0x7800 4 0).grantLimit n = s.grantLimit n := by rw [s.applyNum_pd 0x7800 4 0]; rfl
  simp only [State.grantLease, State.nextLease, State.leased, hlimit]

theorem State.grantLease_roled (hs : s.Spare 1) (n holder : Nat) : s.Roled n 1 id (s.grantLease n holder).1
    ∧ s.Hushed (s.grantLease n holder).1
    ∧ (s.grantLease n holder).1.xl = { s.xl with
      grantLimit := mapSet 0 s.xl.grantLimit n (s.nextLease n holder).last
      leases := s.xl.leases ++ [s.nextLease n holder] } := by
  have happly := s.applyNum_roled (index := 0x7800) (sub := 4) (inst := 0) (by decide) n
  have hxl : (s.applyNum 0x7800 4 0).xl = s.xl := by rw [s.applyNum_pd 0x7800 4 0]
  have hout : (s.applyNum 0x7800 4 0).outbox = s.outbox := by rw [s.applyNum_pd 0x7800 4 0]
  rw [State.grantLease_eq]
  generalize s.nextLease n holder = l
  generalize s.applyNum 0x7800 4 0 = a at *
  have hb : a.Roled n 0 id (a.leased n l) := a.onXl_roled n _ rfl rfl
  have hspare : (a.leased n l).Spare 1 := (happly.after hb).spare hs
  obtain ⟨lg, hlg⟩ := State.appendFleet_kept hspare 0x51 1 0 n holder l.first l.last
  refine ⟨(happly.after hb).after (State.appendFleet_roled hspare ..), ?_, ?_⟩
  · dsimp only
    rw [hlg]
    have hpd : s.Hushed a := ⟨congrArg Xl.ports hxl, congrArg Xl.routes hxl, hout, happly.member⟩
    exact hpd.trans ⟨rfl, rfl, rfl, rfl⟩
  · dsimp only
    rw [hlg]
    show ({ a.xl with grantLimit := mapSet 0 a.xl.grantLimit n l.last, leases := a.xl.leases ++ [l] } : Xl) = _
    rw [hxl]

/-- A holder that needs no lease asks for none. -/
theorem State.wantLease_unled (h : (s.slot n).fleet = false) (c : Nat) : s.wantLease n c = s := by
  simp [State.wantLease, h]

/-- A holder whose slot has another authority asks for its next lease at most. -/
theorem State.wantLease_roled (h : (s.slot n).authority ≠ s.memberId) (c : Nat) : s.Roled n 0 id (s.wantLease n c) := by
  unfold State.wantLease
  dsimp only
  split
  · exact .refl n s
  · split
    · exact .refl n s
    · exact State.sendRequest_roled ..

/-! ### A change of roles at the home (R338) -/

/-- The state with the new roles, before the record of the change. -/
def State.reassigned (n m : Nat) (leased : Bool) (s : State) : State :=
  let old := s.slot n
  let s := s.setRoles n s.memberId m (m ≠ 0xFFFF) leased (old.roleEpoch + 1)
  let s := if old.fleet && old.authority = (s.slot n).authority then s else s.freshGrants n old.serial
  s.serveAgain n

/-- The roles that the home assigns. -/
def Slot.reassigned (me m : Nat) (leased : Bool) (x : Slot) : Slot :=
  Slot.takeRoles me m (m ≠ 0xFFFF) leased (x.roleEpoch + 1) x

theorem State.assignRole_eq (s : State) (n m : Nat) (leased : Bool) : s.assignRole n m leased
    = let a := s.reassigned n m leased
      let b := a.append (a.fleetRecord 0x50 1 0 n 0xFFFF 0 0) []
      b.wantLease n (b.slot n).serial := rfl

theorem State.setRoles_xl (s : State) (n home mirror : Nat) (mirrored leased : Bool) (epoch : Nat) :
    (s.setRoles n home mirror mirrored leased epoch).xl = s.xl := by
  obtain ⟨c, r, nodes, d, dn, tree, h⟩ := (s.onSlot n (Slot.takeRoles home mirror mirrored leased epoch)).soil_cached n
  exact (congrArg State.xl h).trans rfl

theorem State.reassigned_roled (hw : mapWf {} s.lg.slots = true) (n m : Nat) (leased : Bool) :
    s.Roled n 0 (Slot.reassigned s.memberId m leased) (s.reassigned n m leased)
    ∧ s.Hushed (s.reassigned n m leased) ∧ (s.reassigned n m leased).xl.offer = s.xl.offer := by
  have hset := State.setRoles_roled hw n s.memberId m (m ≠ 0xFFFF) leased ((s.slot n).roleEpoch + 1)
  have hhush := s.setRoles_hushed n s.memberId m (m ≠ 0xFFFF) leased ((s.slot n).roleEpoch + 1)
  have hxl := s.setRoles_xl n s.memberId m (m ≠ 0xFFFF) leased ((s.slot n).roleEpoch + 1)
  unfold State.reassigned
  dsimp only
  generalize s.setRoles n s.memberId m (decide (m ≠ 0xFFFF)) leased ((s.slot n).roleEpoch + 1) = a at hset hhush hxl ⊢
  have hgrants (c : Prop) [Decidable c] (serial : Nat) : a.Roled n 0 id (if c then a else a.freshGrants n serial)
      ∧ a.Hushed (if c then a else a.freshGrants n serial) ∧ (if c then a else a.freshGrants n serial).xl.offer = a.xl.offer := by
    split
    · exact ⟨.refl n a, ⟨rfl, rfl, rfl, rfl⟩, rfl⟩
    · exact ⟨a.freshGrants_roled n serial n, ⟨rfl, rfl, rfl, rfl⟩, rfl⟩
  obtain ⟨hroled, hquiet, hoffer⟩ :=
    hgrants (((s.slot n).fleet && (s.slot n).authority = (a.slot n).authority) = true) (s.slot n).serial
  exact ⟨(hset.trans (hroled.trans (State.serveAgain_roled _ n n))).congr rfl,
    (hhush.trans hquiet).trans ⟨rfl, rfl, rfl, rfl⟩, hoffer.trans (congrArg Xl.offer hxl)⟩

/-- The authority that serves its own slot grants itself a lease, with a record, where it needs one. -/
theorem State.wantLease_kept (hs : s.Spare 1) (n c : Nat) : ∃ k ≤ 1, s.Roled n k id (s.wantLease n c) := by
  have hnone : ∃ k ≤ 1, s.Roled n k id s := ⟨0, Nat.zero_le _, .refl n s⟩
  unfold State.wantLease
  dsimp only
  split
  · exact hnone
  · split
    · split
      · exact hnone
      · obtain ⟨h, -⟩ := State.grantLease_roled hs n s.memberId
        exact ⟨1, Nat.le_refl _, h⟩
    · split
      · exact hnone
      · exact ⟨0, Nat.zero_le _, State.sendRequest_roled ..⟩

/-- The roles are assigned and recorded, and the home asks for what lease it needs. -/
theorem State.assignRole_wants (hw : mapWf {} s.lg.slots = true) (hs : s.Spare 2) (n m : Nat) (leased : Bool) :
    ∃ b : State, s.Roled n 1 (Slot.reassigned s.memberId m leased) b ∧ s.Hushed b ∧ b.Spare 1
      ∧ b.xl.offer = s.xl.offer ∧ s.assignRole n m leased = b.wantLease n (b.slot n).serial := by
  obtain ⟨hnew, hquiet, hoffer⟩ := State.reassigned_roled hw n m leased
  rw [State.assignRole_eq]
  dsimp only
  generalize s.reassigned n m leased = a at hnew hquiet hoffer ⊢
  have hspare : a.Spare 1 := hnew.spare (l := 1) ⟨hs.1, by have := hs.2; omega⟩
  obtain ⟨lg, hlg⟩ := State.appendFleet_kept hspare 0x50 1 0 n 0xFFFF 0 0
  have hrec := State.appendFleet_roled hspare 0x50 1 0 n 0xFFFF 0 0 n
  have hb := hnew.trans hrec
  rw [Nat.zero_add] at hb
  refine ⟨_, hb.congr rfl, ?_, hb.spare hs, ?_, rfl⟩
  · rw [hlg]
    exact hquiet.trans ⟨rfl, rfl, rfl, rfl⟩
  · rw [hlg]
    exact hoffer

theorem State.assignRole_kept (hw : mapWf {} s.lg.slots = true) (hs : s.Spare 2) (n m : Nat) (leased : Bool) :
    ∃ k, s.Roled n k (Slot.reassigned s.memberId m leased) (s.assignRole n m leased) := by
  obtain ⟨b, hb, -, hspare, -, heq⟩ := State.assignRole_wants hw hs n m leased
  obtain ⟨k, -, hk⟩ := State.wantLease_kept hspare n (b.slot n).serial
  rw [heq]
  exact ⟨1 + k, (hb.trans hk).congr rfl⟩

/-- A home without a lease of its own to come assigns roles with one record. -/
theorem State.assignRole_roled (hw : mapWf {} s.lg.slots = true) (hs : s.Spare 2) {n m : Nat} {leased : Bool}
    (ho : let x := Slot.reassigned s.memberId m leased (s.slot n)
      x.fleet = false ∨ x.authority ≠ s.memberId) :
    s.Roled n 1 (Slot.reassigned s.memberId m leased) (s.assignRole n m leased) := by
  obtain ⟨b, hb, -, -, -, heq⟩ := State.assignRole_wants hw hs n m leased
  dsimp only at ho
  have hslot : b.slot n = Slot.reassigned s.memberId m leased (s.slot n) := hb.self
  rw [heq]
  refine (hb.trans (?_ : b.Roled n 0 id _)).congr rfl
  rcases ho with ho | ho
  · rw [State.wantLease_unled (by rw [hslot]; exact ho)]
    exact .refl n b
  · exact State.wantLease_roled (by rw [hslot, hb.member]; exact ho) _

/-! ### What a RoleApply answers (R338) -/

/-- A WRITE of a number that may be written and whose owner waits for other members. -/
theorem State.writeNum_waits {w : World} {v : Viewer} {o : Obj} {tenant inst index sub x size : Nat} {act : Act}
    (h : Writable s v index sub x) (ho : findObj index sub = some o) (hk : o.type.size = some size) (hn : x < 256 ^ size)
    (hb : o.type.isBytes = false) (ht : namedTenant v tenant = .ok inst) (ha : actionOf w v inst index sub x [] = some act)
    (hact : act (s.served v) = (t, stWaits)) :
    ∃ r, s.writeObj w v tenant index sub (objBytes v index sub x) = t.onPd fun p => { p with deferred := some r } := by
  obtain ⟨hv, hf, o', ho', hd, hacc, hnow, hoff⟩ := h
  obtain rfl : o = o' := Option.some.inj (ho.symm.trans ho')
  have hbytes : objBytes v index sub x = putNum v size x := by simp [objBytes, ho, hk]
  have hg : getNum v (putNum v size x) = x := by
    rw [getNum_putNum]
    exact Nat.mod_eq_of_lt hn
  have hx : (if o.type.isBytes then Val.bytes (putNum v size x) else .num (getNum v (putNum v size x))) = .num x := by
    rw [hb, hg]
    rfl
  have happly := State.applyWrite_acts (s := s.served v) (w := w) (v := v) (o := o) (inst := inst) (.inl ⟨rfl, rfl⟩) ha hnow
  have he := State.execEntry_write (s := s.served v) (w := w) (inst := inst) (v := v) (b := putNum v size x) ho hk (putNum_length ..)
    hx (by rw [hg]; exact hd) hoff hacc
  rw [happly, hact] at he
  have hs : (s.onPd fun p => { p with turn := originOf v }) = s.served v := rfl
  rw [hbytes, State.writeObj]
  simp only [State.single, hv, Bool.not_true, ht, State.submit, hf.outstanding, hf.1, Option.isSome_none, State.runReq,
    DirReq.origin, hs, State.runEntries, he, List.length_nil, Nat.add_zero]
  simp only [show ¬(2 : Nat) ^ 20 < 32 by decide, if_false, Bool.false_eq_true]
  exact ⟨_, rfl⟩

theorem State.sendRequest_offer (s : State) (m type : Nat) (b : Bytes) : (s.sendRequest m type b).xl.offer = s.xl.offer := by
  obtain ⟨ports, l, nums, o, h⟩ := State.sendMember_sent (s.onXl fun x => { x with
    nextReq := x.nextReq + 1
    requests := x.requests ++ [{ reqId := x.nextReq, dest := m, type := type, payload := be 8 x.nextReq ++ b, sent := s.clock }] })
    m 0 type (be 8 s.xl.nextReq ++ b)
  exact (congrArg (fun t : State => t.xl.offer) h).trans rfl

theorem State.wantLease_offer (hs : s.Spare 1) (n c : Nat) : (s.wantLease n c).xl.offer = s.xl.offer := by
  unfold State.wantLease
  dsimp only
  split
  · rfl
  · split
    · split
      · rfl
      · obtain ⟨-, -, hxl⟩ := State.grantLease_roled hs n s.memberId
        exact (congrArg Xl.offer hxl).trans rfl
    · split
      · rfl
      · exact s.sendRequest_offer ..

theorem State.assignRole_offer (hw : mapWf {} s.lg.slots = true) (hs : s.Spare 2) (n m : Nat) (leased : Bool) :
    (s.assignRole n m leased).xl.offer = s.xl.offer := by
  obtain ⟨b, -, -, hspare, hoffer, heq⟩ := State.assignRole_wants hw hs n m leased
  rw [heq]
  exact (State.wantLease_offer hspare ..).trans hoffer

/-! ### The WRITE that waits for other members (R338, R343) -/

/-- The answer of a WRITE of one entry that waited alone. -/
theorem State.completeDeferred_alone {v : Viewer} {index sub : Nat} (h : s.waitsAlone v index sub) (status : Status) :
    s.completeDeferred status = State.emit (.directory v status [])
      { s with pd := { s.pd with deferred := none, turn := originOf v } } := by
  obtain ⟨hw, hc, r, e, hd, he, -, -, hop, hk, hv, hcount, hout, hcap⟩ := h
  subst hv
  have hclose : (State.emit (.directory r.viewer status [])
      { s with pd := { s.pd with deferred := none, turn := originOf r.viewer } }).sp.closing = false := hc
  have hnone : s.pd.waiting.length = 0 := by rw [hw]; rfl
  simp only [State.completeDeferred, hd, he, hnone, State.serveWaiting, State.runReq, State.runEntries,
    Bool.false_eq_true, if_false, State.finishReq, State.respondReq, hk]
  rw [DirReq.single_encode (x := { index := e.index, sub := e.sub, op := e.op, status := status
                                   type := ((findObj e.index e.sub).map fun (o : Obj) => o.type.code).getD 0
                                   total := ((findObj e.index e.sub).bind fun (o : Obj) => o.type.size).getD 0 }) rfl hop
    (by rw [hcount]) (by rw [hout]; rfl)]
  exact State.spClose_id hclose

theorem State.waitsOn_alone {v : Viewer} {index sub : Nat} (h : s.waitsAlone v index sub) : s.waitsOn index sub = true := by
  obtain ⟨-, -, r, e, hd, he, hi, hsub, -⟩ := h
  simp [State.waitsOn, hd, he, hi, hsub]

theorem State.Roled.waitsAlone (h : s.Roled n k f t) {v : Viewer} {index sub : Nat} (hw : s.waitsAlone v index sub) :
    t.waitsAlone v index sub := by
  have hpd : t.pd.waiting = s.pd.waiting ∧ t.pd.deferred = s.pd.deferred ∧ t.sp.closing = s.sp.closing := by
    rw [h.same]
    exact ⟨rfl, rfl, rfl⟩
  obtain ⟨hwait, hdef, hclose⟩ := hpd
  unfold State.waitsAlone
  rw [hwait, hdef, hclose]
  exact hw

/-- The RoleApply that waited is answered. -/
theorem State.roleDecided_alone {v : Viewer} (h : t.waitsAlone v 0x7820 4) (status : Status) :
    State.roleDecided (t, some status) = State.emit (.directory v status [])
      { t with pd := { t.pd with deferred := none, turn := originOf v } } := by
  simp only [State.roleDecided, State.waitsOn_alone h, if_true]
  exact State.completeDeferred_alone h status

/-! ### What a frame that arrives finds (R327) -/

/-- A frame that has come in is no operation on a role. -/
theorem State.frameIn_roled {h : LinkHdr} {type : Nat} (ha : Arrives s h type) (n : Nat) : s.Roled n 0 id (s.frameIn h).1 := by
  obtain ⟨m, o, hu⟩ := State.frameIn_arrives ha
  rw [hu]
  exact { same := rfl, others := fun _ _ => rfl, self := rfl, routes := rfl, holder := rfl, member := rfl, count := rfl
          fill := Nat.le_refl _, wf := id }

/-- It finds what the member holds of the Fleet. -/
theorem State.frameIn_xl {h : LinkHdr} {type : Nat} (ha : Arrives s h type) : ∃ m, (s.frameIn h).1.xl = { s.xl with
    ports := m, memberSeen := mapSet 0 s.xl.memberSeen h.src s.clock, lost := s.xl.lost.filter (· ≠ h.src) } := by
  obtain ⟨m, o, hu⟩ := State.frameIn_arrives ha
  exact ⟨m, congrArg State.xl hu⟩

theorem State.frameIn_fresh {h : LinkHdr} {type : Nat} (ha : Arrives s h type) (hf : s.fresh h) : (s.frameIn h).1.fresh h := by
  obtain ⟨m, hxl⟩ := State.frameIn_xl ha
  unfold State.fresh
  rw [hxl]
  exact hf

theorem State.frameIn_asked {h : LinkHdr} {type typ : Nat} {q : LinkReq} (ha : Arrives s h type) (hq : s.asked h typ q) :
    (s.frameIn h).1.asked h typ q := by
  obtain ⟨m, hxl⟩ := State.frameIn_xl ha
  unfold State.asked
  rw [hxl]
  exact hq

theorem State.frameIn_slot {h : LinkHdr} {type : Nat} (ha : Arrives s h type) (n : Nat) : (s.frameIn h).1.slot n = s.slot n :=
  (State.frameIn_roled ha n).self

theorem State.frameIn_memberId {h : LinkHdr} {type : Nat} (ha : Arrives s h type) : (s.frameIn h).1.memberId = s.memberId :=
  (State.frameIn_roled ha 0).member

theorem State.frameIn_inFlight {h : LinkHdr} {type : Nat} (ha : Arrives s h type) (n : Nat) :
    (s.frameIn h).1.slotInFlight n = s.slotInFlight n := by
  obtain ⟨m, o, hu⟩ := State.frameIn_arrives ha
  rw [hu]
  rfl

theorem State.frameIn_window {h : LinkHdr} {type : Nat} (ha : Arrives s h type) (w : Nat) :
    (s.frameIn h).1.window w = s.window w := by
  obtain ⟨m, o, hu⟩ := State.frameIn_arrives ha
  rw [hu]
  rfl

/-- A response is kept for a repetition. -/
theorem State.respond_xl (s : State) (h : LinkHdr) (type : Nat) (b : Bytes) : ∃ ports, (s.respond h type b).xl = { s.xl with
    ports := ports
    answered := s.xl.answered ++ [{ src := h.src, reqId := h.reqId, type := type, payload := be 8 h.reqId ++ b }] } := by
  obtain ⟨ports, l, nums, o, hs⟩ := State.sendMember_sent (s.onXl fun x => { x with answered := x.answered
    ++ [{ src := h.src, reqId := h.reqId, type := type, payload := be 8 h.reqId ++ b }] }) h.src 1 type (be 8 h.reqId ++ b)
  exact ⟨ports, (congrArg State.xl hs).trans rfl⟩

/-! ### Rows of Table 14.6 -/

theorem State.copyToMirror_none (h : ((s.slot n).leased && (s.slot n).mirrored) = false) : s.copyToMirror n = s := by
  simp [State.copyToMirror, h]

section LeaseReq

variable {h : LinkHdr} (ha : Arrives s h 0x10) (hf : s.fresh h) (hfleet : (s.slot n).fleet = true)
  (hauth : (s.slot n).authority = s.memberId) (hlease : (s.slot n).leased = true ∨ (s.slot n).home = h.src)
  (htake : ∀ t ∈ s.xl.takeover, t.slot ≠ n)

include ha hf in
theorem exec_leaseReq_row : exec (.leaseReq h n) s = .next (let u := (s.frameIn h).1
    if (s.slot n).fleet && (s.slot n).authority = s.memberId && ((s.slot n).leased || (s.slot n).home = h.src)
        && !s.xl.takeover.any (fun t => t.slot = n) && s.grantLimit n < 2 ^ 64 - 1 then
      let r := u.grantLease n h.src
      (r.1.copyToMirror n).respond h 0x20 (be 4 n ++ be 8 r.2.first ++ be 8 r.2.last)
    else u) := by
  obtain ⟨m, hxl⟩ := State.frameIn_xl ha
  have hlimit : (s.frameIn h).1.grantLimit n = s.grantLimit n := by
    simp only [State.grantLimit, hxl, State.frameIn_slot ha]
  have htakeover : (s.frameIn h).1.xl.takeover = s.xl.takeover := by rw [hxl]
  simp only [exec, execLeaseReq]
  rw [State.receive_arrives ha, State.asRequest_fresh (State.frameIn_fresh ha hf)]
  simp only [State.frameIn_slot ha, State.frameIn_memberId ha, hlimit, htakeover]

include ha hf in
theorem exec_leaseReq_spent (hl : 2 ^ 64 - 1 ≤ s.grantLimit n) : exec (.leaseReq h n) s = .next (s.frameIn h).1 := by
  rw [exec_leaseReq_row ha hf]
  simp only [Nat.not_lt.mpr hl, decide_false, Bool.and_false, Bool.false_eq_true, if_false]

include ha hf hfleet hauth hlease htake in
theorem exec_leaseReq (hm : ((s.slot n).leased && (s.slot n).mirrored) = false) (hs : (s.frameIn h).1.Spare 1)
    (hl : s.grantLimit n < 2 ^ 64 - 1) : exec (.leaseReq h n) s = .next (((s.frameIn h).1.grantLease n h.src).1.respond h 0x20
      (be 4 n ++ be 8 ((s.frameIn h).1.nextLease n h.src).first ++ be 8 ((s.frameIn h).1.nextLease n h.src).last)) := by
  have htakes : s.xl.takeover.any (fun t => t.slot = n) = false := by
    simpa using htake
  have hlease' : ((s.slot n).leased || decide ((s.slot n).home = h.src)) = true := by
    simpa using hlease
  obtain ⟨hroled, -, -⟩ := State.grantLease_roled hs n h.src
  have hsecond : ((s.frameIn h).1.grantLease n h.src).2 = (s.frameIn h).1.nextLease n h.src := by rw [State.grantLease_eq]
  have hslot : ((s.frameIn h).1.grantLease n h.src).1.slot n = s.slot n := hroled.self.trans (State.frameIn_slot ha n)
  rw [exec_leaseReq_row ha hf, hfleet, hauth, hlease', htakes]
  simp only [decide_true, Bool.not_false, Bool.and_self, hl, if_true, hsecond]
  rw [State.copyToMirror_none (by rw [hslot]; exact hm)]

end LeaseReq

/-- The authority's grant is this member's lease (R335). -/
theorem exec_leaseGrant {h : LinkHdr} {range : LeaseRange} {q : LinkReq} (ha : Arrives s h 0x20) (hq : s.asked h 0x10 q)
    (hn : beAt q.payload 8 4 = n) (hfleet : (s.slot n).fleet = true) (hauth : (s.slot n).authority = h.src) :
    exec (.leaseGrant h n range) s = .next { (s.frameIn h).1 with xl := { (s.frameIn h).1.xl with
      requests := s.xl.requests.filter fun q => q.reqId ≠ h.reqId
      leases := s.xl.leases ++ [{ slot := n, holder := s.memberId, first := range.first, last := range.last }] } } := by
  obtain ⟨m, hxl⟩ := State.frameIn_xl ha
  have hreq : (s.frameIn h).1.xl.requests = s.xl.requests := by rw [hxl]
  have hleases : (s.frameIn h).1.xl.leases = s.xl.leases := by rw [hxl]
  have hslot := State.frameIn_slot ha n
  have hme := State.frameIn_memberId ha
  simp only [exec, execLeaseGrant]
  rw [State.receive_arrives ha, ← hleases, ← hreq, ← hme]
  rw [← hslot] at hfleet hauth
  simp only [State.takeRequest_asked (State.frameIn_asked ha hq)]
  rw [if_pos]
  · rfl
  · show (decide (beAt q.payload 8 4 = n) && ((s.frameIn h).1.slot n).fleet
      && decide (((s.frameIn h).1.slot n).authority = h.src)) = true
    rw [hn, hfleet, hauth]
    simp

/-- The grants of a slot stand or start afresh. -/
theorem State.freshGrants_unless (s : State) (n serial : Nat) (c : Prop) [Decidable c] :
    s.Roled n 0 id (if c then s else s.freshGrants n serial) ∧ s.Hushed (if c then s else s.freshGrants n serial) := by
  split
  · exact ⟨.refl n s, ⟨rfl, rfl, rfl, rfl⟩⟩
  · exact ⟨s.freshGrants_roled n serial n, ⟨rfl, rfl, rfl, rfl⟩⟩

section RoleOffer

variable {h : LinkHdr} {r : RoleFields} {tenant : Nat} (ha : Arrives s h 0x11) (hf : s.fresh h)

/-- What stands in the way of an offer for slot `n`: the window is another tenant's. -/
def State.elsewhere (s : State) (n tenant : Nat) : Prop :=
  2097152 ≤ n ∨ (s.window (n / 1024)).owner ≠ tenant ∨ (s.window (n / 1024)).reassigning = true

/-- The mirror takes the home's image of the slot. -/
def Slot.mirrors (src me : Nat) (r : RoleFields) (x : Slot) : Slot :=
  { (x.takeRoles src me true r.leased r.roleEpoch).takeImage r with state := 2 }

/-- The state of a mirror that accepts, before the record of the change. -/
def State.mirrors (h : LinkHdr) (r : RoleFields) (s : State) : State :=
  let x := s.slot r.slot
  let keep := x.fleet && x.leased = r.leased && x.mirror = s.memberId
  let s := s.setRoles r.slot h.src s.memberId true r.leased r.roleEpoch
  let s := s.onSlot r.slot fun x => { x.takeImage r with state := 2 }
  let s := if keep then s else s.freshGrants r.slot r.serial
  s.serveAgain r.slot

include ha hf in
theorem exec_roleOffer_row : exec (.roleOffer h r tenant) s = .next (let u := (s.frameIn h).1
    if 2097152 ≤ r.slot || (s.window (r.slot / 1024)).owner ≠ tenant || (s.window (r.slot / 1024)).reassigning then
      u.respond h 0x21 [2]
    else if r.mirror ≠ s.memberId || s.slotInFlight r.slot || ((s.slot r.slot).fleet && (s.slot r.slot).home ≠ h.src) then
      u.respond h 0x21 [0]
    else
      let a := u.mirrors h r
      (a.append (a.fleetRecord 0x50 1 0 r.slot 0xFFFF 0 0) []).respond h 0x21 [1]) := by
  simp only [exec, execRoleOffer]
  rw [State.receive_arrives ha, State.asRequest_fresh (State.frameIn_fresh ha hf)]
  simp only [State.frameIn_slot ha, State.frameIn_memberId ha, State.frameIn_window ha, State.frameIn_inFlight ha, State.mirrors]
  rfl

include ha hf in
theorem exec_roleOffer_elsewhere (he : s.elsewhere r.slot tenant) :
    exec (.roleOffer h r tenant) s = .next ((s.frameIn h).1.respond h 0x21 [2]) := by
  rw [exec_roleOffer_row ha hf]
  dsimp only
  rw [if_pos]
  simpa [State.elsewhere, or_assoc] using he

include ha hf in
theorem exec_roleOffer_busy (he : ¬s.elsewhere r.slot tenant) (hb : s.slotInFlight r.slot = true) :
    exec (.roleOffer h r tenant) s = .next ((s.frameIn h).1.respond h 0x21 [0]) := by
  rw [exec_roleOffer_row ha hf]
  dsimp only
  rw [if_neg, if_pos]
  · simp [hb]
  · simpa [State.elsewhere, or_assoc] using he

include ha hf in
theorem exec_roleOffer_accepted (he : ¬s.elsewhere r.slot tenant) (hb : s.slotInFlight r.slot = false)
    (hm : r.mirror = s.memberId) (hx : (s.slot r.slot).fleet = false ∨ (s.slot r.slot).home = h.src) :
    exec (.roleOffer h r tenant) s = .next (let a := (s.frameIn h).1.mirrors h r
      (a.append (a.fleetRecord 0x50 1 0 r.slot 0xFFFF 0 0) []).respond h 0x21 [1]) := by
  have hother : ((s.slot r.slot).fleet && decide ((s.slot r.slot).home ≠ h.src)) = false := by
    rcases hx with hx | hx <;> simp [hx]
  rw [exec_roleOffer_row ha hf]
  dsimp only
  rw [if_neg, if_neg]
  · rw [hb, hm, hother]
    simp
  · simpa [State.elsewhere, or_assoc] using he

theorem State.mirrors_roled (hw : mapWf {} s.lg.slots = true) (h : LinkHdr) (r : RoleFields) :
    s.Roled r.slot 0 (Slot.mirrors h.src s.memberId r) (s.mirrors h r) ∧ s.Hushed (s.mirrors h r) := by
  have hset := State.setRoles_roled hw r.slot h.src s.memberId true r.leased r.roleEpoch
  have hhush := s.setRoles_hushed r.slot h.src s.memberId true r.leased r.roleEpoch
  unfold State.mirrors
  dsimp only
  generalize s.setRoles r.slot h.src s.memberId true r.leased r.roleEpoch = a at hset hhush ⊢
  have hslot := State.onSlot_roled (hset.wf hw) r.slot fun x => { x.takeImage r with state := 2 }
  have hquiet : a.Hushed (a.onSlot r.slot fun x => { x.takeImage r with state := 2 }) := ⟨rfl, rfl, rfl, rfl⟩
  generalize a.onSlot r.slot (fun x => { x.takeImage r with state := 2 }) = b at hslot hquiet ⊢
  obtain ⟨hgrants, hstill⟩ := b.freshGrants_unless r.slot r.serial (((s.slot r.slot).fleet
    && decide ((s.slot r.slot).leased = r.leased) && decide ((s.slot r.slot).mirror = s.memberId)) = true)
  exact ⟨(hset.trans (hslot.trans (hgrants.trans (State.serveAgain_roled _ r.slot r.slot)))).congr rfl,
    ((hhush.trans hquiet).trans hstill).trans ⟨rfl, rfl, rfl, rfl⟩⟩

end RoleOffer

/-! ### RoleApply and its answer (R338) -/

section RoleApply

variable {v : Viewer} (hn : s.roleSlot = n) (hlt : n < 2097152) (howner : (s.window (n / 1024)).owner ≠ 0xFF)
  (hre : (s.window (n / 1024)).reassigning = false) (hhome : (s.slot n).fleet = false ∨ (s.slot n).home = s.memberId)
  (hbusy : s.slotInFlight n = false) (hoffer : s.xl.offer = none)
  (hlent : ((s.slot n).leased && s.lentOut n) = false) (h : Writable s v 0x7820 4 1)

include hn hlt howner hre hhome hbusy hoffer hlent in
/-- A RoleApply that nothing refuses. -/
theorem roleApply_free : roleApply 1 s = if s.roleMirror = 0xFFFF then
      (let t := s.assignRole n 0xFFFF s.roleLeased
       if (s.slot n).mirrored then t.sendMember (s.slot n).mirror 3 0x04 (be 4 n ++ be 2 (t.slot n).roleEpoch) else t, stOk)
    else if s.roleMirror = s.memberId || !s.reachable s.roleMirror then (s, stMirrorTimeout)
    else
      (let t := s.sendRequest s.roleMirror 0x11 (roleBytes { s.roleOf n with
          roleEpoch := ((s.slot n).roleEpoch + 1) % 65536, home := s.memberId, mirror := s.roleMirror, mirrored := true
          leased := s.roleLeased, leases := [] } ++ be 1 (s.window (n / 1024)).owner)
       t.onXl fun y => { y with offer := some {
          slot := n, mirror := s.roleMirror, leased := t.roleLeased, start := t.clock, reqId := s.xl.nextReq } }, stWaits) := by
  have hother : ((s.slot n).fleet && decide ((s.slot n).home ≠ s.memberId)) = false := by
    rcases hhome with hx | hx <;> simp [hx]
  have hlent' : ((s.slot n).fleet && (s.slot n).leased && s.lentOut n) = false := by
    rw [Bool.and_assoc, hlent, Bool.and_false]
  unfold roleApply
  simp only [hn, ne_eq, not_true, if_false, show ¬2097152 ≤ n by omega, howner, hre, hbusy, hoffer, hlent', decide_false,
    Option.isSome_none, Bool.false_eq_true, Bool.or_self]
  rw [if_neg (by simpa using hother)]

include hn hlt howner hre hhome hbusy hoffer hlent h in
theorem exec_roleApply_alone (hm : s.roleMirror = 0xFFFF) (hx : (s.slot n).mirrored = false) :
    Wrote (.roleApply v 1#8) s v stOk (s.assignRole n 0xFFFF s.roleLeased) := by
  obtain ⟨hc, hw⟩ := State.commutes_served (s := s) (v := v) (f := fun s => s.assignRole n 0xFFFF s.roleLeased)
    fun s _ _ => State.turned_assignRole
  have hact : roleApply 1 (s.served v) = ((s.assignRole n 0xFFFF s.roleLeased).served v, stOk) := by
    have hm' : (s.served v).roleMirror = 0xFFFF := hm
    have hx' : ((s.served v).slot n).mirrored = false := hx
    rw [← hw, roleApply_free (s := s.served v) hn hlt howner hre hhome hbusy hoffer hlent, if_pos hm']
    dsimp only
    rw [hx', if_neg Bool.false_ne_true]
  exact State.writeNum_served (w := {}) (tenant := ownTenant) h rfl (k := 1) rfl (by decide) rfl (namedTenant_own v) rfl
    hact (by decide) (hc.trans h.closing)

/-- The offer goes to the mirror. -/
def State.offers (n : Nat) (s : State) : State :=
  let t := s.sendRequest s.roleMirror 0x11 (roleBytes { s.roleOf n with
          roleEpoch := ((s.slot n).roleEpoch + 1) % 65536, home := s.memberId, mirror := s.roleMirror, mirrored := true
          leased := s.roleLeased, leases := [] } ++ be 1 (s.window (n / 1024)).owner)
  t.onXl fun y => { y with offer := some {
          slot := n, mirror := s.roleMirror, leased := t.roleLeased, start := t.clock, reqId := s.xl.nextReq } }

include hn hlt howner hre hhome hbusy hoffer hlent h in
theorem exec_roleApply_waits (hm : s.roleMirror ≠ 0xFFFF) (hme : s.roleMirror ≠ s.memberId)
    (hr : s.reachable s.roleMirror = true) :
    ∃ r, exec (.roleApply v 1#8) s = .next (((s.served v).offers n).onPd fun p => { p with deferred := some r }) := by
  have hact : roleApply 1 (s.served v) = ((s.served v).offers n, stWaits) := by
    have hr' : (s.served v).reachable (s.served v).roleMirror = true := hr
    have hm' : (s.served v).roleMirror ≠ 0xFFFF := hm
    have hme' : (s.served v).roleMirror ≠ (s.served v).memberId := hme
    rw [roleApply_free (s := s.served v) hn hlt howner hre hhome hbusy hoffer hlent, if_neg hm', if_neg]
    · rfl
    · simp [hr', hme']
  obtain ⟨r, hwrite⟩ := State.writeNum_waits (w := {}) (tenant := ownTenant) h rfl (size := 1) rfl (by decide) rfl
    (namedTenant_own v) rfl hact
  exact ⟨r, congrArg Host.Outcome.next hwrite⟩

theorem State.offers_roled (s : State) (n : Nat) : s.Roled n 0 id (s.offers n) ∧ (s.offers n).xl.offer = some {
    slot := n, mirror := s.roleMirror, leased := s.roleLeased, start := s.clock, reqId := s.xl.nextReq } := by
  have hroled : s.Roled n 0 id (s.offers n) := by
    unfold State.offers
    exact (State.sendRequest_roled ..).after (State.onXl_roled _ n _ rfl rfl)
  refine ⟨hroled, ?_⟩
  have hleased : (s.sendRequest s.roleMirror 0x11 (roleBytes { s.roleOf n with
      roleEpoch := ((s.slot n).roleEpoch + 1) % 65536, home := s.memberId, mirror := s.roleMirror, mirrored := true
      leased := s.roleLeased, leases := [] } ++ be 1 (s.window (n / 1024)).owner)).roleLeased = s.roleLeased :=
    decide_eq_decide.mpr (by rw [State.sendRequest, State.num_sendMember _ _ _ _ _ (by decide)]; rfl)
  have hclock (m type : Nat) (b : Bytes) : (s.sendRequest m type b).clock = s.clock := by
    rw [(State.sendRequest_roled s m type b n).same]
  simp only [State.offers, State.onXl, hleased, hclock]

end RoleApply

section RoleAnswer

variable {h : LinkHdr} {o : RoleChange} {q : LinkReq} (ha : Arrives s h 0x21) (hq : s.asked h 0x11 q)
  (ho : s.xl.offer = some o) (hid : q.reqId = o.reqId)

/-- The offer has its answer: it is open no more. -/
def State.offerClosed (h : LinkHdr) (s : State) : State := { s with xl := { s.xl with
  requests := s.xl.requests.filter fun q => q.reqId ≠ h.reqId, offer := none } }

/-- The status that a ROLE_ANSWER gives the RoleApply. -/
def answerStatus : RoleAnswer → Status
  | .accepted => stOk
  | .refused => stSlotBusy
  | .badSlot => stBadSlot

include ha hq ho hid in
theorem State.roleAnswered_open (answer : RoleAnswer) : (s.frameIn h).1.roleAnswered h answer
    = (let a := (s.frameIn h).1.offerClosed h
       if answer = .accepted then a.assignRole o.slot o.mirror o.leased else a, some (answerStatus answer)) := by
  obtain ⟨m, hxl⟩ := State.frameIn_xl ha
  have hoffer : (s.frameIn h).1.xl.offer = some o := by rw [hxl]; exact ho
  have htake := State.takeRequest_asked (State.frameIn_asked ha hq)
  generalize (s.frameIn h).1 = u at hoffer htake ⊢
  have hclosed : State.onXl (fun x => { x with offer := none }) { u with xl := { u.xl with
      requests := u.xl.requests.filter fun q => q.reqId ≠ h.reqId } } = u.offerClosed h := rfl
  generalize ({ u with xl := { u.xl with requests := u.xl.requests.filter fun q => q.reqId ≠ h.reqId } } : State) = r
    at htake hclosed
  simp only [State.roleAnswered, hoffer, htake]
  rw [if_neg (by simp [hid]), hclosed]
  cases answer with
  | accepted => rw [if_pos rfl]; rfl
  | refused => rw [if_neg (by simp)]; rfl
  | badSlot => rw [if_neg (by simp)]; rfl

include ha hq ho hid in
theorem exec_roleAnswer {v : Viewer} {answer : RoleAnswer} {t : State}
    (ht : (let a := (s.frameIn h).1.offerClosed h
      if answer = .accepted then a.assignRole o.slot o.mirror o.leased else a) = t) (htw : t.waitsAlone v 0x7820 4) :
    exec (.roleAnswer h answer) s = .next (State.emit (.directory v (answerStatus answer) [])
      { t with pd := { t.pd with deferred := none, turn := originOf v } }) := by
  simp only [exec, execRoleAnswer]
  rw [State.receive_arrives ha, State.roleAnswered_open ha hq ho hid]
  dsimp only at ht ⊢
  rw [ht]
  exact congrArg Host.Outcome.next (State.roleDecided_alone htw _)

end RoleAnswer

/-- No answer has come within 1 ms. -/
theorem exec_roleOfferTimeout {o : RoleChange} {v : Viewer} (ho : s.xl.offer = some o) (hc : o.start + 1000000 ≤ s.clock)
    (hw : s.waitsAlone v 0x7820 4) : exec .roleOfferTimeout s = .next (State.emit (.directory v stMirrorTimeout []) { s with
      xl := { s.xl with offer := none, requests := s.xl.requests.filter fun q => q.reqId ≠ o.reqId }
      pd := { s.pd with deferred := none, turn := originOf v } }) := by
  simp only [exec, execRoleOfferTimeout, ho, Option.isNone_some, Bool.false_eq_true, if_false, State.roleOfferLate, if_pos hc]
  exact congrArg Host.Outcome.next (State.roleDecided_alone (t := s.onXl fun x => { x with
    offer := none, requests := x.requests.filter fun q => q.reqId ≠ o.reqId }) hw _)

/-- A lease comes back to the authority: LEASE RETURN (R342). -/
theorem State.leaseBack_roled (hs : s.Spare 1) (l : Lease) (n : Nat) : s.Roled n 1 id (s.leaseBack l)
    ∧ (s.leaseBack l).xl.leases = s.xl.leases.filter fun m => m ≠ l := by
  have hx : s.Roled n 0 id (s.onXl fun x => { x with leases := x.leases.filter fun m => m ≠ l }) := s.onXl_roled n _ rfl rfl
  have hspare := hx.spare (l := 1) hs
  obtain ⟨lg, hlg⟩ := State.appendFleet_kept hspare 0x51 2 0 l.slot l.holder l.first l.last
  refine ⟨hx.after (State.appendFleet_roled hspare 0x51 2 0 l.slot l.holder l.first l.last n), ?_⟩
  unfold State.leaseBack
  dsimp only
  rw [hlg]
  rfl

theorem exec_leaseReturn {h : LinkHdr} {range : LeaseRange} {l : Lease} (ha : Arrives s h 0x33)
    (hauth : (s.slot n).authority = s.memberId) (hl : s.xl.leases.find? (fun l => l.slot = n && l.holder = h.src
      && l.first = range.first && l.last = range.last) = some l) :
    exec (.leaseReturn h n range) s = .next ((s.frameIn h).1.leaseBack l) := by
  obtain ⟨m, hxl⟩ := State.frameIn_xl ha
  have hleases : (s.frameIn h).1.xl.leases = s.xl.leases := by rw [hxl]
  simp only [exec, execLeaseReturn]
  rw [State.receive_arrives ha]
  simp only [hleases, hl, State.frameIn_slot ha, State.frameIn_memberId ha, hauth, if_true]

/-! ### Ceremony claims (R343) -/

/-- `t` is `s` but for frames sent and what the Fleet holds. -/
def State.Claimed (s t : State) : Prop := t = { s with
  xl := t.xl, pd := { s.pd with nums := t.pd.nums }, latches := t.latches, outbox := t.outbox }

theorem State.Claimed.trans (h : s.Claimed t) (h' : t.Claimed u) : s.Claimed u := by
  have hu : u = { t with xl := u.xl, pd := { t.pd with nums := u.pd.nums }, latches := u.latches, outbox := u.outbox } := h'
  have ht : t = { s with xl := t.xl, pd := { s.pd with nums := t.pd.nums }, latches := t.latches, outbox := t.outbox } := h
  refine hu.trans ?_
  rw [ht]

theorem State.sendMember_claimed (s : State) (m vc type : Nat) (b : Bytes) : s.Claimed (s.sendMember m vc type b) := by
  obtain ⟨ports, l, nums, o, h⟩ := s.sendMember_sent m vc type b
  rw [h]
  rfl

theorem State.respond_claimed (s : State) (h : LinkHdr) (type : Nat) (b : Bytes) : s.Claimed (s.respond h type b) :=
  State.Claimed.trans (t := s.onXl _) rfl (State.sendMember_claimed ..)

/-- A frame to a member with a route changes ports and the outbox alone. -/
theorem State.sendMember_routed {m : Nat} (hr : (s.route 0 m).valid = true) (vc type : Nat) (b : Bytes) : ∃ ports o,
    s.sendMember m vc type b = { s with xl := { s.xl with ports := ports }, outbox := s.outbox ++ o } := by
  have hport (p : Nat) (f : QFrame) : ∃ ports o, s.sendPort p f
      = { s with xl := { s.xl with ports := ports }, outbox := s.outbox ++ o } := by
    unfold State.sendPort
    dsimp only
    split
    · exact ⟨_, [], by rw [List.append_nil]⟩
    · split
      · exact ⟨_, [], by rw [List.append_nil]; rfl⟩
      · exact ⟨_, _, rfl⟩
  unfold State.sendMember
  dsimp only
  rw [hr, if_neg (by simp)]
  split
  · exact ⟨_, [], by rw [List.append_nil]⟩
  · exact hport _ _

theorem State.sendMembers_routed (vc type : Nat) (b : Bytes) : ∀ (ms : List Nat) (s : State),
    (∀ m ∈ ms, (s.route 0 m).valid = true) → ∃ ports o, ms.foldl (fun s m => State.sendMember m vc type b s) s
      = { s with xl := { s.xl with ports := ports }, outbox := s.outbox ++ o }
  | [], s, _ => ⟨s.xl.ports, [], by rw [List.append_nil]; rfl⟩
  | m :: ms, s, h => by
    obtain ⟨ports, o, hm⟩ := State.sendMember_routed (h m (List.mem_cons_self ..)) vc type b
    obtain ⟨ports', o', hms⟩ := State.sendMembers_routed vc type b ms (s.sendMember m vc type b) fun k hk => by
      rw [hm]
      exact h k (List.mem_cons_of_mem _ hk)
    refine ⟨ports', o ++ o', ?_⟩
    rw [List.foldl_cons, hms, hm, List.append_assoc]

theorem State.claimees_routed (s : State) : ∀ m ∈ s.claimees, (s.route 0 m).valid = true := by
  intro m hm
  unfold State.claimees at hm
  split at hm
  · have hr := (List.mem_filter.mp hm).2
    simp only [State.reachable, Bool.and_eq_true] at hr
    obtain ⟨⟨⟨hv, -⟩, -⟩, -⟩ := hr
    exact hv
  · exact absurd hm List.not_mem_nil

/-- A claim that is over is withdrawn, where it has failed, with frames alone. -/
theorem State.dropClaim_eq (s : State) (failed : Bool) : ∃ ports o, s.dropClaim failed = { s with
    xl := { s.xl with ports := ports, claim := none, requests := s.xl.requests.filter fun r => r.type ≠ 0x13 }
    outbox := s.outbox ++ o } := by
  unfold State.dropClaim
  dsimp only
  split
  · obtain ⟨ports, o, h⟩ := State.sendMembers_routed 3 0x05 [] _ _ (State.claimees_routed (s.onXl fun x => { x with
      claim := none, requests := x.requests.filter fun r => r.type ≠ 0x13 }))
    exact ⟨ports, o, h⟩
  · exact ⟨s.xl.ports, [], by rw [List.append_nil]; rfl⟩

theorem State.waitsAlone_of {v : Viewer} {index sub : Nat} (hpd : t.pd.waiting = s.pd.waiting ∧ t.pd.deferred = s.pd.deferred)
    (hsp : t.sp.closing = s.sp.closing) (h : s.waitsAlone v index sub) : t.waitsAlone v index sub := by
  obtain ⟨hwait, hdef⟩ := hpd
  unfold State.waitsAlone
  rw [hwait, hdef, hsp]
  exact h

/-- A claim that has failed: it is dropped, and the ModeRequest that waited is refused. -/
theorem State.claimDecided_failed {v : Viewer} (h : s.waitsAlone v 0x1100 2) : ∃ t,
    State.claimDecided (s.dropClaim true, some false) = t ∧ t = { s with xl := t.xl, pd := t.pd, outbox := t.outbox }
    ∧ t.xl.claim = none ∧ t.pd.deferred = none ∧ t.outbox.getLast? = some (.directory v stModeRefused []) := by
  obtain ⟨ports, o, hd⟩ := s.dropClaim_eq true
  have hw : (s.dropClaim true).waitsAlone v 0x1100 2 := by
    rw [hd]
    exact h
  have heq : State.claimDecided (s.dropClaim true, some false) = (s.dropClaim true).completeDeferred stModeRefused := by
    simp [State.claimDecided, State.waitsOn_alone hw]
  refine ⟨_, heq, ?_⟩
  rw [State.completeDeferred_alone hw, hd]
  exact ⟨rfl, rfl, rfl, List.getLast?_concat ..⟩

section ClaimAnswer

variable {h : LinkHdr} {c : Claim} {q : LinkReq} {v : Viewer} (ha : Arrives s h 0x23) (hq : s.asked h 0x13 q)
  (hc : s.xl.claim = some c)

/-- The request of a claim has its answer. -/
def State.claimHeard (h : LinkHdr) (s : State) : State := { s with xl := { s.xl with
  requests := s.xl.requests.filter fun q => q.reqId ≠ h.reqId } }

include ha hq hc in
theorem State.claimAnswered_open (granted : Bool) : (s.frameIn h).1.claimAnswered h granted
    = (let a := (s.frameIn h).1.claimHeard h
       if !granted then (a.dropClaim true, some false)
       else if c.waiting.filter (· ≠ h.src) = [] then (a.dropClaim false, some true)
       else (a.onXl fun x => { x with claim := some { c with waiting := c.waiting.filter (· ≠ h.src) } }, none)) := by
  obtain ⟨m, hxl⟩ := State.frameIn_xl ha
  have hclaim : (s.frameIn h).1.xl.claim = some c := by rw [hxl]; exact hc
  have htake := State.takeRequest_asked (State.frameIn_asked ha hq)
  generalize (s.frameIn h).1 = u at hclaim htake ⊢
  simp only [State.claimAnswered, hclaim, htake]
  rfl

include ha hq hc in
theorem exec_claimAnswer_refused (hw : s.waitsAlone v 0x1100 2) : ∃ t, exec (.claimAnswer h false) s = .next t
    ∧ t = { (s.frameIn h).1 with xl := t.xl, pd := t.pd, outbox := t.outbox }
    ∧ t.xl.claim = none ∧ t.pd.deferred = none ∧ t.outbox.getLast? = some (.directory v stModeRefused []) := by
  have hroled := State.frameIn_roled ha 0
  have hwu : ((s.frameIn h).1.claimHeard h).waitsAlone v 0x1100 2 := hroled.waitsAlone hw
  obtain ⟨t, heq, hrest⟩ := State.claimDecided_failed hwu
  refine ⟨t, ?_, hrest⟩
  simp only [exec, execClaimAnswer]
  rw [State.receive_arrives ha, State.claimAnswered_open ha hq hc]
  exact congrArg Host.Outcome.next heq

include ha hq hc in
theorem exec_claimAnswer_waits {m : Nat} {ms : List Nat} (hms : c.waiting.filter (· ≠ h.src) = m :: ms) :
    exec (.claimAnswer h true) s = .next { (s.frameIn h).1 with xl := { (s.frameIn h).1.xl with
        requests := s.xl.requests.filter fun q => q.reqId ≠ h.reqId, claim := some { c with waiting := m :: ms } } } := by
  obtain ⟨k, hxl⟩ := State.frameIn_xl ha
  have hreq : s.xl.requests = (s.frameIn h).1.xl.requests := by rw [hxl]
  simp only [exec, execClaimAnswer]
  rw [State.receive_arrives ha, State.claimAnswered_open ha hq hc, hreq]
  dsimp only
  rw [if_neg (by simp), hms, if_neg (by simp)]
  rfl

end ClaimAnswer

theorem exec_ceremonyClaimTimeout {c : Claim} {v : Viewer} (hc : s.xl.claim = some c) (hl : c.start + 10000000 ≤ s.clock)
    (hw : s.waitsAlone v 0x1100 2) : ∃ t, exec .ceremonyClaimTimeout s = .next t
    ∧ t = { s with xl := t.xl, pd := t.pd, outbox := t.outbox } ∧ t.xl.claim = none ∧ t.pd.deferred = none
    ∧ t.outbox.getLast? = some (.directory v stModeRefused []) := by
  obtain ⟨t, heq, hrest⟩ := State.claimDecided_failed hw
  refine ⟨t, ?_, hrest⟩
  simp only [exec, execCeremonyClaimTimeout, hc, Option.isNone_some, Bool.false_eq_true, if_false, State.claimLate, if_pos hl]
  exact congrArg Host.Outcome.next heq

section CeremonyClaim

variable {h : LinkHdr} {unit : Nat} (ha : Arrives s h 0x13) (hf : s.fresh h)

include ha hf in
theorem exec_ceremonyClaim : exec (.ceremonyClaim h unit) s = .next (let u := (s.frameIn h).1
    if s.deniesClaim unit then u.respond h 0x23 [0]
    else (u.onXl fun x => { x with ceremonyHolder := h.src }).respond h 0x23 [1]) := by
  obtain ⟨m, o, hu⟩ := State.frameIn_arrives ha
  have hd : (s.frameIn h).1.deniesClaim unit = s.deniesClaim unit := by rw [hu]; rfl
  simp only [exec, execCeremonyClaim]
  rw [State.receive_arrives ha, State.asRequest_fresh (State.frameIn_fresh ha hf), hd]

end CeremonyClaim

theorem exec_ceremonyEnd {h : LinkHdr} (ha : Arrives s h 5) (hc : s.xl.ceremonyHolder = h.src) : exec (.ceremonyEnd h) s
    = .next { (s.frameIn h).1 with xl := { (s.frameIn h).1.xl with ceremonyHolder := 0xFFFF } } := by
  have hholder : (s.frameIn h).1.xl.ceremonyHolder = h.src := (State.frameIn_roled ha 0).holder.trans hc
  simp only [exec, execCeremonyEnd]
  rw [State.receive_arrives ha, if_pos hholder]
  rfl

/-! ### Work that is taken up leaves modes, members and the Directory's requests (log entry 18) -/

/-- What the engines' and units' work leaves of `s`: mode, Fleet, session, outbox, and what waits in the Directory. -/
structure State.Busied (s t : State) : Prop where
  pwr : t.pwr = s.pwr
  xl : t.xl = s.xl
  sp : t.sp = s.sp
  outbox : t.outbox = s.outbox
  waiting : t.pd.waiting = s.pd.waiting
  deferred : t.pd.deferred = s.pd.deferred

theorem State.Busied.refl (s : State) : s.Busied s := ⟨rfl, rfl, rfl, rfl, rfl, rfl⟩

theorem State.Busied.trans (h : s.Busied t) (h' : t.Busied u) : s.Busied u :=
  ⟨h'.pwr.trans h.pwr, h'.xl.trans h.xl, h'.sp.trans h.sp, h'.outbox.trans h.outbox, h'.waiting.trans h.waiting,
    h'.deferred.trans h.deferred⟩

theorem State.Busied.foldl {α : Type} {f : State → α → State} (h : ∀ (s : State) (a : α), s.Busied (f s a)) (l : List α)
    (s : State) : s.Busied (l.foldl f s) :=
  List.foldlRecOn (motive := s.Busied) l f (.refl s) fun _ hs a _ => hs.trans (h _ a)

theorem State.applyNum_busied (s : State) (index sub inst : Nat) : s.Busied (s.applyNum index sub inst) := by
  unfold State.applyNum
  split
  · exact ⟨rfl, rfl, rfl, rfl, rfl, rfl⟩
  · exact .refl s

theorem State.takeBlock_busied (s : State) : s.Busied s.takeBlock.2 := by
  unfold State.takeBlock
  split
  · exact ⟨rfl, rfl, rfl, rfl, rfl, rfl⟩
  · exact ⟨rfl, rfl, rfl, rfl, rfl, rfl⟩

theorem State.reseed_busied (s : State) (i : Nat) : s.Busied (s.reseed i) := by
  have happly := (s.applyNum_busied 0x4800 8 0).trans (State.applyNum_busied _ 0x4800 9 0)
  have hblock := happly.trans (State.takeBlock_busied _)
  unfold State.reseed
  dsimp only
  generalize ((s.applyNum 0x4800 8 0).applyNum 0x4800 9 0).takeBlock = r at hblock ⊢
  unfold State.noteReseed
  split
  · exact hblock.trans ⟨rfl, rfl, rfl, rfl, rfl, rfl⟩
  · exact hblock.trans ⟨rfl, rfl, rfl, rfl, rfl, rfl⟩

theorem State.generate_busied (s : State) (i n : Nat) (resist : Bool) : s.Busied (s.generate i n resist).2 := by
  unfold State.generate
  dsimp only
  split
  · exact (s.reseed_busied i).trans ⟨rfl, rfl, rfl, rfl, rfl, rfl⟩
  · exact ⟨rfl, rfl, rfl, rfl, rfl, rfl⟩

theorem State.onEngine_busied (s : State) (e : Nat) (f : Engine → Engine) : s.Busied (s.onEngine e f) :=
  ⟨rfl, rfl, rfl, rfl, rfl, rfl⟩

theorem State.onUnit_busied (s : State) (u : Nat) (f : LatticeUnit → LatticeUnit) : s.Busied (s.onUnit u f) :=
  ⟨rfl, rfl, rfl, rfl, rfl, rfl⟩

theorem State.onManifest_busied (s : State) (id : Nat) (f : Manifest → Manifest) : s.Busied (s.onManifest id f) :=
  ⟨rfl, rfl, rfl, rfl, rfl, rfl⟩

theorem State.onTake_busied (s : State) (id : Nat) (f : Take → Take) : s.Busied (s.onTake id f) :=
  ⟨rfl, rfl, rfl, rfl, rfl, rfl⟩

theorem State.fillEngine_busied (s : State) (e : Nat) : s.Busied (s.fillEngine e) := by
  simp only [State.fillEngine]
  split
  · exact .refl s
  · exact (s.generate_busied ..).trans (State.onEngine_busied ..)

theorem State.engineDraw_busied (e : Nat) : ∀ (fuel n : Nat) (s : State), s.Busied (s.engineDraw e fuel n).2
  | 0, _, s => .refl s
  | fuel + 1, n, s => by
    unfold State.engineDraw
    extract_lets filled b drawn r
    have hf : s.Busied filled := by
      unfold filled
      split
      · exact s.fillEngine_busied e
      · exact .refl s
    have hd : s.Busied drawn := hf.trans (filled.onEngine_busied e _)
    split
    · exact hd
    · exact hd.trans (State.engineDraw_busied e fuel (n - 512) drawn)

theorem State.engineBytes_busied (s : State) (e n : Nat) : s.Busied (s.engineBytes e n false).2 :=
  State.engineDraw_busied e _ _ s

theorem State.fillUnit_busied (s : State) (u : Nat) (direct : Bool) : s.Busied (s.fillUnit u direct) := by
  simp only [State.fillUnit]
  split
  · exact .refl s
  · exact (s.generate_busied ..).trans (State.onUnit_busied ..)

theorem State.unitBytes_busied (s : State) (u n : Nat) (direct resist : Bool) :
    s.Busied (s.unitBytes u n direct resist).2 := by
  unfold State.unitBytes
  extract_lets seeded filled b
  have hs : s.Busied seeded := by
    unfold seeded
    split
    · exact (s.reseed_busied _).trans (State.onUnit_busied ..)
    · exact .refl s
  have hf : seeded.Busied filled := by
    unfold filled
    split
    · exact seeded.fillUnit_busied u direct
    · exact .refl seeded
  exact hs.trans (hf.trans (filled.onUnit_busied u fun l => l.setBuffer direct (b.drop n)))

theorem State.abandonManifests_busied (s : State) (p : Manifest → Bool) (code : Status) :
    s.Busied (s.abandonManifests p code) := by
  unfold State.abandonManifests
  extract_lets gone counted failed released
  have hc : s.Busied counted := .foldl (f := fun s (m : Manifest) => s.onCounts m.tenant _)
    (fun _ _ => ⟨rfl, rfl, rfl, rfl, rfl, rfl⟩) gone s
  exact hc.trans ⟨rfl, rfl, rfl, rfl, rfl, rfl⟩

theorem State.assignTake_busied (s : State) (t : Take) : s.Busied (s.assignTake t) := by
  simp only [State.assignTake]
  split
  · exact .refl s
  · split
    · simp only [State.beginSeal]
      split
      · exact State.onTake_busied ..
      · exact (s.engineBytes_busied ..).trans (State.onTake_busied ..)
    · exact .refl s

theorem State.assignEc_busied (s : State) (m : Manifest) : s.Busied (s.assignEc m) := by
  simp only [State.assignEc]
  split
  · exact .refl s
  · split
    · exact .refl s
    · split
      · exact .refl s
      · exact ((s.engineBytes_busied ..).trans (State.engineBytes_busied ..)).trans (State.onManifest_busied ..)

theorem State.assignMl_busied (s : State) (m : Manifest) : s.Busied (s.assignMl m) := by
  simp only [State.assignMl]
  split
  · exact .refl s
  · split
    · exact .refl s
    · split
      · exact ((s.unitBytes_busied ..).trans (State.onUnit_busied ..)).trans (State.onManifest_busied ..)
      · exact s.onUnit_busied ..

theorem State.assignManifest_busied (s : State) (m : Manifest) : s.Busied (s.assignManifest m) := by
  simp only [State.assignManifest]
  split
  · exact .refl s
  · split
    · exact s.abandonManifests_busied ..
    · exact (s.assignEc_busied m).trans (State.assignMl_busied _ m)

theorem State.assignKeyEngine_busied (s : State) : s.Busied s.assignKeyEngine := by
  simp only [State.assignKeyEngine]
  split
  · split
    · exact .refl s
    · exact ⟨rfl, rfl, rfl, rfl, rfl, rfl⟩
  · exact .refl s

theorem State.assignVerify_busied (s : State) (e : Nat × UnitOp) : s.Busied (s.assignVerify e) := by
  simp only [State.assignVerify]
  split
  · exact .refl s
  · exact ⟨rfl, rfl, rfl, rfl, rfl, rfl⟩

theorem State.assignAnchor_busied (s : State) (j : AnchorJob) : s.Busied (s.assignAnchor j) := by
  simp only [State.assignAnchor]
  split
  · split
    · exact .refl s
    · split
      · exact s.onUnit_busied ..
      · split
        · exact ⟨rfl, rfl, rfl, rfl, rfl, rfl⟩
        · exact (s.generate_busied ..).trans (State.onUnit_busied ..)
  · exact .refl s

theorem State.serviceEnd_busied (s : State) (core : Nat) (status : Status) : s.Busied (s.serviceEnd core status) := by
  simp only [State.serviceEnd]
  split
  · exact ⟨rfl, rfl, rfl, rfl, rfl, rfl⟩
  · exact ⟨rfl, rfl, rfl, rfl, rfl, rfl⟩

theorem State.assignService_busied (s : State) (core : Nat) : s.Busied (s.assignService core) := by
  simp only [State.assignService]
  split
  · split
    · simp only [State.beginService]
      split
      · exact s.serviceEnd_busied ..
      · exact (s.unitBytes_busied ..).trans ⟨rfl, rfl, rfl, rfl, rfl, rfl⟩
    · exact .refl s
  · exact .refl s

theorem State.assignWork_busied (s : State) : s.Busied s.assignWork := by
  unfold State.assignWork
  extract_lets takes manifests verified anchored
  have ht : s.Busied takes := .foldl State.assignTake_busied _ s
  have hm : takes.Busied manifests := .foldl State.assignManifest_busied _ takes
  have hv : manifests.Busied verified := manifests.assignKeyEngine_busied.trans (.foldl State.assignVerify_busied _ _)
  have ha : verified.Busied anchored := .foldl State.assignAnchor_busied _ verified
  exact ht.trans (hm.trans (hv.trans (ha.trans
    (.foldl (fun s (e : Nat × Option Outstanding) => s.assignService_busied e.1) _ anchored))))

/-- The Ceremony is entered: its mode, its holder, and work that is taken up (R442). -/
theorem State.enterCeremony_busied (s : State) : ∃ a : State, a.Busied s.enterCeremony ∧ a.pwr.mode = .ceremony
    ∧ a.xl = { s.xl with ceremonyHolder := s.memberId } ∧ a.sp = s.sp ∧ a.pd = s.pd ∧ a.outbox = s.outbox := by
  unfold State.enterCeremony
  extract_lets standby entered cleared held
  have hheld : held.pwr.mode = .ceremony ∧ held.xl = { s.xl with ceremonyHolder := s.memberId } ∧ held.sp = s.sp
      ∧ held.pd = s.pd ∧ held.outbox = s.outbox := ⟨rfl, rfl, rfl, rfl, rfl⟩
  split
  · exact ⟨held.onKrf _, State.assignWork_busied _, hheld⟩
  · exact ⟨held, .refl held, hheld⟩

/-- The last member has granted the claim, and what Table 2.2 asks still holds: the Ceremony is entered. -/
theorem State.claimDecided_granted {v : Viewer} (h : s.waitsAlone v 0x1100 2) (hm : s.mayHoldCeremony = true)
    (hc : s.xl.claim = none) : ∃ t, State.claimDecided (s, some true) = t ∧ t.pwr.mode = .ceremony ∧ t.xl.claim = none
      ∧ t.xl.ceremonyHolder = s.memberId ∧ t.pd.deferred = none
      ∧ t.outbox.getLast? = some (.directory v stOk []) := by
  obtain ⟨a, hb, hmode, hxl, hsp, hpd, -⟩ := s.enterCeremony_busied
  have heq : State.claimDecided (s, some true)
      = if s.enterCeremony.waitsOn 0x1100 2 then s.enterCeremony.completeDeferred stOk else s.enterCeremony := by
    simp only [State.claimDecided, hm, State.waitsOn_alone h, Bool.and_self, if_true]
  generalize s.enterCeremony = b at hb heq
  have hwait : b.pd.waiting = s.pd.waiting := hb.waiting.trans (congrArg Pd.waiting hpd)
  have hdef : b.pd.deferred = s.pd.deferred := hb.deferred.trans (congrArg Pd.deferred hpd)
  have hclose : b.sp.closing = s.sp.closing := congrArg Sp.closing (hb.sp.trans hsp)
  have hw : b.waitsAlone v 0x1100 2 := State.waitsAlone_of ⟨hwait, hdef⟩ hclose h
  rw [State.waitsOn_alone hw, if_pos rfl, State.completeDeferred_alone hw] at heq
  have hbxl : b.xl = { s.xl with ceremonyHolder := s.memberId } := hb.xl.trans hxl
  refine ⟨_, heq, (congrArg Pwr.mode hb.pwr).trans hmode, ?_, ?_, rfl, List.getLast?_concat ..⟩
  · exact (congrArg Xl.claim hbxl).trans hc
  · exact congrArg Xl.ceremonyHolder hbxl

theorem exec_claimAnswer_granted {h : LinkHdr} {c : Claim} {q : LinkReq} {v : Viewer} (ha : Arrives s h 0x23)
    (hq : s.asked h 0x13 q) (hc : s.xl.claim = some c) (hms : c.waiting = [h.src]) (hm : s.mayHoldCeremony = true)
    (hw : s.waitsAlone v 0x1100 2) : ∃ t, exec (.claimAnswer h true) s = .next t ∧ t.pwr.mode = .ceremony ∧ t.xl.claim = none
      ∧ t.xl.ceremonyHolder = s.memberId ∧ t.pd.deferred = none
      ∧ t.outbox.getLast? = some (.directory v stOk []) := by
  obtain ⟨ports, o, hu⟩ := State.frameIn_arrives ha
  let a := ((s.frameIn h).1.claimHeard h).dropClaim false
  have hwa : a.waitsAlone v 0x1100 2 := (State.frameIn_roled ha 0).waitsAlone hw
  have hma : a.mayHoldCeremony = true := by
    have hmay : (s.frameIn h).1.mayHoldCeremony = s.mayHoldCeremony := by rw [hu]; rfl
    exact hmay.trans hm
  have hme : a.memberId = s.memberId := State.frameIn_memberId ha
  obtain ⟨t, heq, hmode, hclaim, hholder, hrest⟩ := State.claimDecided_granted hwa hma rfl
  refine ⟨t, ?_, hmode, hclaim, hholder.trans hme, hrest⟩
  simp only [exec, execClaimAnswer]
  rw [State.receive_arrives ha, State.claimAnswered_open ha hq hc, hms]
  dsimp only
  rw [if_neg (by simp), if_pos (by simp)]
  exact congrArg Host.Outcome.next heq

end Sys2Proof.Machine

end

