-- ==== Sys2Proof/Proofs/FleetRolesKept.lean ====
section
-- The whole text is compiled in one process: one proof at a time keeps it within its memory.
set_option Elab.async false
/-! LEMMAS. Leases, roles and claims of the Fleet, row by row (R334, R335, R338, R342 to R344, Table 14.6). -/

namespace Sys2Proof.Machine

variable {s t u : State} {n k l : Nat} {f g : Slot → Slot}

/-! ### A RoleApply that is answered (R338) -/

theorem Slot.reassigned_authority (me m : Nat) (x : Slot) : (Slot.reassigned me m false x).authority = m := by
  have hl : (Slot.reassigned me m false x).leased = false := Slot.takeRoles_leased ..
  rw [Slot.authority, hl]
  rfl

theorem State.offerClosed_roled (s : State) (h : LinkHdr) (n : Nat) : s.Roled n 0 id (s.offerClosed h) where
  same := rfl
  others := fun _ _ => rfl
  self := rfl
  routes := rfl
  holder := rfl
  member := rfl
  count := rfl
  fill := Nat.le_refl _
  wf := id

/-- A home alone, without leases, is no Fleet slot's (R334). -/
theorem Slot.reassigned_unled (me : Nat) (x : Slot) : (Slot.reassigned me 0xFFFF false x).fleet = false := by
  have hm : (Slot.reassigned me 0xFFFF false x).mirrored = false := Slot.takeRoles_mirrored ..
  have hl : (Slot.reassigned me 0xFFFF false x).leased = false := Slot.takeRoles_leased ..
  rw [Slot.fleet, hm, hl, Bool.or_self, Bool.and_false]

/-- What a ROLE_ANSWER makes of the offer's slot, before the RoleApply is answered. -/
theorem exec_roleAnswer_roled {h : LinkHdr} {o : RoleChange} {q : LinkReq} {v : Viewer} (hw : mapWf {} s.lg.slots = true)
    (hs : s.Spare 2) (ha : Arrives s h 0x21) (hq : s.asked h 0x11 q) (ho : s.xl.offer = some o) (hid : q.reqId = o.reqId)
    (hwait : s.waitsAlone v 0x7820 4) (answer : RoleAnswer) : ∃ (z : State) (k : Nat) (f : Slot → Slot),
      exec (.roleAnswer h answer) s = .next (State.emit (.directory v (answerStatus answer) [])
        { z with pd := { z.pd with deferred := none, turn := originOf v } })
      ∧ s.Roled o.slot k f z ∧ (s.frameIn h).1.Roled o.slot k f z ∧ z.xl.offer = none ∧ (answer ≠ .accepted → f = id)
      ∧ (answer = .accepted → o.leased = false → o.mirror ≠ s.memberId → k = 1 ∧ f = Slot.reassigned s.memberId o.mirror false) := by
  have hus := State.frameIn_roled ha o.slot
  have hclosed := (s.frameIn h).1.offerClosed_roled h o.slot
  have hsa := hus.after hclosed
  have hwf := hsa.wf hw
  have hspare := hsa.spare (l := 2) hs
  by_cases hacc : answer = .accepted
  · have hexec {k : Nat} {f : Slot → Slot} (hroled : ((s.frameIn h).1.offerClosed h).Roled o.slot k f
        (((s.frameIn h).1.offerClosed h).assignRole o.slot o.mirror o.leased)) :=
      exec_roleAnswer ha hq ho hid (answer := answer) (if_pos hacc) ((hsa.after hroled).waitsAlone hwait)
    have hoffer := State.assignRole_offer hwf hspare o.slot o.mirror o.leased
    by_cases hplain : o.leased = false ∧ o.mirror ≠ s.memberId
    · obtain ⟨hl, hm⟩ := hplain
      have hroled := State.assignRole_roled hwf hspare (n := o.slot) (m := o.mirror) (leased := o.leased) (.inr (by
        rw [hl, Slot.reassigned_authority, hsa.member]
        exact hm))
      rw [hsa.member, hl] at hroled
      have hfinal := hexec (hl ▸ hroled)
      rw [hl] at hfinal hoffer
      exact ⟨_, 1, _, hfinal, hsa.after hroled, hclosed.after hroled, hoffer, fun hne => absurd hacc hne, fun _ _ _ => ⟨rfl, rfl⟩⟩
    · obtain ⟨k, hroled⟩ := State.assignRole_kept hwf hspare o.slot o.mirror o.leased
      exact ⟨_, k, _, hexec hroled, hsa.after hroled, hclosed.after hroled, hoffer, fun hne => absurd hacc hne,
        fun _ hl hm => absurd ⟨hl, hm⟩ hplain⟩
  · exact ⟨_, 0, id, exec_roleAnswer ha hq ho hid (if_neg hacc) (hsa.waitsAlone hwait), hsa, hclosed, rfl, fun _ => rfl,
      fun h => absurd h hacc⟩

/-! ### What the statements say of such an operation -/

/-- The frame of the statements: the Fleet's state, the slots and the cache, the journal, the Directory, latches and frames. -/
theorem State.Roled.frame (h : s.Roled n k f t) : t = { s with
    xl := t.xl
    lg := { s.lg with
      journalCount := t.lg.journalCount
      continuity := t.lg.continuity
      anchor := t.lg.anchor
      reel := t.lg.reel
      reelWritten := t.lg.reelWritten
      slots := t.lg.slots
      resident := t.lg.resident
      nodes := t.lg.nodes
      tree := t.lg.tree
      dirty := t.lg.dirty
      dirtyNodes := t.lg.dirtyNodes
      suspended := t.lg.suspended }
    pd := t.pd
    latches := t.latches
    outbox := t.outbox
    freeCtr := t.freeCtr } := by
  have hpd : t.pd = { s.pd with nums := t.pd.nums, staged := t.pd.staged } := congrArg State.pd h.same
  refine h.same.trans ?_
  rw [← hpd]

theorem State.Roled.answered (h : s.Roled n k f t) (o : Out) (pd : Pd) : State.emit o { t with pd := pd } = { s with
    xl := t.xl
    lg := { s.lg with
      journalCount := t.lg.journalCount
      continuity := t.lg.continuity
      anchor := t.lg.anchor
      reel := t.lg.reel
      reelWritten := t.lg.reelWritten
      slots := t.lg.slots
      resident := t.lg.resident
      nodes := t.lg.nodes
      tree := t.lg.tree
      dirty := t.lg.dirty
      dirtyNodes := t.lg.dirtyNodes
      suspended := t.lg.suspended }
    pd := pd
    latches := t.latches
    outbox := t.outbox ++ [o]
    freeCtr := t.freeCtr } :=
  congrArg (fun z : State => ({ z with pd := pd, outbox := t.outbox ++ [o] } : State)) h.frame

/-- What the statements allow an operation on the role of slot `n` to change in state `a`, which is `s` but for what the
frame brought. -/
def State.Within (n : Nat) (s a t : State) : Prop := t = { a with
      xl := t.xl
      lg := { a.lg with
        journalCount := t.lg.journalCount
        continuity := t.lg.continuity
        anchor := t.lg.anchor
        reel := t.lg.reel
        reelWritten := t.lg.reelWritten
        slots := t.lg.slots
        resident := t.lg.resident
        nodes := t.lg.nodes
        tree := t.lg.tree
        dirty := t.lg.dirty
        dirtyNodes := t.lg.dirtyNodes
        suspended := t.lg.suspended }
      pd := t.pd
      latches := t.latches
      outbox := t.outbox
      freeCtr := t.freeCtr }
    ∧ (∀ m, m ≠ n → t.slot m = s.slot m) ∧ t.xl.routes = s.xl.routes ∧ t.xl.ceremonyHolder = s.xl.ceremonyHolder

/-- A response leaves at once where its way is free. -/
def State.Answers (h : LinkHdr) (s t : State) (type : Nat) (b : Bytes) : Prop := ∀ p up,
  (s.frameIn h).1.sends h.src 1 (8 + b.length) p up → t.outbox
    = (s.frameIn h).1.outbox ++ [(s.frameIn h).1.outFrame p 1 type h.src s.memberId (!up) (be 8 h.reqId ++ b)]

theorem State.Roled.within (ha : s.Roled n 0 id t) (h : t.Roled n k f u) : State.Within n s t u
    ∧ u.lg.journalCount = s.lg.journalCount + k ∧ u.slot n = f (s.slot n) := by
  have hboth := ha.after h
  exact ⟨⟨h.frame, hboth.others, hboth.routes, hboth.holder⟩, hboth.count, hboth.self⟩

theorem State.answers_respond {h : LinkHdr} {typ type : Nat} {b : Bytes} (ha : Arrives s h typ)
    (hush : (s.frameIn h).1.Hushed t) : s.Answers h (t.respond h type b) type b := fun p up hs => by
  rw [hush.responds hs, State.frameIn_memberId ha]

/-- The authority grants the next lease of a slot, and answers with it (R335). -/
theorem leaseReq_grants {h : LinkHdr} (hs : s.Spare 1) (hg : mapWf 0 s.xl.grantLimit = true) (ha : Arrives s h 0x10)
    (hf : s.fresh h) (hfleet : (s.slot n).fleet = true) (hauth : (s.slot n).authority = s.memberId)
    (hlease : (s.slot n).leased = true ∨ (s.slot n).home = h.src) (hm : ((s.slot n).leased && (s.slot n).mirrored) = false)
    (htake : ∀ t ∈ s.xl.takeover, t.slot ≠ n) :
    let limit := max (mapGet 0 s.xl.grantLimit n) (s.slot n).serial
    let first := limit + 1
    let last := min (limit + ((s.frameIn h).1.applyNum 0x7800 4 0).leaseBlock) (2 ^ 64 - 1)
    (2 ^ 64 - 1 ≤ limit → exec (.leaseReq h n) s = .next (s.frameIn h).1)
    ∧ (limit < 2 ^ 64 - 1 → ∃ t, exec (.leaseReq h n) s = .next t ∧ State.Within n s (s.frameIn h).1 t
      ∧ t.lg.journalCount = s.lg.journalCount + 1 ∧ t.slot n = s.slot n
      ∧ t.xl.leases = s.xl.leases ++ [{ slot := n, holder := h.src, first := first, last := last }]
      ∧ mapGet 0 t.xl.grantLimit n = last ∧ s.Answers h t 0x20 (be 4 n ++ be 8 first ++ be 8 last)) := by
  intro limit first last
  have hus := State.frameIn_roled ha n
  have huspare := hus.spare (l := 1) hs
  obtain ⟨m, hu⟩ := State.frameIn_xl ha
  have hgl : (s.frameIn h).1.xl.grantLimit = s.xl.grantLimit := (congrArg Xl.grantLimit hu).trans rfl
  have hleases : (s.frameIn h).1.xl.leases = s.xl.leases := (congrArg Xl.leases hu).trans rfl
  have hnext : (s.frameIn h).1.nextLease n h.src = { slot := n, holder := h.src, first := first, last := last } := by
    simp only [State.nextLease, State.grantLimit, hus.self, hgl, id, first, last, limit]
  refine ⟨fun hl => exec_leaseReq_spent ha hf hl, fun hl => ?_⟩
  obtain ⟨hroled, hush, hxl⟩ := State.grantLease_roled huspare n h.src
  have hexec := exec_leaseReq ha hf hfleet hauth hlease htake hm huspare hl
  rw [hnext] at hexec hxl
  obtain ⟨ports, hresp⟩ := State.respond_xl ((s.frameIn h).1.grantLease n h.src).1 h 0x20 (be 4 n ++ be 8 first ++ be 8 last)
  obtain ⟨hwi, hrec, hslot⟩ := hus.within (hroled.trans (State.respond_roled _ h 0x20 (be 4 n ++ be 8 first ++ be 8 last) n))
  refine ⟨_, hexec, hwi, hrec, hslot, ?_, ?_, State.answers_respond ha hush⟩
  · rw [hresp, hxl, hleases]
  · rw [hresp, hxl, hgl]
    exact mapGet_mapSet_self _ _ _ _ ((MapWf_iff _ _).mp hg)

section RoleOffered

variable {h : LinkHdr} {r : RoleFields} {tenant : Nat} (ha : Arrives s h 0x11) (hf : s.fresh h)
include ha hf

theorem roleOffer_elsewhere (he : s.elsewhere r.slot tenant) : ∃ t, exec (.roleOffer h r tenant) s = .next t
    ∧ State.Within r.slot s (s.frameIn h).1 t ∧ t.lg.journalCount = s.lg.journalCount + 0 ∧ t.slot r.slot = s.slot r.slot
    ∧ s.Answers h t 0x21 [2] := by
  obtain ⟨hwi, hrec, hslot⟩ := (State.frameIn_roled ha r.slot).within (State.respond_roled _ h 0x21 [2] r.slot)
  exact ⟨_, exec_roleOffer_elsewhere ha hf he, hwi, hrec, hslot, State.answers_respond ha ⟨rfl, rfl, rfl, rfl⟩⟩

theorem roleOffer_busy (he : ¬s.elsewhere r.slot tenant) (hb : s.slotInFlight r.slot = true) :
    ∃ t, exec (.roleOffer h r tenant) s = .next t
    ∧ State.Within r.slot s (s.frameIn h).1 t ∧ t.lg.journalCount = s.lg.journalCount + 0 ∧ t.slot r.slot = s.slot r.slot
    ∧ s.Answers h t 0x21 [0] := by
  obtain ⟨hwi, hrec, hslot⟩ := (State.frameIn_roled ha r.slot).within (State.respond_roled _ h 0x21 [0] r.slot)
  exact ⟨_, exec_roleOffer_busy ha hf he hb, hwi, hrec, hslot, State.answers_respond ha ⟨rfl, rfl, rfl, rfl⟩⟩

theorem roleOffer_accepted (hw : mapWf {} s.lg.slots = true) (hs : s.Spare 1) (he : ¬s.elsewhere r.slot tenant)
    (hb : s.slotInFlight r.slot = false) (hm : r.mirror = s.memberId)
    (hx : (s.slot r.slot).fleet = false ∨ (s.slot r.slot).home = h.src) : ∃ t, exec (.roleOffer h r tenant) s = .next t
    ∧ State.Within r.slot s (s.frameIn h).1 t ∧ t.lg.journalCount = s.lg.journalCount + 1 ∧ s.Answers h t 0x21 [1]
    ∧ t.slot r.slot = Slot.mirrors h.src s.memberId r (s.slot r.slot) := by
  have hus := State.frameIn_roled ha r.slot
  obtain ⟨hroled, hush⟩ := State.mirrors_roled (hus.wf hw) h r
  rw [State.frameIn_memberId ha] at hroled
  have haspare := (hus.after hroled).spare (l := 1) hs
  have hrecord := State.appendFleet_roled haspare 0x50 1 0 r.slot 0xFFFF 0 0 r.slot
  obtain ⟨lg, hlg⟩ := State.appendFleet_kept haspare 0x50 1 0 r.slot 0xFFFF 0 0
  obtain ⟨hwi, hrec, hslot⟩ := hus.within ((hroled.trans hrecord).trans (State.respond_roled _ h 0x21 [1] r.slot))
  refine ⟨_, exec_roleOffer_accepted ha hf he hb hm hx, hwi, hrec, State.answers_respond ha ?_, hslot⟩
  rw [hlg]
  exact hush.trans ⟨rfl, rfl, rfl, rfl⟩

end RoleOffered

section RoleApplied

variable {v : Viewer} (hn : s.roleSlot = n) (hlt : n < 2097152) (howner : (s.window (n / 1024)).owner ≠ 0xFF)
  (hre : (s.window (n / 1024)).reassigning = false) (hhome : (s.slot n).fleet = false ∨ (s.slot n).home = s.memberId)
  (hbusy : s.slotInFlight n = false) (hoffer : s.xl.offer = none)
  (hlent : ((s.slot n).leased && s.lentOut n) = false) (h : Writable s v 0x7820 4 1) (hleased : s.roleLeased = false)
include hn hlt howner hre hhome hbusy hoffer hlent h hleased

theorem roleApply_alone (hw : mapWf {} s.lg.slots = true) (hs : s.Spare 2) (hm : s.roleMirror = 0xFFFF)
    (hx : (s.slot n).mirrored = false) : ∃ t : State, Wrote (.roleApply v 1#8) s v stOk t ∧ State.Within n s s t
    ∧ t.lg.journalCount = s.lg.journalCount + 1 ∧ t.slot n = Slot.reassigned s.memberId 0xFFFF false (s.slot n) := by
  have hexec := exec_roleApply_alone hn hlt howner hre hhome hbusy hoffer hlent h hm hx
  rw [hleased] at hexec
  have hroled := State.assignRole_roled hw hs (n := n) (m := 0xFFFF) (leased := false)
    (.inl (Slot.reassigned_unled s.memberId (s.slot n)))
  obtain ⟨hwi, hrec, hslot⟩ := (State.Roled.refl n s).within hroled
  exact ⟨_, hexec, hwi, hrec, hslot⟩

theorem roleApply_offers (hme : s.roleMirror ≠ s.memberId) (hm : s.roleMirror ≠ 0xFFFF) (hr : s.reachable s.roleMirror = true) :
    ∃ t, exec (.roleApply v 1#8) s = .next t ∧ State.Within n s s t ∧ t.lg.journalCount = s.lg.journalCount + 0
    ∧ t.slot n = s.slot n ∧ t.pd.deferred.isSome = true
    ∧ t.xl.offer = some { slot := n, mirror := s.roleMirror, leased := false, start := s.clock, reqId := s.xl.nextReq } := by
  obtain ⟨r, hexec⟩ := exec_roleApply_waits hn hlt howner hre hhome hbusy hoffer hlent h hm hme hr
  obtain ⟨hroled, hof⟩ := (s.served v).offers_roled n
  have hleased' : (s.served v).roleLeased = false := hleased
  rw [hleased'] at hof
  refine ⟨_, hexec, ⟨?_, hroled.others, hroled.routes, hroled.holder⟩, hroled.count, hroled.self, rfl, hof⟩
  exact congrArg (fun t : State => t.onPd fun p => { p with deferred := some r }) hroled.frame

end RoleApplied

/-- The RoleApply that waited is answered with what the mirror said. -/
theorem roleAnswer_completes {h : LinkHdr} {o : RoleChange} {q : LinkReq} {v : Viewer} (hw : mapWf {} s.lg.slots = true)
    (hs : s.Spare 2) (ha : Arrives s h 0x21) (hq : s.asked h 0x11 q) (ho : s.xl.offer = some o) (hid : q.reqId = o.reqId)
    (hwait : s.waitsAlone v 0x7820 4) (answer : RoleAnswer) : ∃ t,
      exec (.roleAnswer h answer) s = .next t ∧ t.xl.offer = none ∧ t.pd.deferred = none ∧ State.Within o.slot s (s.frameIn h).1 t
      ∧ t.outbox.getLast? = some (.directory v (answerStatus answer) [])
      ∧ (answer ≠ .accepted → t.slot o.slot = s.slot o.slot)
      ∧ (answer = .accepted → o.leased = false → o.mirror ≠ s.memberId → t.lg.journalCount = s.lg.journalCount + 1
        ∧ t.slot o.slot = Slot.reassigned s.memberId o.mirror false (s.slot o.slot)) := by
  obtain ⟨z, k, f, hexec, hsz, huz, hoffer, hid', hacc⟩ := exec_roleAnswer_roled hw hs ha hq ho hid hwait answer
  refine ⟨_, hexec, hoffer, rfl, ⟨huz.answered _ _, hsz.others, hsz.routes, hsz.holder⟩, List.getLast?_concat .., fun hne => ?_,
    fun hy hl hme => ?_⟩
  · rw [hid' hne] at hsz
    exact hsz.self
  · obtain ⟨rfl, rfl⟩ := hacc hy hl hme
    exact ⟨hsz.count, hsz.self⟩

/-- A member denies a claim, or has a new holder of the Ceremony (R343). -/
theorem ceremonyClaim_answers {h : LinkHdr} {unit : Nat} (ha : Arrives s h 0x13) (hf : s.fresh h) :
    let denied := s.pwr.mode = .ceremony ∨ s.xl.ceremonyHolder ≠ 0xFFFF ∨ (s.xl.claim.isSome = true ∧ unitId < unit)
    ∃ t, exec (.ceremonyClaim h unit) s = .next t
    ∧ t = { (s.frameIn h).1 with xl := t.xl, pd := t.pd, latches := t.latches, outbox := t.outbox }
    ∧ (denied → t.xl.ceremonyHolder = s.xl.ceremonyHolder ∧ s.Answers h t 0x23 [0])
    ∧ (¬denied → t.xl.ceremonyHolder = h.src ∧ s.Answers h t 0x23 [1]) := by
  intro denied
  have hdenies : s.deniesClaim unit = true ↔ denied := by
    simp [State.deniesClaim, denied, or_assoc]
  have hclaimed (a : State) (b : Bytes) : a.respond h 0x23 b = { a with
      xl := (a.respond h 0x23 b).xl, pd := (a.respond h 0x23 b).pd
      latches := (a.respond h 0x23 b).latches, outbox := (a.respond h 0x23 b).outbox } := by
    have hr : a.respond h 0x23 b = { a with
      xl := (a.respond h 0x23 b).xl, pd := { a.pd with nums := (a.respond h 0x23 b).pd.nums }
      latches := (a.respond h 0x23 b).latches, outbox := (a.respond h 0x23 b).outbox } := a.respond_claimed h 0x23 b
    have hpd : (a.respond h 0x23 b).pd = { a.pd with nums := (a.respond h 0x23 b).pd.nums } := congrArg State.pd hr
    refine hr.trans ?_
    rw [← hpd]
  have hexec := exec_ceremonyClaim (unit := unit) ha hf
  dsimp only at hexec
  by_cases hd : denied
  · rw [if_pos (hdenies.mpr hd)] at hexec
    have hholder := (State.frameIn_roled ha 0).holder
    exact ⟨_, hexec, hclaimed _ _, fun _ => ⟨(State.respond_roled _ h 0x23 [0] 0).holder.trans hholder,
      State.answers_respond ha ⟨rfl, rfl, rfl, rfl⟩⟩, fun hn => absurd hd hn⟩
  · rw [if_neg fun ht => hd (hdenies.mp ht)] at hexec
    generalize hb : ((s.frameIn h).1.onXl fun x => { x with ceremonyHolder := h.src }) = b at hexec
    have hbush : (s.frameIn h).1.Hushed b := by rw [← hb]; exact ⟨rfl, rfl, rfl, rfl⟩
    have hbholder : b.xl.ceremonyHolder = h.src := by rw [← hb]; rfl
    have hbc := hclaimed b [1]
    have hframe : b = { (s.frameIn h).1 with xl := b.xl } := by rw [← hb]; rfl
    refine ⟨_, hexec, ?_, fun hy => absurd hy hd,
      fun _ => ⟨(State.respond_roled _ h 0x23 [1] 0).holder.trans hbholder, State.answers_respond ha hbush⟩⟩
    have hz := congrArg (fun z : State => ({ z with
      xl := (b.respond h 0x23 [1]).xl, pd := (b.respond h 0x23 [1]).pd
      latches := (b.respond h 0x23 [1]).latches, outbox := (b.respond h 0x23 [1]).outbox } : State)) hframe
    exact hbc.trans (hz.trans rfl)

end Sys2Proof.Machine

open Sys2Proof Sys2Proof.Machine

/-- Settles O51: each row of Table 14.6 is one of a few operations on the role of its slot (`State.Roled`), after the frame
that came in, which is none; a WRITE that waited is answered by `State.completeDeferred_alone`. -/
theorem fleetRoles : Obligations.FleetRoles := by
  unfold Obligations.FleetRoles
  intro s h n hr hw hg u x me within records answers
  have hspare (k : Nat) (hk : k ≤ 128) : s.Spare k := State.spare_of_roomy hr hk
  refine ⟨fun ha hf hfleet hauth hlease hm htake =>
      leaseReq_grants (hspare 1 (by decide)) hg ha hf hfleet hauth hlease hm htake,
    fun q range ha hq hn hfleet hauth => exec_leaseGrant ha hq hn hfleet hauth, fun r tenant ha hf hrn => ?_,
    fun v hn hlt howner hre hhome hbusy hoffer hlent hv hleased =>
      ⟨fun hm hx => roleApply_alone hn hlt howner hre hhome hbusy hoffer hlent hv hleased hw (hspare 2 (by decide)) hm hx,
        fun hme hm hreach => roleApply_offers hn hlt howner hre hhome hbusy hoffer hlent hv hleased hme hm hreach⟩,
    fun v o q ho hon hwait => ?_, fun range l ha hauth hl => ?_, fun unit ha hf => ceremonyClaim_answers ha hf,
    fun ha hc => exec_ceremonyEnd ha hc, fun v c q hc hwait => ⟨fun ha hq => ⟨fun hms hm =>
      exec_claimAnswer_granted ha hq hc hms hm hwait, fun m ms hms => exec_claimAnswer_waits ha hq hc hms,
      exec_claimAnswer_refused ha hq hc hwait⟩, fun hl => exec_ceremonyClaimTimeout hc hl hwait⟩⟩
  · subst hrn
    exact ⟨fun he => roleOffer_elsewhere ha hf he, fun he hb => roleOffer_busy ha hf he hb,
      fun he hb hm hx => roleOffer_accepted ha hf hw (hspare 1 (by decide)) he hb hm hx⟩
  · refine ⟨fun answer ha hq hid => ?_, fun hc => exec_roleOfferTimeout ho hc hwait⟩
    subst hon
    obtain ⟨t, hexec, hoffer, hdef, hwi, hlast, hother, hacc⟩ :=
      roleAnswer_completes hw (hspare 2 (by decide)) ha hq ho hid hwait answer
    refine ⟨t, hexec, hoffer, hdef, hwi, hlast.trans ?_, hother, fun hy hl hm hme hlive => ?_⟩
    · cases answer with
      | accepted => rfl
      | refused => rfl
      | badSlot => rfl
    · obtain ⟨hcount, hslot⟩ := hacc hy hl hme
      refine ⟨hcount, hslot.trans ?_⟩
      unfold Slot.reassigned
      rw [decide_eq_true hm]
      rfl
  · have hus := State.frameIn_roled ha n
    obtain ⟨hroled, hleases⟩ := State.leaseBack_roled (hus.spare (l := 1) (hspare 1 (by decide))) l n
    obtain ⟨m, hxl⟩ := State.frameIn_xl ha
    obtain ⟨hwi, hrec, -⟩ := hus.within hroled
    exact ⟨_, exec_leaseReturn ha hauth hl, hwi, hrec, hleases.trans (by rw [hxl])⟩

end

