-- ==== Sys2Proof/Proofs/FleetLandingSteps.lean ====
section
-- The whole text is compiled in one process: one proof at a time keeps it within its memory.
set_option Elab.async false
/-! LEMMAS. What landings at the authority and the loss of members change: acknowledgements, syncs, a slot given up, a mirror
lost, a takeover's records (R336, R337, R339, R340, R342). -/

namespace Sys2Proof.Machine

variable {s t u : State} {n k l : Nat} {f g : Slot → Slot}

/-! ### The frame of these statements -/

/-- What the statements allow in state `a`, which is `s` but for what the frame brought: as `State.Within`, and the Entropy
Bank's draws. -/
def State.WithinDraws (n : Nat) (s a t : State) : Prop := t = { a with
      xl := t.xl
      lg := { a.lg with
        journalCount := t.lg.journalCount
        continuity := t.lg.continuity
        anchor := t.lg.anchor
        reel := t.lg.reel
        reelWritten := t.lg.reelWritten
        slots := t.lg.slots
        resident := t.lg.resident
        nodes := t.lg.nodes
        tree := t.lg.tree
        dirty := t.lg.dirty
        dirtyNodes := t.lg.dirtyNodes
        suspended := t.lg.suspended }
      en := t.en
      pd := t.pd
      latches := t.latches
      outbox := t.outbox
      freeCtr := t.freeCtr }
    ∧ (∀ m, m ≠ n → t.slot m = s.slot m) ∧ t.xl.routes = s.xl.routes ∧ t.xl.ceremonyHolder = s.xl.ceremonyHolder

theorem State.Within.draws {a : State} (h : State.Within n s a t) : State.WithinDraws n s a t := by
  obtain ⟨hsame, hrest⟩ := h
  have hen : t.en = a.en := (congrArg State.en hsame).trans rfl
  refine ⟨hsame.trans ?_, hrest⟩
  rw [hen]

/-- An operation on the role of a slot is as the statements say. -/
theorem State.Roled.draws (ha : s.Roled n 0 id t) (h : t.Roled n k f u) : State.WithinDraws n s t u
    ∧ u.lg.journalCount = s.lg.journalCount + k ∧ u.slot n = f (s.slot n) := by
  obtain ⟨hwithin, hcount, hslot⟩ := ha.within h
  exact ⟨hwithin.draws, hcount, hslot⟩

/-- The change of one slot. -/
theorem State.Roled.slot_changed (h : s.Roled n k f t) {x : Slot} (hx : s.slot n = x) : t.slot n = f x := h.self.trans (by rw [hx])

/-! ### Acknowledgements (R336) -/

/-- A copy takes the serial and the digest of a landing. -/
def Slot.acked (me serial : Nat) (continuity : Bytes) (x : Slot) : Slot :=
  if x.home = me then x else { x with serial := serial, digest := slice continuity 0 16 }

theorem State.recordAck_roled (hw : mapWf {} s.lg.slots = true) (n holder serial : Nat) (continuity : Bytes) :
    s.Roled n 0 (Slot.acked s.memberId serial continuity) (s.recordAck n holder serial continuity)
    ∧ s.Hushed (s.recordAck n holder serial continuity) := by
  have hx := s.onXl_roled n (fun x => { x with
    acked := mapSet 0 x.acked (State.ackKey n holder) serial
    leases := x.leases.filter fun l => !(l.slot = n && l.holder = holder && l.last < serial) }) rfl rfl
  have hxh : s.Hushed (s.onXl fun x => { x with
    acked := mapSet 0 x.acked (State.ackKey n holder) serial
    leases := x.leases.filter fun l => !(l.slot = n && l.holder = holder && l.last < serial) }) := ⟨rfl, rfl, rfl, rfl⟩
  unfold State.recordAck
  dsimp only
  generalize s.onXl (fun x => { x with
    acked := mapSet 0 x.acked (State.ackKey n holder) serial
    leases := x.leases.filter fun l => !(l.slot = n && l.holder = holder && l.last < serial) }) = a at hx hxh ⊢
  have hslot : a.slot n = s.slot n := hx.self
  by_cases hhome : (s.slot n).home = s.memberId
  · rw [if_pos (by rw [hslot, hx.member]; exact hhome)]
    exact ⟨hx.congr (by rw [Slot.acked, if_pos hhome]; rfl), hxh⟩
  · rw [if_neg (by rw [hslot, hx.member]; exact hhome)]
    have hset := State.onSlot_roled (hx.wf hw) n fun x => { x with serial := serial, digest := slice continuity 0 16 }
    have hquiet : a.Hushed (a.onSlot n fun x => { x with serial := serial, digest := slice continuity 0 16 }) := ⟨rfl, rfl, rfl, rfl⟩
    exact ⟨(hx.after (hset.trans ((State.soil_cached _ n).roled n))).congr (by rw [Slot.acked, if_neg hhome]; rfl),
      (hxh.trans hquiet).trans (State.soil_cached _ n).hushed⟩

theorem State.soil_xl (s : State) (n : Nat) : (s.soil n).xl = s.xl := by
  obtain ⟨c, r, nodes, d, dn, tree, h⟩ := s.soil_cached n
  exact (congrArg State.xl h).trans rfl

theorem State.recordAck_xl (s : State) (n holder serial : Nat) (continuity : Bytes) :
    (s.recordAck n holder serial continuity).xl = { s.xl with
      acked := mapSet 0 s.xl.acked (State.ackKey n holder) serial
      leases := s.xl.leases.filter fun l => !(l.slot = n && l.holder = holder && l.last < serial) } := by
  unfold State.recordAck
  dsimp only
  split
  · rfl
  · rw [State.soil_xl]
    rfl

theorem State.sendMember_xl (s : State) (m vc type : Nat) (b : Bytes) : ∃ ports,
    (s.sendMember m vc type b).xl = { s.xl with ports := ports } := by
  obtain ⟨ports, l, nums, o, h⟩ := s.sendMember_sent m vc type b
  exact ⟨ports, (congrArg State.xl h).trans rfl⟩

/-- A landing acknowledged to its holder. -/
theorem State.recordAck_acks (hw : mapWf {} s.lg.slots = true) (ha : mapWf 0 s.xl.acked = true) (n holder dest serial : Nat)
    (continuity : Bytes) {p : Nat} {up : Bool} (hs : s.sends dest 1 22 p up) :
    s.Roled n 0 (Slot.acked s.memberId serial continuity) ((s.recordAck n holder serial continuity).sendAck dest n serial)
    ∧ mapGet 0 ((s.recordAck n holder serial continuity).sendAck dest n serial).xl.acked (State.ackKey n holder) = serial
    ∧ ((s.recordAck n holder serial continuity).sendAck dest n serial).outbox = s.outbox ++ [s.outFrame p 1 0x24 dest s.memberId
      (!up) (be 8 0 ++ be 4 n ++ be 2 (s.slot n).roleEpoch ++ be 8 serial)] := by
  obtain ⟨hroled, hush⟩ := State.recordAck_roled hw n holder serial continuity
  have hxl := s.recordAck_xl n holder serial continuity
  have hepoch : ((s.recordAck n holder serial continuity).slot n).roleEpoch = (s.slot n).roleEpoch := by
    rw [hroled.self, Slot.acked]
    split
    · rfl
    · rfl
  generalize s.recordAck n holder serial continuity = a at hroled hush hxl hepoch ⊢
  unfold State.sendAck
  rw [hepoch]
  obtain ⟨ports, hsent⟩ := a.sendMember_xl dest 1 0x24 (be 8 0 ++ be 4 n ++ be 2 (s.slot n).roleEpoch ++ be 8 serial)
  refine ⟨(hroled.trans (State.sendMember_roled ..)).congr rfl, ?_, hush.sends (by simpa using hs)⟩
  rw [hsent, hxl]
  exact mapGet_mapSet_self _ _ _ _ ((MapWf_iff _ _).mp ha)

theorem State.frameIn_acked {h : LinkHdr} {type : Nat} (ha : Arrives s h type) : (s.frameIn h).1.xl.acked = s.xl.acked := by
  obtain ⟨ports, hxl⟩ := State.frameIn_xl ha
  exact (congrArg Xl.acked hxl).trans rfl

theorem State.frameIn_leases {h : LinkHdr} {type : Nat} (ha : Arrives s h type) : (s.frameIn h).1.xl.leases = s.xl.leases := by
  obtain ⟨ports, hxl⟩ := State.frameIn_xl ha
  exact (congrArg Xl.leases hxl).trans rfl

theorem State.frameIn_forwarded {h : LinkHdr} {type : Nat} (ha : Arrives s h type) :
    (s.frameIn h).1.xl.forwarded = s.xl.forwarded := by
  obtain ⟨ports, hxl⟩ := State.frameIn_xl ha
  exact (congrArg Xl.forwarded hxl).trans rfl

theorem State.frameIn_takeover {h : LinkHdr} {type : Nat} (ha : Arrives s h type) :
    (s.frameIn h).1.xl.takeover = s.xl.takeover := by
  obtain ⟨ports, hxl⟩ := State.frameIn_xl ha
  exact (congrArg Xl.takeover hxl).trans rfl

/-- What an authority asks of a landing before it acknowledges it (R336). -/
theorem State.mayAck_iff (m : MirrorFields) (holder : Nat) : s.mayAck m holder = true ↔ (s.slot m.slot).fleet = true
    ∧ (s.slot m.slot).authority = s.memberId ∧ (s.slot m.slot).roleEpoch = m.roleEpoch ∧ (∀ t ∈ s.xl.takeover, t.slot ≠ m.slot)
    ∧ nextLeased (mapGet 0 s.xl.acked (State.ackKey m.slot holder)) (s.xl.leases.filter fun l => l.slot = m.slot && l.holder = holder)
      = some m.serial := by
  simp [State.mayAck, and_assoc]

section MirrorRec

variable {h : LinkHdr} {m : MirrorFields} (ha : Arrives s h 0x30)
include ha

theorem State.frameIn_mayAck (holder : Nat) : (s.frameIn h).1.mayAck m holder = s.mayAck m holder := by
  simp only [State.mayAck, State.frameIn_slot ha, State.frameIn_memberId ha, State.frameIn_takeover ha, State.frameIn_acked ha,
    State.frameIn_leases ha]

theorem exec_mirrorRec : exec (.mirrorRec h m) s = .next (let u := (s.frameIn h).1
    let x := s.slot m.slot
    if s.mayAck m h.src then
      if x.leased && x.mirrored then
        (u.onXl fun y => { y with forwarded := y.forwarded ++
          [{ slot := m.slot, serial := m.serial, holder := h.src }] }).sendMember x.mirror 2 0x30 (mirrorBytes m)
      else (u.recordAck m.slot h.src m.serial m.continuity).sendAck h.src m.slot m.serial
    else if x.leased && x.mirrored && x.mirror = s.memberId && x.home = h.src && x.roleEpoch = m.roleEpoch then
      (u.recordAck m.slot (s.holderOf m.slot m.serial h.src) m.serial m.continuity).sendAck h.src m.slot m.serial
    else u.sendRefuse h.src m.slot m.serial) := by
  have hholder : (s.frameIn h).1.holderOf m.slot m.serial h.src = s.holderOf m.slot m.serial h.src := by
    simp only [State.holderOf, State.frameIn_leases ha]
  simp only [exec, execMirrorRec]
  rw [State.receive_arrives ha]
  simp only [State.frameIn_slot ha, State.frameIn_memberId ha, State.frameIn_mayAck ha, hholder]

variable {p : Nat} {up : Bool}

/-- The authority acknowledges the next serial of a lease. -/
theorem mirrorRec_acknowledged (hw : mapWf {} s.lg.slots = true) (hk : mapWf 0 s.xl.acked = true)
    (hmay : s.mayAck m h.src = true) (hx : ((s.slot m.slot).leased && (s.slot m.slot).mirrored) = false)
    (hs : (s.frameIn h).1.sends h.src 1 22 p up) : ∃ t, exec (.mirrorRec h m) s = .next t
    ∧ State.WithinDraws m.slot s (s.frameIn h).1 t ∧ t.lg.journalCount = s.lg.journalCount + 0
    ∧ mapGet 0 t.xl.acked (State.ackKey m.slot h.src) = m.serial
    ∧ t.slot m.slot = Slot.acked s.memberId m.serial m.continuity (s.slot m.slot)
    ∧ t.outbox = (s.frameIn h).1.outbox ++ [(s.frameIn h).1.outFrame p 1 0x24 h.src s.memberId (!up)
      (be 8 0 ++ be 4 m.slot ++ be 2 (s.slot m.slot).roleEpoch ++ be 8 m.serial)] := by
  have hexec := exec_mirrorRec (m := m) ha
  dsimp only at hexec
  rw [if_pos hmay, hx, if_neg Bool.false_ne_true] at hexec
  have hus := State.frameIn_roled ha m.slot
  obtain ⟨hroled, hget, hout⟩ := State.recordAck_acks (hus.wf hw) (by rw [State.frameIn_acked ha]; exact hk) m.slot h.src
    h.src m.serial m.continuity hs
  rw [State.frameIn_memberId ha] at hroled hout
  rw [State.frameIn_slot ha] at hout
  obtain ⟨hwi, hrec, hslot⟩ := hus.draws hroled
  exact ⟨_, hexec, hwi, hrec, hget, hslot, hout⟩

/-- The authority sends a landing on to the slot's mirror first. -/
theorem mirrorRec_forwarded (hmay : s.mayAck m h.src = true)
    (hx : ((s.slot m.slot).leased && (s.slot m.slot).mirrored) = true)
    (hs : (s.frameIn h).1.sends (s.slot m.slot).mirror 2 48 p up) : ∃ t, exec (.mirrorRec h m) s = .next t
    ∧ State.WithinDraws m.slot s (s.frameIn h).1 t ∧ t.lg.journalCount = s.lg.journalCount + 0
    ∧ t.slot m.slot = s.slot m.slot
    ∧ t.xl.forwarded = s.xl.forwarded ++ [{ slot := m.slot, serial := m.serial, holder := h.src }]
    ∧ t.outbox = (s.frameIn h).1.outbox ++ [(s.frameIn h).1.outFrame p 2 0x30 (s.slot m.slot).mirror s.memberId (!up)
      (mirrorBytes m)] := by
  have hexec := exec_mirrorRec (m := m) ha
  dsimp only at hexec
  rw [if_pos hmay, hx, if_pos rfl] at hexec
  have hus := State.frameIn_roled ha m.slot
  have hme := State.frameIn_memberId ha
  have hfor := State.frameIn_forwarded ha
  have hx := (s.frameIn h).1.onXl_roled m.slot (fun y => { y with forwarded := y.forwarded ++
          [{ slot := m.slot, serial := m.serial, holder := h.src }] }) rfl rfl
  have hush : (s.frameIn h).1.Hushed ((s.frameIn h).1.onXl fun y => { y with forwarded := y.forwarded ++
          [{ slot := m.slot, serial := m.serial, holder := h.src }] }) := ⟨rfl, rfl, rfl, rfl⟩
  have hlen : (mirrorBytes m).length = 48 := by simp [mirrorBytes, slice]
  obtain ⟨hwi, hrec, hslot⟩ := hus.draws (hx.trans (State.sendMember_roled _ (s.slot m.slot).mirror 2 0x30 (mirrorBytes m) m.slot))
  obtain ⟨ports, hxl⟩ := State.sendMember_xl ((s.frameIn h).1.onXl fun y => { y with forwarded := y.forwarded ++
          [{ slot := m.slot, serial := m.serial, holder := h.src }] }) (s.slot m.slot).mirror 2 0x30 (mirrorBytes m)
  refine ⟨_, hexec, hwi, hrec, hslot, ?_, ?_⟩
  · rw [hxl, ← hfor]
    rfl
  · rw [hush.sends (by rw [hlen]; exact hs), hme]

/-- A landing under another role epoch is refused. -/
theorem mirrorRec_refused (he : (s.slot m.slot).roleEpoch ≠ m.roleEpoch)
    (hs : (s.frameIn h).1.sends h.src 1 22 p up) : ∃ t, exec (.mirrorRec h m) s = .next t
    ∧ State.WithinDraws m.slot s (s.frameIn h).1 t ∧ t.lg.journalCount = s.lg.journalCount + 0
    ∧ t.slot m.slot = s.slot m.slot
    ∧ t.outbox = (s.frameIn h).1.outbox ++ [(s.frameIn h).1.outFrame p 1 0x25 h.src s.memberId (!up)
      (be 8 0 ++ be 4 m.slot ++ be 2 (s.slot m.slot).roleEpoch ++ be 8 m.serial)] := by
  have hexec := exec_mirrorRec (m := m) ha
  dsimp only at hexec
  have hmay : ¬s.mayAck m h.src = true := fun ht => he ((State.mayAck_iff m h.src).mp ht).2.2.1
  rw [if_neg hmay, if_neg (by simp [he])] at hexec
  have hus := State.frameIn_roled ha m.slot
  obtain ⟨hwi, hrec, hslot⟩ := hus.draws (State.sendMember_roled _ h.src 1 0x25
    (be 8 0 ++ be 4 m.slot ++ be 2 ((s.frameIn h).1.slot m.slot).roleEpoch ++ be 8 m.serial) m.slot)
  refine ⟨_, hexec, hwi, hrec, hslot, ?_⟩
  have hush : (s.frameIn h).1.Hushed (s.frameIn h).1 := ⟨rfl, rfl, rfl, rfl⟩
  have hout := hush.sends (type := 0x25) (b := be 8 0 ++ be 4 m.slot ++ be 2 ((s.frameIn h).1.slot m.slot).roleEpoch
    ++ be 8 m.serial) (by simpa using hs)
  rw [State.frameIn_slot ha, State.frameIn_memberId ha] at hout
  rw [State.sendRefuse, State.frameIn_slot ha]
  exact hout

/-- A mirror that the authority forwards a landing to acknowledges it. -/
theorem mirrorRec_mirrored (hw : mapWf {} s.lg.slots = true) (hk : mapWf 0 s.xl.acked = true)
    (hl : (s.slot m.slot).leased = true) (hx : (s.slot m.slot).mirrored = true) (hm : (s.slot m.slot).mirror = s.memberId)
    (hh : (s.slot m.slot).home = h.src) (hne : h.src ≠ s.memberId) (he : (s.slot m.slot).roleEpoch = m.roleEpoch)
    (hs : (s.frameIn h).1.sends h.src 1 22 p up) : ∃ t, exec (.mirrorRec h m) s = .next t
    ∧ State.WithinDraws m.slot s (s.frameIn h).1 t ∧ t.lg.journalCount = s.lg.journalCount + 0
    ∧ mapGet 0 t.xl.acked (State.ackKey m.slot (s.holderOf m.slot m.serial h.src)) = m.serial
    ∧ t.slot m.slot = { s.slot m.slot with serial := m.serial, digest := slice m.continuity 0 16 }
    ∧ t.outbox = (s.frameIn h).1.outbox ++ [(s.frameIn h).1.outFrame p 1 0x24 h.src s.memberId (!up)
      (be 8 0 ++ be 4 m.slot ++ be 2 (s.slot m.slot).roleEpoch ++ be 8 m.serial)] := by
  have hexec := exec_mirrorRec (m := m) ha
  dsimp only at hexec
  have hmay : ¬s.mayAck m h.src = true := fun ht => hne (by
    have hauth := ((State.mayAck_iff m h.src).mp ht).2.1
    rw [Slot.authority, if_pos hl, hh] at hauth
    exact hauth)
  rw [if_neg hmay, if_pos (by simp [hl, hx, hm, hh, he])] at hexec
  have hus := State.frameIn_roled ha m.slot
  obtain ⟨hroled, hget, hout⟩ := State.recordAck_acks (hus.wf hw) (by rw [State.frameIn_acked ha]; exact hk) m.slot
    (s.holderOf m.slot m.serial h.src) h.src m.serial m.continuity hs
  rw [State.frameIn_memberId ha] at hroled hout
  rw [State.frameIn_slot ha] at hout
  obtain ⟨hwi, hrec, hslot⟩ := hus.draws hroled
  refine ⟨_, hexec, hwi, hrec, hget, hslot.trans ?_, hout⟩
  rw [Slot.acked, if_neg (by rw [hh]; exact hne)]

end MirrorRec

/-! ### A landing that waits for its mirror (R336, R337) -/

theorem epochAhead_self (e : Nat) : epochAhead e e = false := by
  have hd : (e + 65536 - e % 65536) % 65536 = 0 := by omega
  simp [epochAhead, hd]

theorem State.learnEpoch_same {e : Nat} (he : (s.slot n).roleEpoch = e) : s.learnEpoch n e = s := by
  simp [State.learnEpoch, he, epochAhead_self]

theorem State.frameIn_lands {h : LinkHdr} {type : Nat} (ha : Arrives s h type) : (s.frameIn h).1.lands = s.lands := by
  obtain ⟨m, o, hu⟩ := State.frameIn_arrives ha
  rw [hu]
  rfl

theorem State.frameIn_waitingTake {h : LinkHdr} {type : Nat} (ha : Arrives s h type) (n serial : Nat) :
    (s.frameIn h).1.waitingTake n serial = s.waitingTake n serial := by
  obtain ⟨m, o, hu⟩ := State.frameIn_arrives ha
  rw [hu]
  rfl

/-- The authority forwarded no landing of the slot. -/
theorem State.frameIn_unforwarded {h : LinkHdr} {type : Nat} (ha : Arrives s h type) (hf : ∀ f ∈ s.xl.forwarded, f.slot ≠ n)
    (serial : Nat) : (s.frameIn h).1.forwardedFor n serial h.src = none := by
  unfold State.forwardedFor
  split
  · rw [State.frameIn_forwarded ha, List.find?_eq_none]
    intro f hm
    simp [hf f hm]
  · rfl

/-- The landing that waits for member `src`, if one does, is refused. -/
def State.takeRefused (src n serial : Nat) (s : State) : State := match s.waitingTake n serial with
  | some t => if (s.slot n).authority = src then s.landRefused t stNotMirror else s
  | none => s

theorem State.takeRefused_waiting {src serial : Nat} {k : Take} (hk : s.waitingTake n serial = some k)
    (hauth : (s.slot n).authority = src) : s.takeRefused src n serial = s.landRefused k stNotMirror := by
  simp only [State.takeRefused, hk, hauth, if_true]

theorem State.takeRefused_none {src serial : Nat} (hk : s.waitingTake n serial = none) : s.takeRefused src n serial = s := by
  simp only [State.takeRefused, hk]

/-- A refusal goes on to the holder whose landing was forwarded, or refuses the landing that waits here. -/
def State.refusal (src n epoch serial : Nat) (s : State) : State := match s.forwardedFor n serial src with
  | some f => (s.dropForwarded n serial).sendRefuse f.holder n serial
  | none => (s.takeRefused src n serial).learnEpoch n epoch

theorem State.refusal_unforwarded {src serial : Nat} (hf : s.forwardedFor n serial src = none) (epoch : Nat) :
    s.refusal src n epoch serial = (s.takeRefused src n serial).learnEpoch n epoch := by
  simp only [State.refusal, hf]

theorem execMirrorRefuse_eq (h : LinkHdr) (n epoch serial : Nat) (s : State) : execMirrorRefuse h n epoch serial s
    = .next (s.receive h 0x25 (be 8 h.reqId ++ be 4 n ++ be 2 epoch ++ be 8 serial) fun s => s.refusal h.src n epoch serial) := rfl

section Answered

variable {h : LinkHdr} {epoch serial : Nat} (hf : ∀ f ∈ s.xl.forwarded, f.slot ≠ n)
include hf

/-- The landing goes on with its acknowledgement. -/
theorem exec_mirrorAck {k : Take} (hk : s.waitingTake n serial = some k) (hauth : (s.slot n).authority = h.src)
    (ha : Arrives s h 0x24) (hl : s.lands = true) (he : k.roleEpoch = epoch) :
    exec (.mirrorAck h n epoch serial) s = .next ((s.frameIn h).1.commitTake k) := by
  simp only [exec, execMirrorAck]
  rw [State.receive_arrives ha]
  simp only [State.frameIn_unforwarded ha hf, State.frameIn_waitingTake ha, hk, State.frameIn_lands ha, State.frameIn_slot ha,
    hl, hauth, he, decide_true, Bool.and_self, if_true]

theorem exec_mirrorRefuse (ha : Arrives s h 0x25) : exec (.mirrorRefuse h n epoch serial) s
    = .next (((s.frameIn h).1.takeRefused h.src n serial).learnEpoch n epoch) := by
  rw [show exec (.mirrorRefuse h n epoch serial) s = execMirrorRefuse h n epoch serial s from rfl, execMirrorRefuse_eq,
    State.receive_arrives ha]
  exact congrArg Host.Outcome.next (State.refusal_unforwarded (State.frameIn_unforwarded ha hf serial) epoch)

/-- Its refusal makes it land VOID. -/
theorem exec_mirrorRefuse_void {k : Take} (hk : s.waitingTake n serial = some k) (hauth : (s.slot n).authority = h.src)
    (ha : Arrives s h 0x25) (he : epoch = (s.slot n).roleEpoch) (hk' : k.failure = none) :
    exec (.mirrorRefuse h n epoch serial) s = .next ((s.frameIn h).1.onTake k.id fun t => { t with
        signature := [], failure := some stNotMirror, phase := .journalSign }) := by
  have hrefused := State.takeRefused_waiting (src := h.src) ((State.frameIn_waitingTake ha n serial).trans hk)
    (by rw [State.frameIn_slot ha]; exact hauth)
  rw [exec_mirrorRefuse hf ha, hrefused, State.landRefused, hk']
  exact congrArg Host.Outcome.next (State.learnEpoch_same (State.frameIn_slot ha n ▸ he.symm :))

/-- A VOID landing that is refused is committed. -/
theorem exec_mirrorRefuse_commit {k : Take} (hk : s.waitingTake n serial = some k) (hauth : (s.slot n).authority = h.src)
    (ha : Arrives s h 0x25) (hk' : k.failure ≠ none) (hl : s.lands = true) :
    exec (.mirrorRefuse h n epoch serial) s = .next (((s.frameIn h).1.commitTake k).learnEpoch n epoch) := by
  obtain ⟨c, hc⟩ := Option.ne_none_iff_exists'.mp hk'
  have hrefused := State.takeRefused_waiting (src := h.src) ((State.frameIn_waitingTake ha n serial).trans hk)
    (by rw [State.frameIn_slot ha]; exact hauth)
  rw [exec_mirrorRefuse hf ha, hrefused, State.landRefused, hc]
  dsimp only
  rw [if_pos (by rw [State.frameIn_lands ha]; exact hl)]

end Answered

/-- A landing whose mirror is silent lands VOID, and its slot serves no more until a sync (R337). -/
theorem exec_mirrorTimeoutExpiry {id c : Nat} {k : Take} (hk : s.takeById id = some k) (hm : k.mirrorSent = some c)
    (hp : k.phase = .mirror) (hc : c + s.mirrorTimeout ≤ s.clock) (hf : k.failure = none) :
    ∃ t, exec (.mirrorTimeoutExpiry id) s = .next t ∧ t = { s with
      lg := { s.lg with suspended := t.lg.suspended }
      pd := { s.pd with nums := t.pd.nums }
      td := { s.td with inflight := s.td.inflight.map fun t => if t.id = k.id then { t with
        signature := [], failure := some stMirrorTimeout, phase := .journalSign } else t } }
    ∧ t.num 0x7800 9 0 0 = s.num 0x7800 9 0 0 + 1 ∧ (∀ m, m ∈ t.lg.suspended ↔ m = k.slot ∨ m ∈ s.lg.suspended) := by
  have hexec : exec (.mirrorTimeoutExpiry id) s = .next (((s.bumpFleet 9).onLg fun g => { g with
      suspended := if g.suspended.contains k.slot then g.suspended else k.slot :: g.suspended }).onTake k.id fun t => { t with
      signature := [], failure := some stMirrorTimeout, phase := .journalSign }) := by
    simp only [exec, execMirrorTimeoutExpiry, hk, hm, hp, hc, decide_true, Bool.and_self, if_true, State.landRefused, hf]
  refine ⟨_, hexec, rfl, State.num_bumpFleet s 9, ?_⟩
  intro m
  show m ∈ (if s.lg.suspended.contains k.slot then s.lg.suspended else k.slot :: s.lg.suspended) ↔ _
  split
  next hin =>
    have hmem : k.slot ∈ s.lg.suspended := by simpa using hin
    exact ⟨.inr, fun h => h.elim (fun e => e ▸ hmem) fun h => h⟩
  next => exact List.mem_cons

/-! ### Syncs (R339) -/

theorem State.sendRequest_xl (s : State) (m type : Nat) (b : Bytes) : ∃ ports, (s.sendRequest m type b).xl = { s.xl with
    nextReq := s.xl.nextReq + 1
    requests := s.xl.requests ++ [{
      reqId := s.xl.nextReq, dest := m, type := type, payload := be 8 s.xl.nextReq ++ b, sent := s.clock }]
    ports := ports } := by
  obtain ⟨ports, h⟩ := State.sendMember_xl (s.onXl fun x => { x with
    nextReq := x.nextReq + 1
    requests := x.requests ++ [{ reqId := x.nextReq, dest := m, type := type, payload := be 8 x.nextReq ++ b, sent := s.clock }] })
    m 0 type (be 8 s.xl.nextReq ++ b)
  exact ⟨ports, h⟩

/-- A suspended slot asks its authority for a sync. -/
theorem syncReqTick_asks (hsus : n ∈ s.lg.suspended) (hnone : ∀ r ∈ s.xl.requests, r.type = 0x14 → beAt r.payload 8 4 ≠ n) :
    ∃ t, exec (.syncReqTick n) s = .next t ∧ State.WithinDraws n s s t ∧ t.lg.journalCount = s.lg.journalCount + 0
    ∧ t.slot n = s.slot n ∧ t.xl.requests = s.xl.requests ++ [{
      reqId := s.xl.nextReq, dest := (s.slot n).authority, type := 0x14
      payload := be 8 s.xl.nextReq ++ roleBytes (s.roleOf n), sent := s.clock }] := by
  have hexec : exec (.syncReqTick n) s
      = .next (s.sendRequest (s.slot n).authority 0x14 (roleBytes (s.roleOf n))) := by
    simp only [exec, execSyncReqTick]
    rw [if_neg]
    simp only [Bool.or_eq_true, not_or, Bool.not_eq_true, Bool.not_eq_false', List.contains_iff_mem, List.any_eq_false]
    exact ⟨hsus, fun r hr => by simpa using hnone r hr⟩
  obtain ⟨hwi, hrec, hslot⟩ := (State.Roled.refl n s).draws
    (State.sendRequest_roled s (s.slot n).authority 0x14 (roleBytes (s.roleOf n)) n)
  obtain ⟨ports, hxl⟩ := s.sendRequest_xl (s.slot n).authority 0x14 (roleBytes (s.roleOf n))
  exact ⟨_, hexec, hwi, hrec, hslot, by rw [hxl]⟩

section Sync

variable {h : LinkHdr} {r : RoleFields}

/-- The authority has the state of a copy, and its own image follows. -/
def State.synced (h : LinkHdr) (r : RoleFields) (s : State) : State :=
  let a := s.recordAck r.slot h.src r.serial r.digest
  if (s.slot r.slot).home = a.memberId then a else a.onSlot r.slot (Slot.takeImage r)

theorem State.synced_roled (hw : mapWf {} s.lg.slots = true) (h : LinkHdr) (r : RoleFields) :
    s.Roled r.slot 0 (fun x => if x.home = s.memberId then x else x.takeImage r) (s.synced h r)
    ∧ (s.synced h r).xl = (s.recordAck r.slot h.src r.serial r.digest).xl := by
  obtain ⟨hroled, -⟩ := State.recordAck_roled hw r.slot h.src r.serial r.digest
  unfold State.synced
  dsimp only
  generalize s.recordAck r.slot h.src r.serial r.digest = a at hroled ⊢
  rw [hroled.member]
  by_cases hh : (s.slot r.slot).home = s.memberId
  · rw [if_pos hh]
    exact ⟨hroled.congr (by rw [Slot.acked, if_pos hh, if_pos hh]), rfl⟩
  · rw [if_neg hh]
    exact ⟨(hroled.trans (State.onSlot_roled (hroled.wf hw) r.slot (Slot.takeImage r))).congr
      (by rw [Slot.acked, if_neg hh, if_neg hh]; rfl), rfl⟩

theorem exec_syncReq (ha : Arrives s h 0x14) (hf : s.fresh h) (hfleet : (s.slot r.slot).fleet = true)
    (hauth : (s.slot r.slot).authority = s.memberId) (he : (s.slot r.slot).roleEpoch = r.roleEpoch) :
    exec (.syncReq h r) s = .next (let a := (s.frameIn h).1.synced h r
      a.respond h 0x26 (roleBytes (a.roleOf r.slot))) := by
  simp only [exec, execSyncReq]
  rw [State.receive_arrives ha, State.asRequest_fresh (State.frameIn_fresh ha hf)]
  simp only [State.frameIn_slot ha, State.frameIn_memberId ha, hfleet, hauth, he, decide_true, Bool.and_self, if_true,
    State.synced]

theorem syncReq_answers (hw : mapWf {} s.lg.slots = true) (hk : mapWf 0 s.xl.acked = true) (ha : Arrives s h 0x14)
    (hf : s.fresh h) (hfleet : (s.slot r.slot).fleet = true) (hauth : (s.slot r.slot).authority = s.memberId)
    (he : (s.slot r.slot).roleEpoch = r.roleEpoch) : ∃ t, exec (.syncReq h r) s = .next t
    ∧ State.WithinDraws r.slot s (s.frameIn h).1 t ∧ t.lg.journalCount = s.lg.journalCount + 0
    ∧ mapGet 0 t.xl.acked (State.ackKey r.slot h.src) = r.serial
    ∧ t.xl.answered.length = s.xl.answered.length + 1
    ∧ t.slot r.slot = if (s.slot r.slot).home = s.memberId then s.slot r.slot else (s.slot r.slot).takeImage r := by
  have hus := State.frameIn_roled ha r.slot
  have hack := State.frameIn_acked ha
  have hans : (s.frameIn h).1.xl.answered = s.xl.answered := by
    obtain ⟨ports, hxl⟩ := State.frameIn_xl ha
    exact (congrArg Xl.answered hxl).trans rfl
  have hexec := exec_syncReq ha hf hfleet hauth he
  obtain ⟨hroled, hxl⟩ := State.synced_roled (hus.wf hw) h r
  rw [State.frameIn_memberId ha] at hroled
  rw [State.recordAck_xl, hack] at hxl
  dsimp only at hexec
  generalize (s.frameIn h).1.synced h r = a at hexec hroled hxl
  obtain ⟨hwi, hrec, hslot⟩ := hus.draws (hroled.trans (State.respond_roled _ h 0x26 (roleBytes (a.roleOf r.slot)) r.slot))
  obtain ⟨ports, hresp⟩ := State.respond_xl a h 0x26 (roleBytes (a.roleOf r.slot))
  refine ⟨_, hexec, hwi, hrec, ?_, ?_, hslot⟩
  · rw [hresp, hxl]
    exact mapGet_mapSet_self _ _ _ _ ((MapWf_iff _ _).mp hk)
  · rw [hresp, hxl]
    show ((s.frameIn h).1.xl.answered ++ [_]).length = _
    rw [hans, List.length_append]
    rfl

/-- A SYNC IMAGE answers the request that waits for it. -/
def State.syncHeard (h : LinkHdr) (s : State) : State := match s.takeRequest h 0x14 with
  | some (_, s) => s
  | none => s

theorem State.syncHeard_roled (s : State) (h : LinkHdr) (n : Nat) : s.Roled n 0 id (s.syncHeard h)
    ∧ (s.syncHeard h).lg.suspended = s.lg.suspended := by
  unfold State.syncHeard State.takeRequest
  cases s.xl.requests.find? fun r => r.reqId = h.reqId && r.dest = h.src && r.type = 0x14 with
  | none => exact ⟨.refl n s, rfl⟩
  | some q => exact ⟨s.onXl_roled n _ rfl rfl, rfl⟩

/-- The image goes to the slot that it is for. -/
def State.imageIn (h : LinkHdr) (r : RoleFields) (s : State) : State :=
  let x := s.slot r.slot
  if x.fleet && x.roleEpoch = r.roleEpoch then
    if x.mirror = s.memberId && x.home = h.src then
      ((if x.leased then s.installGrants r else s).onSlot r.slot (Slot.takeImage r)).soil r.slot
    else if x.authority = h.src then s.serveAgain r.slot
    else if x.leased && x.mirrored && x.home = s.memberId && x.mirror = h.src then (s.installGrants r).serveAgain r.slot
    else s
  else s.learnEpoch r.slot r.roleEpoch

theorem execSyncImage_eq (h : LinkHdr) (r : RoleFields) (s : State) : execSyncImage h r s
    = .next (s.receive h 0x26 (be 8 h.reqId ++ roleBytes r) fun s => (s.syncHeard h).imageIn h r) := rfl

theorem exec_syncImage (ha : Arrives s h 0x26) (hfleet : (s.slot r.slot).fleet = true)
    (he : (s.slot r.slot).roleEpoch = r.roleEpoch) : exec (.syncImage h r) s = .next (let a := (s.frameIn h).1.syncHeard h
      let x := s.slot r.slot
      if x.mirror = s.memberId && x.home = h.src then
        ((if x.leased then a.installGrants r else a).onSlot r.slot (Slot.takeImage r)).soil r.slot
      else if x.authority = h.src then a.serveAgain r.slot
      else if x.leased && x.mirrored && x.home = s.memberId && x.mirror = h.src then (a.installGrants r).serveAgain r.slot
      else a) := by
  obtain ⟨hroled, -⟩ := (s.frameIn h).1.syncHeard_roled h r.slot
  have hslot : ((s.frameIn h).1.syncHeard h).slot r.slot = s.slot r.slot := hroled.self.trans (State.frameIn_slot ha _)
  have hme : ((s.frameIn h).1.syncHeard h).memberId = s.memberId := hroled.member.trans (State.frameIn_memberId ha)
  rw [show exec (.syncImage h r) s = execSyncImage h r s from rfl, execSyncImage_eq, State.receive_arrives ha, State.imageIn]
  simp only [hslot, hme, hfleet, he, decide_true, Bool.and_self, if_true]

theorem State.frameIn_suspended {type : Nat} (ha : Arrives s h type) : (s.frameIn h).1.lg.suspended = s.lg.suspended := by
  obtain ⟨m, o, hu⟩ := State.frameIn_arrives ha
  rw [hu]

section SyncImage

variable (ha : Arrives s h 0x26) (hfleet : (s.slot r.slot).fleet = true) (he : (s.slot r.slot).roleEpoch = r.roleEpoch)
include ha hfleet he

/-- The slot serves again once its authority has answered. -/
theorem syncImage_serves (hx : (s.slot r.slot).mirror ≠ s.memberId ∨ (s.slot r.slot).home ≠ h.src)
    (hauth : (s.slot r.slot).authority = h.src) : ∃ t, exec (.syncImage h r) s = .next t
    ∧ State.WithinDraws r.slot s (s.frameIn h).1 t ∧ t.lg.journalCount = s.lg.journalCount + 0
    ∧ t.slot r.slot = s.slot r.slot ∧ t.lg.suspended = s.lg.suspended.filter (· ≠ r.slot) := by
  obtain ⟨hroled, hsus⟩ := (s.frameIn h).1.syncHeard_roled h r.slot
  have hexec := exec_syncImage ha hfleet he
  dsimp only at hexec
  rw [if_neg (by simpa [← not_and_or] using hx), if_pos hauth] at hexec
  obtain ⟨hwi, hrec, hslot⟩ := (State.frameIn_roled ha r.slot).draws (hroled.trans (State.serveAgain_roled _ r.slot r.slot))
  refine ⟨_, hexec, hwi, hrec, hslot, ?_⟩
  rw [← State.frameIn_suspended ha, ← hsus]
  rfl

/-- A mirror takes its home's image. -/
theorem syncImage_copies (hw : mapWf {} s.lg.slots = true) (hm : (s.slot r.slot).mirror = s.memberId)
    (hh : (s.slot r.slot).home = h.src) : ∃ t, exec (.syncImage h r) s = .next t
    ∧ State.WithinDraws r.slot s (s.frameIn h).1 t ∧ t.lg.journalCount = s.lg.journalCount + 0
    ∧ t.slot r.slot = (s.slot r.slot).takeImage r ∧ t.lg.suspended = s.lg.suspended := by
  obtain ⟨hroled, hsus⟩ := (s.frameIn h).1.syncHeard_roled h r.slot
  have hexec := exec_syncImage ha hfleet he
  dsimp only at hexec
  rw [if_pos (by simp [hm, hh])] at hexec
  have hus := State.frameIn_roled ha r.slot
  generalize hb : (if (s.slot r.slot).leased then ((s.frameIn h).1.syncHeard h).installGrants r
    else (s.frameIn h).1.syncHeard h) = b at hexec
  have hbr : (s.frameIn h).1.Roled r.slot 0 id b ∧ b.lg.suspended = s.lg.suspended := by
    rw [← hb, ← State.frameIn_suspended ha, ← hsus]
    split
    · exact ⟨hroled.trans (State.installGrants_roled _ r r.slot), rfl⟩
    · exact ⟨hroled, rfl⟩
  obtain ⟨hbroled, hbsus⟩ := hbr
  have hset := State.onSlot_roled ((hus.trans hbroled).wf hw) r.slot (Slot.takeImage r)
  obtain ⟨hwi, hrec, hslot⟩ := hus.draws (hbroled.trans (hset.trans ((State.soil_cached _ r.slot).roled r.slot)))
  refine ⟨_, hexec, hwi, hrec, hslot, ?_⟩
  obtain ⟨c, d, nodes, i, j, tree, hsoil⟩ := (b.onSlot r.slot (Slot.takeImage r)).soil_cached r.slot
  rw [hsoil]
  exact hbsus

/-- A home's own authority takes the grants its mirror holds. -/
theorem syncImage_grants (hl : (s.slot r.slot).leased = true) (hx : (s.slot r.slot).mirrored = true)
    (hh : (s.slot r.slot).home = s.memberId) (hm : (s.slot r.slot).mirror = h.src) (hne : h.src ≠ s.memberId) :
    ∃ t, exec (.syncImage h r) s = .next t
    ∧ State.WithinDraws r.slot s (s.frameIn h).1 t ∧ t.lg.journalCount = s.lg.journalCount + 0
    ∧ t.slot r.slot = s.slot r.slot ∧ t.lg.suspended = s.lg.suspended.filter (· ≠ r.slot) := by
  obtain ⟨hroled, hsus⟩ := (s.frameIn h).1.syncHeard_roled h r.slot
  have hauth : (s.slot r.slot).authority ≠ h.src := by
    rw [Slot.authority, if_pos hl, hh]
    exact hne.symm
  have hexec := exec_syncImage ha hfleet he
  dsimp only at hexec
  rw [if_neg (by simp [hm, hne]), if_neg hauth, if_pos (by simp [hl, hx, hh, hm])] at hexec
  obtain ⟨hwi, hrec, hslot⟩ := (State.frameIn_roled ha r.slot).draws
    (hroled.trans ((State.installGrants_roled _ r r.slot).trans (State.serveAgain_roled _ r.slot r.slot)))
  refine ⟨_, hexec, hwi, hrec, hslot, ?_⟩
  rw [← State.frameIn_suspended ha, ← hsus]
  rfl

end SyncImage

/-- The mirror of a slot becomes its home. -/
def Slot.handedOver (me : Nat) (r : RoleFields) (x : Slot) : Slot :=
  { (x.takeRoles me 0xFFFF false r.leased r.roleEpoch).takeImage r with state := 1 }

/-- The state after a handover, before the record of it. -/
def State.handedOver (r : RoleFields) (s : State) : State :=
  let s := s.setRoles r.slot s.memberId 0xFFFF false r.leased r.roleEpoch
  let s := s.onSlot r.slot fun x => { x.takeImage r with state := 1 }
  if r.leased then s.installGrants r else s.freshGrants r.slot r.serial

theorem State.handedOver_roled (hw : mapWf {} s.lg.slots = true) (r : RoleFields) :
    s.Roled r.slot 0 (Slot.handedOver s.memberId r) (s.handedOver r) := by
  have hset := State.setRoles_roled hw r.slot s.memberId 0xFFFF false r.leased r.roleEpoch
  unfold State.handedOver
  dsimp only
  generalize s.setRoles r.slot s.memberId 0xFFFF false r.leased r.roleEpoch = a at hset ⊢
  have hslot := State.onSlot_roled (hset.wf hw) r.slot fun x => { x.takeImage r with state := 1 }
  generalize a.onSlot r.slot (fun x => { x.takeImage r with state := 1 }) = b at hslot ⊢
  have hgrants : b.Roled r.slot 0 id (if r.leased then b.installGrants r else b.freshGrants r.slot r.serial) := by
    split
    · exact b.installGrants_roled r r.slot
    · exact b.freshGrants_roled r.slot r.serial r.slot
  exact (hset.trans (hslot.trans hgrants)).congr rfl

theorem State.fleetRecord_serveAgain (s : State) (m kind action reason n other first last : Nat) :
    (s.serveAgain m).fleetRecord kind action reason n other first last
      = s.fleetRecord kind action reason n other first last := rfl

theorem execHandover_eq (h : LinkHdr) (r : RoleFields) (s : State) : execHandover h r s
    = .next (s.receive h 0x31 (roleBytes r) fun s =>
      if (s.slot r.slot).fleet && (s.slot r.slot).mirrored && (s.slot r.slot).home = h.src && (s.slot r.slot).mirror = s.memberId
          && epochAhead r.roleEpoch (s.slot r.slot).roleEpoch then
        ((s.handedOver r).serveAgain r.slot).append ((s.handedOver r).fleetRecord 0x50 3 0 r.slot h.src 0 0) []
      else s) := rfl

theorem exec_handover (ha : Arrives s h 0x31) (hfleet : (s.slot r.slot).fleet = true) (hx : (s.slot r.slot).mirrored = true)
    (hh : (s.slot r.slot).home = h.src) (hm : (s.slot r.slot).mirror = s.memberId)
    (he : epochAhead r.roleEpoch (s.slot r.slot).roleEpoch = true) :
    exec (.handover h r) s = .next (let a := ((s.frameIn h).1.handedOver r).serveAgain r.slot
      a.append (a.fleetRecord 0x50 3 0 r.slot h.src 0 0) []) := by
  rw [show exec (.handover h r) s = execHandover h r s from rfl, execHandover_eq, State.receive_arrives ha, if_pos]
  · dsimp only
    rw [State.fleetRecord_serveAgain]
  · rw [State.frameIn_slot ha, State.frameIn_memberId ha, hfleet, hx, hh, hm, he]
    simp

theorem handover_takes (hw : mapWf {} s.lg.slots = true) (hs : s.Spare 1) (ha : Arrives s h 0x31)
    (hfleet : (s.slot r.slot).fleet = true) (hx : (s.slot r.slot).mirrored = true)
    (hh : (s.slot r.slot).home = h.src) (hm : (s.slot r.slot).mirror = s.memberId)
    (he : epochAhead r.roleEpoch (s.slot r.slot).roleEpoch = true) : ∃ t, exec (.handover h r) s = .next t
    ∧ State.WithinDraws r.slot s (s.frameIn h).1 t ∧ t.lg.journalCount = s.lg.journalCount + 1
    ∧ t.slot r.slot = Slot.handedOver s.memberId r (s.slot r.slot) := by
  have hus := State.frameIn_roled ha r.slot
  have hroled := (State.handedOver_roled (hus.wf hw) r).trans (State.serveAgain_roled _ r.slot r.slot)
  rw [State.frameIn_memberId ha] at hroled
  obtain ⟨hwi, hrec, hslot⟩ := hus.draws (hroled.trans
    (State.appendFleet_roled ((hus.after hroled).spare (l := 1) hs) 0x50 3 0 r.slot h.src 0 0 r.slot))
  exact ⟨_, exec_handover ha hfleet hx hh hm he, hwi, hrec, hslot⟩

end Sync

/-! ### A slot given up (R340) -/

/-- The member gives a slot up. -/
def State.gives (n : Nat) (s : State) : State :=
  let s := s.onSlot n fun x => { x with state := 2 }
  let s := s.onLg fun g => { g with suspended := g.suspended.filter (· ≠ n) }
  s.onXl fun x => { x with leases := x.leases.filter fun l => !(l.slot = n ∧ l.holder = s.memberId) }

theorem State.relinquish_eq (s : State) (n : Nat) : s.relinquish n
    = (s.gives n).append ((s.gives n).fleetRecord 0x50 4 0 n 0xFFFF 0 0) [] := rfl

theorem State.gives_roled (hw : mapWf {} s.lg.slots = true) (n : Nat) : s.Roled n 0 (fun x => { x with state := 2 }) (s.gives n) :=
  have hset := State.onSlot_roled hw n fun x => { x with state := 2 }
  have hlease := State.onXl_roled ((s.onSlot n fun x => { x with state := 2 }).serveAgain n) n (fun x => { x with
    leases := x.leases.filter fun l => !(l.slot = n ∧ l.holder = s.memberId) }) rfl rfl
  (hset.trans ((State.serveAgain_roled _ n n).trans hlease)).congr rfl

theorem State.gives_leases (s : State) (n : Nat) : (s.gives n).xl.leases
    = s.xl.leases.filter fun l => !(l.slot = n && l.holder = s.memberId) := by
  show s.xl.leases.filter (fun l => !decide (l.slot = n ∧ l.holder = s.memberId)) = _
  simp only [Bool.decide_and]

/-- A higher role epoch of a slot that this member serves makes it give the slot up. -/
theorem State.learnEpoch_gives (hw : mapWf {} s.lg.slots = true) (hs : s.Spare 1) {e : Nat} (hfleet : (s.slot n).fleet = true)
    (he : epochAhead e (s.slot n).roleEpoch = true) (hserves : s.serves n = true) :
    s.Roled n 1 (fun x => { x with roleEpoch := e, state := 2 }) (s.learnEpoch n e)
    ∧ (s.learnEpoch n e).xl.leases = s.xl.leases.filter fun l => !(l.slot = n && l.holder = s.memberId) := by
  have hset := State.onSlot_roled hw n fun x => { x with roleEpoch := e }
  have heq : s.learnEpoch n e = (s.onSlot n fun x => { x with roleEpoch := e }).relinquish n := by
    unfold State.learnEpoch
    dsimp only
    rw [if_pos (by rw [hfleet, he]; rfl), if_pos hserves]
  have hl : (s.onSlot n fun x => { x with roleEpoch := e }).xl = s.xl := rfl
  rw [heq, State.relinquish_eq]
  generalize (s.onSlot n fun x => { x with roleEpoch := e }) = a at hset hl ⊢
  have hgives := State.gives_roled (hset.wf hw) n
  have hleases := a.gives_leases n
  rw [hl, hset.member] at hleases
  generalize a.gives n = b at hgives hleases ⊢
  have hboth := hset.trans hgives
  have hspare := hboth.spare (l := 1) hs
  obtain ⟨lg, hlg⟩ := State.appendFleet_kept hspare 0x50 4 0 n 0xFFFF 0 0
  refine ⟨(hboth.trans (State.appendFleet_roled hspare 0x50 4 0 n 0xFFFF 0 0 n)).congr rfl, ?_⟩
  rw [hlg]
  exact hleases

theorem State.frameIn_serves {h : LinkHdr} {type : Nat} (ha : Arrives s h type) (n : Nat) :
    (s.frameIn h).1.serves n = s.serves n := by
  simp only [State.serves, State.frameIn_slot ha, State.frameIn_memberId ha, State.frameIn_leases ha]

section GivesUp

variable {h : LinkHdr} {epoch : Nat} (hw : mapWf {} s.lg.slots = true) (hs : s.Spare 1) (hfleet : (s.slot n).fleet = true)
  (he : epochAhead epoch (s.slot n).roleEpoch = true) (hserves : s.serves n = true)
include hw hs hfleet he hserves

theorem State.frameIn_gives {type : Nat} (ha : Arrives s h type) :
    State.WithinDraws n s (s.frameIn h).1 ((s.frameIn h).1.learnEpoch n epoch)
    ∧ ((s.frameIn h).1.learnEpoch n epoch).lg.journalCount = s.lg.journalCount + 1
    ∧ ((s.frameIn h).1.learnEpoch n epoch).slot n = { s.slot n with roleEpoch := epoch, state := 2 }
    ∧ ((s.frameIn h).1.learnEpoch n epoch).xl.leases = s.xl.leases.filter fun l => !(l.slot = n && l.holder = s.memberId) := by
  have hus := State.frameIn_roled ha n
  obtain ⟨hroled, hleases⟩ := State.learnEpoch_gives (hus.wf hw) (hus.spare (l := 1) hs)
    (by rw [State.frameIn_slot ha]; exact hfleet) (e := epoch) (by rw [State.frameIn_slot ha]; exact he)
    (by rw [State.frameIn_serves ha]; exact hserves)
  rw [State.frameIn_leases ha, State.frameIn_memberId ha] at hleases
  obtain ⟨hwi, hrec, hslot⟩ := hus.draws hroled
  exact ⟨hwi, hrec, hslot, hleases⟩

omit hw hs hfleet hserves in
theorem exec_roleNotice_ahead (ha : Arrives s h 4) :
    exec (.roleNotice h n epoch) s = .next ((s.frameIn h).1.learnEpoch n epoch) := by
  have hne : (s.slot n).roleEpoch ≠ epoch := by
    rintro rfl
    rw [epochAhead_self] at he
    exact Bool.false_ne_true he
  simp only [exec, execRoleNotice]
  rw [State.receive_arrives ha, if_neg (by rw [State.frameIn_slot ha]; simp [hne])]

omit hw hs hfleet he hserves in
theorem exec_mirrorRefuse_unasked (ha : Arrives s h 0x25) (hf : ∀ f ∈ s.xl.forwarded, f.slot ≠ n) {serial : Nat}
    (hk : s.waitingTake n serial = none) :
    exec (.mirrorRefuse h n epoch serial) s = .next ((s.frameIn h).1.learnEpoch n epoch) := by
  rw [exec_mirrorRefuse hf ha, State.takeRefused_none ((State.frameIn_waitingTake ha n serial).trans hk)]

end GivesUp

/-! ### A mirror released (R342) -/

theorem State.sendMembers_roled (vc type : Nat) (b : Bytes) (n : Nat) : ∀ (ms : List Nat) (s : State),
    s.Roled n 0 id (ms.foldl (fun s m => State.sendMember m vc type b s) s)
  | [], s => .refl n s
  | m :: ms, s => (State.sendMember_roled s m vc type b n).after (State.sendMembers_roled vc type b n ms _)

theorem State.noticeRole_roled (s : State) (m except n : Nat) : s.Roled n 0 id (s.noticeRole m except) :=
  State.sendMembers_roled ..

/-- The home goes on alone. -/
def Slot.alone (x : Slot) : Slot := x.takeRoles x.home 0xFFFF false x.leased (x.roleEpoch + 1)

/-- The state of a home that goes on alone, before the record of it. -/
def State.alone (n m : Nat) (s : State) : State :=
  let x := s.slot n
  let s := s.setRoles n x.home 0xFFFF false x.leased (x.roleEpoch + 1)
  let s := if x.leased then s else s.freshGrants n x.serial
  (s.serveAgain n).noticeRole n m

theorem State.alone_roled (hw : mapWf {} s.lg.slots = true) (n m : Nat) : s.Roled n 0 Slot.alone (s.alone n m) := by
  have hset := State.setRoles_roled hw n (s.slot n).home 0xFFFF false (s.slot n).leased ((s.slot n).roleEpoch + 1)
  unfold State.alone
  dsimp only
  generalize s.setRoles n (s.slot n).home 0xFFFF false (s.slot n).leased ((s.slot n).roleEpoch + 1) = a at hset ⊢
  obtain ⟨hgrants, -⟩ := a.freshGrants_unless n (s.slot n).serial ((s.slot n).leased = true)
  generalize (if (s.slot n).leased = true then a else a.freshGrants n (s.slot n).serial) = b at hgrants ⊢
  exact (hset.trans (hgrants.trans ((State.serveAgain_roled b n n).trans (State.noticeRole_roled _ n m n)))).congr rfl

theorem State.loseMirror_released (s : State) (n m : Nat) : s.loseMirror n m 3 0
    = (s.alone n m).append ((s.alone n m).fleetRecord 0x50 3 0 n m 0 0) [] := rfl

theorem exec_release {h : LinkHdr} (ha : Arrives s h 0x32) (hfleet : (s.slot n).fleet = true)
    (hh : (s.slot n).home = s.memberId) (hx : (s.slot n).mirrored = true) (hm : (s.slot n).mirror = h.src) :
    exec (.release h [n]) s = .next ((s.frameIn h).1.loseMirror n h.src 3 0) := by
  simp only [exec, execRelease]
  rw [State.receive_arrives ha, List.foldl_cons, List.foldl_nil,
    if_pos (by rw [State.frameIn_slot ha, State.frameIn_memberId ha, hfleet, hh, hx, hm]; simp)]

theorem release_alone {h : LinkHdr} (hw : mapWf {} s.lg.slots = true) (hs : s.Spare 1) (ha : Arrives s h 0x32)
    (hfleet : (s.slot n).fleet = true) (hh : (s.slot n).home = s.memberId) (hx : (s.slot n).mirrored = true)
    (hm : (s.slot n).mirror = h.src) : ∃ t, exec (.release h [n]) s = .next t
    ∧ State.WithinDraws n s (s.frameIn h).1 t ∧ t.lg.journalCount = s.lg.journalCount + 1
    ∧ t.slot n = Slot.alone (s.slot n) := by
  have hus := State.frameIn_roled ha n
  have hexec := exec_release ha hfleet hh hx hm
  rw [State.loseMirror_released] at hexec
  have hroled := State.alone_roled (hus.wf hw) n h.src
  obtain ⟨hwi, hrec, hslot⟩ := hus.draws (hroled.trans
    (State.appendFleet_roled ((hus.after hroled).spare (l := 1) hs) 0x50 3 0 n h.src 0 0 n))
  exact ⟨_, hexec, hwi, hrec, hslot⟩

/-! ### A member lost (Table 14.7) -/

theorem State.sendMembers_xl (vc type : Nat) (b : Bytes) : ∀ (ms : List Nat) (s : State), ∃ ports,
    (ms.foldl (fun s m => State.sendMember m vc type b s) s).xl = { s.xl with ports := ports }
  | [], s => ⟨s.xl.ports, rfl⟩
  | m :: ms, s => by
    obtain ⟨ports, h⟩ := s.sendMember_xl m vc type b
    obtain ⟨ports', h'⟩ := State.sendMembers_xl vc type b ms (s.sendMember m vc type b)
    exact ⟨ports', h'.trans (by rw [h])⟩

/-- A lost home's mirror begins to take its place. -/
def Slot.takesOver (x : Slot) : Slot := { x with roleEpoch := (x.roleEpoch + 1) % 65536, state := 2 }

theorem State.beginTakeover_eq (s : State) (n m : Nat) : s.beginTakeover n m
    = ((s.onSlot n Slot.takesOver).noticeRole n m).onXl fun y => { y with
      takeover := y.takeover ++ [{ slot := n, member := m, state := (s.slot n).state }] } := rfl

theorem State.beginTakeover_roled (hw : mapWf {} s.lg.slots = true) (n m : Nat) : s.Roled n 0 Slot.takesOver (s.beginTakeover n m)
    ∧ (s.beginTakeover n m).xl.takeover = s.xl.takeover ++ [{ slot := n, member := m, state := (s.slot n).state }] := by
  have hset := State.onSlot_roled hw n Slot.takesOver
  have hnotice := (s.onSlot n Slot.takesOver).noticeRole_roled n m n
  have hxl : ∃ ports, ((s.onSlot n Slot.takesOver).noticeRole n m).xl = { s.xl with ports := ports } := State.sendMembers_xl ..
  obtain ⟨ports, hxl⟩ := hxl
  rw [State.beginTakeover_eq]
  generalize (s.onSlot n Slot.takesOver).noticeRole n m = a at hnotice hxl ⊢
  refine ⟨(hset.trans (hnotice.trans (a.onXl_roled n _ rfl rfl))).congr rfl, ?_⟩
  show a.xl.takeover ++ _ = _
  rw [hxl]

/-- Roles look at the slots, the leases and the member's own number. -/
theorem State.roleSlots_congr (hl : t.lg.slots = s.lg.slots) (hx : t.xl.leases = s.xl.leases) (hm : t.memberId = s.memberId) :
    t.roleSlots = s.roleSlots := by
  simp only [State.roleSlots, hl, hx, hm]

theorem State.partners_congr (hl : t.lg.slots = s.lg.slots) (hx : t.xl.leases = s.xl.leases) (hm : t.memberId = s.memberId) :
    t.partners = s.partners := by
  simp only [State.partners, State.roleSlots_congr hl hx hm, State.slot, State.leasesOf, hl, hx, hm]

/-- What a lost member leaves of the Fleet's state, before its slots are seen to. -/
def State.without (m : Nat) (s : State) : State := s.onXl fun x => { x with
  lost := m :: x.lost
  ceremonyHolder := if x.ceremonyHolder = m && m ≠ s.memberId then 0xFFFF else x.ceremonyHolder }

section MemberLoss

variable {m : Nat} (hen : s.fleetEnable = true) (hlost : m ∉ s.xl.lost)
  (hc : mapGet 0 s.xl.memberSeen m + (s.applyNum 0x7800 6 0).memberLossLimit ≤ s.clock)
include hen hlost hc

theorem exec_memberLoss (hp : m ∈ s.partners ∨ s.xl.ceremonyHolder = m) : exec (.memberLoss m) s
    = .next (s.roleSlots.foldl (fun t n => t.loseSlot m n) ((s.applyNum 0x7800 6 0).without m)) := by
  have hme := (s.applyNum_roled (index := 0x7800) (sub := 6) (inst := 0) (by decide) 0).member
  have hen' : (s.applyNum 0x7800 6 0).fleetEnable = true := by
    rw [← hen, State.fleetEnable, State.fleetEnable, State.num_applyNum s (by decide)]
  have hxl : (s.applyNum 0x7800 6 0).xl = s.xl := by rw [s.applyNum_pd 0x7800 6 0]
  have hlg : (s.applyNum 0x7800 6 0).lg = s.lg := by rw [s.applyNum_pd 0x7800 6 0]
  have hclock : (s.applyNum 0x7800 6 0).clock = s.clock := by rw [s.applyNum_pd 0x7800 6 0]
  have hroles : ((s.applyNum 0x7800 6 0).without m).roleSlots = s.roleSlots :=
    State.roleSlots_congr (congrArg Lg.slots hlg) ((congrArg Xl.leases hxl :)) hme
  have hparts := State.partners_congr (congrArg Lg.slots hlg) (congrArg Xl.leases hxl) hme
  rw [← hroles]
  refine congrArg Host.Outcome.next (if_pos ?_)
  rw [hen', hparts, hxl, hclock]
  simp [hlost, hp, hc]

/-- The holder of the Ceremony is lost, and no slot with it. -/
theorem exec_memberLoss_holder (hr : s.roleSlots = []) (hh : s.xl.ceremonyHolder = m) (hne : m ≠ s.memberId) :
    exec (.memberLoss m) s = .next { s.applyNum 0x7800 6 0 with
        xl := { s.xl with lost := m :: s.xl.lost, ceremonyHolder := 0xFFFF } } := by
  have hme := (s.applyNum_roled (index := 0x7800) (sub := 6) (inst := 0) (by decide) 0).member
  have hxl : (s.applyNum 0x7800 6 0).xl = s.xl := by rw [s.applyNum_pd 0x7800 6 0]
  rw [exec_memberLoss hen hlost hc (.inr hh), hr, List.foldl_nil, State.without, State.onXl, hxl, hme, if_pos (by simp [hh, hne])]

/-- The home of a mirrored slot is lost: its mirror begins to take its place. -/
theorem memberLoss_takesOver (hw : mapWf {} s.lg.slots = true) (hr : s.roleSlots = [n]) (hp : s.partners = [m])
    (hh : s.xl.ceremonyHolder ≠ m) (hhome : (s.slot n).home = m) (hx : (s.slot n).mirrored = true)
    (hm : (s.slot n).mirror = s.memberId) (htake : ∀ t ∈ s.xl.takeover, t.slot ≠ n) :
    ∃ t, exec (.memberLoss m) s = .next t ∧ State.WithinDraws n s (s.applyNum 0x7800 6 0) t
    ∧ t.lg.journalCount = s.lg.journalCount + 0 ∧ t.slot n = Slot.takesOver (s.slot n)
    ∧ t.xl.takeover = s.xl.takeover ++ [{ slot := n, member := m, state := (s.slot n).state }] := by
  have hroled := s.applyNum_roled (index := 0x7800) (sub := 6) (inst := 0) (by decide) n
  have hxl : (s.applyNum 0x7800 6 0).xl = s.xl := by rw [s.applyNum_pd 0x7800 6 0]
  have hexec := exec_memberLoss hen hlost hc (.inl (by rw [hp]; exact List.mem_singleton_self m))
  rw [hr, List.foldl_cons, List.foldl_nil] at hexec
  generalize s.applyNum 0x7800 6 0 = a at hroled hxl hexec ⊢
  have hwith : a.Roled n 0 id (a.without m) :=
    a.onXl_roled n _ rfl (by rw [hxl]; simp [hh])
  have htk : (a.without m).xl.takeover = s.xl.takeover := (congrArg Xl.takeover hxl :)
  have hslot : (a.without m).slot n = s.slot n := hwith.self.trans hroled.self
  have hme : (a.without m).memberId = s.memberId := hwith.member.trans hroled.member
  have hlose : (a.without m).loseSlot m n = (a.without m).beginTakeover n m := by
    have hmem : m ∈ s.partners := by rw [hp]; exact List.mem_singleton_self m
    have hfleet : (s.slot n).fleet = true := by
      have hmember := (List.mem_filter.mp hmem).2
      simp only [ne_eq, decide_not, Bool.and_eq_true, Bool.not_eq_true', decide_eq_false_iff_not] at hmember
      simp [Slot.fleet, hx, hhome, hmember.1]
    unfold State.loseSlot
    dsimp only
    rw [hslot, hme, htk, if_neg (by simpa [hfleet] using htake), if_pos (by simp [hhome, hx, hm])]
  rw [hlose] at hexec
  generalize a.without m = b at hwith htk hslot hexec
  obtain ⟨hbegin, htakes⟩ := State.beginTakeover_roled ((hroled.trans hwith).wf hw) n m
  obtain ⟨hwi, hrec, hself⟩ := hroled.draws (hwith.trans hbegin)
  refine ⟨_, hexec, hwi, hrec, hself, ?_⟩
  rw [htakes, htk, hslot]

end MemberLoss

/-! ### Landings that nobody saw (Table 14.7) -/

theorem State.WithinDraws.trans (h : State.WithinDraws n s s t) (h' : State.WithinDraws n t t u) : State.WithinDraws n s s u := by
  obtain ⟨hsame, hothers, hroutes, hholder⟩ := h
  obtain ⟨hsame', hothers', hroutes', hholder'⟩ := h'
  refine ⟨hsame'.trans ?_, fun m hm => (hothers' m hm).trans (hothers m hm), hroutes'.trans hroutes, hholder'.trans hholder⟩
  rw [hsame]

/-- `t` is `s` after `k` records, and draws for them, about slot `n`. -/
structure State.Voided (n k : Nat) (s t : State) : Prop where
  within : State.WithinDraws n s s t
  member : t.memberId = s.memberId
  losses : t.num 0x7800 8 0 0 = s.num 0x7800 8 0 0
  count : t.lg.journalCount = s.lg.journalCount + k
  fill : t.reelFill ≤ s.reelFill + 512 * k
  wf : mapWf {} s.lg.slots = true → mapWf {} t.lg.slots = true

theorem State.Voided.trans (h : s.Voided n k t) (h' : t.Voided n l u) : s.Voided n (k + l) u where
  within := h.within.trans h'.within
  member := h'.member.trans h.member
  losses := h'.losses.trans h.losses
  count := by rw [h'.count, h.count, Nat.add_assoc]
  fill := by
    have h1 := h.fill
    have h2 := h'.fill
    omega
  wf := fun hw => h'.wf (h.wf hw)

theorem State.Roled.voided (h : s.Roled n k f t) (hl : t.pd.nums = s.pd.nums) : s.Voided n k t where
  within := ((State.Roled.refl n s).draws h).1
  member := h.member
  losses := State.num_of_nums hl ..
  count := h.count
  fill := h.fill
  wf := h.wf

theorem State.Voided.refl (n : Nat) (s : State) : s.Voided n 0 s := (State.Roled.refl n s).voided rfl

theorem State.Voided.spare (h : s.Voided n k t) (hs : s.Spare (k + l)) : t.Spare l := by
  obtain ⟨htap, hroom⟩ := hs
  obtain ⟨hsame, -⟩ := h.within
  have hfill := h.fill
  refine ⟨?_, by omega⟩
  rw [hsame]
  exact htap

theorem State.Spare.mono (hs : s.Spare k) (hl : l ≤ k) : s.Spare l := by
  obtain ⟨htap, hroom⟩ := hs
  exact ⟨htap, by omega⟩

theorem State.takeFree_voided (s : State) (m n : Nat) : s.Voided n 0 (s.takeFree m) where
  within := ⟨rfl, fun _ _ => rfl, rfl, rfl⟩
  member := rfl
  losses := rfl
  count := rfl
  fill := Nat.le_refl _
  wf := id

theorem State.PoolDrew.voided (h : s.PoolDrew t) (hnum : ∀ sub d, t.num 0x7800 sub 0 d = s.num 0x7800 sub 0 d) (n : Nat) :
    s.Voided n 0 t := by
  have hmember := hnum 3 0xFFFF
  have hlosses := hnum 8 0
  obtain ⟨en, pd, c, rfl⟩ := h
  exact { within := ⟨rfl, fun _ _ => rfl, rfl, rfl⟩, member := hmember, losses := hlosses, count := rfl
          fill := Nat.le_refl _, wf := id }

/-- The journal signs a record with what the Bank gives for it. -/
theorem State.journalSignature_voided (s : State) (covered : Bytes) (n : Nat) : s.Voided n 0 (s.journalSignature covered).2 := by
  unfold State.journalSignature State.journalHedge
  split
  · refine (s.generate_poolDrew (by decide) 32 false).voided (fun sub d => ?_) n
    exact s.num_generate 77 32 false (by simp [objKey]; omega) (by simp [objKey]; omega) d
  · exact s.takeFree_voided 32 n

theorem p256Sign_le (key m extra : Bytes) : (p256Sign key m extra).length ≤ 64 := by
  unfold p256Sign
  split
  · dsimp only
    rw [List.length_append, be_length, be_length]
  · exact Nat.zero_le _

/-- A record while the journal has room: the journal alone. -/
theorem State.append_roled (hs : s.Spare 1) {body tail : Bytes} (hl : body.length + 32 + tail.length ≤ 512) (n : Nat) :
    s.Roled n 1 id (s.append body tail) ∧ (s.append body tail).pd = s.pd := by
  obtain ⟨htap, hroom⟩ := hs
  have hfill : (s.journal body tail).reelFill = s.reelFill + (body.length + 32 + tail.length) := (s.journal_appended body tail).fill
  have hle : (s.journal body tail).reelFill ≤ s.reelFill + 512 * 1 := by
    rw [hfill]
    exact Nat.add_le_add_left hl _
  rw [State.append_fits htap (by omega)]
  rw [State.journal_untapped htap] at hle ⊢
  exact ⟨{ same := rfl, others := fun _ _ => rfl, self := rfl, routes := rfl, holder := rfl, member := rfl, count := rfl
           fill := hle, wf := id }, rfl⟩

theorem State.soil_pd (s : State) (n : Nat) : (s.soil n).pd = s.pd := by
  obtain ⟨c, r, nodes, d, dn, tree, h⟩ := s.soil_cached n
  exact (congrArg State.pd h).trans rfl

/-- A landing that nobody saw: its record, and the slot's image. -/
theorem State.landVoid_steps (s : State) (n serial : Nat) (code : Status) : ∃ (body covered : Bytes) (f : Slot → Slot),
    body.length = 96 ∧ s.landVoid n serial code
      = (State.onSlot n f (((s.takeFree 22).journalSignature covered).2.append body
        ((s.takeFree 22).journalSignature covered).1)).soil n := by
  unfold State.landVoid State.landUnseen
  refine ⟨_, _, _, ?_, rfl⟩
  simp [State.freeBytes, slice]

theorem State.landVoid_voided (hw : mapWf {} s.lg.slots = true) (hs : s.Spare 1) (n serial : Nat) (code : Status) :
    s.Voided n 1 (s.landVoid n serial code) := by
  obtain ⟨body, covered, f, hlen, heq⟩ := s.landVoid_steps n serial code
  have hsign := (s.takeFree_voided 22 n).trans ((s.takeFree 22).journalSignature_voided covered n)
  have hsig : ((s.takeFree 22).journalSignature covered).1.length ≤ 64 := p256Sign_le ..
  rw [heq]
  generalize (s.takeFree 22).journalSignature covered = sig at hsign hsig ⊢
  obtain ⟨happend, hpd⟩ := State.append_roled (hsign.spare (l := 1) hs) (body := body) (tail := sig.1) (by omega) n
  generalize sig.2.append body sig.1 = a at happend hpd ⊢
  have hset := State.onSlot_roled (happend.wf (hsign.wf hw)) n f
  refine (hsign.trans (((happend.trans hset).trans ((State.soil_cached _ n).roled n)).voided ?_))
  rw [State.soil_pd]
  exact congrArg Pd.nums hpd

theorem State.landVoids_voided (n : Nat) (code : Status) : ∀ (ks : List Nat) (s : State), mapWf {} s.lg.slots = true →
    s.Spare ks.length → s.Voided n ks.length (ks.foldl (fun s k => State.landVoid n k code s) s)
  | [], s, _, _ => .refl n s
  | k :: ks, s, hw, hs => by
    have hs' : s.Spare (1 + ks.length) := by rw [Nat.add_comm]; exact hs
    have hv := State.landVoid_voided hw (hs'.mono (Nat.le_add_right ..)) n k code
    have hrest := State.landVoids_voided n code ks _ (hv.wf hw) (hv.spare hs')
    rw [List.foldl_cons, List.length_cons, Nat.add_comm]
    exact hv.trans hrest

/-! ### The end of a takeover (Table 14.7) -/

/-- What may be landed in slot `n` that the authority has not acknowledged. -/
def State.unacknowledged (s : State) (n : Nat) : List Nat :=
  ((s.xl.leases.filter fun l => l.slot = n).map (·.holder)).eraseDups.flatMap fun g => s.voidedSerials n g

/-- The slot of the mirror that has taken the home's place. -/
def Slot.takenOver (me last : Nat) (was x : Slot) : Slot :=
  { x.takeRoles me 0xFFFF false was.leased was.roleEpoch with state := 1, serial := max was.serial last }

/-- The mirror is the home, before the record of it. -/
def State.tookOver (n last : Nat) (was : Slot) (s : State) : State :=
  (s.setRoles n s.memberId 0xFFFF false was.leased was.roleEpoch).onSlot n fun y => { y with
    state := 1, serial := max was.serial last }

/-- The takeover and the leases that it ended are gone. -/
def State.takeoverClosed (k : Takeover) (holders : List Nat) (s : State) : State := s.onXl fun y => { y with
    leases := y.leases.filter fun l => !(l.slot = k.slot && holders.contains l.holder)
    takeover := y.takeover.filter fun u => u ≠ k }

theorem State.tookOver_roled (hw : mapWf {} s.lg.slots = true) (n last : Nat) (was : Slot) :
    s.Roled n 0 (Slot.takenOver s.memberId last was) (s.tookOver n last was) ∧ (s.tookOver n last was).pd = s.pd := by
  have hset := State.setRoles_roled hw n s.memberId 0xFFFF false was.leased was.roleEpoch
  have hpd : (s.setRoles n s.memberId 0xFFFF false was.leased was.roleEpoch).pd = s.pd := State.soil_pd ..
  unfold State.tookOver
  generalize s.setRoles n s.memberId 0xFFFF false was.leased was.roleEpoch = a at hset hpd ⊢
  exact ⟨(hset.trans (State.onSlot_roled (hset.wf hw) n fun y => { y with
    state := 1, serial := max was.serial last })).congr rfl, hpd⟩

theorem exec_takeoverComplete {k : Takeover} (hk : s.xl.takeover.find? (fun t => t.slot = n) = some k)
    (hh : (s.slot n).home = k.member) : ∃ holders, exec (.takeoverComplete n) s = .next
      (let a := (((s.unacknowledged n).foldl (fun s k => State.landVoid n k stMemberLost s) s).takeoverClosed k holders).tookOver
        n ((s.unacknowledged n).foldl max 0) (s.slot n)
      ((a.serveAgain n).bumpFleet 8).append (a.fleetRecord 0x50 2 stMemberLost.toNat n k.member
        ((s.unacknowledged n).foldl min ((s.unacknowledged n).headD 0)) ((s.unacknowledged n).foldl max 0)) []) := by
  obtain rfl : k.slot = n := by simpa using List.find?_some hk
  have hholders : s.voidedHolders k = ((s.xl.leases.filter fun l => l.slot = k.slot).map (·.holder)).eraseDups := if_pos hh
  refine ⟨s.voidedHolders k, ?_⟩
  simp only [exec, execTakeoverComplete, hk]
  refine congrArg Host.Outcome.next ?_
  unfold State.finishTakeover
  dsimp only
  rw [if_pos hh]
  have hun : (s.voidedHolders k).flatMap (fun h => s.voidedSerials k.slot h) = s.unacknowledged k.slot := by
    rw [hholders]
    rfl
  rw [State.voidTakeover, hun]
  rfl

theorem State.bumpFleet_roled (s : State) {sub : Nat} (hk : objKey 0x7800 3 0 ≠ objKey 0x7800 sub 0) (n : Nat) :
    s.Roled n 0 id (s.bumpFleet sub) where
  same := rfl
  others := fun _ _ => rfl
  self := rfl
  routes := rfl
  holder := rfl
  member := State.num_setNum_ne s hk _ _
  count := rfl
  fill := Nat.le_refl _
  wf := id

/-- The home of a lost member's slot is its mirror (Table 14.7). -/
theorem takeoverComplete_home {k : Takeover} (hw : mapWf {} s.lg.slots = true)
    (hs : s.Spare ((s.unacknowledged n).length + 1)) (hk : s.xl.takeover.find? (fun t => t.slot = n) = some k)
    (hh : (s.slot n).home = k.member) : ∃ t, exec (.takeoverComplete n) s = .next t ∧ State.WithinDraws n s s t
    ∧ t.lg.journalCount = s.lg.journalCount + ((s.unacknowledged n).length + 1)
    ∧ (t.slot n).home = s.memberId ∧ (t.slot n).mirror = 0xFFFF ∧ (t.slot n).mirrored = false ∧ (t.slot n).state = 1
    ∧ (t.slot n).serial = max (s.slot n).serial ((s.unacknowledged n).foldl max 0)
    ∧ t.num 0x7800 8 0 0 = s.num 0x7800 8 0 0 + 1 := by
  obtain ⟨holders, hexec⟩ := exec_takeoverComplete hk hh
  have hvoid := State.landVoids_voided n stMemberLost (s.unacknowledged n) s hw (hs.mono (Nat.le_succ _))
  generalize ((s.unacknowledged n).foldl (fun s k => State.landVoid n k stMemberLost s) s) = a at hexec hvoid
  have hclosed : a.Roled n 0 id (a.takeoverClosed k holders) := a.onXl_roled n _ rfl rfl
  have hvb := hvoid.trans (hclosed.voided rfl)
  generalize a.takeoverClosed k holders = b at hexec hvb
  obtain ⟨htook, hpd⟩ := State.tookOver_roled (hvb.wf hw) n ((s.unacknowledged n).foldl max 0) (s.slot n)
  rw [hvb.member] at htook
  dsimp only at hexec
  generalize b.tookOver n ((s.unacknowledged n).foldl max 0) (s.slot n) = c at hexec htook hpd
  have hlen := c.fleetRecord_length 0x50 2 stMemberLost.toNat n k.member
        ((s.unacknowledged n).foldl min ((s.unacknowledged n).headD 0)) ((s.unacknowledged n).foldl max 0)
  generalize c.fleetRecord 0x50 2 stMemberLost.toNat n k.member
        ((s.unacknowledged n).foldl min ((s.unacknowledged n).headD 0)) ((s.unacknowledged n).foldl max 0) = body at hexec hlen
  have hd := htook.trans ((State.serveAgain_roled c n n).trans (State.bumpFleet_roled _ (sub := 8) (by decide) n))
  have hloss : ((c.serveAgain n).bumpFleet 8).num 0x7800 8 0 0 = s.num 0x7800 8 0 0 + 1 := by
    have hserve : (c.serveAgain n).pd.nums = b.pd.nums := congrArg Pd.nums hpd
    rw [State.num_bumpFleet, State.num_of_nums hserve, hvb.losses]
  generalize (c.serveAgain n).bumpFleet 8 = d at hexec hd hloss
  obtain ⟨happend, hpd'⟩ := State.append_roled (hd.spare (l := 1) (hvb.spare hs)) (body := body) (tail := [])
    (by rw [hlen]; decide) n
  obtain ⟨hwi, hrec, hslot⟩ := (State.Roled.refl n b).draws (hd.trans happend)
  refine ⟨_, hexec, hvb.within.trans hwi, ?_, ?_⟩
  · rw [hrec, hvb.count]
    omega
  · rw [hslot]
    exact ⟨rfl, rfl, Slot.takeRoles_mirrored s.memberId 0xFFFF false (s.slot n).leased (s.slot n).roleEpoch (b.slot n), rfl, rfl,
      (State.num_of_nums (congrArg Pd.nums hpd') ..).trans hloss⟩

end Sys2Proof.Machine

open Sys2Proof Sys2Proof.Machine

/-- Settles O52: each row is one of a few operations on the role of its slot (`State.Roled`), after the frame that came in,
which is none; a takeover's records are landings that nobody saw (`State.Voided`), of which a hundred leave the reel buffer
room. -/
theorem fleetLandings : Obligations.FleetLandings := by
  unfold Obligations.FleetLandings
  intro s h n hr hw hk u x me within records body gaveUp
  have hspare (k : Nat) (hk : k ≤ 128) : s.Spare k := State.spare_of_roomy hr hk
  have hone := hspare 1 (by decide)
  refine ⟨fun m hm ha p up => ?_, fun epoch serial k ht hauth hf => ⟨fun ha hl he => exec_mirrorAck hf ht hauth ha hl he,
      fun ha he => ⟨exec_mirrorRefuse_void hf ht hauth ha he, exec_mirrorRefuse_commit hf ht hauth ha⟩⟩,
    fun id k c ht hm hp hc hf => exec_mirrorTimeoutExpiry ht hm hp hc hf, syncReqTick_asks, fun r hrn => ?_,
    fun epoch hfleet he hserves => ⟨fun ha => ⟨_, exec_roleNotice_ahead he ha, State.frameIn_gives hw hone hfleet he hserves ha⟩,
      fun ha hf serial ht => ⟨_, exec_mirrorRefuse_unasked ha hf ht, State.frameIn_gives hw hone hfleet he hserves ha⟩⟩,
    fun ha hfleet hl hh hx hm _ => ?_, fun m => ?_, fun k ht hh => ?_⟩
  · subst hm
    refine ⟨fun hmine => mirrorRec_acknowledged ha hw hk ((State.mayAck_iff m h.src).mpr hmine),
      fun hmine => mirrorRec_forwarded ha ((State.mayAck_iff m h.src).mpr hmine), mirrorRec_refused ha,
      mirrorRec_mirrored ha hw hk⟩
  · subst hrn
    exact ⟨syncReq_answers hw hk, fun ha hfleet he => ⟨syncImage_serves ha hfleet he, syncImage_copies ha hfleet he hw,
      syncImage_grants ha hfleet he⟩, handover_takes hw hone⟩
  · obtain ⟨t, hexec, hwi, hrec, hslot⟩ := release_alone hw hone ha hfleet hh hx hm
    refine ⟨t, hexec, hwi, hrec, hslot.trans ?_⟩
    rw [Slot.alone, hl]
    rfl
  · intro a hen hlost hc
    exact ⟨exec_memberLoss_holder hen hlost hc, memberLoss_takesOver hen hlost hc hw⟩
  · intro serials hlen
    exact takeoverComplete_home hw (hspare (serials.length + 1) (by omega)) ht hh

end
